-- ==== Sys2Proof/Word.lean ====
section
/-! DEFINITION. The word types of the Torham 9 and their plainest arithmetic: 64-bit scalars, 128-lane vectors, masks,
and the sparse maps that hold registers and units by number. -/

namespace Sys2Proof

/-- A scalar register's contents (R99). -/
abbrev Word := BitVec 64
/-- A vector register's contents: 128 lanes of 32 bits, lane 0 lowest (R99, R206). -/
abbrev Vec := BitVec 4096
/-- A mask register's contents (R99). -/
abbrev Mask := BitVec 128
abbrev Byte := BitVec 8
/-- A 6-bit operand field of a slot word (R30, R63). -/
abbrev Code := BitVec 6
/-- A guard field (R30). -/
abbrev Guard := BitVec 4
/-- The extension byte of a word: `none` when its bundle has no header (R33). -/
abbrev Ext := Option (BitVec 8)

/-- Where a packet from another package comes from: the stream it stands in, its number there, and its job (R374, R376, R385). -/
structure Origin where
  src : Nat
  id : Nat
  job : Nat
  deriving DecidableEq, Repr

/-- What a roll-call wave found of a job (R378, R385). -/
structure Finding where
  quiet : Bool
  loss : Bool
  deriving DecidableEq, Repr

/-- What a ring transfer carries besides its chunk: the collective it belongs to, as a number, and its words (R390, R392; log 51). -/
structure RingData where
  desc : Nat
  words : List (BitVec 32)
  /-- its stream, its number there and its job, and the TAG of its collective -/
  from_ : Origin
  tag : Nat
  deriving DecidableEq, Repr

/-- A request for measurements: the block index, and the request's bytes (R405). -/
structure Measure where
  index : Nat
  data : List Byte
  deriving DecidableEq, Repr

/-- An address as the host reads it: 0 BAR0, 1 configuration space, 2 BAR2; and the offset there (R422). -/
structure HostAddr where
  space : Nat
  off : Nat
  deriving DecidableEq, Repr

/-- Lane `i` of a vector (R206: byte j is byte j mod 4 of lane j div 4). -/
def Vec.lane (v : Vec) (i : Nat) : BitVec 32 := v.extractLsb' (32 * i) 32

/-- The vector of `n` lanes of `w` bits whose lane `i` is `f i`, lane 0 lowest. -/
def packNat (w : Nat) (f : Nat → Nat) : Nat → Nat
  | 0 => 0
  | n + 1 => packNat w f n + (f n % 2 ^ w) * 2 ^ (w * n)

/-- The vector whose lane `i` is `f i`. -/
def Vec.ofLanes (f : Nat → BitVec 32) : Vec := BitVec.ofNat 4096 (packNat 32 (fun i => (f i).toNat) 128)

/-- Bits `hi..lo` of a word as a number. -/
def bits (w : Nat) (hi lo : Nat) : Nat := (w / 2 ^ lo) % 2 ^ (hi + 1 - lo)

/-- A sparse map from numbers: pairs in strictly rising order of key. -/
abbrev NMap (α : Type) := List (Nat × α)

namespace NMap

variable {α : Type}

/-- The value at `k`, if one stands there. -/
def get? : NMap α → Nat → Option α
  | [], _ => none
  | (j, v) :: m, k => if j = k then some v else NMap.get? m k

/-- The value at `k`, or `d` where none stands. -/
def getD (m : NMap α) (k : Nat) (d : α) : α := (NMap.get? m k).getD d

/-- The map with `v` at `k`. -/
def set : NMap α → Nat → α → NMap α
  | [], k, v => [(k, v)]
  | (j, u) :: m, k, v => if k < j then (k, v) :: (j, u) :: m else if k = j then (k, v) :: m else (j, u) :: NMap.set m k v

/-- The map with nothing at `k`. -/
def erase : NMap α → Nat → NMap α
  | [], _ => []
  | (j, u) :: m, k => if j = k then NMap.erase m k else (j, u) :: NMap.erase m k

end NMap

end Sys2Proof
end

