-- ==== Sys2Proof/Config.lean ====
section
/-! DEFINITION. What the manual leaves open (R7 and the points named in the assumption log): opaque constants, which no
proof can evaluate, and the fixed figures of the part. -/

namespace Sys2Proof.Config

/-- Free value (log 2): which of several permitted outcomes the device takes on its `n`-th choice (R7). -/
opaque pick : Nat → Nat

/-- Free value (log 3): the Registrar's `n`-th random draw (R400, R417). -/
opaque random : Nat → BitVec 256

/-- The package's fused identity key, of which the manual gives only the kind (R400); log 4. -/
opaque identityKey : BitVec 256
/-- Free value (log 4): an ECDSA signature under a private key over the given bytes (R406). -/
opaque sign : BitVec 256 → List (BitVec 8) → List (BitVec 8)
/-- Free value (log 4): the certificate chain of slot 0, particular to the part (R406). -/
opaque certChain : List (BitVec 8)
/-- Free value (log 4): the answer to SPDM request kind `k` on data `d`, where the manual leaves it to SPDM (R406). -/
opaque spdmAnswer : Nat → List (BitVec 8) → List (BitVec 8)

/-- Free value (log 2): of the two values R7 permits where a read meets a result not yet settled (R47, R213, R274, R313), does the
device give the newer? Applied to CYC and a number that tells the occasions of a cycle apart: kind, core, context, slot, what is read. -/
opaque newer : Nat → Nat → Bool

/-- Free value (log 25): a value that an instruction or an event leaves and the manual does not state: data of a FIFO element outside
the copy, a vector item out of range, a requester ID, the core, context and world of a logged event that names none. -/
opaque freeWord : Nat → BitVec 64

/-- Free value (log 26): a byte that stands beside a partial store in a line which no fill could open for its writer (R401), by
address and CYC. -/
opaque staleByte : Nat → Nat → BitVec 8

/-- Free value (log 27): fuse word `k`, particular to the part (R417). -/
opaque fuse : Nat → BitVec 64
/-- The lifecycle state, 1 to 3 (R417). -/
def lcs : Nat := (fuse 2).toNat % 3 + 1

/-- Free value (log 28): measurement block `k` as the bring-up sets it (R405). -/
opaque measured : Nat → BitVec 256

/-- Free value (log 29): the size of the L2 reserved region in the firmware image, taken modulo 65 (R426). -/
opaque regionMiB : Nat

/-- Dies of a full part, clusters a die, cores a cluster (R8). -/
def clustersPerDie : Nat := 56
/-- Outstanding global loads and stores a context (R305). -/
def maxLoads : Nat := 16
def maxStores : Nat := 32
/-- Entries of a translation buffer, and walks that a die has outstanding at most (R12, R305, R312). -/
def tlbEntries : Nat := 64
def maxWalks : Nat := 4096
/-- Lines of 128 bytes that a core's L1 of 256 KiB holds (R11, R16, R307). -/
def l1Lines : Nat := 2048
/-- MiB of a die's L2, and GiB of the memory-side cache in front of its stacks (R12, R16, R18): every die of every variant has them. -/
def l2MiB : Nat := 128
def sideCacheGiB : Nat := 4

end Sys2Proof.Config
end

