-- ==== Sys2Proof/Syntax.lean ====
section
/-! DEFINITION. The instructions: one constructor per row of the opcode table. Rows with a slot word (R30) carry the guard
and the fields of that word, and the extension byte where the row takes one; the other rows are the device's own steps and the
events of its surroundings, and carry the numbers they concern. -/

namespace Sys2Proof

/-- The instructions of the Torham 9, one constructor per row of the opcode table, in its order. -/
inductive Instr where
  /-- PREP (R134). -/
  | prep (g : Guard) (j : Code) (i : BitVec 12) (x : Ext)
  /-- PREPR (R134). -/
  | prepr (g : Guard) (j a : Code)
  /-- BR (R134). -/
  | br (g : Guard) (j : Code)
  /-- BRL (R134). -/
  | brl (g : Guard) (j d : Code)
  /-- RET (R134). -/
  | ret (g : Guard) (a : Code)
  /-- LOOP (R137, R139). -/
  | loop (g : Guard) (a : Code) (l : BitVec 12) (x : Ext)
  /-- LOOPI (R137, R139). -/
  | loopi (g : Guard) (l : Code) (n : BitVec 12) (x : Ext)
  /-- LOOPR (R137, R139). -/
  | loopr (g : Guard) (a : Code) (l : BitVec 12) (x : Ext)
  /-- LBRK (R142). -/
  | lbrk (g : Guard)
  /-- YIELD (R143). -/
  | yield (g : Guard)
  /-- DONE (R144). -/
  | done (g : Guard)
  /-- TRAP (R146). -/
  | trap (g : Guard) (i : BitVec 12)
  /-- WAITC (R145). -/
  | waitc (g : Guard) (a : Code)
  /-- WAITC_WAKE (R145): A context waiting in WAITC becomes ready in the first cycle at which CYC reaches its target. -/
  | waitcWake (core ctx : Nat)
  /-- DEFER (R148, R149). -/
  | defer (g : Guard) (a : Code) (k n : BitVec 3) (p : Code)
  /-- DEFDR (R148, R149). -/
  | defdr (g : Guard) (d : Code) (n : BitVec 3) (p : Code)
  /-- DEFCT (R148, R149). -/
  | defct (g : Guard) (d p : Code)
  /-- TCUR (R346). -/
  | tcur (g : Guard) (d : Code)
  /-- CTXID (R330). -/
  | ctxid (g : Guard) (d : Code)
  /-- PRIO (R331). -/
  | prio (g : Guard) (p : Code)
  /-- BKPT (R62). -/
  | bkpt (g : Guard)
  /-- MOV (R119). -/
  | mov (g : Guard) (d a : Code)
  /-- ADD (R119). -/
  | add (g : Guard) (d a b : Code)
  /-- SUB (R119). -/
  | sub (g : Guard) (d a b : Code)
  /-- MUL (R120). -/
  | mul (g : Guard) (d a b : Code)
  /-- MULH (R120). -/
  | mulh (g : Guard) (d a b : Code)
  /-- MULHU (R120). -/
  | mulhu (g : Guard) (d a b : Code)
  /-- DIVS (R121). -/
  | divs (g : Guard) (d a b : Code)
  /-- DIVU (R121). -/
  | divu (g : Guard) (d a b : Code)
  /-- AND (R119). -/
  | and (g : Guard) (d a b : Code)
  /-- OR (R119). -/
  | or (g : Guard) (d a b : Code)
  /-- XOR (R119). -/
  | xor (g : Guard) (d a b : Code)
  /-- ANDN (R119). -/
  | andn (g : Guard) (d a b : Code)
  /-- SHL (R119). -/
  | shl (g : Guard) (d a b : Code)
  /-- SHR (R119). -/
  | shr (g : Guard) (d a b : Code)
  /-- SAR (R119). -/
  | sar (g : Guard) (d a b : Code)
  /-- ROTL (R119). -/
  | rotl (g : Guard) (d a b : Code)
  /-- CLZ (R119). -/
  | clz (g : Guard) (d a : Code)
  /-- POPC (R119). -/
  | popc (g : Guard) (d a : Code)
  /-- MIN (R119). -/
  | min (g : Guard) (d a b : Code)
  /-- MAX (R119). -/
  | max (g : Guard) (d a b : Code)
  /-- MINU (R119). -/
  | minu (g : Guard) (d a b : Code)
  /-- MAXU (R119). -/
  | maxu (g : Guard) (d a b : Code)
  /-- SEL (R122). -/
  | sel (g : Guard) (d a b : Code) (x : Ext)
  /-- EXTB (R122). -/
  | extb (g : Guard) (d a p : Code) (x : Ext)
  /-- INSB (R122). -/
  | insb (g : Guard) (d a p : Code) (x : Ext)
  /-- LEA (R122). -/
  | lea (g : Guard) (d a b : Code) (x : Ext)
  /-- CEQ (R124). -/
  | ceq (g : Guard) (c a b : Code)
  /-- CNE (R124). -/
  | cne (g : Guard) (c a b : Code)
  /-- CLT (R124). -/
  | clt (g : Guard) (c a b : Code)
  /-- CLTU (R124). -/
  | cltu (g : Guard) (c a b : Code)
  /-- CLE (R124). -/
  | cle (g : Guard) (c a b : Code)
  /-- CLEU (R124). -/
  | cleu (g : Guard) (c a b : Code)
  /-- QSET (R125). -/
  | qset (g : Guard) (c a : Code)
  /-- QAND (R125). -/
  | qand (g : Guard) (c y z : Code)
  /-- QOR (R125). -/
  | qor (g : Guard) (c y z : Code)
  /-- QNOT (R125). -/
  | qnot (g : Guard) (c y : Code)
  /-- CRD (R126). -/
  | crd (g : Guard) (d : Code) (r : BitVec 12)
  /-- CWR (R126: every register but those of the next three rows). -/
  | cwr (g : Guard) (a : Code) (r : BitVec 12)
  /-- CWR_ARRMODE (R257). -/
  | cwrArrmode (g : Guard) (a : Code)
  /-- CWR_MODULUS (R111). -/
  | cwrModulus (g : Guard) (a : Code) (k : BitVec 2)
  /-- CWR_RPTCARD (R112). -/
  | cwrRptcard (g : Guard) (a : Code) (n : BitVec 2)
  /-- ALLOT (R104). -/
  | allot (g : Guard) (m n : Code)
  /-- SHRINK (R104). -/
  | shrink (g : Guard) (m n : Code)
  /-- MOVI (R123). -/
  | movi (g : Guard) (d : Code) (i : BitVec 12) (x : Ext)
  /-- MOVHI (R123). -/
  | movhi (g : Guard) (d : Code) (i : BitVec 12) (x : Ext)
  /-- ADDI (R123). -/
  | addi (g : Guard) (d a i : Code) (x : Ext)
  /-- CEQI (R124). -/
  | ceqi (g : Guard) (c a i : Code) (x : Ext)
  /-- CLTI (R124). -/
  | clti (g : Guard) (c a i : Code) (x : Ext)
  /-- LD_W8 (R316). -/
  | ldW8 (g : Guard) (d a o : Code) (x : Ext)
  /-- LD_W16 (R316). -/
  | ldW16 (g : Guard) (d a o : Code) (x : Ext)
  /-- LD_W32 (R316). -/
  | ldW32 (g : Guard) (d a o : Code) (x : Ext)
  /-- LD_W64 (R316). -/
  | ldW64 (g : Guard) (d a o : Code) (x : Ext)
  /-- ST_W8 (R316). -/
  | stW8 (g : Guard) (v a o : Code) (x : Ext)
  /-- ST_W16 (R316). -/
  | stW16 (g : Guard) (v a o : Code) (x : Ext)
  /-- ST_W32 (R316). -/
  | stW32 (g : Guard) (v a o : Code) (x : Ext)
  /-- ST_W64 (R316). -/
  | stW64 (g : Guard) (v a o : Code) (x : Ext)
  /-- LDV (R316). -/
  | ldv (g : Guard) (d a o : Code) (x : Ext)
  /-- STV (R316). -/
  | stv (g : Guard) (v a o : Code) (x : Ext)
  /-- AMO_ADD (R317). -/
  | amoAdd (g : Guard) (d a b : Code) (x : Ext)
  /-- AMO_MIN (R317). -/
  | amoMin (g : Guard) (d a b : Code) (x : Ext)
  /-- AMO_MAX (R317). -/
  | amoMax (g : Guard) (d a b : Code) (x : Ext)
  /-- AMO_AND (R317). -/
  | amoAnd (g : Guard) (d a b : Code) (x : Ext)
  /-- AMO_OR (R317). -/
  | amoOr (g : Guard) (d a b : Code) (x : Ext)
  /-- AMO_XOR (R317). -/
  | amoXor (g : Guard) (d a b : Code) (x : Ext)
  /-- CAS (R318). -/
  | cas (g : Guard) (d a b : Code) (x : Ext)
  /-- FENCE_ACQ (R321). -/
  | fenceAcq (g : Guard) (x : Ext)
  /-- FENCE_REL (R321). -/
  | fenceRel (g : Guard) (x : Ext)
  /-- FENCE_FULL (R321). -/
  | fenceFull (g : Guard) (x : Ext)
  /-- FENCE_WAIT_END (R321): A context waiting after a FENCE.acq or FENCE.full resumes issue once the awaited accesses have performed. -/
  | fenceWaitEnd (core ctx : Nat)
  /-- PREF (R320). -/
  | pref (g : Guard) (a o : Code) (x : Ext)
  /-- VMOV (R185). -/
  | vmov (g : Guard) (d a : Code) (x : Ext)
  /-- VADD (R179). -/
  | vadd (g : Guard) (d a b : Code) (x : Ext)
  /-- VSUB (R179). -/
  | vsub (g : Guard) (d a b : Code) (x : Ext)
  /-- VMUL (R179). -/
  | vmul (g : Guard) (d a b : Code) (x : Ext)
  /-- VFMA (R179). -/
  | vfma (g : Guard) (d a b : Code) (x : Ext)
  /-- VFMS (R179). -/
  | vfms (g : Guard) (d a b : Code) (x : Ext)
  /-- VMIN (R179). -/
  | vmin (g : Guard) (d a b : Code) (x : Ext)
  /-- VMAX (R179). -/
  | vmax (g : Guard) (d a b : Code) (x : Ext)
  /-- VABS (R180). -/
  | vabs (g : Guard) (d a : Code) (x : Ext)
  /-- VNEG (R180). -/
  | vneg (g : Guard) (d a : Code) (x : Ext)
  /-- VRCP (R180). -/
  | vrcp (g : Guard) (d a : Code) (x : Ext)
  /-- VRSQ (R180). -/
  | vrsq (g : Guard) (d a : Code) (x : Ext)
  /-- VEXP2 (R180). -/
  | vexp2 (g : Guard) (d a : Code) (x : Ext)
  /-- VLOG2 (R180). -/
  | vlog2 (g : Guard) (d a : Code) (x : Ext)
  /-- VAND (R181). -/
  | vand (g : Guard) (d a b : Code) (x : Ext)
  /-- VOR (R181). -/
  | vor (g : Guard) (d a b : Code) (x : Ext)
  /-- VXOR (R181). -/
  | vxor (g : Guard) (d a b : Code) (x : Ext)
  /-- VSHL (R181). -/
  | vshl (g : Guard) (d a b : Code) (x : Ext)
  /-- VSHR (R181). -/
  | vshr (g : Guard) (d a b : Code) (x : Ext)
  /-- VSAR (R181). -/
  | vsar (g : Guard) (d a b : Code) (x : Ext)
  /-- VCMP_EQ (R182). -/
  | vcmpEq (g : Guard) (m a b : Code) (x : Ext)
  /-- VCMP_NE (R182). -/
  | vcmpNe (g : Guard) (m a b : Code) (x : Ext)
  /-- VCMP_LT (R182). -/
  | vcmpLt (g : Guard) (m a b : Code) (x : Ext)
  /-- VCMP_LE (R182). -/
  | vcmpLe (g : Guard) (m a b : Code) (x : Ext)
  /-- VCMP_GT (R182). -/
  | vcmpGt (g : Guard) (m a b : Code) (x : Ext)
  /-- VCMP_GE (R182). -/
  | vcmpGe (g : Guard) (m a b : Code) (x : Ext)
  /-- VCMP_UN (R182). -/
  | vcmpUn (g : Guard) (m a b : Code) (x : Ext)
  /-- VSEL (R183). -/
  | vsel (g : Guard) (d a b : Code) (x : Ext)
  /-- VBCAST (R185). -/
  | vbcast (g : Guard) (d a : Code) (x : Ext)
  /-- VRED_ADD (R188). -/
  | vredAdd (g : Guard) (d a : Code) (x : Ext)
  /-- VRED_MAX (R188). -/
  | vredMax (g : Guard) (d a : Code) (x : Ext)
  /-- VRED_MIN (R188). -/
  | vredMin (g : Guard) (d a : Code) (x : Ext)
  /-- VPERM (R185). -/
  | vperm (g : Guard) (d a b : Code) (x : Ext)
  /-- VSHUF (R186). -/
  | vshuf (g : Guard) (d a p : Code) (x : Ext)
  /-- VMODADD (R189). -/
  | vmodadd (g : Guard) (d a b : Code) (x : Ext)
  /-- VMODSUB (R189). -/
  | vmodsub (g : Guard) (d a b : Code) (x : Ext)
  /-- VMODMUL (R189). -/
  | vmodmul (g : Guard) (d a b : Code) (x : Ext)
  /-- VBFLY (R190). -/
  | vbfly (g : Guard) (d a b : Code) (x : Ext)
  /-- VIBFLY (R190). -/
  | vibfly (g : Guard) (d a b : Code) (x : Ext)
  /-- VMASK_AND (R184). -/
  | vmaskAnd (g : Guard) (m y z : Code)
  /-- VMASK_OR (R184). -/
  | vmaskOr (g : Guard) (m y z : Code)
  /-- VMASK_XOR (R184). -/
  | vmaskXor (g : Guard) (m y z : Code)
  /-- VMASK_ANDN (R184). -/
  | vmaskAndn (g : Guard) (m y z : Code)
  /-- VMASK_NOT (R184). -/
  | vmaskNot (g : Guard) (m y : Code)
  /-- VLANE (R185). -/
  | vlane (g : Guard) (d : Code) (x : Ext)
  /-- VCVT (R187). -/
  | vcvt (g : Guard) (r : BitVec 3) (d a : Code) (x : Ext)
  /-- VBCAST_I (R185). -/
  | vbcastI (g : Guard) (d : Code) (i : BitVec 12) (x : Ext)
  /-- VSHL_I (R181). -/
  | vshlI (g : Guard) (d a n : Code) (x : Ext)
  /-- VSHR_I (R181). -/
  | vshrI (g : Guard) (d a n : Code) (x : Ext)
  /-- VSAR_I (R181). -/
  | vsarI (g : Guard) (d a n : Code) (x : Ext)
  /-- XBEAT (R262, R263). -/
  | xbeat (g : Guard) (s w : BitVec 2) (p : BitVec 1) (r : Code) (o : BitVec 12) (x : Ext)
  /-- XMODE (R260). -/
  | xmode (g : Guard) (a : Code)
  /-- XZERO (R271). -/
  | xzero (g : Guard) (r : Code)
  /-- XCKS (R273). -/
  | xcks (g : Guard) (d a b : Code)
  /-- XFIX (R274). -/
  | xfix (g : Guard) (d a : Code)
  /-- XRES (R275). -/
  | xres (g : Guard) (k : Code)
  /-- XWIN (R259). -/
  | xwin (g : Guard) (a : Code)
  /-- XWIN_WAKE (R259): A context waiting in XWIN becomes ready in the array cycle with the requested phase. -/
  | xwinWake (core ctx : Nat)
  /-- XINJ (R277). -/
  | xinj (g : Guard) (r a b : Code)
  /-- LDS (R206). -/
  | lds (g : Guard) (d a o : Code) (x : Ext)
  /-- LDS_TAG (R202). -/
  | ldsTag (g : Guard) (d a t : Code)
  /-- STS (R206). -/
  | sts (g : Guard) (v a o : Code) (x : Ext)
  /-- LDSS (R206). -/
  | ldss (g : Guard) (d a o : Code) (x : Ext)
  /-- STSS (R206). -/
  | stss (g : Guard) (v a o : Code) (x : Ext)
  /-- SCRATCHPAD_STORE_PERFORM (R198): A pending scratchpad store writes its bank in the CYC cycle of core cycle issue + 2. -/
  | scratchpadStorePerform (core ctx : Nat)
  /-- BFMT (R200). -/
  | bfmt (g : Guard) (k a : Code)
  /-- MV (R211). -/
  | mv (g : Guard) (d s : Code) (x : Ext)
  /-- MVI (R211). -/
  | mvi (g : Guard) (d : Code) (i : BitVec 12) (x : Ext)
  /-- UNIT_RESULT_LANDING (R212): A transform unit's result lands in its result port at trigger issue + L, writing any tile or exception list. -/
  | unitResultLanding (core : Nat)
  /-- FPEEK (R209). -/
  | fpeek (g : Guard) (d f : Code)
  /-- FLEV (R209). -/
  | flev (g : Guard) (d f : Code)
  /-- LREC (R231). -/
  | lrec (g : Guard) (k a : Code)
  /-- CPY (R242). -/
  | cpy (g : Guard) (d l m : Code) (x : Ext)
  /-- CPYX (R242). -/
  | cpyx (g : Guard) (d l m : Code) (x : Ext)
  /-- CPYT (R233, R236). -/
  | cpyt (g : Guard) (a l m : Code) (x : Ext)
  /-- TIMED_PACKET_READ (R234): A timed copy reads packet p at exactly CYC T + p. -/
  | timedPacketRead (cl ch id : Nat)
  /-- TIMED_PACKET_WRITE (R234): A timed copy performs packet p's writes, list entries and pushes at exactly CYC T + p + D. -/
  | timedPacketWrite (cl ch id : Nat)
  /-- TRACKED_COPY_START (R240): A tracked copy at its queue head starts when the channel is free, after its context's earlier stores. -/
  | trackedCopyStart (cl ch : Nat)
  /-- TRACKED_COPY_ELEMENT (R240): A tracked copy reads, converts and writes the next element, waiting for FIFO room or stopping on a fault. -/
  | trackedCopyElement (cl ch : Nat)
  /-- TRACKED_COPY_COMPLETE (R240): A tracked copy completes when all its writes have performed, advancing the channel's DONE. -/
  | trackedCopyComplete (cl ch : Nat)
  /-- CIDW (R243). -/
  | cidw (g : Guard) (a : Code) (x : Ext)
  /-- CIDW_WAKE (R243): A context waiting in CIDW becomes ready in the first cycle its identifier is covered. -/
  | cidwWake (core ctx : Nat)
  /-- CIDR (R243). -/
  | cidr (g : Guard) (d : Code) (x : Ext)
  /-- CINV (R245). -/
  | cinv (g : Guard) (a : Code) (x : Ext)
  /-- CHALT (R246). -/
  | chalt (g : Guard) (x : Ext)
  /-- GLOAD (R284, R285). -/
  | gload (g : Guard) (a n : Code)
  /-- GROUP_LOAD_LANDING (R285): At issue + L the loaded tables or filter rows take effect in the group engine. -/
  | groupLoadLanding (pair : Nat)
  /-- GCHK (R288 to R291). -/
  | gchk (g : Guard) (d : Code)
  /-- GCHK_VERDICT (R290): At issue + L the status word lands and CHK becomes passed or failed, a failure deferring GROUP_CHECK. -/
  | gchkVerdict (pair : Nat)
  /-- GSEL (R292). -/
  | gsel (g : Guard) (a : Code)
  /-- GORB (R295, R296). -/
  | gorb (g : Guard) (r a : Code)
  /-- GSTAT (R297). -/
  | gstat (g : Guard) (d : Code)
  /-- RESULT_LANDING (R44): A register result lands exactly L core cycles after issue and enters its slot position's latch chain. -/
  | resultLanding (core ctx : Nat)
  /-- CONTRIBUTION_LANDING (R264): An array contribution lands in its accumulator row, with its predictions, at its fixed landing cycle. -/
  | contributionLanding (pair : Nat)
  /-- ARRAY_EFFECT_LANDING (R268): An XZERO, XRES, XINJ, XCKS or XFIX effect lands on array state in issue order. -/
  | arrayEffectLanding (pair : Nat)
  /-- GORB_LANDING (R296): GORB's additions land in the destination block at issue + 6 + m. -/
  | gorbLanding (pair : Nat)
  /-- MSEND (R381). -/
  | msend (g : Guard) (a b : Code)
  /-- MHND (R382). -/
  | mhnd (g : Guard) (a : Code)
  /-- WQUIET (R379). -/
  | wquiet (g : Guard)
  /-- RCSTAT (R380). -/
  | rcstat (g : Guard) (d : Code)
  /-- COLL_AR (R389). -/
  | collAr (g : Guard) (d a : Code)
  /-- COLL_RS (R389). -/
  | collRs (g : Guard) (d a : Code)
  /-- COLL_AG (R389). -/
  | collAg (g : Guard) (d a : Code)
  /-- COLL_BC (R389). -/
  | collBc (g : Guard) (d a : Code)
  /-- BAR (R350). -/
  | bar (g : Guard) (n : Code)
  /-- GBAR (R350). -/
  | gbar (g : Guard) (n : Code)
  /-- BARRIER_RELEASE (R350): At CYC L + 8 (or at least L + 64 for a gang) every waiting member becomes ready and acquires. -/
  | barrierRelease (key : Nat)
  /-- CTRINC (R349). -/
  | ctrinc (g : Guard) (a b : Code)
  /-- CTRWAIT (R349). -/
  | ctrwait (g : Guard) (a b : Code)
  /-- COUNTER_WAIT_WAKE (R349): A context waiting in CTRWAIT becomes ready and acquires once its counter reaches the target. -/
  | counterWaitWake (core ctx : Nat)
  /-- LAUNCH (R343). -/
  | launch (g : Guard) (d a : Code)
  /-- LAUNCHN (R343). -/
  | launchn (g : Guard) (d a : Code)
  /-- GLAUNCH (R343, R344). -/
  | glaunch (g : Guard) (d a : Code)
  /-- LAUNCH_WAIT_SLOT (R343): A context waiting in LAUNCH or GLAUNCH takes a freed slot in line order and its record becomes pending. -/
  | launchWaitSlot (core ctx : Nat)
  /-- FWAIT (R369). -/
  | fwait (g : Guard) (d : Code)
  /-- FRGET (R369). -/
  | frget (g : Guard) (d a b : Code)
  /-- FRPUT (R369). -/
  | frput (g : Guard) (c a b : Code)
  /-- FRRES (R369). -/
  | frres (g : Guard) (a : Code)
  /-- FRSKIP (R369). -/
  | frskip (g : Guard) (a : Code)
  /-- FRKILL (R369). -/
  | frkill (g : Guard) (a : Code)
  /-- FREXC (R369). -/
  | frexc (g : Guard) (a : Code)
  /-- WLOAD (R415). -/
  | wload (g : Guard) (a : Code)
  /-- KWIPE (R416). -/
  | kwipe (g : Guard) (a : Code)
  /-- FUSERD (R417). -/
  | fuserd (g : Guard) (d a : Code)
  /-- MEXT (R418). -/
  | mext (g : Guard) (a b : Code)
  /-- DBGOPEN (R419). -/
  | dbgopen (g : Guard) (a : Code)
  /-- NULLIFIER_SKIP (R53): Fetch skips an E-flagged bundle whose guards all read false, at zero cycles. -/
  | nullifierSkip (core ctx : Nat)
  /-- BUNDLE_SPLIT (R56): On a degraded core a bundle issues in parts, each extra part a hold cycle of the core and its pair. -/
  | bundleSplit (core parts : Nat)
  /-- DEFERRED_FAULT_RAISE (R356): A deferred fault is raised at the context's next qualifying bundle, which becomes the faulting bundle. -/
  | deferredFaultRaise (core ctx : Nat)
  /-- PREEMPTION (R333): A pre-emptible context is stopped at a bundle boundary for a higher-priority ready context, spilling its snapshot and parking copies. -/
  | preemption (core ctx : Nat)
  /-- PREEMPTED_RESUME (R333): A re-chosen pre-empted context refills its snapshot and re-pushes parked copies before issuing. -/
  | preemptedResume (core ctx : Nat)
  /-- TRANSLATION_WALK (R312): A translation-buffer miss walks both levels, releasing or faulting the held bundle when it ends. -/
  | translationWalk (core : Nat)
  /-- GLOBAL_LOAD_LANDING (R315): A global load's data arrive and land under the scoreboard, freeing the load slot. -/
  | globalLoadLanding (core ctx id : Nat)
  /-- L1_FILL (R307): A line fill reaches the read-only L1, leaving sectors with pending own writes invalid. -/
  | l1Fill (core line : Nat)
  /-- BUFFERED_AMO_MERGE (R317): Buffered AMO updates of a line merge into the L2 on eviction, access, conflict or fence. -/
  | bufferedAmoMerge (core pa : Nat)
  /-- BUFFERED_AMO_TIMEOUT (R317): A buffered update merges once 65,536 CYC cycles have passed since it entered. -/
  | bufferedAmoTimeout (core pa : Nat)
  /-- CROSS_DIE_WRITE_APPLY (R324): A die applies another die's write once its vector clock's dependences are met. -/
  | crossDieWriteApply (die id : Nat)
  /-- ARBITER_AGING (R26): A class 3 request waiting 8,192 cycles is promoted to class 2. -/
  | arbiterAging (id : Nat)
  /-- LAUNCH_PLACEMENT (R339): The arbiter places an eligible launch's crew or gang on contexts and starts its tasks. -/
  | launchPlacement (slot : Nat)
  /-- COMPLETION_TREE_REPORT (R347): A core, cluster or die whose count of a launch returns to zero reports its retirements upward. -/
  | completionTreeReport (launch level node : Nat)
  /-- LAUNCH_COMPLETE (R347): Once all tasks have retired and their writes performed, the completion block is written and DONECTR incremented. -/
  | launchComplete (launch : Nat)
  /-- MESSAGE_TRANSMIT (R381): A send-queue entry is handed to a link, freeing room for a held MSEND. -/
  | messageTransmit (core : Nat)
  /-- HANDLER_PLACEMENT (R383): A queue-head message starts a handler task once a context and registers are free, or is discarded without a registration. -/
  | handlerPlacement (core : Nat)
  /-- GANG_ARM_TIMEOUT (R387): A missing arm acknowledgement after 2^20 cycles aborts the gang. -/
  | gangArmTimeout (slot : Nat)
  /-- GANG_GO_TIMEOUT (R388): After 2^20 cycles without every go acknowledgement the status lands and an incomplete notice is sent. -/
  | gangGoTimeout (slot : Nat)
  /-- COLL_JOIN_TIMEOUT (R390): A package whose participants have not all joined within 2^22 cycles contributes nothing. -/
  | collJoinTimeout (slot : Nat)
  /-- COLL_RING_TIMEOUT (R393): A gateway waiting 2^22 cycles for a ring step proceeds without it, marking chunks INCOMPLETE. -/
  | collRingTimeout (slot chunk : Nat)
  /-- COLL_COMPLETE (R392): Once a participant's DST and STAT writes have performed, its DONECTR is increased. -/
  | collComplete (slot : Nat)
  /-- WORLD_TEARDOWN (R410): The Registrar retires, zeroes, unkeys and frees every core of a world in order. -/
  | worldTeardown (w : Nat)
  /-- WRITE_PERFORM (R323): A store, STV, CAS result or tracked-copy write performs in its die's view when the L2 holds it, originating with its vector clock and freeing its store slot. -/
  | writePerform (core ctx id : Nat)
  /-- DIRTY_SECTOR_WRITE_BACK (R401): An evicted dirty sector is written back to the memory-side cache and HBM, sealed under KD(w) with its write count advanced. -/
  | dirtySectorWriteBack (die sector : Nat)
  /-- FRGET_FRPUT_COMPLETE (R252): An FRGET or FRPUT completes its class 1 access to the frozen context, landing the item or applying the patch, and the proctor becomes ready. -/
  | frgetFrputComplete (core ctx : Nat)
  /-- REGISTRAR_ANSWER (R414): The Registrar answers a held WLOAD, KWIPE, FUSERD, MEXT or DBGOPEN, releasing its bundle from the check point. -/
  | registrarAnswer (core : Nat)
  /-- SEALED_LINE_FILL (R401): A tenant line is opened and its GCM tag verified at the memory-controller port, faulting WORLD on failure. -/
  | sealedLineFill (die line : Nat) (ok : Bool)
  /-- LINK_FLIT_RETRY (R372): A link replays a damaged flit from its replay buffer before the next is delivered. -/
  | linkFlitRetry (link : Nat)
  /-- MESSAGE_ARRIVAL (R383): An arriving message enters the core's inbound queue or is discarded and counted CONS. -/
  | messageArrival (core : Nat) (job : Origin) (hdr : (BitVec 64)) (payload : Vec)
  /-- WINDOW_WRITE_ARRIVAL (R376): A fabric window write arrives and is performed or discarded, counted CONS and acknowledged. -/
  | windowWriteArrival (job : Origin) (wtag pa size : Nat) (val : Vec)
  /-- PACKET_ACKNOWLEDGE (R376): A source receives an acknowledgement for a counted packet. -/
  | packetAcknowledge (id : Nat)
  /-- END_TO_END_RETRANSMIT (R385): An unacknowledged packet is retransmitted on other paths or declared lost with a repair notice. -/
  | endToEndRetransmit (id : Nat) (lost : Bool)
  /-- REPAIR_NOTICE_APPLY (R385): A repair notice is applied, lowering the source's INJ for the lost packet. -/
  | repairNoticeApply (die job : Nat)
  /-- ROLL_CALL_WAVE (R377): Every 4,096 switch cycles a wave starts, whose first pass snapshots every interface's counts. -/
  | rollCallWave (wave : Nat)
  /-- ROLL_CALL_PASS2 (R377): A wave's second pass snapshots counts again and reports changes. -/
  | rollCallPass2 (wave : Nat)
  /-- ROLL_CALL_VERDICT (R377): An interface receives a job's verdict, waking qualifying WQUIET waiters on QUIET. -/
  | rollCallVerdict (die wave job : Nat) (quiet : Finding) (sumi : Nat)
  /-- GANG_ARM (R387): A listed package receives arm, checks the record and job, reserves a slot and acknowledges or refuses. -/
  | gangArm (src wtag depth : Nat) (rec : (BitVec 2048)) (job npkg index : Nat)
  /-- GANG_ARM_ACK (R387): The issuing package receives an arm acknowledgement or refusal, aborting on refusal. -/
  | gangArmAck (slot index : Nat) (ok : Bool)
  /-- GANG_GO (R387): An armed package receives go, acknowledges it and places its share. -/
  | gangGo (src job : Nat)
  /-- GANG_GO_ACK (R387): The issuing package receives a go acknowledgement, landing GLAUNCH's status when all have arrived. -/
  | gangGoAck (slot index : Nat)
  /-- GANG_INCOMPLETE_NOTICE (R388): A running package marks its gang members incomplete, freezing those waiting in GBAR or WQUIET. -/
  | gangIncompleteNotice (job index count slot : Nat)
  /-- COLL_RING_STEP (R392): A gateway receives a compressed partial or chunk, combines or writes it and forwards the ring. -/
  | collRingStep (slot chunk phase bitmap flags : Nat) (data : RingData)
  /-- HOST_REGISTER_WRITE (R408): A host write to a register without its own behaviour passes the filter and is performed or refused. -/
  | hostRegisterWrite (tdi off : Nat) (val : (BitVec 64))
  /-- LAUNCH_WINDOW_WRITE (R338): The host writes bytes of a depth-0 pool slot, refused while the slot is claimed. -/
  | launchWindowWrite (tdi slot off : Nat) (val : (BitVec 64))
  /-- LAUNCH_CLAIM (R338): The host sets CLAIM, making the record pending after the checks of R337 or rejecting it. -/
  | launchClaim (tdi slot : Nat)
  /-- HINV (R424): Invalidates host-level mappings of a world's IPA page on the dies of the mask. -/
  | hinv (tdi page : Nat) (val : (BitVec 64))
  /-- PREEMPT (R424): Pre-empts a named context at the next bundle boundary if it runs and has a save area. -/
  | preempt (tdi page : Nat) (val : (BitVec 64))
  /-- SVSTART_GO (R424): Starts or restarts a supervisor slot at an entry with allotment and arguments. -/
  | svstartGo (tdi page die k : Nat) (val : (BitVec 64))
  /-- SVSTART_STOP (R424): Retires a supervisor slot as FRKILL does. -/
  | svstartStop (tdi page die k : Nat)
  /-- JOB_ENTRY_WRITE (R425): Writes a job-table entry, refusing conflicts and discarding counts when V is cleared. -/
  | jobEntryWrite (tdi index : Nat) (val : (BitVec 64))
  /-- WINDOW_ENTRY_WRITE (R425): Writes a fabric-window entry, refusing conflicts. -/
  | windowEntryWrite (tdi index : Nat) (val : (BitVec 64))
  /-- PCAP_WRITE (R427): Sets the power cap, clamped to 600–2,800 W, for the next window. -/
  | pcapWrite (val : (BitVec 64))
  /-- POWER_WINDOW_END (R428): At the end of each 100 µs window the clock steps down, up or stays by draw and temperature. -/
  | powerWindowEnd (draw tj : Nat)
  /-- GET_VERSION (R406): SPDM request answered with the supported version. -/
  | getVersion (session : Nat) (data : (List (BitVec 8)))
  /-- GET_CAPABILITIES (R406): SPDM request answered with the responder's capabilities. -/
  | getCapabilities (session : Nat) (data : (List (BitVec 8)))
  /-- NEGOTIATE_ALGORITHMS (R406): SPDM request fixing P-256, SHA-256 and AES-256-GCM. -/
  | negotiateAlgorithms (session : Nat) (data : (List (BitVec 8)))
  /-- GET_DIGESTS (R406): SPDM request for the certificate-chain digests. -/
  | getDigests (session : Nat) (data : (List (BitVec 8)))
  /-- GET_CERTIFICATE (R406): SPDM request for the slot-0 certificate chain. -/
  | getCertificate (session : Nat) (data : (List (BitVec 8)))
  /-- CHALLENGE (R406): SPDM challenge signed with the identity key over the requester's nonce. -/
  | challenge (session : Nat) (data : (List (BitVec 8)))
  /-- GET_MEASUREMENTS (R405): SPDM request answered with signed measurement blocks. -/
  | getMeasurements (session : Nat) (data : Measure)
  /-- KEY_EXCHANGE (R406): SPDM request opening a secured session. -/
  | keyExchange (session : Nat) (data : (List (BitVec 8)))
  /-- FINISH (R406): SPDM request completing a session handshake. -/
  | finish (session : Nat)
  /-- END_SESSION (R406): Ends an SPDM session and erases its world's image key. -/
  | endSession (session : Nat)
  /-- BIND (R406): Vendor message binding the session to a world. -/
  | bind (session w : Nat)
  /-- KEY_IMAGE (R406): Vendor message storing the bound world's image key. -/
  | keyImage (session : Nat) (key : (BitVec 256))
  /-- KEY_EVAL (R406): Vendor message writing evaluation keys into the world only if its measurement matches. -/
  | keyEval (session va : Nat) (expect : (BitVec 256)) (blob : (List (BitVec 8)))
  /-- LOCK_INTERFACE_REQUEST (R407): Moves TDI w to CONFIG_LOCKED and arms its write-watch bitmap. -/
  | lockInterfaceRequest (session w : Nat)
  /-- START_INTERFACE_REQUEST (R407): Moves TDI w to RUN, accepting trusted accesses. -/
  | startInterfaceRequest (session w : Nat)
  /-- STOP_INTERFACE_REQUEST (R407): Moves TDI w to CONFIG_UNLOCKED, tearing down the world if it exists. -/
  | stopInterfaceRequest (session w : Nat)
  /-- TDISP_OTHER_REQUEST (R407): Any other TDISP request answers an error and leaves the state unchanged. -/
  | tdispOtherRequest (session w : Nat)
  /-- COLD_RESET (R426): The Registrar runs the bring-up sequence from firmware verification to READY. -/
  | coldReset (fwOk : Bool)
  /-- HOST_REGISTER_READ (R408): A host read of a BAR0 page passes the Registrar's filter and either returns the register or completes with Unsupported Request and is logged. -/
  | hostRegisterRead (tdi : Nat) (off : HostAddr)
  /-- CREBY_LINK_LOST (R372): A Creby link stops working, and the fabric interfaces spread packets over the remaining links with lower bandwidth. -/
  | crebyLinkLost (link : Nat)
  /-- CREBY_LINK_TRAINED (R372): A Creby link completes training and joins the set of links over which the interfaces spread packets. -/
  | crebyLinkTrained (link : Nat)
  /-- NOP (R35): an all-zero word. -/
  | nop
  /-- WLOAD_SERVICE (R404): The Registrar opens the sealed image, keys and measures the world, and writes STATUS. -/
  | wloadService
  /-- HOT_RESET (R412): Tears down tenant worlds, ends sessions, resets cores and reruns bring-up steps 6 and 7. -/
  | hotReset
  /-- LINK_DOWN (R412): A PCIe link-down acts as a hot reset. -/
  | linkDown
  /-- ILLEGAL_ENCODING (R62): A bundle holding a word that is no instruction (class 0xD–0xF, a stray header, an unlisted minor) issues and raises ILLEGAL_OP whatever its guard. -/
  | illegalEncoding
  deriving DecidableEq, Repr

end Sys2Proof
end

