-- ==== Sys2Proof/WellFormed.lean ====
section
/-! DEFINITION. Which instructions are well formed: the limits of R62 to R78 and of the instructions' own chapters on
fields, suffixes and extension bytes, and the registers and sources an instruction names. -/

namespace Sys2Proof

/-- The extension byte as bits, zero where the bundle has no header. -/
def Ext.byte (x : Ext) : BitVec 8 := x.getD 0

/-- An unsigned 12-bit immediate, widened to 20 bits by a header's byte (R33). -/
def immU20 (x : Ext) (i : BitVec 12) : Nat :=
  match x with
  | none => i.toNat
  | some b => (b ++ i).toNat

/-- A signed 12-bit immediate, widened to 20 bits by a header's byte (R33). -/
def immS20 (x : Ext) (i : BitVec 12) : Word :=
  match x with
  | none => i.signExtend 64
  | some b => (b ++ i).signExtend 64

/-- A signed 6-bit immediate, widened to 14 bits by a header's byte (R33). -/
def immS14 (x : Ext) (i : Code) : Word :=
  match x with
  | none => i.signExtend 64
  | some b => (b ++ i).signExtend 64

/-- Body length of LOOPI (R137): f1 below bits 7:4 of the extension byte. -/
def loopiLen (l : Code) (x : Ext) : Nat := l.toNat + 64 * (bits x.byte.toNat 7 4)
/-- Count of LOOPI (R137). -/
def loopiCount (n : BitVec 12) (x : Ext) : Nat := n.toNat + 4096 * (bits x.byte.toNat 3 0)

/-- A destination code: a register or `nul` (R41, R63). -/
def dstOk (d : Code) : Bool := decide (d.toNat < 48) || decide (d.toNat = 63)
/-- A condition target or source: j0 to j11 or q0 to q15 (R63). -/
def condOk (c : Code) : Bool := decide (c.toNat < 12) || (decide (16 ≤ c.toNat) && decide (c.toNat < 32))
/-- A mask destination: m1 to m7 (R72). -/
def maskDst (m : Code) : Bool := decide (1 ≤ m.toNat) && decide (m.toNat < 8)
/-- Only the extension bits of `m` are set. -/
def extFits (x : Ext) (m : BitVec 8) : Bool := decide (x.byte &&& ~~~m = 0)
/-- The width of EXTB and INSB fits above their position (R69). -/
def fieldOk (p : Code) (x : Ext) : Bool := decide (p.toNat + (bits x.byte.toNat 5 0 + 1) ≤ 64)
/-- The extension byte of a load: `.fresh` and `.last` only (R66). -/
def extLd (x : Ext) : Bool := extFits x 0x18
/-- No extension bit (R33, R66). -/
def extZx (x : Ext) : Bool := extFits x 0
/-- The extension byte of AMO, CAS and FENCE: a scope, 0 to 5 (R66). -/
def extScope (x : Ext) : Bool := decide (x.byte.toNat < 6)
/-- The extension byte of PREF: `.fresh` only (R66). -/
def extPref (x : Ext) : Bool := extFits x 0x08
/-- VX fields (R67): type, mask, rounding or modulus. -/
def vxT (x : Ext) : Nat := bits x.byte.toNat 2 0
def vxM (x : Ext) : Nat := bits x.byte.toNat 5 3
def vxR (x : Ext) : Nat := bits x.byte.toNat 7 6
/-- Only the M field (R176). -/
def extVxM (x : Ext) : Bool := extFits x 0x38
/-- Only the T and M fields (R176). -/
def extVxTM (x : Ext) : Bool := extFits x 0x3F
/-- Every VX field (R176). -/
def extVxTMR (_ : Ext) : Bool := true
/-- The extension byte of VCVT: two types (R73). -/
def extVcvt (x : Ext) : Bool := extFits x 0x3F
/-- Accepted types (R176). -/
def arithT (x : Ext) : Bool := decide (vxT x ≤ 4)
def floatT (x : Ext) : Bool := decide (vxT x ≤ 2)
def laneT (x : Ext) : Bool := decide (vxT x = 0) || decide (vxT x = 4)
def resT (x : Ext) : Bool := decide (vxT x = 0) || decide (vxT x = 5)
/-- VCVT's rounding minor and types (R187). -/
def cvtOk (r : BitVec 3) (x : Ext) : Bool :=
  decide (r.toNat ≠ 5) && decide (r.toNat ≠ 6) && decide (vxT x ≤ 4) && decide (vxM x ≤ 4)
/-- The field table of XBEAT (R262). -/
def xbeatOk (s w : BitVec 2) (r : Code) (o : BitVec 12) (x : Ext) : Bool :=
  decide (w ≠ 3) &&
  (if s = 3 then
    (decide (w = 2) || decide (o.extractLsb' 6 6 = 0)) && dstOk (o.extractLsb' 0 6) && decide (x.byte.toNat < 6)
  else
    decide (x.byte = 0) && (decide (w = 2) || decide (o = 0)) && (decide (s ≠ 0) || decide (r = 0)))

/-- The control registers of R79. -/
def crListed (r : Nat) : Bool :=
  decide (r ≤ 4) || decide (r = 8) || decide (r = 9) || (decide (0x10 ≤ r) && decide (r ≤ 0x1B)) ||
  (decide (0x20 ≤ r) && decide (r ≤ 0x37))
/-- The control registers whose CWR is a row of its own: ARRMODE, the moduli and the report cards. -/
def crOwnRow (r : Nat) : Bool :=
  decide (r = 9) || (decide (0x10 ≤ r) && decide (r ≤ 0x13)) || (decide (0x30 ≤ r) && decide (r ≤ 0x33))

/-- The destination port of MV and MVI, the source port of MV (R211). -/
def mvDst (d : Code) (x : Ext) : Nat := d.toNat + 64 * bits x.byte.toNat 2 0
def mvSrc (s : Code) (x : Ext) : Nat := s.toNat + 64 * bits x.byte.toNat 5 3
/-- The convert triggers, one for each pair of types 0 to 5 (R210). -/
def portConvert (p : Nat) : Bool := decide (0x80 ≤ p) && decide (p < 0xC0) && decide (p % 8 < 6) && decide ((p - 0x80) / 8 < 6)
/-- The ports a move may write (R210). -/
def portWritable (p : Nat) : Bool :=
  decide (p < 0x30) || decide (p = 0x40) || decide (p = 0x41) || portConvert p || decide (p = 0xC1) ||
  (decide (0xD0 ≤ p) && decide (p ≤ 0xDA)) || (decide (0xF0 ≤ p) && decide (p ≤ 0xF3)) ||
  decide (p = 0x100) || decide (p = 0x101) || decide (p = 0x103) || decide (p = 0x111) || decide (p = 0x120) || decide (p = 0x121)
/-- The ports a move may read (R210). -/
def portReadable (p : Nat) : Bool :=
  decide (p < 0x40) || decide (p = 0xC0) || (decide (0xE0 ≤ p) && decide (p ≤ 0xE7)) || decide (p = 0xF4) ||
  decide (p = 0x102) || decide (p = 0x112) || decide (p = 0x122)


/-- The encoding limits of an instruction (R62 to R78): where this is false the word raises ILLEGAL_OP. -/
def Instr.wf : Instr → Bool
  | .prep _ j _ _ => decide (j < 12)
  | .prepr _ j _ => decide (j < 12)
  | .br _ j => decide (j < 12)
  | .brl _ j d => decide (j < 12) && dstOk d
  | .loop _ _ l x => decide (immU20 x l ≠ 0)
  | .loopi _ l _ x => decide (loopiLen l x ≠ 0)
  | .loopr _ _ l x => extFits x 0x07 && decide (l ≠ 0)
  | .defer _ a _ n _ => decide (a.toNat < 48) && decide (n.toNat ≤ 4) && decide (a.toNat + n.toNat ≤ 48) && (decide (n ≠ 0) || decide (a = 0))
  | .defdr _ d n _ => decide (d.toNat < 48) && decide (n.toNat ≤ 4) && decide (d.toNat + n.toNat ≤ 48) && (decide (n ≠ 0) || decide (d = 0))
  | .defct _ d _ => dstOk d
  | .tcur _ d => dstOk d
  | .ctxid _ d => dstOk d
  | .prio _ p => decide (p < 8)
  | .mov _ d _ => dstOk d
  | .add _ d _ _ => dstOk d
  | .sub _ d _ _ => dstOk d
  | .mul _ d _ _ => dstOk d
  | .mulh _ d _ _ => dstOk d
  | .mulhu _ d _ _ => dstOk d
  | .divs _ d _ _ => dstOk d
  | .divu _ d _ _ => dstOk d
  | .and _ d _ _ => dstOk d
  | .or _ d _ _ => dstOk d
  | .xor _ d _ _ => dstOk d
  | .andn _ d _ _ => dstOk d
  | .shl _ d _ _ => dstOk d
  | .shr _ d _ _ => dstOk d
  | .sar _ d _ _ => dstOk d
  | .rotl _ d _ _ => dstOk d
  | .clz _ d _ => dstOk d
  | .popc _ d _ => dstOk d
  | .min _ d _ _ => dstOk d
  | .max _ d _ _ => dstOk d
  | .minu _ d _ _ => dstOk d
  | .maxu _ d _ _ => dstOk d
  | .sel _ d _ _ x => dstOk d && extFits x 0x0F
  | .extb _ d _ p x => dstOk d && extFits x 0x3F && fieldOk p x
  | .insb _ d _ p x => decide (d < 48) && extFits x 0x3F && fieldOk p x
  | .lea _ d _ _ x => dstOk d && extFits x 0x07
  | .ceq _ c _ _ => condOk c
  | .cne _ c _ _ => condOk c
  | .clt _ c _ _ => condOk c
  | .cltu _ c _ _ => condOk c
  | .cle _ c _ _ => condOk c
  | .cleu _ c _ _ => condOk c
  | .qset _ c _ => condOk c
  | .qand _ c y z => condOk c && condOk y && condOk z
  | .qor _ c y z => condOk c && condOk y && condOk z
  | .qnot _ c y => condOk c && condOk y
  | .crd _ d r => dstOk d && crListed r.toNat
  | .cwr _ _ r => crListed r.toNat && !crOwnRow r.toNat
  | .allot _ m n => decide (m ≤ 48) && decide (n ≤ 48)
  | .shrink _ m n => decide (m ≤ 48) && decide (n ≤ 48)
  | .movi _ d _ _ => dstOk d
  | .movhi _ d _ _ => decide (d < 48)
  | .addi _ d _ _ _ => dstOk d
  | .ceqi _ c _ _ _ => condOk c
  | .clti _ c _ _ _ => condOk c
  | .ldW8 _ d _ _ x => dstOk d && extLd x
  | .ldW16 _ d _ _ x => dstOk d && extLd x
  | .ldW32 _ d _ _ x => dstOk d && extLd x
  | .ldW64 _ d _ _ x => dstOk d && extLd x
  | .stW8 _ _ _ _ x => extZx x
  | .stW16 _ _ _ _ x => extZx x
  | .stW32 _ _ _ _ x => extZx x
  | .stW64 _ _ _ _ x => extZx x
  | .ldv _ d _ _ x => dstOk d && extLd x
  | .stv _ _ _ _ x => extZx x
  | .amoAdd _ d _ _ x => dstOk d && extScope x
  | .amoMin _ d _ _ x => dstOk d && extScope x
  | .amoMax _ d _ _ x => dstOk d && extScope x
  | .amoAnd _ d _ _ x => dstOk d && extScope x
  | .amoOr _ d _ _ x => dstOk d && extScope x
  | .amoXor _ d _ _ x => dstOk d && extScope x
  | .cas _ d _ _ x => decide (d < 48) && extScope x
  | .fenceAcq _ x => extScope x
  | .fenceRel _ x => extScope x
  | .fenceFull _ x => extScope x
  | .pref _ _ _ x => extPref x
  | .vmov _ d _ x => dstOk d && extVxM x
  | .vadd _ d _ _ x => dstOk d && extVxTMR x && arithT x
  | .vsub _ d _ _ x => dstOk d && extVxTMR x && arithT x
  | .vmul _ d _ _ x => dstOk d && extVxTMR x && arithT x
  | .vfma _ d _ _ x => decide (d < 48) && extVxTMR x && arithT x
  | .vfms _ d _ _ x => decide (d < 48) && extVxTMR x && arithT x
  | .vmin _ d _ _ x => dstOk d && extVxTMR x && arithT x
  | .vmax _ d _ _ x => dstOk d && extVxTMR x && arithT x
  | .vabs _ d _ x => dstOk d && extVxTMR x && arithT x
  | .vneg _ d _ x => dstOk d && extVxTMR x && arithT x
  | .vrcp _ d _ x => dstOk d && extVxTMR x && floatT x
  | .vrsq _ d _ x => dstOk d && extVxTMR x && floatT x
  | .vexp2 _ d _ x => dstOk d && extVxTMR x && floatT x
  | .vlog2 _ d _ x => dstOk d && extVxTMR x && floatT x
  | .vand _ d _ _ x => dstOk d && extVxM x
  | .vor _ d _ _ x => dstOk d && extVxM x
  | .vxor _ d _ _ x => dstOk d && extVxM x
  | .vshl _ d _ _ x => dstOk d && extVxTM x && laneT x
  | .vshr _ d _ _ x => dstOk d && extVxTM x && laneT x
  | .vsar _ d _ _ x => dstOk d && extVxTM x && laneT x
  | .vcmpEq _ m _ _ x => maskDst m && extVxTM x && arithT x
  | .vcmpNe _ m _ _ x => maskDst m && extVxTM x && arithT x
  | .vcmpLt _ m _ _ x => maskDst m && extVxTM x && arithT x
  | .vcmpLe _ m _ _ x => maskDst m && extVxTM x && arithT x
  | .vcmpGt _ m _ _ x => maskDst m && extVxTM x && arithT x
  | .vcmpGe _ m _ _ x => maskDst m && extVxTM x && arithT x
  | .vcmpUn _ m _ _ x => maskDst m && extVxTM x && arithT x
  | .vsel _ d _ _ x => dstOk d && extVxM x
  | .vbcast _ d _ x => dstOk d && extVxM x
  | .vredAdd _ d _ x => dstOk d && extVxTMR x && arithT x
  | .vredMax _ d _ x => dstOk d && extVxTMR x && arithT x
  | .vredMin _ d _ x => dstOk d && extVxTMR x && arithT x
  | .vperm _ d _ _ x => dstOk d && extVxM x
  | .vshuf _ d _ _ x => dstOk d && extVxM x
  | .vmodadd _ d _ _ x => dstOk d && extVxTMR x && resT x
  | .vmodsub _ d _ _ x => dstOk d && extVxTMR x && resT x
  | .vmodmul _ d _ _ x => dstOk d && extVxTMR x && resT x
  | .vbfly _ d _ _ x => dstOk d && extVxTMR x && resT x
  | .vibfly _ d _ _ x => dstOk d && extVxTMR x && resT x
  | .vmaskAnd _ m y z => maskDst m && decide (y < 8) && decide (z < 8)
  | .vmaskOr _ m y z => maskDst m && decide (y < 8) && decide (z < 8)
  | .vmaskXor _ m y z => maskDst m && decide (y < 8) && decide (z < 8)
  | .vmaskAndn _ m y z => maskDst m && decide (y < 8) && decide (z < 8)
  | .vmaskNot _ m y => maskDst m && decide (y < 8)
  | .vlane _ d x => dstOk d && extVxM x
  | .vcvt _ r d _ x => dstOk d && extVcvt x && cvtOk r x
  | .vbcastI _ d _ _ => dstOk d
  | .vshlI _ d _ n x => dstOk d && decide (n < 32) && extVxTM x && laneT x
  | .vshrI _ d _ n x => dstOk d && decide (n < 32) && extVxTM x && laneT x
  | .vsarI _ d _ n x => dstOk d && decide (n < 32) && extVxTM x && laneT x
  | .xbeat _ s w _ r o x => xbeatOk s w r o x
  | .xcks _ d _ _ => dstOk d
  | .xfix _ d _ => dstOk d
  | .xres _ k => decide (k < 4)
  | .lds _ d _ _ _ => dstOk d
  | .ldsTag _ d _ _ => dstOk d
  | .ldss _ d _ _ _ => dstOk d
  | .bfmt _ k _ => decide (k < 16)
  | .mv _ d s x => extFits x 0x3F && portWritable (mvDst d x) && portReadable (mvSrc s x)
  | .mvi _ d _ x => extFits x 0x07 && portWritable (mvDst d x)
  | .fpeek _ d f => dstOk d && decide (f < 2)
  | .flev _ d f => dstOk d && decide (f < 2)
  | .lrec _ k a => decide (k < 16) && decide (a < 37)
  | .cpy _ d l m x => dstOk d && decide (l < 16) && decide (m < 16) && extFits x 0x03
  | .cpyx _ d l m x => dstOk d && decide (l < 16) && decide (m < 16) && extFits x 0x03
  | .cpyt _ _ l m x => decide (l < 16) && decide (m < 16) && extFits x 0x03
  | .cidw _ _ x => extFits x 0x03
  | .cidr _ d x => dstOk d && extFits x 0x03
  | .cinv _ _ x => extFits x 0x03
  | .chalt _ x => extFits x 0x03
  | .gchk _ d => dstOk d
  | .gstat _ d => dstOk d
  | .rcstat _ d => dstOk d
  | .collAr _ d _ => dstOk d
  | .collRs _ d _ => dstOk d
  | .collAg _ d _ => dstOk d
  | .collBc _ d _ => dstOk d
  | .bar _ n => decide (n < 8)
  | .gbar _ n => decide (n < 8)
  | .launch _ d _ => dstOk d
  | .launchn _ d _ => dstOk d
  | .glaunch _ d _ => dstOk d
  | .fwait _ d => decide (d < 48)
  | .frget _ d _ _ => decide (d < 48)
  | .fuserd _ d _ => dstOk d
  | _ => true

/-- The guard field (R37). -/
def Instr.guard : Instr → Guard
  | .prep g _ _ _ => g
  | .prepr g _ _ => g
  | .br g _ => g
  | .brl g _ _ => g
  | .ret g _ => g
  | .loop g _ _ _ => g
  | .loopi g _ _ _ => g
  | .loopr g _ _ _ => g
  | .lbrk g => g
  | .yield g => g
  | .done g => g
  | .trap g _ => g
  | .waitc g _ => g
  | .defer g _ _ _ _ => g
  | .defdr g _ _ _ => g
  | .defct g _ _ => g
  | .tcur g _ => g
  | .ctxid g _ => g
  | .prio g _ => g
  | .bkpt g => g
  | .mov g _ _ => g
  | .add g _ _ _ => g
  | .sub g _ _ _ => g
  | .mul g _ _ _ => g
  | .mulh g _ _ _ => g
  | .mulhu g _ _ _ => g
  | .divs g _ _ _ => g
  | .divu g _ _ _ => g
  | .and g _ _ _ => g
  | .or g _ _ _ => g
  | .xor g _ _ _ => g
  | .andn g _ _ _ => g
  | .shl g _ _ _ => g
  | .shr g _ _ _ => g
  | .sar g _ _ _ => g
  | .rotl g _ _ _ => g
  | .clz g _ _ => g
  | .popc g _ _ => g
  | .min g _ _ _ => g
  | .max g _ _ _ => g
  | .minu g _ _ _ => g
  | .maxu g _ _ _ => g
  | .sel g _ _ _ _ => g
  | .extb g _ _ _ _ => g
  | .insb g _ _ _ _ => g
  | .lea g _ _ _ _ => g
  | .ceq g _ _ _ => g
  | .cne g _ _ _ => g
  | .clt g _ _ _ => g
  | .cltu g _ _ _ => g
  | .cle g _ _ _ => g
  | .cleu g _ _ _ => g
  | .qset g _ _ => g
  | .qand g _ _ _ => g
  | .qor g _ _ _ => g
  | .qnot g _ _ => g
  | .crd g _ _ => g
  | .cwr g _ _ => g
  | .cwrArrmode g _ => g
  | .cwrModulus g _ _ => g
  | .cwrRptcard g _ _ => g
  | .allot g _ _ => g
  | .shrink g _ _ => g
  | .movi g _ _ _ => g
  | .movhi g _ _ _ => g
  | .addi g _ _ _ _ => g
  | .ceqi g _ _ _ _ => g
  | .clti g _ _ _ _ => g
  | .ldW8 g _ _ _ _ => g
  | .ldW16 g _ _ _ _ => g
  | .ldW32 g _ _ _ _ => g
  | .ldW64 g _ _ _ _ => g
  | .stW8 g _ _ _ _ => g
  | .stW16 g _ _ _ _ => g
  | .stW32 g _ _ _ _ => g
  | .stW64 g _ _ _ _ => g
  | .ldv g _ _ _ _ => g
  | .stv g _ _ _ _ => g
  | .amoAdd g _ _ _ _ => g
  | .amoMin g _ _ _ _ => g
  | .amoMax g _ _ _ _ => g
  | .amoAnd g _ _ _ _ => g
  | .amoOr g _ _ _ _ => g
  | .amoXor g _ _ _ _ => g
  | .cas g _ _ _ _ => g
  | .fenceAcq g _ => g
  | .fenceRel g _ => g
  | .fenceFull g _ => g
  | .pref g _ _ _ => g
  | .vmov g _ _ _ => g
  | .vadd g _ _ _ _ => g
  | .vsub g _ _ _ _ => g
  | .vmul g _ _ _ _ => g
  | .vfma g _ _ _ _ => g
  | .vfms g _ _ _ _ => g
  | .vmin g _ _ _ _ => g
  | .vmax g _ _ _ _ => g
  | .vabs g _ _ _ => g
  | .vneg g _ _ _ => g
  | .vrcp g _ _ _ => g
  | .vrsq g _ _ _ => g
  | .vexp2 g _ _ _ => g
  | .vlog2 g _ _ _ => g
  | .vand g _ _ _ _ => g
  | .vor g _ _ _ _ => g
  | .vxor g _ _ _ _ => g
  | .vshl g _ _ _ _ => g
  | .vshr g _ _ _ _ => g
  | .vsar g _ _ _ _ => g
  | .vcmpEq g _ _ _ _ => g
  | .vcmpNe g _ _ _ _ => g
  | .vcmpLt g _ _ _ _ => g
  | .vcmpLe g _ _ _ _ => g
  | .vcmpGt g _ _ _ _ => g
  | .vcmpGe g _ _ _ _ => g
  | .vcmpUn g _ _ _ _ => g
  | .vsel g _ _ _ _ => g
  | .vbcast g _ _ _ => g
  | .vredAdd g _ _ _ => g
  | .vredMax g _ _ _ => g
  | .vredMin g _ _ _ => g
  | .vperm g _ _ _ _ => g
  | .vshuf g _ _ _ _ => g
  | .vmodadd g _ _ _ _ => g
  | .vmodsub g _ _ _ _ => g
  | .vmodmul g _ _ _ _ => g
  | .vbfly g _ _ _ _ => g
  | .vibfly g _ _ _ _ => g
  | .vmaskAnd g _ _ _ => g
  | .vmaskOr g _ _ _ => g
  | .vmaskXor g _ _ _ => g
  | .vmaskAndn g _ _ _ => g
  | .vmaskNot g _ _ => g
  | .vlane g _ _ => g
  | .vcvt g _ _ _ _ => g
  | .vbcastI g _ _ _ => g
  | .vshlI g _ _ _ _ => g
  | .vshrI g _ _ _ _ => g
  | .vsarI g _ _ _ _ => g
  | .xbeat g _ _ _ _ _ _ => g
  | .xmode g _ => g
  | .xzero g _ => g
  | .xcks g _ _ _ => g
  | .xfix g _ _ => g
  | .xres g _ => g
  | .xwin g _ => g
  | .xinj g _ _ _ => g
  | .lds g _ _ _ _ => g
  | .ldsTag g _ _ _ => g
  | .sts g _ _ _ _ => g
  | .ldss g _ _ _ _ => g
  | .stss g _ _ _ _ => g
  | .bfmt g _ _ => g
  | .mv g _ _ _ => g
  | .mvi g _ _ _ => g
  | .fpeek g _ _ => g
  | .flev g _ _ => g
  | .lrec g _ _ => g
  | .cpy g _ _ _ _ => g
  | .cpyx g _ _ _ _ => g
  | .cpyt g _ _ _ _ => g
  | .cidw g _ _ => g
  | .cidr g _ _ => g
  | .cinv g _ _ => g
  | .chalt g _ => g
  | .gload g _ _ => g
  | .gchk g _ => g
  | .gsel g _ => g
  | .gorb g _ _ => g
  | .gstat g _ => g
  | .msend g _ _ => g
  | .mhnd g _ => g
  | .wquiet g => g
  | .rcstat g _ => g
  | .collAr g _ _ => g
  | .collRs g _ _ => g
  | .collAg g _ _ => g
  | .collBc g _ _ => g
  | .bar g _ => g
  | .gbar g _ => g
  | .ctrinc g _ _ => g
  | .ctrwait g _ _ => g
  | .launch g _ _ => g
  | .launchn g _ _ => g
  | .glaunch g _ _ => g
  | .fwait g _ => g
  | .frget g _ _ _ => g
  | .frput g _ _ _ => g
  | .frres g _ => g
  | .frskip g _ => g
  | .frkill g _ => g
  | .frexc g _ => g
  | .wload g _ => g
  | .kwipe g _ => g
  | .fuserd g _ _ => g
  | .mext g _ _ => g
  | .dbgopen g _ => g
  | _ => 0

/-- Is the instruction a slot word (R30), and not a step of the device or of its surroundings? -/
def Instr.isSlot : Instr → Bool
  | .nop => true
  | .prep _ _ _ _ => true
  | .prepr _ _ _ => true
  | .br _ _ => true
  | .brl _ _ _ => true
  | .ret _ _ => true
  | .loop _ _ _ _ => true
  | .loopi _ _ _ _ => true
  | .loopr _ _ _ _ => true
  | .lbrk _ => true
  | .yield _ => true
  | .done _ => true
  | .trap _ _ => true
  | .waitc _ _ => true
  | .defer _ _ _ _ _ => true
  | .defdr _ _ _ _ => true
  | .defct _ _ _ => true
  | .tcur _ _ => true
  | .ctxid _ _ => true
  | .prio _ _ => true
  | .bkpt _ => true
  | .mov _ _ _ => true
  | .add _ _ _ _ => true
  | .sub _ _ _ _ => true
  | .mul _ _ _ _ => true
  | .mulh _ _ _ _ => true
  | .mulhu _ _ _ _ => true
  | .divs _ _ _ _ => true
  | .divu _ _ _ _ => true
  | .and _ _ _ _ => true
  | .or _ _ _ _ => true
  | .xor _ _ _ _ => true
  | .andn _ _ _ _ => true
  | .shl _ _ _ _ => true
  | .shr _ _ _ _ => true
  | .sar _ _ _ _ => true
  | .rotl _ _ _ _ => true
  | .clz _ _ _ => true
  | .popc _ _ _ => true
  | .min _ _ _ _ => true
  | .max _ _ _ _ => true
  | .minu _ _ _ _ => true
  | .maxu _ _ _ _ => true
  | .sel _ _ _ _ _ => true
  | .extb _ _ _ _ _ => true
  | .insb _ _ _ _ _ => true
  | .lea _ _ _ _ _ => true
  | .ceq _ _ _ _ => true
  | .cne _ _ _ _ => true
  | .clt _ _ _ _ => true
  | .cltu _ _ _ _ => true
  | .cle _ _ _ _ => true
  | .cleu _ _ _ _ => true
  | .qset _ _ _ => true
  | .qand _ _ _ _ => true
  | .qor _ _ _ _ => true
  | .qnot _ _ _ => true
  | .crd _ _ _ => true
  | .cwr _ _ _ => true
  | .cwrArrmode _ _ => true
  | .cwrModulus _ _ _ => true
  | .cwrRptcard _ _ _ => true
  | .allot _ _ _ => true
  | .shrink _ _ _ => true
  | .movi _ _ _ _ => true
  | .movhi _ _ _ _ => true
  | .addi _ _ _ _ _ => true
  | .ceqi _ _ _ _ _ => true
  | .clti _ _ _ _ _ => true
  | .ldW8 _ _ _ _ _ => true
  | .ldW16 _ _ _ _ _ => true
  | .ldW32 _ _ _ _ _ => true
  | .ldW64 _ _ _ _ _ => true
  | .stW8 _ _ _ _ _ => true
  | .stW16 _ _ _ _ _ => true
  | .stW32 _ _ _ _ _ => true
  | .stW64 _ _ _ _ _ => true
  | .ldv _ _ _ _ _ => true
  | .stv _ _ _ _ _ => true
  | .amoAdd _ _ _ _ _ => true
  | .amoMin _ _ _ _ _ => true
  | .amoMax _ _ _ _ _ => true
  | .amoAnd _ _ _ _ _ => true
  | .amoOr _ _ _ _ _ => true
  | .amoXor _ _ _ _ _ => true
  | .cas _ _ _ _ _ => true
  | .fenceAcq _ _ => true
  | .fenceRel _ _ => true
  | .fenceFull _ _ => true
  | .pref _ _ _ _ => true
  | .vmov _ _ _ _ => true
  | .vadd _ _ _ _ _ => true
  | .vsub _ _ _ _ _ => true
  | .vmul _ _ _ _ _ => true
  | .vfma _ _ _ _ _ => true
  | .vfms _ _ _ _ _ => true
  | .vmin _ _ _ _ _ => true
  | .vmax _ _ _ _ _ => true
  | .vabs _ _ _ _ => true
  | .vneg _ _ _ _ => true
  | .vrcp _ _ _ _ => true
  | .vrsq _ _ _ _ => true
  | .vexp2 _ _ _ _ => true
  | .vlog2 _ _ _ _ => true
  | .vand _ _ _ _ _ => true
  | .vor _ _ _ _ _ => true
  | .vxor _ _ _ _ _ => true
  | .vshl _ _ _ _ _ => true
  | .vshr _ _ _ _ _ => true
  | .vsar _ _ _ _ _ => true
  | .vcmpEq _ _ _ _ _ => true
  | .vcmpNe _ _ _ _ _ => true
  | .vcmpLt _ _ _ _ _ => true
  | .vcmpLe _ _ _ _ _ => true
  | .vcmpGt _ _ _ _ _ => true
  | .vcmpGe _ _ _ _ _ => true
  | .vcmpUn _ _ _ _ _ => true
  | .vsel _ _ _ _ _ => true
  | .vbcast _ _ _ _ => true
  | .vredAdd _ _ _ _ => true
  | .vredMax _ _ _ _ => true
  | .vredMin _ _ _ _ => true
  | .vperm _ _ _ _ _ => true
  | .vshuf _ _ _ _ _ => true
  | .vmodadd _ _ _ _ _ => true
  | .vmodsub _ _ _ _ _ => true
  | .vmodmul _ _ _ _ _ => true
  | .vbfly _ _ _ _ _ => true
  | .vibfly _ _ _ _ _ => true
  | .vmaskAnd _ _ _ _ => true
  | .vmaskOr _ _ _ _ => true
  | .vmaskXor _ _ _ _ => true
  | .vmaskAndn _ _ _ _ => true
  | .vmaskNot _ _ _ => true
  | .vlane _ _ _ => true
  | .vcvt _ _ _ _ _ => true
  | .vbcastI _ _ _ _ => true
  | .vshlI _ _ _ _ _ => true
  | .vshrI _ _ _ _ _ => true
  | .vsarI _ _ _ _ _ => true
  | .xbeat _ _ _ _ _ _ _ => true
  | .xmode _ _ => true
  | .xzero _ _ => true
  | .xcks _ _ _ _ => true
  | .xfix _ _ _ => true
  | .xres _ _ => true
  | .xwin _ _ => true
  | .xinj _ _ _ _ => true
  | .lds _ _ _ _ _ => true
  | .ldsTag _ _ _ _ => true
  | .sts _ _ _ _ _ => true
  | .ldss _ _ _ _ _ => true
  | .stss _ _ _ _ _ => true
  | .bfmt _ _ _ => true
  | .mv _ _ _ _ => true
  | .mvi _ _ _ _ => true
  | .fpeek _ _ _ => true
  | .flev _ _ _ => true
  | .lrec _ _ _ => true
  | .cpy _ _ _ _ _ => true
  | .cpyx _ _ _ _ _ => true
  | .cpyt _ _ _ _ _ => true
  | .cidw _ _ _ => true
  | .cidr _ _ _ => true
  | .cinv _ _ _ => true
  | .chalt _ _ => true
  | .gload _ _ _ => true
  | .gchk _ _ => true
  | .gsel _ _ => true
  | .gorb _ _ _ => true
  | .gstat _ _ => true
  | .msend _ _ _ => true
  | .mhnd _ _ => true
  | .wquiet _ => true
  | .rcstat _ _ => true
  | .collAr _ _ _ => true
  | .collRs _ _ _ => true
  | .collAg _ _ _ => true
  | .collBc _ _ _ => true
  | .bar _ _ => true
  | .gbar _ _ => true
  | .ctrinc _ _ _ => true
  | .ctrwait _ _ _ => true
  | .launch _ _ _ => true
  | .launchn _ _ _ => true
  | .glaunch _ _ _ => true
  | .fwait _ _ => true
  | .frget _ _ _ _ => true
  | .frput _ _ _ _ => true
  | .frres _ _ => true
  | .frskip _ _ => true
  | .frkill _ _ => true
  | .frexc _ _ => true
  | .wload _ _ => true
  | .kwipe _ _ => true
  | .fuserd _ _ _ => true
  | .mext _ _ _ => true
  | .dbgopen _ _ => true
  | _ => false

/-- The class code of a slot word (R31). -/
def Instr.cls : Instr → Nat
  | .prep _ _ _ _ => 1
  | .prepr _ _ _ => 1
  | .br _ _ => 1
  | .brl _ _ _ => 1
  | .ret _ _ => 1
  | .loop _ _ _ _ => 1
  | .loopi _ _ _ _ => 1
  | .loopr _ _ _ _ => 1
  | .lbrk _ => 1
  | .yield _ => 1
  | .done _ => 1
  | .trap _ _ => 1
  | .waitc _ _ => 1
  | .defer _ _ _ _ _ => 1
  | .defdr _ _ _ _ => 1
  | .defct _ _ _ => 1
  | .tcur _ _ => 1
  | .ctxid _ _ => 1
  | .prio _ _ => 1
  | .bkpt _ => 1
  | .mov _ _ _ => 2
  | .add _ _ _ _ => 2
  | .sub _ _ _ _ => 2
  | .mul _ _ _ _ => 2
  | .mulh _ _ _ _ => 2
  | .mulhu _ _ _ _ => 2
  | .divs _ _ _ _ => 2
  | .divu _ _ _ _ => 2
  | .and _ _ _ _ => 2
  | .or _ _ _ _ => 2
  | .xor _ _ _ _ => 2
  | .andn _ _ _ _ => 2
  | .shl _ _ _ _ => 2
  | .shr _ _ _ _ => 2
  | .sar _ _ _ _ => 2
  | .rotl _ _ _ _ => 2
  | .clz _ _ _ => 2
  | .popc _ _ _ => 2
  | .min _ _ _ _ => 2
  | .max _ _ _ _ => 2
  | .minu _ _ _ _ => 2
  | .maxu _ _ _ _ => 2
  | .sel _ _ _ _ _ => 2
  | .extb _ _ _ _ _ => 2
  | .insb _ _ _ _ _ => 2
  | .lea _ _ _ _ _ => 2
  | .ceq _ _ _ _ => 2
  | .cne _ _ _ _ => 2
  | .clt _ _ _ _ => 2
  | .cltu _ _ _ _ => 2
  | .cle _ _ _ _ => 2
  | .cleu _ _ _ _ => 2
  | .qset _ _ _ => 2
  | .qand _ _ _ _ => 2
  | .qor _ _ _ _ => 2
  | .qnot _ _ _ => 2
  | .crd _ _ _ => 2
  | .cwr _ _ _ => 2
  | .cwrArrmode _ _ => 2
  | .cwrModulus _ _ _ => 2
  | .cwrRptcard _ _ _ => 2
  | .allot _ _ _ => 2
  | .shrink _ _ _ => 2
  | .movi _ _ _ _ => 3
  | .movhi _ _ _ _ => 3
  | .addi _ _ _ _ _ => 3
  | .ceqi _ _ _ _ _ => 3
  | .clti _ _ _ _ _ => 3
  | .ldW8 _ _ _ _ _ => 4
  | .ldW16 _ _ _ _ _ => 4
  | .ldW32 _ _ _ _ _ => 4
  | .ldW64 _ _ _ _ _ => 4
  | .stW8 _ _ _ _ _ => 4
  | .stW16 _ _ _ _ _ => 4
  | .stW32 _ _ _ _ _ => 4
  | .stW64 _ _ _ _ _ => 4
  | .ldv _ _ _ _ _ => 4
  | .stv _ _ _ _ _ => 4
  | .amoAdd _ _ _ _ _ => 4
  | .amoMin _ _ _ _ _ => 4
  | .amoMax _ _ _ _ _ => 4
  | .amoAnd _ _ _ _ _ => 4
  | .amoOr _ _ _ _ _ => 4
  | .amoXor _ _ _ _ _ => 4
  | .cas _ _ _ _ _ => 4
  | .fenceAcq _ _ => 4
  | .fenceRel _ _ => 4
  | .fenceFull _ _ => 4
  | .pref _ _ _ _ => 4
  | .vmov _ _ _ _ => 5
  | .vadd _ _ _ _ _ => 5
  | .vsub _ _ _ _ _ => 5
  | .vmul _ _ _ _ _ => 5
  | .vfma _ _ _ _ _ => 5
  | .vfms _ _ _ _ _ => 5
  | .vmin _ _ _ _ _ => 5
  | .vmax _ _ _ _ _ => 5
  | .vabs _ _ _ _ => 5
  | .vneg _ _ _ _ => 5
  | .vrcp _ _ _ _ => 5
  | .vrsq _ _ _ _ => 5
  | .vexp2 _ _ _ _ => 5
  | .vlog2 _ _ _ _ => 5
  | .vand _ _ _ _ _ => 5
  | .vor _ _ _ _ _ => 5
  | .vxor _ _ _ _ _ => 5
  | .vshl _ _ _ _ _ => 5
  | .vshr _ _ _ _ _ => 5
  | .vsar _ _ _ _ _ => 5
  | .vcmpEq _ _ _ _ _ => 5
  | .vcmpNe _ _ _ _ _ => 5
  | .vcmpLt _ _ _ _ _ => 5
  | .vcmpLe _ _ _ _ _ => 5
  | .vcmpGt _ _ _ _ _ => 5
  | .vcmpGe _ _ _ _ _ => 5
  | .vcmpUn _ _ _ _ _ => 5
  | .vsel _ _ _ _ _ => 5
  | .vbcast _ _ _ _ => 5
  | .vredAdd _ _ _ _ => 5
  | .vredMax _ _ _ _ => 5
  | .vredMin _ _ _ _ => 5
  | .vperm _ _ _ _ _ => 5
  | .vshuf _ _ _ _ _ => 5
  | .vmodadd _ _ _ _ _ => 5
  | .vmodsub _ _ _ _ _ => 5
  | .vmodmul _ _ _ _ _ => 5
  | .vbfly _ _ _ _ _ => 5
  | .vibfly _ _ _ _ _ => 5
  | .vmaskAnd _ _ _ _ => 5
  | .vmaskOr _ _ _ _ => 5
  | .vmaskXor _ _ _ _ => 5
  | .vmaskAndn _ _ _ _ => 5
  | .vmaskNot _ _ _ => 5
  | .vlane _ _ _ => 5
  | .vcvt _ _ _ _ _ => 6
  | .vbcastI _ _ _ _ => 6
  | .vshlI _ _ _ _ _ => 6
  | .vshrI _ _ _ _ _ => 6
  | .vsarI _ _ _ _ _ => 6
  | .xbeat _ _ _ _ _ _ _ => 7
  | .xmode _ _ => 7
  | .xzero _ _ => 7
  | .xcks _ _ _ _ => 7
  | .xfix _ _ _ => 7
  | .xres _ _ => 7
  | .xwin _ _ => 7
  | .xinj _ _ _ _ => 7
  | .lds _ _ _ _ _ => 8
  | .ldsTag _ _ _ _ => 8
  | .sts _ _ _ _ _ => 8
  | .ldss _ _ _ _ _ => 8
  | .stss _ _ _ _ _ => 8
  | .bfmt _ _ _ => 8
  | .mv _ _ _ _ => 8
  | .mvi _ _ _ _ => 8
  | .fpeek _ _ _ => 8
  | .flev _ _ _ => 8
  | .lrec _ _ _ => 9
  | .cpy _ _ _ _ _ => 9
  | .cpyx _ _ _ _ _ => 9
  | .cpyt _ _ _ _ _ => 9
  | .cidw _ _ _ => 9
  | .cidr _ _ _ => 9
  | .cinv _ _ _ => 9
  | .chalt _ _ => 9
  | .gload _ _ _ => 10
  | .gchk _ _ => 10
  | .gsel _ _ => 10
  | .gorb _ _ _ => 10
  | .gstat _ _ => 10
  | .msend _ _ _ => 11
  | .mhnd _ _ => 11
  | .wquiet _ => 11
  | .rcstat _ _ => 11
  | .collAr _ _ _ => 11
  | .collRs _ _ _ => 11
  | .collAg _ _ _ => 11
  | .collBc _ _ _ => 11
  | .bar _ _ => 11
  | .gbar _ _ => 11
  | .ctrinc _ _ _ => 11
  | .ctrwait _ _ _ => 11
  | .launch _ _ _ => 11
  | .launchn _ _ _ => 11
  | .glaunch _ _ _ => 11
  | .fwait _ _ => 11
  | .frget _ _ _ _ => 11
  | .frput _ _ _ _ => 11
  | .frres _ _ => 11
  | .frskip _ _ => 11
  | .frkill _ _ => 11
  | .frexc _ _ => 11
  | .wload _ _ => 11
  | .kwipe _ _ => 11
  | .fuserd _ _ _ => 11
  | .mext _ _ _ => 11
  | .dbgopen _ _ => 11
  | _ => 0

/-- The extension byte, of an instruction that takes one (R33). -/
def Instr.ext? : Instr → Option Ext
  | .prep _ _ _ x => some x
  | .loop _ _ _ x => some x
  | .loopi _ _ _ x => some x
  | .loopr _ _ _ x => some x
  | .sel _ _ _ _ x => some x
  | .extb _ _ _ _ x => some x
  | .insb _ _ _ _ x => some x
  | .lea _ _ _ _ x => some x
  | .movi _ _ _ x => some x
  | .movhi _ _ _ x => some x
  | .addi _ _ _ _ x => some x
  | .ceqi _ _ _ _ x => some x
  | .clti _ _ _ _ x => some x
  | .ldW8 _ _ _ _ x => some x
  | .ldW16 _ _ _ _ x => some x
  | .ldW32 _ _ _ _ x => some x
  | .ldW64 _ _ _ _ x => some x
  | .stW8 _ _ _ _ x => some x
  | .stW16 _ _ _ _ x => some x
  | .stW32 _ _ _ _ x => some x
  | .stW64 _ _ _ _ x => some x
  | .ldv _ _ _ _ x => some x
  | .stv _ _ _ _ x => some x
  | .amoAdd _ _ _ _ x => some x
  | .amoMin _ _ _ _ x => some x
  | .amoMax _ _ _ _ x => some x
  | .amoAnd _ _ _ _ x => some x
  | .amoOr _ _ _ _ x => some x
  | .amoXor _ _ _ _ x => some x
  | .cas _ _ _ _ x => some x
  | .fenceAcq _ x => some x
  | .fenceRel _ x => some x
  | .fenceFull _ x => some x
  | .pref _ _ _ x => some x
  | .vmov _ _ _ x => some x
  | .vadd _ _ _ _ x => some x
  | .vsub _ _ _ _ x => some x
  | .vmul _ _ _ _ x => some x
  | .vfma _ _ _ _ x => some x
  | .vfms _ _ _ _ x => some x
  | .vmin _ _ _ _ x => some x
  | .vmax _ _ _ _ x => some x
  | .vabs _ _ _ x => some x
  | .vneg _ _ _ x => some x
  | .vrcp _ _ _ x => some x
  | .vrsq _ _ _ x => some x
  | .vexp2 _ _ _ x => some x
  | .vlog2 _ _ _ x => some x
  | .vand _ _ _ _ x => some x
  | .vor _ _ _ _ x => some x
  | .vxor _ _ _ _ x => some x
  | .vshl _ _ _ _ x => some x
  | .vshr _ _ _ _ x => some x
  | .vsar _ _ _ _ x => some x
  | .vcmpEq _ _ _ _ x => some x
  | .vcmpNe _ _ _ _ x => some x
  | .vcmpLt _ _ _ _ x => some x
  | .vcmpLe _ _ _ _ x => some x
  | .vcmpGt _ _ _ _ x => some x
  | .vcmpGe _ _ _ _ x => some x
  | .vcmpUn _ _ _ _ x => some x
  | .vsel _ _ _ _ x => some x
  | .vbcast _ _ _ x => some x
  | .vredAdd _ _ _ x => some x
  | .vredMax _ _ _ x => some x
  | .vredMin _ _ _ x => some x
  | .vperm _ _ _ _ x => some x
  | .vshuf _ _ _ _ x => some x
  | .vmodadd _ _ _ _ x => some x
  | .vmodsub _ _ _ _ x => some x
  | .vmodmul _ _ _ _ x => some x
  | .vbfly _ _ _ _ x => some x
  | .vibfly _ _ _ _ x => some x
  | .vlane _ _ x => some x
  | .vcvt _ _ _ _ x => some x
  | .vbcastI _ _ _ x => some x
  | .vshlI _ _ _ _ x => some x
  | .vshrI _ _ _ _ x => some x
  | .vsarI _ _ _ _ x => some x
  | .xbeat _ _ _ _ _ _ x => some x
  | .lds _ _ _ _ x => some x
  | .sts _ _ _ _ x => some x
  | .ldss _ _ _ _ x => some x
  | .stss _ _ _ _ x => some x
  | .mv _ _ _ x => some x
  | .mvi _ _ _ x => some x
  | .cpy _ _ _ _ x => some x
  | .cpyx _ _ _ _ x => some x
  | .cpyt _ _ _ _ x => some x
  | .cidw _ _ x => some x
  | .cidr _ _ x => some x
  | .cinv _ _ x => some x
  | .chalt _ x => some x
  | _ => none

/-- Every scalar register code the word names (R106). -/
def Instr.sregs : Instr → List Nat
  | .prepr _ _ a => [a.toNat]
  | .brl _ _ d => [d.toNat]
  | .ret _ a => [a.toNat]
  | .loop _ a _ _ => [a.toNat]
  | .loopr _ a _ _ => [a.toNat]
  | .waitc _ a => [a.toNat]
  | .defct _ d _ => [d.toNat]
  | .tcur _ d => [d.toNat]
  | .ctxid _ d => [d.toNat]
  | .mov _ d a => [d.toNat, a.toNat]
  | .add _ d a b => [d.toNat, a.toNat, b.toNat]
  | .sub _ d a b => [d.toNat, a.toNat, b.toNat]
  | .mul _ d a b => [d.toNat, a.toNat, b.toNat]
  | .mulh _ d a b => [d.toNat, a.toNat, b.toNat]
  | .mulhu _ d a b => [d.toNat, a.toNat, b.toNat]
  | .divs _ d a b => [d.toNat, a.toNat, b.toNat]
  | .divu _ d a b => [d.toNat, a.toNat, b.toNat]
  | .and _ d a b => [d.toNat, a.toNat, b.toNat]
  | .or _ d a b => [d.toNat, a.toNat, b.toNat]
  | .xor _ d a b => [d.toNat, a.toNat, b.toNat]
  | .andn _ d a b => [d.toNat, a.toNat, b.toNat]
  | .shl _ d a b => [d.toNat, a.toNat, b.toNat]
  | .shr _ d a b => [d.toNat, a.toNat, b.toNat]
  | .sar _ d a b => [d.toNat, a.toNat, b.toNat]
  | .rotl _ d a b => [d.toNat, a.toNat, b.toNat]
  | .clz _ d a => [d.toNat, a.toNat]
  | .popc _ d a => [d.toNat, a.toNat]
  | .min _ d a b => [d.toNat, a.toNat, b.toNat]
  | .max _ d a b => [d.toNat, a.toNat, b.toNat]
  | .minu _ d a b => [d.toNat, a.toNat, b.toNat]
  | .maxu _ d a b => [d.toNat, a.toNat, b.toNat]
  | .sel _ d a b _ => [d.toNat, a.toNat, b.toNat]
  | .extb _ d a _ _ => [d.toNat, a.toNat]
  | .insb _ d a _ _ => [d.toNat, a.toNat]
  | .lea _ d a b _ => [d.toNat, a.toNat, b.toNat]
  | .ceq _ _ a b => [a.toNat, b.toNat]
  | .cne _ _ a b => [a.toNat, b.toNat]
  | .clt _ _ a b => [a.toNat, b.toNat]
  | .cltu _ _ a b => [a.toNat, b.toNat]
  | .cle _ _ a b => [a.toNat, b.toNat]
  | .cleu _ _ a b => [a.toNat, b.toNat]
  | .qset _ _ a => [a.toNat]
  | .crd _ d _ => [d.toNat]
  | .cwr _ a _ => [a.toNat]
  | .cwrArrmode _ a => [a.toNat]
  | .cwrModulus _ a _ => [a.toNat]
  | .cwrRptcard _ a _ => [a.toNat]
  | .movi _ d _ _ => [d.toNat]
  | .movhi _ d _ _ => [d.toNat]
  | .addi _ d a _ _ => [d.toNat, a.toNat]
  | .ceqi _ _ a _ _ => [a.toNat]
  | .clti _ _ a _ _ => [a.toNat]
  | .ldW8 _ d a _ _ => [d.toNat, a.toNat]
  | .ldW16 _ d a _ _ => [d.toNat, a.toNat]
  | .ldW32 _ d a _ _ => [d.toNat, a.toNat]
  | .ldW64 _ d a _ _ => [d.toNat, a.toNat]
  | .stW8 _ v a _ _ => [v.toNat, a.toNat]
  | .stW16 _ v a _ _ => [v.toNat, a.toNat]
  | .stW32 _ v a _ _ => [v.toNat, a.toNat]
  | .stW64 _ v a _ _ => [v.toNat, a.toNat]
  | .ldv _ _ a _ _ => [a.toNat]
  | .stv _ _ a _ _ => [a.toNat]
  | .amoAdd _ d a b _ => [d.toNat, a.toNat, b.toNat]
  | .amoMin _ d a b _ => [d.toNat, a.toNat, b.toNat]
  | .amoMax _ d a b _ => [d.toNat, a.toNat, b.toNat]
  | .amoAnd _ d a b _ => [d.toNat, a.toNat, b.toNat]
  | .amoOr _ d a b _ => [d.toNat, a.toNat, b.toNat]
  | .amoXor _ d a b _ => [d.toNat, a.toNat, b.toNat]
  | .cas _ d a b _ => [d.toNat, a.toNat, b.toNat]
  | .pref _ a _ _ => [a.toNat]
  | .vbcast _ _ a _ => [a.toNat]
  | .vredAdd _ d _ _ => [d.toNat]
  | .vredMax _ d _ _ => [d.toNat]
  | .vredMin _ d _ _ => [d.toNat]
  | .xmode _ a => [a.toNat]
  | .xcks _ d a b => [d.toNat, a.toNat, b.toNat]
  | .xfix _ d a => [d.toNat, a.toNat]
  | .xwin _ a => [a.toNat]
  | .xinj _ _ a b => [a.toNat, b.toNat]
  | .lds _ _ a _ _ => [a.toNat]
  | .ldsTag _ _ a t => [a.toNat, t.toNat]
  | .sts _ _ a _ _ => [a.toNat]
  | .ldss _ d a _ _ => [d.toNat, a.toNat]
  | .stss _ v a _ _ => [v.toNat, a.toNat]
  | .bfmt _ _ a => [a.toNat]
  | .fpeek _ d _ => [d.toNat]
  | .flev _ d _ => [d.toNat]
  | .lrec _ _ a => (List.range 12).map (a.toNat + ·)
  | .cpy _ d _ _ _ => [d.toNat]
  | .cpyx _ d _ _ _ => [d.toNat]
  | .cpyt _ a _ _ _ => [a.toNat]
  | .cidw _ a _ => [a.toNat]
  | .cidr _ d _ => [d.toNat]
  | .cinv _ a _ => [a.toNat]
  | .gload _ a _ => [a.toNat]
  | .gchk _ d => [d.toNat]
  | .gsel _ a => [a.toNat]
  | .gorb _ _ a => [a.toNat]
  | .gstat _ d => [d.toNat]
  | .msend _ a _ => [a.toNat]
  | .mhnd _ a => [a.toNat]
  | .rcstat _ d => [d.toNat]
  | .collAr _ d a => [d.toNat, a.toNat]
  | .collRs _ d a => [d.toNat, a.toNat]
  | .collAg _ d a => [d.toNat, a.toNat]
  | .collBc _ d a => [d.toNat, a.toNat]
  | .ctrinc _ a b => [a.toNat, b.toNat]
  | .ctrwait _ a b => [a.toNat, b.toNat]
  | .launch _ d a => [d.toNat, a.toNat]
  | .launchn _ d a => [d.toNat, a.toNat]
  | .glaunch _ d a => [d.toNat, a.toNat]
  | .fwait _ d => [d.toNat]
  | .frget _ _ a b => [a.toNat, b.toNat]
  | .frput _ _ a b => [a.toNat, b.toNat]
  | .frres _ a => [a.toNat]
  | .frskip _ a => [a.toNat]
  | .frkill _ a => [a.toNat]
  | .frexc _ a => [a.toNat]
  | .wload _ a => [a.toNat]
  | .kwipe _ a => [a.toNat]
  | .fuserd _ d a => [d.toNat, a.toNat]
  | .mext _ a b => [a.toNat, b.toNat]
  | .dbgopen _ a => [a.toNat]
  | _ => []

/-- Every vector register code the word names (R106). -/
def Instr.vregs : Instr → List Nat
  | .defer _ a _ n _ => (List.range n.toNat).map (a.toNat + ·)
  | .defdr _ d n _ => (List.range n.toNat).map (d.toNat + ·)
  | .ldv _ d _ _ _ => [d.toNat]
  | .stv _ v _ _ _ => [v.toNat]
  | .vmov _ d a _ => [d.toNat, a.toNat]
  | .vadd _ d a b _ => [d.toNat, a.toNat, b.toNat]
  | .vsub _ d a b _ => [d.toNat, a.toNat, b.toNat]
  | .vmul _ d a b _ => [d.toNat, a.toNat, b.toNat]
  | .vfma _ d a b _ => [d.toNat, a.toNat, b.toNat]
  | .vfms _ d a b _ => [d.toNat, a.toNat, b.toNat]
  | .vmin _ d a b _ => [d.toNat, a.toNat, b.toNat]
  | .vmax _ d a b _ => [d.toNat, a.toNat, b.toNat]
  | .vabs _ d a _ => [d.toNat, a.toNat]
  | .vneg _ d a _ => [d.toNat, a.toNat]
  | .vrcp _ d a _ => [d.toNat, a.toNat]
  | .vrsq _ d a _ => [d.toNat, a.toNat]
  | .vexp2 _ d a _ => [d.toNat, a.toNat]
  | .vlog2 _ d a _ => [d.toNat, a.toNat]
  | .vand _ d a b _ => [d.toNat, a.toNat, b.toNat]
  | .vor _ d a b _ => [d.toNat, a.toNat, b.toNat]
  | .vxor _ d a b _ => [d.toNat, a.toNat, b.toNat]
  | .vshl _ d a b _ => [d.toNat, a.toNat, b.toNat]
  | .vshr _ d a b _ => [d.toNat, a.toNat, b.toNat]
  | .vsar _ d a b _ => [d.toNat, a.toNat, b.toNat]
  | .vcmpEq _ _ a b _ => [a.toNat, b.toNat]
  | .vcmpNe _ _ a b _ => [a.toNat, b.toNat]
  | .vcmpLt _ _ a b _ => [a.toNat, b.toNat]
  | .vcmpLe _ _ a b _ => [a.toNat, b.toNat]
  | .vcmpGt _ _ a b _ => [a.toNat, b.toNat]
  | .vcmpGe _ _ a b _ => [a.toNat, b.toNat]
  | .vcmpUn _ _ a b _ => [a.toNat, b.toNat]
  | .vsel _ d a b _ => [d.toNat, a.toNat, b.toNat]
  | .vbcast _ d _ _ => [d.toNat]
  | .vredAdd _ _ a _ => [a.toNat]
  | .vredMax _ _ a _ => [a.toNat]
  | .vredMin _ _ a _ => [a.toNat]
  | .vperm _ d a b _ => [d.toNat, a.toNat, b.toNat]
  | .vshuf _ d a _ _ => [d.toNat, a.toNat]
  | .vmodadd _ d a b _ => [d.toNat, a.toNat, b.toNat]
  | .vmodsub _ d a b _ => [d.toNat, a.toNat, b.toNat]
  | .vmodmul _ d a b _ => [d.toNat, a.toNat, b.toNat]
  | .vbfly _ d a b _ => [d.toNat, a.toNat, b.toNat]
  | .vibfly _ d a b _ => [d.toNat, a.toNat, b.toNat]
  | .vlane _ d _ => [d.toNat]
  | .vcvt _ _ d a _ => [d.toNat, a.toNat]
  | .vbcastI _ d _ _ => [d.toNat]
  | .vshlI _ d a _ _ => [d.toNat, a.toNat]
  | .vshrI _ d a _ _ => [d.toNat, a.toNat]
  | .vsarI _ d a _ _ => [d.toNat, a.toNat]
  | .xbeat _ s _ _ _ o _ => if s = 3 then [(o.extractLsb' 0 6).toNat] else []
  | .lds _ d _ _ _ => [d.toNat]
  | .ldsTag _ d _ _ => [d.toNat]
  | .sts _ v _ _ _ => [v.toNat]
  | .mv _ d s x => [mvDst d x, mvSrc s x]
  | .mvi _ d _ x => [mvDst d x]
  | .msend _ _ b => [b.toNat]
  | _ => []

/-- The scalar source codes the word reads (R38). -/
def Instr.ssrc : Instr → List Nat
  | .prepr _ _ a => [a.toNat]
  | .ret _ a => [a.toNat]
  | .loop _ a _ _ => [a.toNat]
  | .loopr _ a _ _ => [a.toNat]
  | .waitc _ a => [a.toNat]
  | .mov _ _ a => [a.toNat]
  | .add _ _ a b => [a.toNat, b.toNat]
  | .sub _ _ a b => [a.toNat, b.toNat]
  | .mul _ _ a b => [a.toNat, b.toNat]
  | .mulh _ _ a b => [a.toNat, b.toNat]
  | .mulhu _ _ a b => [a.toNat, b.toNat]
  | .divs _ _ a b => [a.toNat, b.toNat]
  | .divu _ _ a b => [a.toNat, b.toNat]
  | .and _ _ a b => [a.toNat, b.toNat]
  | .or _ _ a b => [a.toNat, b.toNat]
  | .xor _ _ a b => [a.toNat, b.toNat]
  | .andn _ _ a b => [a.toNat, b.toNat]
  | .shl _ _ a b => [a.toNat, b.toNat]
  | .shr _ _ a b => [a.toNat, b.toNat]
  | .sar _ _ a b => [a.toNat, b.toNat]
  | .rotl _ _ a b => [a.toNat, b.toNat]
  | .clz _ _ a => [a.toNat]
  | .popc _ _ a => [a.toNat]
  | .min _ _ a b => [a.toNat, b.toNat]
  | .max _ _ a b => [a.toNat, b.toNat]
  | .minu _ _ a b => [a.toNat, b.toNat]
  | .maxu _ _ a b => [a.toNat, b.toNat]
  | .sel _ _ a b _ => [a.toNat, b.toNat]
  | .extb _ _ a _ _ => [a.toNat]
  | .insb _ _ a _ _ => [a.toNat]
  | .lea _ _ a b _ => [a.toNat, b.toNat]
  | .ceq _ _ a b => [a.toNat, b.toNat]
  | .cne _ _ a b => [a.toNat, b.toNat]
  | .clt _ _ a b => [a.toNat, b.toNat]
  | .cltu _ _ a b => [a.toNat, b.toNat]
  | .cle _ _ a b => [a.toNat, b.toNat]
  | .cleu _ _ a b => [a.toNat, b.toNat]
  | .qset _ _ a => [a.toNat]
  | .cwr _ a _ => [a.toNat]
  | .cwrArrmode _ a => [a.toNat]
  | .cwrModulus _ a _ => [a.toNat]
  | .cwrRptcard _ a _ => [a.toNat]
  | .addi _ _ a _ _ => [a.toNat]
  | .ceqi _ _ a _ _ => [a.toNat]
  | .clti _ _ a _ _ => [a.toNat]
  | .ldW8 _ _ a _ _ => [a.toNat]
  | .ldW16 _ _ a _ _ => [a.toNat]
  | .ldW32 _ _ a _ _ => [a.toNat]
  | .ldW64 _ _ a _ _ => [a.toNat]
  | .stW8 _ v a _ _ => [v.toNat, a.toNat]
  | .stW16 _ v a _ _ => [v.toNat, a.toNat]
  | .stW32 _ v a _ _ => [v.toNat, a.toNat]
  | .stW64 _ v a _ _ => [v.toNat, a.toNat]
  | .ldv _ _ a _ _ => [a.toNat]
  | .stv _ _ a _ _ => [a.toNat]
  | .amoAdd _ _ a b _ => [a.toNat, b.toNat]
  | .amoMin _ _ a b _ => [a.toNat, b.toNat]
  | .amoMax _ _ a b _ => [a.toNat, b.toNat]
  | .amoAnd _ _ a b _ => [a.toNat, b.toNat]
  | .amoOr _ _ a b _ => [a.toNat, b.toNat]
  | .amoXor _ _ a b _ => [a.toNat, b.toNat]
  | .cas _ _ a b _ => [a.toNat, b.toNat]
  | .pref _ a _ _ => [a.toNat]
  | .vbcast _ _ a _ => [a.toNat]
  | .xmode _ a => [a.toNat]
  | .xcks _ _ a b => [a.toNat, b.toNat]
  | .xfix _ _ a => [a.toNat]
  | .xwin _ a => [a.toNat]
  | .xinj _ _ a b => [a.toNat, b.toNat]
  | .lds _ _ a _ _ => [a.toNat]
  | .ldsTag _ _ a t => [a.toNat, t.toNat]
  | .sts _ _ a _ _ => [a.toNat]
  | .ldss _ _ a _ _ => [a.toNat]
  | .stss _ v a _ _ => [v.toNat, a.toNat]
  | .bfmt _ _ a => [a.toNat]
  | .cpyt _ a _ _ _ => [a.toNat]
  | .cidw _ a _ => [a.toNat]
  | .cinv _ a _ => [a.toNat]
  | .gload _ a _ => [a.toNat]
  | .gsel _ a => [a.toNat]
  | .gorb _ _ a => [a.toNat]
  | .msend _ a _ => [a.toNat]
  | .mhnd _ a => [a.toNat]
  | .collAr _ _ a => [a.toNat]
  | .collRs _ _ a => [a.toNat]
  | .collAg _ _ a => [a.toNat]
  | .collBc _ _ a => [a.toNat]
  | .ctrinc _ a b => [a.toNat, b.toNat]
  | .ctrwait _ a b => [a.toNat, b.toNat]
  | .launch _ _ a => [a.toNat]
  | .launchn _ _ a => [a.toNat]
  | .glaunch _ _ a => [a.toNat]
  | .frget _ _ a b => [a.toNat, b.toNat]
  | .frput _ _ a b => [a.toNat, b.toNat]
  | .frres _ a => [a.toNat]
  | .frskip _ a => [a.toNat]
  | .frkill _ a => [a.toNat]
  | .frexc _ a => [a.toNat]
  | .wload _ a => [a.toNat]
  | .kwipe _ a => [a.toNat]
  | .fuserd _ _ a => [a.toNat]
  | .mext _ a b => [a.toNat, b.toNat]
  | .dbgopen _ a => [a.toNat]
  | _ => []

/-- The vector source codes the word reads (R38). -/
def Instr.vsrc : Instr → List Nat
  | .stv _ v _ _ _ => [v.toNat]
  | .vmov _ _ a _ => [a.toNat]
  | .vadd _ _ a b _ => [a.toNat, b.toNat]
  | .vsub _ _ a b _ => [a.toNat, b.toNat]
  | .vmul _ _ a b _ => [a.toNat, b.toNat]
  | .vfma _ _ a b _ => [a.toNat, b.toNat]
  | .vfms _ _ a b _ => [a.toNat, b.toNat]
  | .vmin _ _ a b _ => [a.toNat, b.toNat]
  | .vmax _ _ a b _ => [a.toNat, b.toNat]
  | .vabs _ _ a _ => [a.toNat]
  | .vneg _ _ a _ => [a.toNat]
  | .vrcp _ _ a _ => [a.toNat]
  | .vrsq _ _ a _ => [a.toNat]
  | .vexp2 _ _ a _ => [a.toNat]
  | .vlog2 _ _ a _ => [a.toNat]
  | .vand _ _ a b _ => [a.toNat, b.toNat]
  | .vor _ _ a b _ => [a.toNat, b.toNat]
  | .vxor _ _ a b _ => [a.toNat, b.toNat]
  | .vshl _ _ a b _ => [a.toNat, b.toNat]
  | .vshr _ _ a b _ => [a.toNat, b.toNat]
  | .vsar _ _ a b _ => [a.toNat, b.toNat]
  | .vcmpEq _ _ a b _ => [a.toNat, b.toNat]
  | .vcmpNe _ _ a b _ => [a.toNat, b.toNat]
  | .vcmpLt _ _ a b _ => [a.toNat, b.toNat]
  | .vcmpLe _ _ a b _ => [a.toNat, b.toNat]
  | .vcmpGt _ _ a b _ => [a.toNat, b.toNat]
  | .vcmpGe _ _ a b _ => [a.toNat, b.toNat]
  | .vcmpUn _ _ a b _ => [a.toNat, b.toNat]
  | .vsel _ _ a b _ => [a.toNat, b.toNat]
  | .vredAdd _ _ a _ => [a.toNat]
  | .vredMax _ _ a _ => [a.toNat]
  | .vredMin _ _ a _ => [a.toNat]
  | .vperm _ _ a b _ => [a.toNat, b.toNat]
  | .vshuf _ _ a _ _ => [a.toNat]
  | .vmodadd _ _ a b _ => [a.toNat, b.toNat]
  | .vmodsub _ _ a b _ => [a.toNat, b.toNat]
  | .vmodmul _ _ a b _ => [a.toNat, b.toNat]
  | .vbfly _ _ a b _ => [a.toNat, b.toNat]
  | .vibfly _ _ a b _ => [a.toNat, b.toNat]
  | .vcvt _ _ _ a _ => [a.toNat]
  | .vshlI _ _ a _ _ => [a.toNat]
  | .vshrI _ _ a _ _ => [a.toNat]
  | .vsarI _ _ a _ _ => [a.toNat]
  | .sts _ v _ _ _ => [v.toNat]
  | .mv _ _ s x => [mvSrc s x]
  | .msend _ _ b => [b.toNat]
  | _ => []

/-- The extension byte agrees with what the instruction takes (R33). -/
def Instr.extAgrees (i : Instr) (x : Ext) : Bool :=
  match i.ext? with
  | some y => decide (y = x)
  | none => decide (x.getD 0 = 0)

end Sys2Proof
end

