-- ==== Sys2Proof/Decode.lean ====
section
/-! DEFINITION. Decoding of slot words and bundles (R29 to R36, R62 to R78), and after it the encoder written from the
same tables. -/

namespace Sys2Proof

/-- The fields of a slot word (R30). -/
structure Fields where
  cls : BitVec 4
  g : BitVec 4
  minor : Code
  f1 : Code
  f2 : Code
  f3 : Code
  deriving DecidableEq, Repr

/-- The slot word of the fields (R30). -/
def packFields (f : Fields) : BitVec 32 := f.cls ++ f.g ++ f.minor ++ f.f1 ++ f.f2 ++ f.f3

/-- The fields of a slot word (R30). -/
def unpackFields (w : BitVec 32) : Fields :=
  ⟨w.extractLsb' 28 4, w.extractLsb' 24 4, w.extractLsb' 18 6, w.extractLsb' 12 6, w.extractLsb' 6 6, w.extractLsb' 0 6⟩


/-- The fields of an instruction's slot word (R68 to R78); all zero for an instruction without a word. -/
def Instr.fields : Instr → Fields
  | .prep g j i _ => ⟨1, g, 0, j, (i.extractLsb' 6 6), (i.extractLsb' 0 6)⟩
  | .prepr g j a => ⟨1, g, 1, j, a, 0⟩
  | .br g j => ⟨1, g, 2, j, 0, 0⟩
  | .brl g j d => ⟨1, g, 3, j, d, 0⟩
  | .ret g a => ⟨1, g, 4, 0, a, 0⟩
  | .loop g a l _ => ⟨1, g, 8, a, (l.extractLsb' 6 6), (l.extractLsb' 0 6)⟩
  | .loopi g l n _ => ⟨1, g, 9, l, (n.extractLsb' 6 6), (n.extractLsb' 0 6)⟩
  | .loopr g a l _ => ⟨1, g, 10, a, (l.extractLsb' 6 6), (l.extractLsb' 0 6)⟩
  | .lbrk g => ⟨1, g, 12, 0, 0, 0⟩
  | .yield g => ⟨1, g, 16, 0, 0, 0⟩
  | .done g => ⟨1, g, 17, 0, 0, 0⟩
  | .trap g i => ⟨1, g, 18, 0, (i.extractLsb' 6 6), (i.extractLsb' 0 6)⟩
  | .waitc g a => ⟨1, g, 19, 0, a, 0⟩
  | .defer g a k n p => ⟨1, g, 24, a, (k ++ n), p⟩
  | .defdr g d n p => ⟨1, g, 25, d, (0#3 ++ n), p⟩
  | .defct g d p => ⟨1, g, 26, d, 0, p⟩
  | .tcur g d => ⟨1, g, 32, d, 0, 0⟩
  | .ctxid g d => ⟨1, g, 33, d, 0, 0⟩
  | .prio g p => ⟨1, g, 34, 0, 0, p⟩
  | .bkpt g => ⟨1, g, 63, 63, 63, 63⟩
  | .mov g d a => ⟨2, g, 0, d, a, 0⟩
  | .add g d a b => ⟨2, g, 1, d, a, b⟩
  | .sub g d a b => ⟨2, g, 2, d, a, b⟩
  | .mul g d a b => ⟨2, g, 3, d, a, b⟩
  | .mulh g d a b => ⟨2, g, 4, d, a, b⟩
  | .mulhu g d a b => ⟨2, g, 5, d, a, b⟩
  | .divs g d a b => ⟨2, g, 6, d, a, b⟩
  | .divu g d a b => ⟨2, g, 7, d, a, b⟩
  | .and g d a b => ⟨2, g, 8, d, a, b⟩
  | .or g d a b => ⟨2, g, 9, d, a, b⟩
  | .xor g d a b => ⟨2, g, 10, d, a, b⟩
  | .andn g d a b => ⟨2, g, 11, d, a, b⟩
  | .shl g d a b => ⟨2, g, 12, d, a, b⟩
  | .shr g d a b => ⟨2, g, 13, d, a, b⟩
  | .sar g d a b => ⟨2, g, 14, d, a, b⟩
  | .rotl g d a b => ⟨2, g, 15, d, a, b⟩
  | .clz g d a => ⟨2, g, 16, d, a, 0⟩
  | .popc g d a => ⟨2, g, 17, d, a, 0⟩
  | .min g d a b => ⟨2, g, 18, d, a, b⟩
  | .max g d a b => ⟨2, g, 19, d, a, b⟩
  | .minu g d a b => ⟨2, g, 20, d, a, b⟩
  | .maxu g d a b => ⟨2, g, 21, d, a, b⟩
  | .sel g d a b _ => ⟨2, g, 22, d, a, b⟩
  | .extb g d a p _ => ⟨2, g, 23, d, a, p⟩
  | .insb g d a p _ => ⟨2, g, 24, d, a, p⟩
  | .lea g d a b _ => ⟨2, g, 25, d, a, b⟩
  | .ceq g c a b => ⟨2, g, 32, c, a, b⟩
  | .cne g c a b => ⟨2, g, 33, c, a, b⟩
  | .clt g c a b => ⟨2, g, 34, c, a, b⟩
  | .cltu g c a b => ⟨2, g, 35, c, a, b⟩
  | .cle g c a b => ⟨2, g, 36, c, a, b⟩
  | .cleu g c a b => ⟨2, g, 37, c, a, b⟩
  | .qset g c a => ⟨2, g, 40, c, a, 0⟩
  | .qand g c y z => ⟨2, g, 41, c, y, z⟩
  | .qor g c y z => ⟨2, g, 42, c, y, z⟩
  | .qnot g c y => ⟨2, g, 43, c, y, 0⟩
  | .crd g d r => ⟨2, g, 48, d, (r.extractLsb' 6 6), (r.extractLsb' 0 6)⟩
  | .cwr g a r => ⟨2, g, 49, a, (r.extractLsb' 6 6), (r.extractLsb' 0 6)⟩
  | .cwrArrmode g a => ⟨2, g, 49, a, 0, 9⟩
  | .cwrModulus g a k => ⟨2, g, 49, a, 0, (0xC#4 ++ k)⟩
  | .cwrRptcard g a n => ⟨2, g, 49, a, 0, (0x4#4 ++ n)⟩
  | .allot g m n => ⟨2, g, 56, 0, m, n⟩
  | .shrink g m n => ⟨2, g, 57, 0, m, n⟩
  | .movi g d i _ => ⟨3, g, 0, d, (i.extractLsb' 6 6), (i.extractLsb' 0 6)⟩
  | .movhi g d i _ => ⟨3, g, 1, d, (i.extractLsb' 6 6), (i.extractLsb' 0 6)⟩
  | .addi g d a i _ => ⟨3, g, 2, d, a, i⟩
  | .ceqi g c a i _ => ⟨3, g, 8, c, a, i⟩
  | .clti g c a i _ => ⟨3, g, 9, c, a, i⟩
  | .ldW8 g d a o _ => ⟨4, g, 0, d, a, o⟩
  | .ldW16 g d a o _ => ⟨4, g, 1, d, a, o⟩
  | .ldW32 g d a o _ => ⟨4, g, 2, d, a, o⟩
  | .ldW64 g d a o _ => ⟨4, g, 3, d, a, o⟩
  | .stW8 g v a o _ => ⟨4, g, 4, v, a, o⟩
  | .stW16 g v a o _ => ⟨4, g, 5, v, a, o⟩
  | .stW32 g v a o _ => ⟨4, g, 6, v, a, o⟩
  | .stW64 g v a o _ => ⟨4, g, 7, v, a, o⟩
  | .ldv g d a o _ => ⟨4, g, 8, d, a, o⟩
  | .stv g v a o _ => ⟨4, g, 9, v, a, o⟩
  | .amoAdd g d a b _ => ⟨4, g, 16, d, a, b⟩
  | .amoMin g d a b _ => ⟨4, g, 17, d, a, b⟩
  | .amoMax g d a b _ => ⟨4, g, 18, d, a, b⟩
  | .amoAnd g d a b _ => ⟨4, g, 19, d, a, b⟩
  | .amoOr g d a b _ => ⟨4, g, 20, d, a, b⟩
  | .amoXor g d a b _ => ⟨4, g, 21, d, a, b⟩
  | .cas g d a b _ => ⟨4, g, 24, d, a, b⟩
  | .fenceAcq g _ => ⟨4, g, 32, 0, 0, 0⟩
  | .fenceRel g _ => ⟨4, g, 33, 0, 0, 0⟩
  | .fenceFull g _ => ⟨4, g, 34, 0, 0, 0⟩
  | .pref g a o _ => ⟨4, g, 40, 0, a, o⟩
  | .vmov g d a _ => ⟨5, g, 0, d, a, 0⟩
  | .vadd g d a b _ => ⟨5, g, 1, d, a, b⟩
  | .vsub g d a b _ => ⟨5, g, 2, d, a, b⟩
  | .vmul g d a b _ => ⟨5, g, 3, d, a, b⟩
  | .vfma g d a b _ => ⟨5, g, 4, d, a, b⟩
  | .vfms g d a b _ => ⟨5, g, 5, d, a, b⟩
  | .vmin g d a b _ => ⟨5, g, 6, d, a, b⟩
  | .vmax g d a b _ => ⟨5, g, 7, d, a, b⟩
  | .vabs g d a _ => ⟨5, g, 8, d, a, 0⟩
  | .vneg g d a _ => ⟨5, g, 9, d, a, 0⟩
  | .vrcp g d a _ => ⟨5, g, 10, d, a, 0⟩
  | .vrsq g d a _ => ⟨5, g, 11, d, a, 0⟩
  | .vexp2 g d a _ => ⟨5, g, 12, d, a, 0⟩
  | .vlog2 g d a _ => ⟨5, g, 13, d, a, 0⟩
  | .vand g d a b _ => ⟨5, g, 16, d, a, b⟩
  | .vor g d a b _ => ⟨5, g, 17, d, a, b⟩
  | .vxor g d a b _ => ⟨5, g, 18, d, a, b⟩
  | .vshl g d a b _ => ⟨5, g, 19, d, a, b⟩
  | .vshr g d a b _ => ⟨5, g, 20, d, a, b⟩
  | .vsar g d a b _ => ⟨5, g, 21, d, a, b⟩
  | .vcmpEq g m a b _ => ⟨5, g, 24, m, a, b⟩
  | .vcmpNe g m a b _ => ⟨5, g, 25, m, a, b⟩
  | .vcmpLt g m a b _ => ⟨5, g, 26, m, a, b⟩
  | .vcmpLe g m a b _ => ⟨5, g, 27, m, a, b⟩
  | .vcmpGt g m a b _ => ⟨5, g, 28, m, a, b⟩
  | .vcmpGe g m a b _ => ⟨5, g, 29, m, a, b⟩
  | .vcmpUn g m a b _ => ⟨5, g, 30, m, a, b⟩
  | .vsel g d a b _ => ⟨5, g, 32, d, a, b⟩
  | .vbcast g d a _ => ⟨5, g, 33, d, a, 0⟩
  | .vredAdd g d a _ => ⟨5, g, 34, d, a, 0⟩
  | .vredMax g d a _ => ⟨5, g, 35, d, a, 0⟩
  | .vredMin g d a _ => ⟨5, g, 36, d, a, 0⟩
  | .vperm g d a b _ => ⟨5, g, 37, d, a, b⟩
  | .vshuf g d a p _ => ⟨5, g, 38, d, a, p⟩
  | .vmodadd g d a b _ => ⟨5, g, 40, d, a, b⟩
  | .vmodsub g d a b _ => ⟨5, g, 41, d, a, b⟩
  | .vmodmul g d a b _ => ⟨5, g, 42, d, a, b⟩
  | .vbfly g d a b _ => ⟨5, g, 43, d, a, b⟩
  | .vibfly g d a b _ => ⟨5, g, 44, d, a, b⟩
  | .vmaskAnd g m y z => ⟨5, g, 48, m, y, z⟩
  | .vmaskOr g m y z => ⟨5, g, 49, m, y, z⟩
  | .vmaskXor g m y z => ⟨5, g, 50, m, y, z⟩
  | .vmaskAndn g m y z => ⟨5, g, 51, m, y, z⟩
  | .vmaskNot g m y => ⟨5, g, 52, m, y, 0⟩
  | .vlane g d _ => ⟨5, g, 56, d, 0, 0⟩
  | .vcvt g r d a _ => ⟨6, g, (0#3 ++ r), d, a, 0⟩
  | .vbcastI g d i _ => ⟨6, g, 16, d, (i.extractLsb' 6 6), (i.extractLsb' 0 6)⟩
  | .vshlI g d a n _ => ⟨6, g, 19, d, a, n⟩
  | .vshrI g d a n _ => ⟨6, g, 20, d, a, n⟩
  | .vsarI g d a n _ => ⟨6, g, 21, d, a, n⟩
  | .xbeat g s w p r o _ => ⟨7, g, (0#1 ++ s ++ w ++ p), r, (o.extractLsb' 6 6), (o.extractLsb' 0 6)⟩
  | .xmode g a => ⟨7, g, 32, 0, a, 0⟩
  | .xzero g r => ⟨7, g, 33, r, 0, 0⟩
  | .xcks g d a b => ⟨7, g, 34, d, a, b⟩
  | .xfix g d a => ⟨7, g, 35, d, a, 0⟩
  | .xres g k => ⟨7, g, 36, 0, 0, k⟩
  | .xwin g a => ⟨7, g, 37, 0, a, 0⟩
  | .xinj g r a b => ⟨7, g, 63, r, a, b⟩
  | .lds g d a o _ => ⟨8, g, 0, d, a, o⟩
  | .ldsTag g d a t => ⟨8, g, 1, d, a, t⟩
  | .sts g v a o _ => ⟨8, g, 2, v, a, o⟩
  | .ldss g d a o _ => ⟨8, g, 4, d, a, o⟩
  | .stss g v a o _ => ⟨8, g, 5, v, a, o⟩
  | .bfmt g k a => ⟨8, g, 8, k, a, 0⟩
  | .mv g d s _ => ⟨8, g, 16, d, s, 0⟩
  | .mvi g d i _ => ⟨8, g, 17, d, (i.extractLsb' 6 6), (i.extractLsb' 0 6)⟩
  | .fpeek g d f => ⟨8, g, 24, d, 0, f⟩
  | .flev g d f => ⟨8, g, 25, d, 0, f⟩
  | .lrec g k a => ⟨9, g, 0, k, a, 0⟩
  | .cpy g d l m _ => ⟨9, g, 1, d, l, m⟩
  | .cpyx g d l m _ => ⟨9, g, 2, d, l, m⟩
  | .cpyt g a l m _ => ⟨9, g, 3, a, l, m⟩
  | .cidw g a _ => ⟨9, g, 8, 0, a, 0⟩
  | .cidr g d _ => ⟨9, g, 9, d, 0, 0⟩
  | .cinv g a _ => ⟨9, g, 10, 0, a, 0⟩
  | .chalt g _ => ⟨9, g, 11, 0, 0, 0⟩
  | .gload g a n => ⟨10, g, 0, 0, a, n⟩
  | .gchk g d => ⟨10, g, 1, d, 0, 0⟩
  | .gsel g a => ⟨10, g, 2, 0, a, 0⟩
  | .gorb g r a => ⟨10, g, 3, r, a, 0⟩
  | .gstat g d => ⟨10, g, 4, d, 0, 0⟩
  | .msend g a b => ⟨11, g, 0, 0, a, b⟩
  | .mhnd g a => ⟨11, g, 1, 0, a, 0⟩
  | .wquiet g => ⟨11, g, 2, 0, 0, 0⟩
  | .rcstat g d => ⟨11, g, 3, d, 0, 0⟩
  | .collAr g d a => ⟨11, g, 4, d, a, 0⟩
  | .collRs g d a => ⟨11, g, 5, d, a, 0⟩
  | .collAg g d a => ⟨11, g, 6, d, a, 0⟩
  | .collBc g d a => ⟨11, g, 7, d, a, 0⟩
  | .bar g n => ⟨11, g, 8, 0, 0, n⟩
  | .gbar g n => ⟨11, g, 9, 0, 0, n⟩
  | .ctrinc g a b => ⟨11, g, 10, 0, a, b⟩
  | .ctrwait g a b => ⟨11, g, 11, 0, a, b⟩
  | .launch g d a => ⟨11, g, 16, d, a, 0⟩
  | .launchn g d a => ⟨11, g, 17, d, a, 0⟩
  | .glaunch g d a => ⟨11, g, 18, d, a, 0⟩
  | .fwait g d => ⟨11, g, 24, d, 0, 0⟩
  | .frget g d a b => ⟨11, g, 25, d, a, b⟩
  | .frput g c a b => ⟨11, g, 26, c, a, b⟩
  | .frres g a => ⟨11, g, 27, 0, a, 0⟩
  | .frskip g a => ⟨11, g, 28, 0, a, 0⟩
  | .frkill g a => ⟨11, g, 29, 0, a, 0⟩
  | .frexc g a => ⟨11, g, 30, 0, a, 0⟩
  | .wload g a => ⟨11, g, 32, 0, a, 0⟩
  | .kwipe g a => ⟨11, g, 33, 0, a, 0⟩
  | .fuserd g d a => ⟨11, g, 34, d, a, 0⟩
  | .mext g a b => ⟨11, g, 35, 0, a, b⟩
  | .dbgopen g a => ⟨11, g, 36, 0, a, 0⟩
  | _ => ⟨0, 0, 0, 0, 0, 0⟩

/-- Class 0x1 (R68), by minor code, before any limit is checked. -/
def decodeK (f : Fields) (x : Ext) : Option Instr :=
  if f.minor = 0 then some (.prep f.g f.f1 (f.f2 ++ f.f3) x)
  else if f.minor = 1 then some (.prepr f.g f.f1 f.f2)
  else if f.minor = 2 then some (.br f.g f.f1)
  else if f.minor = 3 then some (.brl f.g f.f1 f.f2)
  else if f.minor = 4 then some (.ret f.g f.f2)
  else if f.minor = 8 then some (.loop f.g f.f1 (f.f2 ++ f.f3) x)
  else if f.minor = 9 then some (.loopi f.g f.f1 (f.f2 ++ f.f3) x)
  else if f.minor = 10 then some (.loopr f.g f.f1 (f.f2 ++ f.f3) x)
  else if f.minor = 12 then some (.lbrk f.g)
  else if f.minor = 16 then some (.yield f.g)
  else if f.minor = 17 then some (.done f.g)
  else if f.minor = 18 then some (.trap f.g (f.f2 ++ f.f3))
  else if f.minor = 19 then some (.waitc f.g f.f2)
  else if f.minor = 24 then some (.defer f.g f.f1 (f.f2.extractLsb' 3 3) (f.f2.extractLsb' 0 3) f.f3)
  else if f.minor = 25 then some (.defdr f.g f.f1 (f.f2.extractLsb' 0 3) f.f3)
  else if f.minor = 26 then some (.defct f.g f.f1 f.f3)
  else if f.minor = 32 then some (.tcur f.g f.f1)
  else if f.minor = 33 then some (.ctxid f.g f.f1)
  else if f.minor = 34 then some (.prio f.g f.f3)
  else if f.minor = 63 then some (.bkpt f.g)
  else none

/-- Class 0x2 (R69), by minor code, before any limit is checked. -/
def decodeS (f : Fields) (x : Ext) : Option Instr :=
  if f.minor = 0 then some (.mov f.g f.f1 f.f2)
  else if f.minor = 1 then some (.add f.g f.f1 f.f2 f.f3)
  else if f.minor = 2 then some (.sub f.g f.f1 f.f2 f.f3)
  else if f.minor = 3 then some (.mul f.g f.f1 f.f2 f.f3)
  else if f.minor = 4 then some (.mulh f.g f.f1 f.f2 f.f3)
  else if f.minor = 5 then some (.mulhu f.g f.f1 f.f2 f.f3)
  else if f.minor = 6 then some (.divs f.g f.f1 f.f2 f.f3)
  else if f.minor = 7 then some (.divu f.g f.f1 f.f2 f.f3)
  else if f.minor = 8 then some (.and f.g f.f1 f.f2 f.f3)
  else if f.minor = 9 then some (.or f.g f.f1 f.f2 f.f3)
  else if f.minor = 10 then some (.xor f.g f.f1 f.f2 f.f3)
  else if f.minor = 11 then some (.andn f.g f.f1 f.f2 f.f3)
  else if f.minor = 12 then some (.shl f.g f.f1 f.f2 f.f3)
  else if f.minor = 13 then some (.shr f.g f.f1 f.f2 f.f3)
  else if f.minor = 14 then some (.sar f.g f.f1 f.f2 f.f3)
  else if f.minor = 15 then some (.rotl f.g f.f1 f.f2 f.f3)
  else if f.minor = 16 then some (.clz f.g f.f1 f.f2)
  else if f.minor = 17 then some (.popc f.g f.f1 f.f2)
  else if f.minor = 18 then some (.min f.g f.f1 f.f2 f.f3)
  else if f.minor = 19 then some (.max f.g f.f1 f.f2 f.f3)
  else if f.minor = 20 then some (.minu f.g f.f1 f.f2 f.f3)
  else if f.minor = 21 then some (.maxu f.g f.f1 f.f2 f.f3)
  else if f.minor = 22 then some (.sel f.g f.f1 f.f2 f.f3 x)
  else if f.minor = 23 then some (.extb f.g f.f1 f.f2 f.f3 x)
  else if f.minor = 24 then some (.insb f.g f.f1 f.f2 f.f3 x)
  else if f.minor = 25 then some (.lea f.g f.f1 f.f2 f.f3 x)
  else if f.minor = 32 then some (.ceq f.g f.f1 f.f2 f.f3)
  else if f.minor = 33 then some (.cne f.g f.f1 f.f2 f.f3)
  else if f.minor = 34 then some (.clt f.g f.f1 f.f2 f.f3)
  else if f.minor = 35 then some (.cltu f.g f.f1 f.f2 f.f3)
  else if f.minor = 36 then some (.cle f.g f.f1 f.f2 f.f3)
  else if f.minor = 37 then some (.cleu f.g f.f1 f.f2 f.f3)
  else if f.minor = 40 then some (.qset f.g f.f1 f.f2)
  else if f.minor = 41 then some (.qand f.g f.f1 f.f2 f.f3)
  else if f.minor = 42 then some (.qor f.g f.f1 f.f2 f.f3)
  else if f.minor = 43 then some (.qnot f.g f.f1 f.f2)
  else if f.minor = 48 then some (.crd f.g f.f1 (f.f2 ++ f.f3))
  else if f.minor = 49 ∧ f.f2 = 0 ∧ f.f3 = 9 then some (.cwrArrmode f.g f.f1)
  else if f.minor = 49 ∧ f.f2 = 0 ∧ f.f3.extractLsb' 2 4 = 12 then some (.cwrModulus f.g f.f1 (f.f3.extractLsb' 0 2))
  else if f.minor = 49 ∧ f.f2 = 0 ∧ f.f3.extractLsb' 2 4 = 4 then some (.cwrRptcard f.g f.f1 (f.f3.extractLsb' 0 2))
  else if f.minor = 56 then some (.allot f.g f.f2 f.f3)
  else if f.minor = 57 then some (.shrink f.g f.f2 f.f3)
  else if f.minor = 49 then some (.cwr f.g f.f1 (f.f2 ++ f.f3))
  else none

/-- Class 0x3 (R70), by minor code, before any limit is checked. -/
def decodeSI (f : Fields) (x : Ext) : Option Instr :=
  if f.minor = 0 then some (.movi f.g f.f1 (f.f2 ++ f.f3) x)
  else if f.minor = 1 then some (.movhi f.g f.f1 (f.f2 ++ f.f3) x)
  else if f.minor = 2 then some (.addi f.g f.f1 f.f2 f.f3 x)
  else if f.minor = 8 then some (.ceqi f.g f.f1 f.f2 f.f3 x)
  else if f.minor = 9 then some (.clti f.g f.f1 f.f2 f.f3 x)
  else none

/-- Class 0x4 (R71), by minor code, before any limit is checked. -/
def decodeM (f : Fields) (x : Ext) : Option Instr :=
  if f.minor = 0 then some (.ldW8 f.g f.f1 f.f2 f.f3 x)
  else if f.minor = 1 then some (.ldW16 f.g f.f1 f.f2 f.f3 x)
  else if f.minor = 2 then some (.ldW32 f.g f.f1 f.f2 f.f3 x)
  else if f.minor = 3 then some (.ldW64 f.g f.f1 f.f2 f.f3 x)
  else if f.minor = 4 then some (.stW8 f.g f.f1 f.f2 f.f3 x)
  else if f.minor = 5 then some (.stW16 f.g f.f1 f.f2 f.f3 x)
  else if f.minor = 6 then some (.stW32 f.g f.f1 f.f2 f.f3 x)
  else if f.minor = 7 then some (.stW64 f.g f.f1 f.f2 f.f3 x)
  else if f.minor = 8 then some (.ldv f.g f.f1 f.f2 f.f3 x)
  else if f.minor = 9 then some (.stv f.g f.f1 f.f2 f.f3 x)
  else if f.minor = 16 then some (.amoAdd f.g f.f1 f.f2 f.f3 x)
  else if f.minor = 17 then some (.amoMin f.g f.f1 f.f2 f.f3 x)
  else if f.minor = 18 then some (.amoMax f.g f.f1 f.f2 f.f3 x)
  else if f.minor = 19 then some (.amoAnd f.g f.f1 f.f2 f.f3 x)
  else if f.minor = 20 then some (.amoOr f.g f.f1 f.f2 f.f3 x)
  else if f.minor = 21 then some (.amoXor f.g f.f1 f.f2 f.f3 x)
  else if f.minor = 24 then some (.cas f.g f.f1 f.f2 f.f3 x)
  else if f.minor = 32 then some (.fenceAcq f.g x)
  else if f.minor = 33 then some (.fenceRel f.g x)
  else if f.minor = 34 then some (.fenceFull f.g x)
  else if f.minor = 40 then some (.pref f.g f.f2 f.f3 x)
  else none

/-- Class 0x5 (R72), by minor code, before any limit is checked. -/
def decodeV (f : Fields) (x : Ext) : Option Instr :=
  if f.minor = 0 then some (.vmov f.g f.f1 f.f2 x)
  else if f.minor = 1 then some (.vadd f.g f.f1 f.f2 f.f3 x)
  else if f.minor = 2 then some (.vsub f.g f.f1 f.f2 f.f3 x)
  else if f.minor = 3 then some (.vmul f.g f.f1 f.f2 f.f3 x)
  else if f.minor = 4 then some (.vfma f.g f.f1 f.f2 f.f3 x)
  else if f.minor = 5 then some (.vfms f.g f.f1 f.f2 f.f3 x)
  else if f.minor = 6 then some (.vmin f.g f.f1 f.f2 f.f3 x)
  else if f.minor = 7 then some (.vmax f.g f.f1 f.f2 f.f3 x)
  else if f.minor = 8 then some (.vabs f.g f.f1 f.f2 x)
  else if f.minor = 9 then some (.vneg f.g f.f1 f.f2 x)
  else if f.minor = 10 then some (.vrcp f.g f.f1 f.f2 x)
  else if f.minor = 11 then some (.vrsq f.g f.f1 f.f2 x)
  else if f.minor = 12 then some (.vexp2 f.g f.f1 f.f2 x)
  else if f.minor = 13 then some (.vlog2 f.g f.f1 f.f2 x)
  else if f.minor = 16 then some (.vand f.g f.f1 f.f2 f.f3 x)
  else if f.minor = 17 then some (.vor f.g f.f1 f.f2 f.f3 x)
  else if f.minor = 18 then some (.vxor f.g f.f1 f.f2 f.f3 x)
  else if f.minor = 19 then some (.vshl f.g f.f1 f.f2 f.f3 x)
  else if f.minor = 20 then some (.vshr f.g f.f1 f.f2 f.f3 x)
  else if f.minor = 21 then some (.vsar f.g f.f1 f.f2 f.f3 x)
  else if f.minor = 24 then some (.vcmpEq f.g f.f1 f.f2 f.f3 x)
  else if f.minor = 25 then some (.vcmpNe f.g f.f1 f.f2 f.f3 x)
  else if f.minor = 26 then some (.vcmpLt f.g f.f1 f.f2 f.f3 x)
  else if f.minor = 27 then some (.vcmpLe f.g f.f1 f.f2 f.f3 x)
  else if f.minor = 28 then some (.vcmpGt f.g f.f1 f.f2 f.f3 x)
  else if f.minor = 29 then some (.vcmpGe f.g f.f1 f.f2 f.f3 x)
  else if f.minor = 30 then some (.vcmpUn f.g f.f1 f.f2 f.f3 x)
  else if f.minor = 32 then some (.vsel f.g f.f1 f.f2 f.f3 x)
  else if f.minor = 33 then some (.vbcast f.g f.f1 f.f2 x)
  else if f.minor = 34 then some (.vredAdd f.g f.f1 f.f2 x)
  else if f.minor = 35 then some (.vredMax f.g f.f1 f.f2 x)
  else if f.minor = 36 then some (.vredMin f.g f.f1 f.f2 x)
  else if f.minor = 37 then some (.vperm f.g f.f1 f.f2 f.f3 x)
  else if f.minor = 38 then some (.vshuf f.g f.f1 f.f2 f.f3 x)
  else if f.minor = 40 then some (.vmodadd f.g f.f1 f.f2 f.f3 x)
  else if f.minor = 41 then some (.vmodsub f.g f.f1 f.f2 f.f3 x)
  else if f.minor = 42 then some (.vmodmul f.g f.f1 f.f2 f.f3 x)
  else if f.minor = 43 then some (.vbfly f.g f.f1 f.f2 f.f3 x)
  else if f.minor = 44 then some (.vibfly f.g f.f1 f.f2 f.f3 x)
  else if f.minor = 48 then some (.vmaskAnd f.g f.f1 f.f2 f.f3)
  else if f.minor = 49 then some (.vmaskOr f.g f.f1 f.f2 f.f3)
  else if f.minor = 50 then some (.vmaskXor f.g f.f1 f.f2 f.f3)
  else if f.minor = 51 then some (.vmaskAndn f.g f.f1 f.f2 f.f3)
  else if f.minor = 52 then some (.vmaskNot f.g f.f1 f.f2)
  else if f.minor = 56 then some (.vlane f.g f.f1 x)
  else none

/-- Class 0x6 (R73), by minor code, before any limit is checked. -/
def decodeVI (f : Fields) (x : Ext) : Option Instr :=
  if f.minor.extractLsb' 3 3 = 0 then some (.vcvt f.g (f.minor.extractLsb' 0 3) f.f1 f.f2 x)
  else if f.minor = 16 then some (.vbcastI f.g f.f1 (f.f2 ++ f.f3) x)
  else if f.minor = 19 then some (.vshlI f.g f.f1 f.f2 f.f3 x)
  else if f.minor = 20 then some (.vshrI f.g f.f1 f.f2 f.f3 x)
  else if f.minor = 21 then some (.vsarI f.g f.f1 f.f2 f.f3 x)
  else none

/-- Class 0x7 (R74), by minor code, before any limit is checked. -/
def decodeX (f : Fields) (x : Ext) : Option Instr :=
  if f.minor.extractLsb' 5 1 = 0 then some (.xbeat f.g (f.minor.extractLsb' 3 2) (f.minor.extractLsb' 1 2) (f.minor.extractLsb' 0 1) f.f1 (f.f2 ++ f.f3) x)
  else if f.minor = 32 then some (.xmode f.g f.f2)
  else if f.minor = 33 then some (.xzero f.g f.f1)
  else if f.minor = 34 then some (.xcks f.g f.f1 f.f2 f.f3)
  else if f.minor = 35 then some (.xfix f.g f.f1 f.f2)
  else if f.minor = 36 then some (.xres f.g f.f3)
  else if f.minor = 37 then some (.xwin f.g f.f2)
  else if f.minor = 63 then some (.xinj f.g f.f1 f.f2 f.f3)
  else none

/-- Class 0x8 (R75), by minor code, before any limit is checked. -/
def decodeT (f : Fields) (x : Ext) : Option Instr :=
  if f.minor = 0 then some (.lds f.g f.f1 f.f2 f.f3 x)
  else if f.minor = 1 then some (.ldsTag f.g f.f1 f.f2 f.f3)
  else if f.minor = 2 then some (.sts f.g f.f1 f.f2 f.f3 x)
  else if f.minor = 4 then some (.ldss f.g f.f1 f.f2 f.f3 x)
  else if f.minor = 5 then some (.stss f.g f.f1 f.f2 f.f3 x)
  else if f.minor = 8 then some (.bfmt f.g f.f1 f.f2)
  else if f.minor = 16 then some (.mv f.g f.f1 f.f2 x)
  else if f.minor = 17 then some (.mvi f.g f.f1 (f.f2 ++ f.f3) x)
  else if f.minor = 24 then some (.fpeek f.g f.f1 f.f3)
  else if f.minor = 25 then some (.flev f.g f.f1 f.f3)
  else none

/-- Class 0x9 (R76), by minor code, before any limit is checked. -/
def decodeC (f : Fields) (x : Ext) : Option Instr :=
  if f.minor = 0 then some (.lrec f.g f.f1 f.f2)
  else if f.minor = 1 then some (.cpy f.g f.f1 f.f2 f.f3 x)
  else if f.minor = 2 then some (.cpyx f.g f.f1 f.f2 f.f3 x)
  else if f.minor = 3 then some (.cpyt f.g f.f1 f.f2 f.f3 x)
  else if f.minor = 8 then some (.cidw f.g f.f2 x)
  else if f.minor = 9 then some (.cidr f.g f.f1 x)
  else if f.minor = 10 then some (.cinv f.g f.f2 x)
  else if f.minor = 11 then some (.chalt f.g x)
  else none

/-- Class 0xA (R77), by minor code, before any limit is checked. -/
def decodeG (f : Fields) (_ : Ext) : Option Instr :=
  if f.minor = 0 then some (.gload f.g f.f2 f.f3)
  else if f.minor = 1 then some (.gchk f.g f.f1)
  else if f.minor = 2 then some (.gsel f.g f.f2)
  else if f.minor = 3 then some (.gorb f.g f.f1 f.f2)
  else if f.minor = 4 then some (.gstat f.g f.f1)
  else none

/-- Class 0xB (R78), by minor code, before any limit is checked. -/
def decodeF (f : Fields) (_ : Ext) : Option Instr :=
  if f.minor = 0 then some (.msend f.g f.f2 f.f3)
  else if f.minor = 1 then some (.mhnd f.g f.f2)
  else if f.minor = 2 then some (.wquiet f.g)
  else if f.minor = 3 then some (.rcstat f.g f.f1)
  else if f.minor = 4 then some (.collAr f.g f.f1 f.f2)
  else if f.minor = 5 then some (.collRs f.g f.f1 f.f2)
  else if f.minor = 6 then some (.collAg f.g f.f1 f.f2)
  else if f.minor = 7 then some (.collBc f.g f.f1 f.f2)
  else if f.minor = 8 then some (.bar f.g f.f3)
  else if f.minor = 9 then some (.gbar f.g f.f3)
  else if f.minor = 10 then some (.ctrinc f.g f.f2 f.f3)
  else if f.minor = 11 then some (.ctrwait f.g f.f2 f.f3)
  else if f.minor = 16 then some (.launch f.g f.f1 f.f2)
  else if f.minor = 17 then some (.launchn f.g f.f1 f.f2)
  else if f.minor = 18 then some (.glaunch f.g f.f1 f.f2)
  else if f.minor = 24 then some (.fwait f.g f.f1)
  else if f.minor = 25 then some (.frget f.g f.f1 f.f2 f.f3)
  else if f.minor = 26 then some (.frput f.g f.f1 f.f2 f.f3)
  else if f.minor = 27 then some (.frres f.g f.f2)
  else if f.minor = 28 then some (.frskip f.g f.f2)
  else if f.minor = 29 then some (.frkill f.g f.f2)
  else if f.minor = 30 then some (.frexc f.g f.f2)
  else if f.minor = 32 then some (.wload f.g f.f2)
  else if f.minor = 33 then some (.kwipe f.g f.f2)
  else if f.minor = 34 then some (.fuserd f.g f.f1 f.f2)
  else if f.minor = 35 then some (.mext f.g f.f2 f.f3)
  else if f.minor = 36 then some (.dbgopen f.g f.f2)
  else none

/-- The instruction named by class and minor code, before any limit is checked. -/
def decodeRaw (f : Fields) (x : Ext) : Option Instr :=
  if f.cls = 0 then some .nop
  else if f.cls = 1 then decodeK f x
  else if f.cls = 2 then decodeS f x
  else if f.cls = 3 then decodeSI f x
  else if f.cls = 4 then decodeM f x
  else if f.cls = 5 then decodeV f x
  else if f.cls = 6 then decodeVI f x
  else if f.cls = 7 then decodeX f x
  else if f.cls = 8 then decodeT f x
  else if f.cls = 9 then decodeC f x
  else if f.cls = 10 then decodeG f x
  else if f.cls = 11 then decodeF f x
  else none

/-- The slot word of an instruction. -/
def encode (i : Instr) : BitVec 32 := packFields i.fields

/-- The instruction of slot word `w` in a bundle that lends it extension byte `x` (`none`: no header). A word is an
instruction only where every field it does not use is zero and every limit holds (R62). -/
def decodeWord (x : Ext) (w : BitVec 32) : Option Instr :=
  match decodeRaw (unpackFields w) x with
  | none => none
  | some i => if i.wf && i.extAgrees x && decide (encode i = w) then some i else none

/-- The header of a bundle (R32): Y, E and C, and the bytes lent to w1, w2 and w3. -/
structure Header where
  y : Bool
  e : Bool
  c : Bool
  x1 : BitVec 8
  x2 : BitVec 8
  x3 : BitVec 8
  deriving DecidableEq, Repr

/-- A decoded bundle (R29): its header, its four words, each as its instruction or `none` where the word is none. -/
structure Bundle where
  hdr : Option Header
  w0 : Option Instr
  w1 : Option Instr
  w2 : Option Instr
  w3 : Option Instr
  deriving DecidableEq, Repr

/-- Is the word a header word (R32)? -/
def isHeader (w : BitVec 32) : Bool := decide (w.extractLsb' 28 4 = 0xC#4)

/-- The fields of a header word; bit 24 is checked apart (R32). -/
def headerOf (w : BitVec 32) : Header :=
  ⟨w.getLsbD 27, w.getLsbD 26, w.getLsbD 25, w.extractLsb' 0 8, w.extractLsb' 8 8, w.extractLsb' 16 8⟩

/-- The bundle of four words (R29, R32, R35). A header with bit 24 set is an instruction of no kind: its position reads
`none`. In a bundle with a header, w0 holds no operation and reads as a NOP. -/
def decodeBundle (w0 w1 w2 w3 : BitVec 32) : Bundle :=
  if isHeader w0 then
    let h := headerOf w0
    ⟨some h, if w0.getLsbD 24 then none else some .nop,
      decodeWord (some h.x1) w1, decodeWord (some h.x2) w2, decodeWord (some h.x3) w3⟩
  else
    ⟨none, decodeWord none w0, decodeWord none w1, decodeWord none w2, decodeWord none w3⟩

/-- The instruction at slot position `p` of a bundle. -/
def Bundle.word (b : Bundle) (p : Nat) : Option Instr :=
  match p with
  | 0 => b.w0
  | 1 => b.w1
  | 2 => b.w2
  | _ => b.w3

/-- The slot positions that hold words (R29, R32). -/
def Bundle.places (b : Bundle) : List Nat := if b.hdr.isSome then [1, 2, 3] else [0, 1, 2, 3]
/-- The slot position of the bundle's first operation word (R356), or of its first word. -/
def Bundle.firstOp (b : Bundle) : Nat :=
  (b.places.find? fun p => decide (b.word p ≠ some .nop)).getD (if b.hdr.isSome then 1 else 0)
/-- Is the header itself no instruction (R32, R62)? -/
def Bundle.badHeader (b : Bundle) : Bool := b.hdr.isSome && b.w0.isNone
/-- The words of a bundle by slot position, as the core executes them: a word that is no instruction as ILLEGAL_ENCODING (R62), a
bad header at the first operation word. -/
def Bundle.slots (b : Bundle) : List (Nat × Instr) :=
  b.places.map fun p => (p, if b.badHeader && decide (p = b.firstOp) then .illegalEncoding else (b.word p).getD .illegalEncoding)
def Bundle.ops (b : Bundle) : List Instr := (b.slots.map (·.2)).filter fun i => decide (i ≠ .nop)

/-- The instruction the decoder reads from a 32-bit table row: the word alone, in slot position 0 of a bundle without a
header. Rows of another width have no word. -/
def decodeTableWord (nbits w : Nat) : Option Instr :=
  if nbits = 32 then decodeWord none (BitVec.ofNat 32 w) else none

end Sys2Proof
end

