-- ==== Sys2Proof/Machine/Num.lean ====
section
/-! DEFINITION. Number formats, rounding and conversion (R151 to R168): every element as an exact value, every output as
an exact value rounded once. -/

namespace Sys2Proof.Machine

/-- The value of an element: NaN, an infinity, or (-1)^s · m · 2^e exactly, zeros signed (R152 to R158). -/
inductive Num where
  | nan
  | inf (s : Bool)
  | fin (s : Bool) (m : Nat) (e : Int)
  deriving DecidableEq, Repr

/-- The report-card causes an arithmetic operation raises (R114). -/
abbrev Causes := BitVec 16
def cNV : Causes := 0x0001
def cDZ : Causes := 0x0002
def cOF : Causes := 0x0004
def cUF : Causes := 0x0008
def cNX : Causes := 0x0010
def cSAT : Causes := 0x0020
def cNANZ : Causes := 0x0040
def cLATCH : Causes := 0x0080
def cDEFER : Causes := 0x0100
def cBADMOD : Causes := 0x0200
def cPREFDROP : Causes := 0x0400
def cDIVOVF : Causes := 0x0800

/-- `c` if `b`, else no cause. -/
def causeIf (b : Bool) (c : Causes) : Causes := if b then c else 0

/-- The value of a binary format with an 8-bit exponent and `fb` fraction bits (R152, R158). -/
def decodeBin (fb x : Nat) : Num :=
  let s := x.testBit (fb + 8)
  let e := (x / 2 ^ fb) % 256
  let f := x % 2 ^ fb
  if e = 255 then (if f = 0 then .inf s else .nan)
  else if e = 0 then .fin s f (-126 - fb)
  else .fin s (2 ^ fb + f) ((e : Int) - 127 - fb)

/-- Length of the run of bits equal to `b` from bit `n - 1` of `p` downward (R154). -/
def runLen (b : Bool) (p : Nat) : Nat → Nat
  | 0 => 0
  | n + 1 => if p.testBit n = b then runLen b p n + 1 else 0

/-- The magnitude of MK8 payload `p`, as a multiple of 2^-12 (R154, R155). -/
def mk8Mag (p : Nat) : Nat :=
  if p = 0 then 0
  else
    let b := p.testBit 6
    let k := runLen b p 7
    let c : Int := if b then (k : Int) - 1 else -(k : Int)
    let t := 6 - k
    let g := if 1 ≤ t then (p / 2 ^ (t - 1)) % 2 else 0
    let fb := t - 1
    let f := if 2 ≤ t then p % 2 ^ fb else 0
    let ex := (2 * c + g + 12 - (fb : Int)).toNat
    (2 ^ fb + f) * 2 ^ ex

/-- The value of an MK8 byte (R154). -/
def decodeMk8 (x : Nat) : Num :=
  let s := x.testBit 7
  let p := x % 128
  if p = 0 then (if s then .nan else .fin false 0 0) else .fin s (mk8Mag p) (-12)

/-- The value of an integer. -/
def numOfInt (z : Int) : Num := .fin (decide (z < 0)) z.natAbs 0

/-- The value of an element of type code `ty` (R151); bits above the element are ignored (R175). -/
def decodeTy (ty x : Nat) : Num :=
  if ty = 0 then decodeBin 23 (x % 2 ^ 32)
  else if ty = 1 then decodeBin 7 (x % 2 ^ 16)
  else if ty = 2 then decodeMk8 (x % 256)
  else if ty = 3 then numOfInt (BitVec.ofNat 8 x).toInt
  else if ty = 4 then numOfInt (BitVec.ofNat 32 x).toInt
  else .fin false (x % 2 ^ 64) 0

/-- Element width in bits of a type code (R151). -/
def tyBits (ty : Nat) : Nat :=
  if ty = 0 then 32 else if ty = 1 then 16 else if ty = 2 then 8 else if ty = 3 then 8 else if ty = 4 then 32 else 64

/-- The canonical NaN of a format (R153). -/
def canonNaN (ty : Nat) : Nat := if ty = 0 then 0x7FC00000 else if ty = 1 then 0x7FC0 else 0x80

/-- `m / 2^sh` rounded by mode `rm` (R161) for a value of sign `s`. -/
def roundShift (rm : Nat) (s : Bool) (m sh : Nat) : Nat :=
  let lo := m / 2 ^ sh
  let r := m % 2 ^ sh
  if r = 0 then lo
  else
    let up : Bool :=
      if rm = 0 then decide (2 ^ sh < 2 * r) || (decide (2 ^ sh = 2 * r) && decide (lo % 2 = 1))
      else if rm = 2 then s
      else if rm = 3 then !s
      else if rm = 4 then decide (lo % 2 = 0)
      else false
    if up then lo + 1 else lo

/-- A number that an output writes, with what its rounding raised: the bits, the causes, and whether a data movement
would list it (R165: 1 NaN written as 0, 2 saturated). -/
structure Out where
  bits : Nat
  causes : Causes
  entry : Nat
  deriving DecidableEq, Repr

/-- Compare magnitudes m·2^e and n·2^f: is the first below the second? -/
def magLt (m : Nat) (e : Int) (n : Nat) (f : Int) : Bool :=
  if e ≤ f then decide (m < n * 2 ^ (f - e).toNat) else decide (m * 2 ^ (e - f).toNat < n)

/-- The sign bit at place `k`. -/
def signBit (s : Bool) (k : Nat) : Nat := if s then 2 ^ k else 0

/-- Writing an exact value in a binary format of `fb` fraction bits, by mode `rm`, flushing where `ftz` (R161, R162, R166, R167, R168). DEDUCED
(log 86): what is flushed is a result that is subnormal after rounding. -/
def encodeBin (fb rm : Nat) (ftz : Bool) (x : Num) : Out :=
  match x with
  | .nan => ⟨255 * 2 ^ fb + 2 ^ (fb - 1), 0, 0⟩
  | .inf s => ⟨signBit s (fb + 8) + 255 * 2 ^ fb, 0, 0⟩
  | .fin s m e =>
    if m = 0 then ⟨signBit s (fb + 8), 0, 0⟩
    else if magLt (2 ^ (fb + 1) - 1) (127 - fb) m e then
      ⟨signBit s (fb + 8) + (255 * 2 ^ fb - 1), cOF ||| cNX, 2⟩
    else
      let top : Int := (Nat.log2 m : Int) + e
      let q : Int := max (top - fb) (-126 - fb)
      let sh := (q - e).toNat
      let mant := if e ≤ q then roundShift rm s m sh else m * 2 ^ (e - q).toNat
      let exact := if e ≤ q then decide (m % 2 ^ sh = 0) else true
      let enc := (q + 126 + fb).toNat * 2 ^ fb + mant
      let tiny := decide (top < -126)
      let flush := ftz && decide (enc < 2 ^ fb) && decide (enc ≠ 0)
      let wrote := if flush then 0 else enc
      let bad := flush || !exact
      ⟨signBit s (fb + 8) + wrote, causeIf bad cNX ||| causeIf (bad && tiny) cUF, 0⟩

/-- The largest payload at most `n` whose magnitude is at most m·2^e (R163). -/
def mk8Floor (m : Nat) (e : Int) : Nat → Nat
  | 0 => 0
  | n + 1 => if magLt m e (mk8Mag (n + 1)) (-12) then mk8Floor m e n else n + 1

/-- Writing an exact value in MK8 by mode `rm` (R163, R166). -/
def encodeMk8 (rm : Nat) (x : Num) : Out :=
  match x with
  | .nan => ⟨0x80, 0, 0⟩
  | .inf s => ⟨signBit s 7 + 0x7F, cOF, 2⟩
  | .fin s m e =>
    if m = 0 then ⟨0, 0, 0⟩
    else if magLt 4096 0 m e then ⟨signBit s 7 + 0x7F, cOF ||| cNX, 2⟩
    else
      let lo := mk8Floor m e 127
      if !magLt (mk8Mag lo) (-12) m e then ⟨signBit s 7 + lo, 0, 0⟩
      else
        let vl := mk8Mag lo
        let vh := mk8Mag (lo + 1)
        -- twice the value against the sum of the neighbours
        let above := magLt (vl + vh) (-12) (2 * m) e
        let below := magLt (2 * m) e (vl + vh) (-12)
        let up : Bool :=
          if rm = 0 then above || (!below && decide (lo % 2 = 1))
          else if rm = 2 then s
          else if rm = 3 then !s
          else if rm = 4 then decide (lo % 2 = 0)
          else false
        let p := if up then lo + 1 else lo
        let uf := magLt m e 1 (-12)
        ⟨if p = 0 then 0 else signBit s 7 + p, cNX ||| causeIf uf cUF, 0⟩

/-- An exact finite value rounded to an integer by mode `rm` (R161, R187). -/
def roundInt (rm : Nat) (s : Bool) (m : Nat) (e : Int) : Int :=
  let n := if 0 ≤ e then m * 2 ^ e.toNat else roundShift rm s m (-e).toNat
  if s then -(n : Int) else n

/-- Writing an exact value in an integer format of `w` bits (R166). DESIGN CHOICE (log 96): it is rounded first, so a value that lies beyond the
type's bound and rounds to it is in range (R165). -/
def encodeInt (w rm : Nat) (x : Num) : Out :=
  let hi : Int := 2 ^ (w - 1) - 1
  let lo : Int := -(2 ^ (w - 1))
  match x with
  | .nan => ⟨0, cNANZ, 1⟩
  | .inf s => ⟨(BitVec.ofInt w (if s then lo else hi)).toNat, cSAT, 2⟩
  | .fin s m e =>
    let z := roundInt rm s m e
    if hi < z then ⟨(BitVec.ofInt w hi).toNat, cSAT, 2⟩
    else if z < lo then ⟨(BitVec.ofInt w lo).toNat, cSAT, 2⟩
    else ⟨(BitVec.ofInt w z).toNat, 0, 0⟩

/-- Writing an exact value as an unsigned 64-bit residue by data movement (R165). -/
def encodeU64 (x : Num) : Out :=
  match x with
  | .nan => ⟨0, 0, 1⟩
  | .inf s => ⟨if s then 0 else 2 ^ 64 - 1, 0, 2⟩
  | .fin s m e =>
    let z := roundInt 0 s m e
    if z < 0 then ⟨0, 0, 2⟩ else if (2 ^ 64 : Int) ≤ z then ⟨2 ^ 64 - 1, 0, 2⟩ else ⟨z.toNat, 0, 0⟩

/-- Writing an exact value as an element of type `ty` by mode `rm` (R161 to R168). -/
def encodeTy (ty rm : Nat) (ftz : Bool) (x : Num) : Out :=
  if ty = 0 then encodeBin 23 rm ftz x
  else if ty = 1 then encodeBin 7 rm ftz x
  else if ty = 2 then encodeMk8 rm x
  else if ty = 3 then encodeInt 8 rm x
  else if ty = 4 then encodeInt 32 rm x
  else encodeU64 x

/-- Is the element a NaN? -/
def isNaN (x : Num) : Bool := match x with | .nan => true | _ => false

/-- Data movement of one element from format `src` to format `dst` (R165): RNE, no report card. -/
def moveElem (src dst x : Nat) : Out :=
  if src = dst then
    if src < 3 && isNaN (decodeTy src x) then ⟨canonNaN src, 0, 0⟩ else ⟨x % 2 ^ tyBits src, 0, 0⟩
  else encodeTy dst 0 false (decodeTy src x)

/-- U64R converts with no floating format (R165). -/
def movePairOk (src dst : Nat) : Bool :=
  !((decide (src = 5) && decide (dst < 3)) || (decide (dst = 5) && decide (src < 3)))

/-- Sign flipped. -/
def Num.neg : Num → Num
  | .nan => .nan
  | .inf s => .inf (!s)
  | .fin s m e => .fin (!s) m e

/-- A signed integer multiple of a power of two; a zero takes sign `zs`. -/
def numOfScaled (z : Int) (e : Int) (zs : Bool) : Num :=
  if z = 0 then .fin zs 0 e else .fin (decide (z < 0)) z.natAbs e

def signed (s : Bool) (m : Nat) : Int := if s then -(m : Int) else m

/-- The exact sum; a zero sum of unlike signs is -0 only under RDN (R152, IEEE 754). -/
def Num.add (rm : Nat) : Num → Num → Num
  | .nan, _ => .nan
  | _, .nan => .nan
  | .inf s, .inf t => if s = t then .inf s else .nan
  | .inf s, _ => .inf s
  | _, .inf t => .inf t
  | .fin s m e, .fin t n f =>
    let q := min e f
    let z := signed s (m * 2 ^ (e - q).toNat) + signed t (n * 2 ^ (f - q).toNat)
    let zs := if m = 0 && n = 0 && decide (s = t) then s else decide (rm = 2)
    numOfScaled z q zs

/-- The exact product. -/
def Num.mul : Num → Num → Num
  | .nan, _ => .nan
  | _, .nan => .nan
  | .inf s, .inf t => .inf (xor s t)
  | .inf s, .fin t n _ => if n = 0 then .nan else .inf (xor s t)
  | .fin s m _, .inf t => if m = 0 then .nan else .inf (xor s t)
  | .fin s m e, .fin t n f => .fin (xor s t) (m * n) (e + f)

/-- NV where NaN comes from operands of which none is NaN (R167). -/
def nvIf (r : Num) (ops : List Num) : Causes := causeIf (isNaN r && ops.all (fun x => !isNaN x)) cNV

/-- Is `a` below `b`, with -0 below +0 where `z` (R179), neither NaN? -/
def Num.lt (z : Bool) : Num → Num → Bool
  | .nan, _ => false
  | _, .nan => false
  | .inf s, .inf t => s && !t
  | .inf s, .fin _ _ _ => s
  | .fin _ _ _, .inf t => !t
  | .fin s m e, .fin t n f =>
    if m = 0 && n = 0 then z && s && !t
    else
      let q := min e f
      decide (signed s (m * 2 ^ (e - q).toNat) < signed t (n * 2 ^ (f - q).toNat))

/-- Are `a` and `b` equal, zeros of both signs alike, neither NaN (R182)? -/
def Num.eqv (a b : Num) : Bool := !isNaN a && !isNaN b && !Num.lt false a b && !Num.lt false b a

/-- Rounding to FP48 as the accumulators and VRED do (R159): RNE, saturating; the second part is the sticky OF. -/
def rnd48 (x : Num) : Nat × Bool :=
  let o := encodeBin 39 0 false x
  (o.bits, decide (o.causes &&& cOF ≠ 0))

/-- The value of 48 bits as FP48 (R158). -/
def fp48 (x : Nat) : Num := decodeBin 39 (x % 2 ^ 48)

/-- rnd48 of a sum of two values. -/
def add48 (a b : Num) : Nat × Bool := rnd48 (Num.add 0 a b)

/-- Integer square root by bits, from bit `k - 1` of the root down. -/
def isqrtAux (n : Nat) : Nat → Nat → Nat
  | 0, r => r
  | k + 1, r => if (r + 2 ^ k) * (r + 2 ^ k) ≤ n then isqrtAux n k (r + 2 ^ k) else isqrtAux n k r

/-- A value truncated at some place, with a sticky bit below where it is not exact: rounds as the exact value does. -/
def sticky (s : Bool) (m : Nat) (e : Int) (exact : Bool) : Num :=
  .fin s (if exact then 2 * m else 2 * m + 1) (e - 1)

/-- 1/x for m·2^e, m nonzero (R180). -/
def rcpNum (s : Bool) (m : Nat) (e : Int) : Num :=
  let p := 2 ^ 256
  sticky s (p / m) (-256 - e) (decide (p % m = 0))

/-- 1/√x for m·2^e, m nonzero (R180). -/
def rsqNum (m : Nat) (e : Int) : Num :=
  let m' := if e % 2 = 0 then m else 2 * m
  let e' := if e % 2 = 0 then e else e - 1
  let p := 2 ^ 512
  let r := isqrtAux (p / m') 257 0
  sticky false r (-256 - e' / 2) (decide (r * r * m' = p))

/-- ln 2 in units of 2^-P: twice the series of atanh(1/3). -/
def ln2Aux (p : Nat) : Nat → Nat → Nat → Nat
  | 0, _, _ => 0
  | n + 1, k, t => t / (2 * k + 1) + ln2Aux p n (k + 1) (t / 9)
def ln2Fixed : Nat := 2 * ln2Aux 400 140 0 (2 ^ 400 / 3)

/-- Σ y^k / k! in units of 2^-400, from the term `t` on. -/
def expAux (y : Nat) : Nat → Nat → Nat → Nat
  | 0, _, _ => 0
  | n + 1, k, t => t + expAux y n (k + 1) (t * y / 2 ^ 400 / (k + 1))

/-- 2^x for x = ±m·2^e (R180): exact at integers, else the truncated value with a sticky bit. -/
def exp2Num (s : Bool) (m : Nat) (e : Int) : Num :=
  if m = 0 then .fin false 1 0
  else if magLt 4096 0 m e then .fin false 1 (if s then -5000 else 5000)
  else
    -- x in units of 2^-300 (every format's elements are such multiples)
    let z : Int := signed s (m * 2 ^ (e + 300).toNat)
    let n := z / 2 ^ 300
    let f := (z % 2 ^ 300).toNat
    if f = 0 then .fin false 1 n
    else
      let y := f * ln2Fixed / 2 ^ 300
      sticky false (expAux y 100 0 (2 ^ 400)) (n - 400) false

/-- Bits of log2 of m / 2^600 in [1, 2), `n` of them, by squaring. -/
def log2Aux : Nat → Nat → Nat → Nat
  | 0, _, acc => acc
  | n + 1, m, acc =>
    let q := m * m / 2 ^ 600
    if 2 ^ 601 ≤ q then log2Aux n (q / 2) (2 * acc + 1) else log2Aux n q (2 * acc)

/-- log2 of m·2^e, m nonzero (R180): exact at powers of two. -/
def log2Num (m : Nat) (e : Int) : Num :=
  let k := Nat.log2 m
  let n : Int := k + e
  if m = 2 ^ k then numOfInt n
  else
    let frac := log2Aux 200 (m * 2 ^ (600 - k)) 0
    -- the value lies strictly between frac and frac + 1, in units of 2^-200 above n
    let z : Int := n * 2 ^ 200 + frac
    if 0 ≤ z then sticky false z.toNat (-200) false else sticky true (-z - 1).toNat (-200) false

/-- The bit length of `m` (R111). -/
def bitLen (m : Nat) : Nat := if m = 0 then 0 else Nat.log2 m + 1

/-- Is `m` a valid modulus (R111)? -/
def modValid (m : Nat) : Bool := decide (m % 2 = 1) && decide (3 ≤ m)

/-- MDRCP of a modulus (R111). -/
def mdrcpOf (m : Nat) : Nat := if modValid m then 2 ^ (2 * bitLen m) / m - 2 ^ bitLen m else 0

end Sys2Proof.Machine
end

