-- ==== Sys2Proof/Machine/State.lean ====
section
/-! DEFINITION. The state of the Torham 9: contexts, cores, arrays, dies and package, as plain data, and its value at reset. -/

namespace Sys2Proof.Machine

/-- Memory contents: address and byte in strictly rising order of address, no listed byte zero. A byte that is not listed
reads zero (log 6). -/
abbrev Memory := List Host.Cell

/-- An exception record's report card with its high address word (R112, R113): 57-bit address of the first record. -/
structure Card where
  cause : BitVec 16 := 0
  addr : BitVec 57 := 0
  v : Bool := false
  pdrop : BitVec 3 := 0
  deriving DecidableEq, Repr

/-- A hardware loop level (R137 to R140): kind 0 LOOP, 1 LOOPI, 2 LOOPR (R365). `it` and `n` serve LOOPR. -/
structure Level where
  first : Nat
  last : Nat
  left : Nat
  kind : Nat
  n : Nat
  it : Nat
  deriving DecidableEq, Repr

/-- A layout record slot (R222): its twelve words, none standing for zero, and whether FRPUT has left it unchecked (R366). -/
structure LRec where
  unchecked : Bool := false
  words : List Word := []
  deriving DecidableEq, Repr

/-- What a result of a context does when it lands (R44, R45, R78): the register is named by its slot (R107), `none` where
write-back is suppressed (R41). -/
inductive Eff where
  /-- A scalar register result; it enters the latch chain. -/
  | sreg (slot : Option Nat) (v : Word)
  /-- A vector register result; it enters the latch chain. -/
  | vreg (slot : Option Nat) (v : Vec)
  /-- A vector register result that enters no latch chain of its own (a run's later registers). -/
  | vplain (slot : Nat) (v : Vec)
  /-- A mask register. -/
  | mask (m : Nat) (v : Mask)
  /-- A guard register. -/
  | guardReg (q : Nat) (v : Bool)
  /-- The condition half of a steer register: condition bit and compare record (R109). -/
  | cond (j : Nat) (c : Bool) (r : BitVec 3)
  /-- The target half of a steer register (R131), with the count of issued bundles that prepared it (R132). -/
  | target (j : Nat) (t : BitVec 53) (at_ : Nat)
  /-- RNDMODE (R162). -/
  | rndmode (v : Word)
  /-- A modulus register and its reciprocal (R111). -/
  | modulus (k : Nat) (m : Word)
  /-- A report card cleared (R112). -/
  | clearCard (n : Nat)
  /-- A bank format register of the core (R199). -/
  | bankfmt (b : Nat) (v : Nat)
  /-- A scratchpad store of the T slot (R206). -/
  | store (port addr : Nat) (data : List Byte)
  /-- Only an exception record (R115). -/
  | note
  /-- A record slot (R231). -/
  | lrec (slot : Nat) (r : LRec)
  /-- DEFER's entries of a path, 32 bytes each (R147, R149). -/
  | append (path : Nat) (es : List (List Byte))
  /-- DEFDR's removal of the oldest entries of a path (R149). -/
  | remove (path n : Nat)
  /-- The timetable cursor advances (R346). -/
  | cursor
  /-- The context's priority (R331). -/
  | prio (p : Nat)
  /-- A snapshot entry cancelled under a hall pass (R366). -/
  | gone
  deriving DecidableEq, Repr

/-- A result in flight in a context: its landing and issue cycles on the context's own clock, slot position, bundle address, causes. -/
structure Flight where
  due : Nat
  iss : Nat
  pos : Nat
  addr : Nat
  causes : BitVec 16
  eff : Eff
  deriving DecidableEq, Repr

/-- A result in a latch chain (R39). -/
inductive LatchVal where
  | s (v : Word)
  | v (v : Vec)
  deriving DecidableEq, Repr

/-- A latch-chain entry: its slot position and the cycle at which it entered age 0. -/
structure Latch where
  pos : Nat
  at_ : Nat
  val : LatchVal
  deriving DecidableEq, Repr

/-- What a transform unit does when its work lands (R212 to R219), and what a move into a unit's port does (R211). -/
inductive UEff where
  /-- A write into an operand, state or result port. -/
  | port (p : Nat) (v : Vec)
  /-- The eight lines of the transpose unit. -/
  | lines (v : List Vec)
  /-- Bytes written through the unit port (R198). -/
  | write (addr : Nat) (data : List Byte)
  /-- Bytes that a context's T1 port had in flight when it retired (R144, R198). -/
  | writeT1 (addr : Nat) (data : List Byte)
  /-- The exception-list entries of a convert result: the captured base, length, space and core (R214), the issuer (context,
  generation, launch, world, bundle address), and the entries' causes and offsets. -/
  | list (base len space peer ctx : Nat) (gen : BitVec 16) (launch world addr : Nat) (es : List (Nat × Nat))
  deriving DecidableEq, Repr

/-- A unit operation in flight: landing cycle in core cycles, and its effect. -/
structure UFlight where
  due : Nat
  port : Nat
  eff : UEff
  deriving DecidableEq, Repr

/-- A contribution that lands while an XFIX is in flight on its element (R274): format, modulus, `.shift`, sum. -/
structure Late where
  fmt : Nat
  modulus : Nat
  shift : Bool
  sum : Num
  deriving DecidableEq, Repr
/-- What an XFIX in flight is to correct (R274): row, column, the element but for the contributions that have landed since, and these. -/
structure FixAt where
  row : Nat
  col : Nat
  pre : Nat
  late : List Late := []
  deriving DecidableEq, Repr

/-- What lands in an array (R264, R268, R270, R285): `p` is the position that issued it. -/
inductive AEff where
  /-- An accumulator row's new contribution: `.shift` or `.acc`, the column sums, the row and column predictions where
  checksummed, the group coordinate where `.shift` (R264, R269, R272). -/
  | contrib (p row : Nat) (shift : Bool) (mode : Nat) (nc : Nat) (modulus : Nat) (sums : List Num) (ofl : Bool)
      (cks : Option Num) (coord : Nat)
  /-- The coordinate of the latest drain (R294). -/
  | ldc (p v : Nat)
  /-- ARRMODE (R257). -/
  | arrmode (w : Word)
  /-- A row cleared (R271). -/
  | xzero (row : Nat)
  /-- XMODE (R260). -/
  | xmode (p : Nat) (w : Word)
  /-- XRES (R275). -/
  | xres (p : Nat) (m : Word)
  /-- The verdict of XCKS (R273): failing rows and columns and their residues. -/
  | verdict (p : Nat) (fr : BitVec 64) (fc : BitVec 128) (rres : List (Nat × Nat)) (cres : List (Nat × Nat)) (ux : Bool)
  /-- A drain's row test (R272). -/
  | rowFail (p row : Nat) (res : Nat)
  /-- XFIX (R274), with the element to correct if there is one. -/
  | fix (p : Nat) (hit : Option FixAt)
  /-- XINJ (R277). -/
  | flip (row el : Nat) (pred : Bool) (v : BitVec 48)
  /-- Pops and pushes of the operand FIFOs, shadow writes and swaps, committed at a check point (R263). -/
  | popA (p n : Nat)
  | popB (p : Nat)
  | push (p : Nat) (b : Bool) (fmt : Nat) (e : Vec)
  | shadow (p row : Nat) (v : Vec) (rs : Nat) (tag kr : Nat)
  | swap (p : Nat)
  /-- An operation in flight that XMODE and ARRMODE look at (R257, R261). -/
  | busy (p : Nat)
  /-- GSEL (R292). -/
  | gsel (p w : Nat)
  /-- A GLOAD's reset of CHK and both SEL at issue + 1, and the stores it fills at issue + L (R285). -/
  | gloadStart
  | gtables (n kind inex : Nat)
  | gfilter (unit n : Nat)
  /-- GCHK's start and verdict (R290). -/
  | gchkStart
  | gchkEnd (krc dev : Nat) (status : Word) (core ctx : Nat) (gen : BitVec 16) (launch addr : Nat)
  /-- A GLOAD's read of one unit of its image in core `core`'s scratchpad (R285). -/
  | gread (core addr : Nat)
  /-- GORB's additions: destination row, factor and source elements of each term, in order (R296). -/
  | gorb (b nc mode : Nat) (terms : List (Nat × Num × List Num))
  deriving DecidableEq, Repr

/-- An array effect in flight: landing cycle in array cycles, issue cycle, and the effect. -/
structure AFlight where
  due : Nat
  iss : Nat
  eff : AEff
  deriving DecidableEq, Repr

/-- A weight plane (R255): rows of elements in the lane placement of R175, the checksum column, the element tag. -/
structure Plane where
  rows : NMap Vec := []
  rs : NMap Nat := []
  tag : Nat := 0
  deriving DecidableEq, Repr

/-- An operand FIFO (R207, R209): its entries, head first, each with the operand format it was pushed in (R261), and how many were ever
pushed and popped. -/
structure Fifo where
  q : List (Nat × Vec) := []
  pushes : Nat := 0
  pops : Nat := 0
  deriving DecidableEq, Repr

/-- A position's own state in an array (R255, R282). -/
structure Pos where
  act : Plane := {}
  shadow : Plane := {}
  srp : Nat := 0
  mode : Word := 0
  modulus : Word := 0
  cpred : NMap Nat := []
  fr : BitVec 64 := 0
  fc : BitVec 128 := 0
  rres : NMap Nat := []
  cres : NMap Nat := []
  ux : Bool := false
  /-- Rows begun and continued by checksummed beats since the last XCKS or XMODE (R273). -/
  checked : BitVec 64 := 0
  fa : Fifo := {}
  fb : Fifo := {}
  sel : Nat := 0
  ldc : Nat := 0
  /-- Array cycle of the last residue stream beat (R276). -/
  lastRes : Option Nat := none
  deriving DecidableEq, Repr

/-- A GLOAD or GCHK in flight (R298): the core that issued it, issue cycle and length. -/
structure GBusy where
  core : Nat
  start : Nat
  until_ : Nat
  deriving DecidableEq, Repr

/-- A matrix array with its group engine (R255, R256, R282). -/
structure Arr where
  clk : Nat := 0
  base : Nat := 0
  wsz : Nat := 0
  mode : Nat := 0
  rows : NMap (BitVec 8192) := []
  /-- each row's sticky OF, and whether an INT8 sum of it has saturated (R159, R267) -/
  of_ : BitVec 64 := 0
  sat_ : BitVec 64 := 0
  rpred : NMap Nat := []
  coord : NMap Nat := []
  p0 : Pos := {}
  p1 : Pos := {}
  flight : List AFlight := []
  tables : NMap Vec := []
  /-- rows of 64 indices of 6 bits, a byte apart (R282) -/
  cayley : NMap (BitVec 512) := []
  gn : Nat := 1
  kind : Nat := 0
  inex : Nat := 0
  chk : Nat := 1
  krc : Nat := 0
  dev : Nat := 0
  gbusy : Option GBusy := none
  gunits : List Vec := []
  filt : NMap Vec := []
  deriving DecidableEq, Repr

/-- What a context waits for at a yield bundle (R143, R352). -/
inductive Wait where
  | cyc (t : Nat)
  | win (k : Nat)
  | fence (kind scope : Nat)
  /-- a barrier, whether the arrival has been counted, and the number below which the context's accesses precede it (R48, R350) -/
  | bar (id : Nat) (arrived : Bool) (n : Nat)
  | gbar (id : Nat) (arrived : Bool) (n : Nat)
  /-- a counter's word, the value waited for, and whether an increment has reached it (R349) -/
  | ctr (pa wtag : Nat) (target : Word) (hit : Bool)
  /-- the same before its first read, which follows the context's own accesses below number `n` (R323, R349) -/
  | ctrRead (pa wtag : Nat) (target : Word) (n : Nat)
  | cid (ch : Nat) (id : Nat)
  /-- a slot for a launch record, for a gang its job, nodes, own index; since when (R343) -/
  | slot (rec : List Word) (gang : Option (Nat × List Nat × Nat)) (d : Option Nat) (since : Nat)
  | gang (slot : Nat) (d : Option Nat)
  | fwait (d : Nat)
  | frget (d : Nat) (vec : Bool) (sel : Nat)
  | frput (sel : Nat) (s : Word) (v : Vec)
  /-- its core has been taken for another world since the task was placed (R404) -/
  | foreign
  /-- a QUIET verdict of a wave whose pass 1 began here after the first `after` waves did; none until the context's earlier packets are
  counted (R379) -/
  | quiet (job : Nat) (after : Option Nat)
  deriving DecidableEq, Repr

/-- The state of a hardware context (R143, R327, R355): free, able to issue, waiting, or frozen. -/
inductive CtxSt where
  | free
  | ready
  /-- every listed wait must end -/
  | wait (ws : List Wait)
  | frozen
  deriving DecidableEq, Repr

/-- What a freeze wrote (R355, R356, R365): the slot codes, the deferred and wait marks, the detail, the words as fetched. -/
structure FaultRec where
  codes : List Nat := []
  deferred : Bool := false
  waitFault : Bool := false
  cyc : Nat := 0
  words : List (BitVec 32) := []
  d0 : Word := 0
  d1 : Word := 0
  /-- the rotation in force at the freeze (R250, R365) -/
  rrbS : Nat := 0
  rrbV : Nat := 0
  deriving DecidableEq, Repr

/-- A deferred fault to raise at the next bundle (R173, R237, R290, R356). -/
structure Deferred where
  code : Nat
  d0 : Word
  d1 : Word
  /-- the address of the bundle that deferred it -/
  addr : Nat := 0
  deriving DecidableEq, Repr

/-- A hall pass as the device keeps it for the proctor that received it (R361, R362). -/
structure Pass where
  core : Nat
  ctx : Nat
  gen : BitVec 16
  fgen : BitVec 16
  skip : Bool
  live : Bool
  deriving DecidableEq, Repr

/-- A global access of a context, from its check point until it has performed everywhere (R303, R315, R321, R323). A fence
that orders later writes stands among them. -/
structure Access where
  id : Nat
  ctx : Nat
  gen : BitVec 16
  launch : Nat
  /-- 0 load, 1 store, 2 returning AMO, 3 CAS, 4 counter increment, 5 a FENCE.rel or FENCE.full -/
  kind : Nat
  pa : Nat := 0
  wtag : Nat := 0
  len : Nat := 0
  amo : Nat := 0
  value : Vec := 0
  cmp : Word := 0
  /-- register that receives the datum: vector or scalar, its slot -/
  dest : Option (Bool × Nat) := none
  /-- its register has been released: the data are discarded (R103) -/
  void : Bool := false
  fresh : Bool := false
  last : Bool := false
  /-- CYC of issue -/
  at_ : Nat := 0
  scope : Nat := 0
  /-- has it performed in its die's view, or been handed to the fabric? -/
  done : Bool := false
  /-- origin die and place in that die's order of writes, once it has performed (R324) -/
  stamp : Option (Nat × Nat) := none
  /-- a write into a fabric window that no acknowledgement has reached (R376) -/
  unacked : Bool := false
  /-- a buffered AMO that has merged (R317) -/
  merged : Bool := false
  /-- the home die's vector clock, which the response to an AMO or CAS carries (R319) -/
  heard : List Nat := []
  deriving DecidableEq, Repr

/-- A translation (R311, R312): page base and size, physical base, permissions and level of the tenant and the host leaf
(bit 0 R, 1 W, 2 X), world tag, the IPA pages (base and size) of the host-level mappings it was formed through (R313), and the world
it was made in. -/
structure TlbEntry where
  va : Nat
  size : Nat
  pa : Nat
  tperm : Nat
  tlvl : Nat
  hperm : Nat
  hlvl : Nat
  wtag : Nat
  via : List (Nat × Nat)
  world : Nat
  /-- filled for the bundle now held -/
  fresh : Bool := false
  /-- invalidated: gone for good from this CYC on, and used or not until then (R313) -/
  dead : Option Nat := none
  deriving DecidableEq, Repr

/-- A walk in progress (R311, R312): its address and kind. -/
structure Walk where
  va : Nat
  kind : Nat
  deriving DecidableEq, Repr

/-- A walk of the bundle in issue that has ended in failure (R311, R314): address and kind, and its level, stage and cause. -/
structure Fail where
  va : Nat
  kind : Nat
  lvl : Nat
  stg : Nat
  cause : Nat
  deriving DecidableEq, Repr

/-- A PREF whose translation is being walked (R312, R320): the line, its world, whether the context is a management context, whether
the L1 is bypassed, and the record it leaves if it is dropped. -/
structure PrefWalk where
  va : Nat
  world : Nat
  mgmt : Bool
  fresh : Bool
  pos : Nat
  addr : Nat
  ctx : Nat
  gen : BitVec 16
  launch : Nat
  /-- the context's cycle in which it issued (R115) -/
  iss : Nat := 0
  deriving DecidableEq, Repr

/-- A buffered AMO in an update-only line (R317): `seq` numbers it among its core's accesses. -/
structure AmoBuf where
  pa : Nat
  op : Nat
  value : Word
  scope : Nat
  since : Nat
  ctx : Nat
  launch : Nat
  gen : BitVec 16 := 0
  seq : Nat := 0
  wtag : Nat := 0
  deriving DecidableEq, Repr

/-- A hardware context (R99, R129, R327, R329): registers, control resources, results in flight, launch fields, freeze state. -/
structure Ctx where
  st : CtxSt := .free
  gen : BitVec 16 := 0
  fgen : BitVec 16 := 0
  allocS : Nat := 0
  allocV : Nat := 0
  sreg : NMap Word := []
  vreg : NMap Vec := []
  q : BitVec 16 := 1
  mask : NMap Mask := []
  cond : NMap (Bool × BitVec 3) := []
  target : NMap (BitVec 53) := []
  prep : NMap Nat := []
  /-- bundles issued since placement, and the count at which every target counts as freshly prepared (R132) -/
  issued : Nat := 0
  prepAll : Nat := 0
  md : NMap Word := []
  mdrcp : NMap Word := []
  cards : NMap Card := []
  rnd : Word := 0
  rrbS : Nat := 0
  rrbV : Nat := 0
  loops : List Level := []
  pc : Nat := 0
  clk : Nat := 0
  flight : List Flight := []
  latch : List Latch := []
  /-- cycle of the last yield bundle (R47) -/
  yielded : Option Nat := none
  stall : Nat := 0
  /-- bundles ahead that fetch has decided to skip, while the run goes on in sequence (R53) -/
  null : List Nat := []
  lrec : NMap LRec := []
  /-- deferral entries in append order: path and place (R147) -/
  defer : List (Nat × Nat) := []
  deferBase : Nat := 0
  deferC : Nat := 0
  save : Option Nat := none
  /-- switched out by pre-emption: its snapshot is to be refilled (R333) -/
  spilled : Bool := false
  /-- packets of that snapshot still on their way to the save area (R25, R52) -/
  unspilled : Nat := 0
  /-- what has been read of the save area for the refill (R25, R333) -/
  refill : List Byte := []
  /-- stopped at a boundary: results in flight keep their remaining counts until the next bundle issues (R50, R51) -/
  snapped : Bool := false
  /-- exception records on their way while the context is stopped, due in core cycles of the core (R116, R355) -/
  recs : List Flight := []
  frec : FaultRec := {}
  deferred : List Deferred := []
  /-- address and words of the last bundle that waited, what it waited for, and the address after it (R388) -/
  wb : Nat × List (BitVec 32) := (0, [])
  saved : List Wait := []
  resumePc : Nat := 0
  pass : Option Pass := none
  -- launch fields (R329, R335, R341)
  launch : Nat := 0
  slot : Nat := 0
  world : Nat := 0
  depth : Nat := 0
  prio : Nat := 0
  ceiling : Nat := 0
  memb : Nat := 0
  csz : Nat := 1
  lvl : Nat := 0
  crew : Nat := 0
  proc : Bool := false
  /-- entry, NS, NV and arguments a proctor or supervisor slot restarts with (R362) -/
  entry : Nat := 0
  startS : Nat := 0
  startV : Nat := 0
  startArgs : List Word := []
  startR : Nat := 0
  /-- a reserved slot whose launch has completed (R362) -/
  leaving : Bool := false
  /-- a handler task's job, none for another task (R383) -/
  handler : Option Nat := none
  ttab : List Word := []
  cursor : Nat := 0
  deriving DecidableEq, Repr

/-- A message in a core's send or inbound queue (R381, R383). -/
structure Msg where
  node : Nat
  core : Nat
  tag : Nat
  len : Nat
  payload : Vec
  job : Nat
  srcNode : Nat
  srcCore : Nat
  /-- the sender's context and generation, and its place among the accesses of its core (R321) -/
  ctx : Nat := 0
  gen : BitVec 16 := 0
  seq : Nat := 0
  deriving DecidableEq, Repr

/-- A handler registration on a core (R382). -/
structure Handler where
  job : Nat
  entry : Nat
  launch : Nat
  prio : Nat
  world : Nat
  depth : Nat
  ctx : Nat
  gen : BitVec 16
  deriving DecidableEq, Repr

/-- The last roll-call verdict a die's interface holds for a job (R377, R380). -/
structure Verdict where
  quiet : Bool
  wave : Nat
  sumi : Nat
  /-- the wave's place among those whose pass 1 has begun here -/
  ord : Nat := 0
  deriving DecidableEq, Repr


/-- A line fill of an L1 under way (R307, R320): the line, since when, and its class of traffic (R25, R26). -/
structure Fill where
  line : Nat
  since : Nat
  cls : Nat
  deriving DecidableEq, Repr

/-- What a bundle found at its first issue cycle (R48, R57, R198): its words, CYC, scratchpad, context, the core's cycle, unit ports, the
WORLD and CPSTAT registers, and the array. -/
structure First where
  cyc : Nat
  spad : Memory
  ctx : Ctx
  ccyc : Nat
  world : Word
  ports : NMap Vec
  stat : List Word
  arr : Arr
  words : List (BitVec 32)
  deriving DecidableEq, Repr

/-- What of a convert result's exception list is still to be written into global memory (R172, R173): the list, its world, whose it is,
the entries left, RIDX as read before the first, and whether a failure has been reported. -/
structure ListOut where
  base : Nat
  len : Nat
  peer : Nat
  ctx : Nat
  gen : BitVec 16
  launch : Nat
  world : Nat
  addr : Nat
  es : List (Nat × Nat)
  ridx : Option Nat := none
  told : Bool := false
  deriving DecidableEq, Repr

/-- A core (R9, R195, R199, R213): its contexts, scratchpad, transform units, and the part of it that memory and the fabric use. -/
structure Core where
  ctxs : NMap Ctx := []
  /-- the context that holds the issue slots -/
  run : Option Nat := none
  /-- the context that last held them -/
  lastRun : Nat := 0
  ccyc : Nat := 0
  /-- split cycles still to come, in which no core cycle passes (R57) -/
  hold : Nat := 0
  /-- is this CYC cycle a split cycle of the core (R57)? -/
  held : Bool := false
  /-- a context that the host pre-empts at the next bundle boundary (R424) -/
  hostPre : Option Nat := none
  /-- what the bundle that is held or split found at its first issue cycle -/
  first : Option First := none
  world : Nat := 0
  /-- SEATMAP (R81). DESIGN CHOICE (log 41): its reset value is "from test"; here every core keeps both instances of S, V and T. -/
  seat : Word := 0x3F
  spad : Memory := []
  bankfmt : NMap Nat := []
  ports : NMap Vec := []
  flight : List UFlight := []
  /-- lists of convert results that have landed, still to be written into global memory (R173) -/
  lists : List ListOut := []
  busy : NMap Nat := []
  divBusy : NMap Nat := []
  access : List Access := []
  nextAccess : Nat := 0
  tlb : List TlbEntry := []
  walk : Option Walk := none
  /-- walks that have failed for the bundle that is held, whose faults it raises when it issues (R312, R314) -/
  failed : List Fail := []
  /-- PREFs whose walks are under way (R320) -/
  prefs : List PrefWalk := []
  l1 : NMap (BitVec 128) := []
  /-- lines whose fill is under way -/
  fills : List Fill := []
  /-- buffered AMOs of the core's L1 -/
  amo : List AmoBuf := []
  /-- send and inbound message queues, and handler registrations (R381 to R383) -/
  sendq : List Msg := []
  inq : List Msg := []
  handlers : List Handler := []
  deriving DecidableEq, Repr

/-- A transfer of control that the bundle in issue has taken (R134, R136): target, bubble cycles, and whether it pops loop levels. -/
structure Xfer where
  target : Nat
  bubbles : Nat
  pops : Bool
  deriving DecidableEq, Repr

/-- The bundle in issue: which core and context, its address and words, the position being executed, and what its operations
have asked of the fault check point. -/
structure Iss where
  core : Nat := 0
  ctx : Nat := 0
  addr : Nat := 0
  words : List (BitVec 32) := []
  hdr : Bool := false
  c : Bool := false
  pos : Nat := 0
  /-- the operations of lower slot positions -/
  ops : List Instr := []
  /-- how many accesses its core had made before the bundle (R48) -/
  acc : Nat := 0
  /-- it is held at a release, for which the merges of the core's buffered updates are asked for (R317, R343) -/
  rel : Bool := false
  /-- the allotment before the bundle (R104) -/
  allocS : Nat := 0
  allocV : Nat := 0
  faults : List (Nat × Nat × Word × Word) := []
  xfer : Option Xfer := none
  push : Option Level := none
  lbrk : Bool := false
  done : Bool := false
  yield : Bool := false
  wait : List Wait := []
  allot : Bool := false
  held : Bool := false
  deriving DecidableEq, Repr

/-- What the device does next in the current cycle: a step of its own, the choice of the context that gets an idle core's slots
(R143), or the issue of a core. -/
inductive Turn where
  | ev (i : Instr)
  | settle (core : Nat)
  | issue (core : Nat)
  deriving DecidableEq, Repr

/-- A request that has come to a die's shared path (R25, R26): what it asks, its class, its source, since when it waits, and how many packets
of its transfer move before the one that completes it. -/
structure Req where
  what : Instr
  cls : Nat
  src : Nat
  since : Nat
  left : Nat := 0
  deriving DecidableEq, Repr

/-- A frozen context as the pools pass it on (R358, R359). -/
structure FRef where
  core : Nat
  ctx : Nat
  code : Nat
  deriving DecidableEq, Repr

/-- An entry of the Registrar's event log (R429): code, core, context, world, sequence number, CYC, data. -/
structure LogEntry where
  code : Nat
  core : Nat
  ctx : Nat
  world : Nat
  seq : Nat
  cyc : Nat
  a : Word
  b : Word
  deriving DecidableEq, Repr

/-- A write on its way to another die's view (R324): origin, vector clock, and bytes; or a `.last` mark (R309). -/
structure XWrite where
  id : Nat
  origin : Nat
  vc : List Nat
  pa : Nat
  data : List Byte
  mark : Bool := false
  /-- sectors of a mark that have been dropped meanwhile (R309) -/
  gone : List Nat := []
  deriving DecidableEq, Repr

/-- A die (R12, R224, R323, R324): its view of memory by physical address, its clock, writes not yet applied, `.last` marks by
16-byte sector, each with what was last written back to HBM before, the L2 reserved region. -/
structure Die where
  view : Memory := []
  out : Nat := 0
  applied : NMap Nat := []
  /-- what later writes of the die must also follow: clocks merged from a home die's answers (R319) -/
  dep : NMap Nat := []
  inq : List XWrite := []
  marks : NMap (BitVec 128) := []
  l2 : Memory := []
  /-- roll-call verdicts by job, how many waves have begun their pass 1 here, and the place of each of late by its number (R377, R379) -/
  verdicts : NMap Verdict := []
  waves : Nat := 0
  began : NMap Nat := []
  /-- pass-1 snapshots of INJ and CONS by wave and job, and the jobs reported changed by wave (R377) -/
  snap : NMap (NMap (Nat × Nat)) := []
  rep : NMap (List Nat) := []
  deriving DecidableEq, Repr

/-- One side of a copy as its command kept it: the twelve words of its record (R222, R223). -/
abbrev CRec := List Word

/-- A timed copy in a time-sorted buffer (R234 to R237): `next` packets read and `wrote` packets written so far; the read
data wait in `data`. -/
structure Timed where
  id : Nat
  core : Nat
  ctx : Nat
  gen : BitVec 16
  launch : Nat
  addr : Nat
  t : Nat
  packets : Nat
  per : Nat
  dly : Nat
  src : CRec
  dst : CRec
  read : Nat := 0
  wrote : Nat := 0
  data : List (Nat × List (Nat × Nat × Nat)) := []
  lost : Bool := false
  /-- RIDX as the copy read it before its first list entry (R172) -/
  ridx : Option Nat := none
  deriving DecidableEq, Repr

/-- A tracked copy, or a CINV marker, in a channel's queue (R238, R240, R245). -/
structure Tracked where
  id : Nat
  core : Nat
  ctx : Nat
  gen : BitVec 16
  launch : Nat
  world : Nat
  x : Bool
  src : CRec
  dst : CRec
  /-- invalidation marker: world and 64 KiB page (2^48 and more: an IPA page, HINV's), and nothing of a copy -/
  marker : Option (Nat × Nat) := none
  /-- the mapping of its global pages as it was when it was queued (R245) -/
  map : List TlbEntry := []
  /-- 64 KiB pages of its elements and list that had no translation when it was queued -/
  holes : List Nat := []
  /-- its place among the accesses of its core, and the context's cycle when it was queued (R240) -/
  seq : Nat := 0
  sclk : Nat := 0
  /-- elements of a FIFO entry still to be filled -/
  acc : List Nat := []
  pos : Nat := 0
  started : Bool := false
  stopped : Bool := false
  listDead : Bool := false
  repush : Bool := false
  ridx : Option Nat := none
  /-- its place in the save area while it is parked (R334) -/
  place : Nat := 0
  deriving DecidableEq, Repr

/-- A flag-file entry (R240). -/
structure Flag where
  id : Nat
  cause : Nat
  index : Nat
  va : Nat
  core : Nat
  ctx : Nat
  gen : BitVec 16
  /-- its place in the save area while it is parked (R334) -/
  place : Nat := 0
  deriving DecidableEq, Repr

/-- A copy channel (R221, R238, R239). -/
structure Channel where
  next : Nat := 0
  queue : List Tracked := []
  run : Option Tracked := none
  /-- translations that commands queued now take over (R245) -/
  map : List TlbEntry := []
  /-- identifiers completed though older ones have not, and parked ones (R238, R244) -/
  finished : List Nat := []
  done_ : Nat := 0
  timed : List Timed := []
  nextTimed : Nat := 0
  flags : List Flag := []
  /-- entries of contexts switched out, and their flag entries (R244) -/
  parked : List Tracked := []
  pflags : List Flag := []
  deriving DecidableEq, Repr

/-- A cluster (R11): its copy channels, and the launch that has fused its L1s. -/
structure Cluster where
  ch : NMap Channel := []
  fused : Option Nat := none
  deriving DecidableEq, Repr

/-- A world (R310, R397, R400, R403, R405): roots, keys, instruction region, measurement. Keys are numbers no read returns. -/
structure World where
  loaded : Bool := false
  closing : Bool := false
  troot : Nat := 0
  hroot : Nat := 0
  ireg : Nat := 0
  ilen : Nat := 0
  imageKey : Option (BitVec 256) := none
  /-- the keys of its instruction region and of its data (R400) -/
  ki : BitVec 256 := 0
  kd : BitVec 256 := 0
  mb : BitVec 256 := 0
  /-- in teardown, its contexts have been retired (R410) -/
  halted : Bool := false
  deriving DecidableEq, Repr

/-- The states of a TDI (R407). -/
inductive Tdi where
  | unlocked
  | locked
  | run
  | error
  deriving DecidableEq, Repr

/-- A request the Registrar serves in check-point order (R404). -/
inductive RegReq where
  /-- a WLOAD as accepted; `late`: it names the world, or a core, of a teardown under way (R411) -/
  | wload (die va world : Nat) (desc : List Byte) (late : Bool)
  /-- its cores are taken, and its image is to be opened -/
  | opening (die va world : Nat) (desc : List Byte)
  /-- its region is written, by writes with these places in their dies' orders; STATUS follows them (R415) -/
  | loaded (die va world : Nat) (places : List (Nat × Nat))
  | kwipe (w : Nat)
  | dbgopen (core : Nat)
  deriving DecidableEq, Repr

/-- The request for which a bundle is held until the Registrar answers (R414), and whether the answer has come. -/
structure Ask where
  core : Nat
  answered : Bool
  /-- when it was asked, and how long the answer takes at least (R419) -/
  since : Nat
  least : Nat
  deriving DecidableEq, Repr

/-- A slot of the pending-launch pool (R338): the record's 32 words as last written, whether CLAIM is set, when it was set, the
writer's world, whether a gang's arm has reserved it (R387), and the launch whose tiles are being placed. -/
structure PoolSlot where
  rec_ : List Word := []
  claim : Bool := false
  order : Nat := 0
  world : Nat := 0
  reserved : Bool := false
  launch : Option Nat := none
  /-- the gang message of a slot: job, packages minus one, list index, the gang's number; none outside a gang -/
  gang : Option (Nat × Nat × Nat × Nat) := none
  ginc : Option (Nat × Nat) := none
  /-- are the DEP counters known to have reached their targets, the counters watched, and whether one was unreadable (R339) -/
  elig : Option Bool := none
  watch : List Nat := []
  unread : Bool := false
  deriving DecidableEq, Repr

/-- A barrier of a crew or gang in its current phase (R350, R351): members excused, as core times 8 and context, and the CYC of its release once complete. -/
structure Barrier where
  excused : List Nat := []
  /-- phases still to complete here at which the members on the gang's other packages have all arrived (R350) -/
  others : Nat := 0
  release : Option Nat := none
  deriving DecidableEq, Repr

/-- A launch from its first placement to its completion (R347, R348): record, counts of the completion tree by core, cluster and
die, the completion block's numbers, its barriers, and the gang it belongs to. -/
structure Launch where
  rec_ : List Word
  slot : Nat
  depth : Nat
  world : Nat
  /-- first tile and number of tiles this package runs, and how many of them are placed -/
  first : Nat := 0
  tiles : Nat := 0
  placed : Nat := 0
  coreCnt : NMap Nat := []
  coreDone : NMap Nat := []
  clCnt : NMap Nat := []
  clDone : NMap Nat := []
  dieCnt : NMap Nat := []
  nPlaced : Nat := 0
  nRetired : Nat := 0
  nKilled : Nat := 0
  ocause : BitVec 16 := 0
  on_ : Nat := 0
  orphans : List (Word × Word) := []
  barriers : NMap Barrier := []
  /-- clusters whose context 7 is reserved for the launch (R340) -/
  resv : List Nat := []
  gang : Option (Nat × Nat × Nat × Nat) := none
  ginc : Option (Nat × Nat) := none
  /-- the completion block has been written; place of that write in its die's order (R347, R348) -/
  complete : Bool := false
  cstamp : Option (Nat × Nat) := none
  deriving DecidableEq, Repr

/-- The arming of a gang by its issuing package (R387, R388): the waiting context, job, list, which indices have acknowledged
arm and go, since when, and the phase: 0 arm, 1 go, 2 ended, 3 incomplete. -/
structure Gang where
  core : Nat
  ctx : Nat
  gen : BitVec 16
  dest : Option Nat
  job : Nat
  nodes : List Nat
  self_ : Nat
  need : List Nat
  armed : List Nat := []
  gone : List Nat := []
  refused : Bool := false
  since : Nat
  phase : Nat := 0
  slot : Nat
  /-- its number in the messages between packages -/
  no : Nat := 0
  /-- a re-arming of the missing indices, and whether the record has run -/
  rearm : Bool := false
  deriving DecidableEq, Repr

/-- A job-table entry with each die's counts (R373, R374, R425). -/
structure Job where
  job : Nat
  wtag : Nat
  def_ : Bool
  v : Bool
  inj : NMap Nat := []
  cons : NMap Nat := []
  loss : Bool := false
  deriving DecidableEq, Repr

/-- A fabric-window entry (R375, R425). -/
structure Window where
  node : Nat
  job : Nat
  v : Bool
  deriving DecidableEq, Repr

/-- A counted packet of this package on its way: kind (0 window write, 1 message, 2 collective transfer), sender, job, target node;
the access or copy it belongs to, and its number of transmissions (R374, R376, R385). -/
structure Packet where
  id : Nat
  kind : Nat
  die : Nat
  job : Nat
  node : Nat
  core : Nat
  access : Nat
  copy : Option (Nat × Nat × Nat)
  pa : Nat
  data : List Byte
  tries : Nat
  lost : Bool := false
  /-- the sender's context, the window written, and the WTAG the packet carries (R376) -/
  ctx : Nat := 0
  win : Nat := 0
  wtag : Nat := 0
  /-- for a packet to the package itself: has it arrived, and where its write must still be applied (R374, R381) -/
  arrived : Bool := false
  place : Nat × Nat := (0, 0)
  deriving DecidableEq, Repr

/-- A window write that has come in: the place of its write (origin and number, R324), its job, and the stream (source node, context
and window) in which its writes arrive and perform in order (R376). -/
structure Arrival where
  die : Nat
  num : Nat
  job : Nat
  src : Nat
  deriving DecidableEq, Repr

/-- A participant of a collective: its core, buffers and counter (R389, R390). -/
structure Part where
  core : Nat
  kind : Nat
  n : Nat
  ppart : Nat
  root : Nat
  list : List Nat
  src : Nat
  dst : Nat
  stat : Nat
  ctr : Nat
  world : Nat
  /-- whose it is, and its place among the accesses of its core (R321, R389) -/
  ctx : Nat
  gen : BitVec 16
  at_ : Nat
  /-- it has joined after its package dropped out, and has still to be served (R389, R390) -/
  late : Bool := false
  deriving DecidableEq, Repr

/-- A chunk of a collective at this package's gateway (R392, R393): the package's own contribution and its flags, whether the
partial has passed, whether the chunk is written, and since when the gateway waits for what comes next. -/
structure Chunk where
  own : Option (List (BitVec 32)) := none
  flags : Nat := 0
  passed : Bool := false
  final : Bool := false
  /-- a final chunk that stays unwritten until the packages are known to agree (R390): bitmap, flags, data -/
  held : Option (Nat × Nat × Option (List (BitVec 32))) := none
  /-- what was written of it: bitmap, flags, data -/
  out : Option (Nat × Nat × Option (List (BitVec 32))) := none
  /-- it came by a transfer that counts CONS once the chunk is written (R374) -/
  owed : Bool := false
  since : Nat := 0
  deriving DecidableEq, Repr

/-- A ring transfer that waits for the package's contribution: chunk, phase, bitmap, flags, data and descriptor (R390, R392). -/
structure Ring where
  chunk : Nat
  phase : Nat
  bitmap : Nat
  flags : Nat
  data : List (BitVec 32)
  /-- what the sender's participants have in common (R390) -/
  desc : Nat
  deriving DecidableEq, Repr

/-- Bytes that a gateway has still to write for a participant, packet by packet (R25, R392): the chunk they belong to, where they go, and what its
status entry will say; `status`: they are that entry's own. -/
structure Deliv where
  part : Part
  chunk : Nat
  va : Nat
  data : List Byte
  bitmap : Nat
  flags : Nat
  status : Bool := false
  deriving DecidableEq, Repr

/-- A gateway slot (R389, R390). -/
structure Gateway where
  seq : Nat
  job : Nat
  tag : Nat
  since : Nat
  parts : List Part
  self_ : Nat
  /-- since when the gateway takes part: the contribution is formed, or the package has dropped out -/
  begun : Option Nat := none
  dropped : Bool := false
  mismatch : Bool := false
  /-- are the participants of every listed package known to agree (R390)? -/
  agreed : Bool := false
  chunks : NMap Chunk := []
  pending : List Ring := []
  /-- what it has still to write -/
  todo : List Deliv := []
  /-- places of the DST and STAT writes in their dies' orders, and whether DONECTR has been increased (R392) -/
  stamps : List (Nat × Nat) := []
  counted : Bool := false
  deriving DecidableEq, Repr

/-- An SPDM session (R406). -/
structure Session where
  live : Bool := false
  /-- KEY_EXCHANGE done, FINISH awaited -/
  keyed : Bool := false
  world : Nat := 0
  deriving DecidableEq, Repr

/-- What the host has written for a supervisor slot (R424). -/
structure SvSlot where
  entry : Word := 0
  args : NMap Word := []
  deriving DecidableEq, Repr

/-- The faults that end a run: only what the spec gives no effect at all. -/
inductive Fault where
  /-- Module power has been removed at 115 °C (R428): no step follows. Raised by `step`; safe. -/
  | unpowered
  /-- The boot ROM refused the Registrar's firmware and holds the device at step 1 (R426). Raised by `step`; safe. -/
  | heldAtBoot
  deriving DecidableEq, Repr

/-- Why an instruction has no meaning here. -/
inductive Refusal where
  /-- Raised by `exec` for an instruction that has no meaning yet; safe. -/
  | notModelled (mnemonic : String)
  deriving DecidableEq, Repr

/-- The machine: one Torham 9 package (R8), and its surroundings as the list of events still to come. -/
structure State where
  caps : Word := 0
  cyc : Nat := 0
  cores : NMap Core := []
  arrs : NMap Arr := []
  dies : NMap Die := []
  clusters : NMap Cluster := []
  /-- what was last written back to HBM, by physical address (R309) -/
  hbm : Memory := []
  /-- the world under whose key a 128-byte line is sealed, the lines' write counts and tags, and 16-byte sectors that the last fill of
  their line did not deliver (R401) -/
  sealed : NMap Nat := []
  wcounts : NMap Nat := []
  tags : NMap (BitVec 128) := []
  badTag : NMap Bool := []
  worlds : NMap World := []
  /-- the model's own: what the surroundings do next (log 1) -/
  inbox : List Instr := []
  /-- the model's own: what is still to do in this cycle -/
  turn : List Turn := []
  /-- the model's own: how many choices the device has made (log 2) -/
  picks : Nat := 0
  /-- the model's own: how often CYC has started from 0 again, which tells the occasions of two boots apart (log 2) -/
  boots : Nat := 0
  iss : Iss := {}
  /-- requests that wait at the dies' shared paths, and the source granted last, by 4 · die + class (R25, R26; log 11) -/
  paths : NMap (List Req) := []
  granted : NMap Nat := []
  /-- cluster fault queues, by die · 64 + cluster, and the dies' overflow lists (R358, R359) -/
  queues : NMap (List FRef) := []
  /-- faults of this cycle, still to be offered (R358) -/
  offers : List FRef := []
  overflow : NMap (List FRef) := []
  evlog : List LogEntry := []
  evwidx : Nat := 0
  evridx : Nat := 0
  evdrop : Nat := 0
  pool : NMap PoolSlot := []
  nextOrder : Nat := 0
  launches : NMap Launch := []
  nextLaunch : Nat := 1
  gangs : List Gang := []
  nextGang : Nat := 0
  /-- handler tasks that have retired with window writes still to be counted INJ: core, context, generation, job (R384) -/
  consWait : List (Nat × Nat × Nat × Nat) := []
  /-- window writes still to be applied in every view (R374, R376) -/
  arrivals : List Arrival := []
  /-- stream and number of the packets that have come in (R385) -/
  seen : List (Nat × Nat) := []
  /-- fabric: node, links trained, job and window tables, packets under way (R372 to R376) -/
  node : Nat := 0
  links : NMap Bool := []
  jobs : NMap Job := []
  /-- word 0 of an entry that the host has written with V = 0 (R425), and jobs whose world has been torn down (R411) -/
  cleared : NMap Nat := []
  goneJobs : List Nat := []
  windows : NMap Window := []
  packets : List Packet := []
  nextPacket : Nat := 0
  gates : NMap Gateway := []
  nextGate : Nat := 0
  nextWrite : Nat := 0
  -- trust (R397 to R419)
  mb1 : BitVec 256 := Config.measured 1
  mb2 : BitVec 256 := 0
  mb3 : BitVec 256 := Config.measured 3
  mb4 : BitVec 256 := Config.measured 4
  dbg : Bool := decide (Config.lcs = 1)
  debugPort : Bool := decide (Config.lcs = 1)
  nonce : BitVec 256 := Config.random 0
  draws : Nat := 1
  regq : List RegReq := []
  asks : List Ask := []
  sessions : NMap Session := []
  spdmOut : List (Nat × List Byte) := []
  tdis : NMap Tdi := []
  watch : NMap (List Nat) := []
  -- host interface (R422 to R428)
  bootStep : Nat := 7
  ready : Bool := true
  /-- the boot ROM has refused the Registrar's firmware (R426) -/
  refusedFw : Bool := false
  regionMiB : Nat := Config.regionMiB % 65
  sv : NMap SvSlot := []
  pcap : Nat := 2800
  /-- the cap that governs the current window (R428) -/
  pcapNow : Nat := 2800
  clk : Nat := 12
  /-- the steps of the clock that windows have decided and no edge has taken yet, the first first: the new CLK and the window's draw
  (R19, R428) -/
  clkSteps : List (Nat × Nat) := []
  /-- the step that the clock has taken in the current window, new CLK and DRAW, to be logged in the next one (R428, R429) -/
  stepped : Option (Nat × Nat) := none
  draw : Nat := 0
  tj : Nat := 0
  /-- was the last window over CAP (R427, R428)? -/
  throt : Bool := false
  okWindows : Nat := 0
  power : Bool := true
  lastRead : Word := 0
  unsupported : Nat := 0
  msix : Nat := 0
  deriving DecidableEq, Repr

/-- The value of CAPS on a Torham 9 (R80): level 1, 16 stacks, 32 links, compress, residue, 4 dies (log 5). -/
def capsTorham9 : Word := 0x1841C

/-- The machine right after reset. -/
def State.reset : State := { caps := capsTorham9 }

/-- The clock to which the steps decided so far lead (R428). -/
def State.clkNext (s : State) : Nat := match s.clkSteps.getLast? with | some q => q.1 | none => s.clk

end Sys2Proof.Machine
end

