-- ==== Sys2Proof/Machine/Mem.lean ====
section
/-! DEFINITION. Bytes in memory: reads and writes of a canonical list of cells, and the byte order of every access (R4). -/

namespace Sys2Proof.Machine

/-- A number, or 0. -/
def b2n (b : Bool) (n : Nat) : Nat := if b then n else 0

/-- One byte; a byte that is not listed reads zero (log 6). -/
def Memory.read : Memory → Nat → Byte
  | [], _ => 0
  | (b, v) :: m, a => if a = b then v else if a < b then 0 else Memory.read m a

/-- The memory with `v` at `a`, in canonical form. -/
def Memory.write : Memory → Nat → Byte → Memory
  | [], a, v => if v = 0 then [] else [(a, v)]
  | (b, u) :: m, a, v =>
    if a < b then (if v = 0 then (b, u) :: m else (a, v) :: (b, u) :: m)
    else if a = b then (if v = 0 then m else (a, v) :: m)
    else (b, u) :: Memory.write m a v

/-- Addresses above `lo`, strictly rising, no zero byte listed. -/
def Memory.above : Nat → Memory → Bool
  | _, [] => true
  | lo, (a, v) :: m => decide (lo ≤ a) && decide (v ≠ 0) && Memory.above (a + 1) m

/-- The canonical form: addresses strictly rising, no byte listed that reads as an unlisted one. -/
def Memory.wf (m : Memory) : Bool := Memory.above 0 m

/-- `n` bytes from `a`, through the address map `f`. -/
def Memory.readVia (m : Memory) (f : Nat → Nat) (a n : Nat) : List Byte :=
  (List.range n).map fun i => Memory.read m (f (a + i))

/-- The bytes stored from `a` on, through the address map `f`. -/
def Memory.writeVia (m : Memory) (f : Nat → Nat) : Nat → List Byte → Memory
  | _, [] => m
  | a, v :: vs => Memory.writeVia (Memory.write m (f a) v) f (a + 1) vs

def Memory.readN (m : Memory) (a n : Nat) : List Byte := Memory.readVia m id a n
def Memory.writeN (m : Memory) (a : Nat) (vs : List Byte) : Memory := Memory.writeVia m id a vs

/-- Little-endian value of bytes (R4). -/
def leNat : List Byte → Nat
  | [] => 0
  | b :: bs => b.toNat + 256 * leNat bs

/-- The `n` low bytes of a number, little-endian (R4). -/
def leBytes : Nat → Nat → List Byte
  | 0, _ => []
  | n + 1, w => BitVec.ofNat 8 w :: leBytes n (w / 256)

/-- Big-endian value of bytes (R217, R218). -/
def beNat (bs : List Byte) : Nat := leNat bs.reverse
def beBytes (n w : Nat) : List Byte := (leBytes n w).reverse

/-- A scratchpad address wraps modulo 2^20 (R195). -/
def spadAddr (a : Nat) : Nat := a % 2 ^ 20
def spadRead (m : Memory) (a n : Nat) : List Byte := Memory.readVia m spadAddr a n
def spadWrite (m : Memory) (a : Nat) (vs : List Byte) : Memory := Memory.writeVia m spadAddr a vs

/-- The vector of 512 bytes, byte j as byte j mod 4 of lane j div 4 (R206). -/
def vecOfBytes (bs : List Byte) : Vec := BitVec.ofNat 4096 (leNat bs)
def bytesOfVec (v : Vec) : List Byte := leBytes 512 v.toNat

end Sys2Proof.Machine
end

