-- ==== Sys2Proof/Machine/Ops.lean ====
section
/-! DEFINITION. The operations every meaning is built from: access to cores, contexts and arrays; registers and latches; results
in flight; taking a fault and offering it (R355 to R364); the common frame of a slot word (R37, R48). -/

namespace Sys2Proof.Machine

abbrev Out3 := Host.Outcome State Fault Refusal

-- ## Places in the state

def State.core (s : State) (c : Nat) : Core := NMap.getD s.cores c {}
def State.setCore (s : State) (c : Nat) (k : Core) : State := { s with cores := NMap.set s.cores c k }
def State.modCore (s : State) (c : Nat) (f : Core → Core) : State := s.setCore c (f (s.core c))
def Core.ctx (k : Core) (x : Nat) : Ctx := NMap.getD k.ctxs x {}
def Core.modCtx (k : Core) (x : Nat) (f : Ctx → Ctx) : Core := { k with ctxs := NMap.set k.ctxs x (f (k.ctx x)) }
def State.ctx (s : State) (c x : Nat) : Ctx := (s.core c).ctx x
def State.modCtx (s : State) (c x : Nat) (f : Ctx → Ctx) : State := s.modCore c fun k => k.modCtx x f
/-- The pair of a core (R8, R10). -/
def pairOf (c : Nat) : Nat := c / 2
/-- An array that nothing has used yet has counted every CYC cycle (R256). -/
def State.arr (s : State) (p : Nat) : Arr := NMap.getD s.arrs p { clk := s.cyc }
def State.modArr (s : State) (p : Nat) (f : Arr → Arr) : State := { s with arrs := NMap.set s.arrs p (f (s.arr p)) }
def Arr.pos (a : Arr) (p : Nat) : Pos := if p % 2 = 0 then a.p0 else a.p1
def Arr.modPos (a : Arr) (p : Nat) (f : Pos → Pos) : Arr :=
  if p % 2 = 0 then { a with p0 := f a.p0 } else { a with p1 := f a.p1 }

/-- Parts of a core number (R8). -/
def dieOf (c : Nat) : Nat := c / 256
def clusterOf (c : Nat) : Nat := c / 4
def clusterNo (c : Nat) : Nat := (c / 4) % 64
/-- The supervisor cores (R8, R430). -/
def isSupervisor (c : Nat) : Bool := decide (62 ≤ clusterNo c)

-- the bundle in issue
def State.curCore (s : State) : Core := s.core s.iss.core
def State.cur (s : State) : Ctx := s.ctx s.iss.core s.iss.ctx
def State.modCur (s : State) (f : Ctx → Ctx) : State := s.modCtx s.iss.core s.iss.ctx f
def State.modCurCore (s : State) (f : Core → Core) : State := s.modCore s.iss.core f
def State.curArr (s : State) : Arr := s.arr (pairOf s.iss.core)
def State.modCurArr (s : State) (f : Arr → Arr) : State := s.modArr (pairOf s.iss.core) f
def State.modIss (s : State) (f : Iss → Iss) : State := { s with iss := f s.iss }

/-- CYC and scratchpad as the bundle in issue finds them: of its first issue cycle (R57, R198). -/
def State.firstCyc (s : State) : Nat := (s.curCore.first.map (·.cyc)).getD s.cyc
def State.issueSpad (s : State) : Memory := (s.curCore.first.map (·.spad)).getD s.curCore.spad
/-- The array's ARRMODE and FIFOs as the bundle in issue finds them: of its first issue cycle (R57, R209). -/
def State.issueArr (s : State) : Arr := (s.curCore.first.map (·.arr)).getD s.curArr
/-- Core cycles that the bundle in issue has been held for a translation; a split cycle is none (R46, R57). -/
def State.heldFor (s : State) : Nat := s.curArr.clk - s.issueArr.clk

-- ## CAPS (R80)

def State.nDies (s : State) : Nat := bits s.caps.toNat 2 0
def State.hasRes (s : State) : Bool := s.caps.getLsbD 3
def State.hasCmp (s : State) : Bool := s.caps.getLsbD 4

-- ## Registers (R38, R107)

/-- The slot that a register name reaches under allotment `alloc` and rotation base `rrb` (R107). -/
def regSlot (alloc rrb n : Nat) : Nat := if alloc = 48 ∧ 32 ≤ n then 32 + (n - 32 + rrb) % 16 else n

def State.slotS (s : State) (n : Nat) : Nat := regSlot s.iss.allocS s.cur.rrbS n
def State.slotV (s : State) (n : Nat) : Nat := regSlot s.iss.allocV s.cur.rrbV n

/-- The latch entry that code 48 + 4p + a names (R38, R39): the last result that entered position p's chain `a` cycles ago. -/
def Ctx.latchAt (x : Ctx) (code : Nat) : Option LatchVal :=
  let p := (code - 48) / 4
  let a := (code - 48) % 4
  (x.latch.filter fun l => decide (l.pos = p) && decide (l.at_ + a = x.clk)).getLast?.map (·.val)

/-- Did the context pass a yield bundle at or after cycle `t` of its clock (R47)? -/
def Ctx.leftAt (x : Ctx) (t : Nat) : Bool := match x.yielded with | some y => decide (t ≤ y) | none => false

/-- The results that a yield left in flight to scalar slot `n` (R47). DESIGN CHOICE (log 93): of several, only the one issued last can show
before it lands. -/
def Ctx.earlyS (x : Ctx) (n : Nat) : Option Word :=
  (x.flight.filterMap fun f => match f.eff with
    | .sreg (some m) v => if decide (m = n) && x.leftAt f.iss then some v else none
    | _ => none).getLast?
def Ctx.earlyV (x : Ctx) (n : Nat) : Option Vec :=
  (x.flight.filterMap fun f => match f.eff with
    | .vreg (some m) v => if decide (m = n) && x.leftAt f.iss then some v else none
    | _ => none).getLast?

def Ctx.sAt (x : Ctx) (slot : Nat) : Word := NMap.getD x.sreg slot 0
def Ctx.vAt (x : Ctx) (slot : Nat) : Vec := NMap.getD x.vreg slot 0

/-- Free value (log 2): on one occasion of kind `kind` at `who`, does the device give the newer of the two results that R7 permits? -/
def newerAt (cyc kind idx who : Nat) : Bool := Config.newer cyc ((8 * idx + kind) * 2 ^ 15 + who)
/-- The cycle of an occasion: CYC with the number of the boot, for CYC starts again at each (R426; log 2). -/
def State.occ (s : State) (cyc : Nat) : Nat := s.boots * 2 ^ 64 + cyc
/-- The same for the operation in issue: each operation of each context of each core is an occasion of its own. -/
def State.newer (s : State) (kind idx : Nat) : Bool :=
  newerAt (s.occ s.firstCyc) kind idx ((s.iss.core * 8 + s.iss.ctx) * 4 + s.iss.pos)

/-- Free value (log 25): word `idx` of what the manual does not state, on one occasion of kind `kind` at `who` in a cycle. -/
def freeAt (cyc kind who idx : Nat) : Word := Config.freeWord (2 ^ 48 + ((cyc * 2 ^ 80 + who) * 2 ^ 40 + idx) * 8 + kind)

/-- A scalar register by slot, as a bundle that issues now reads it (R45); after a yield, a result still in flight may show
already (R47). -/
def State.readSlotS (s : State) (n : Nat) : Word :=
  match s.cur.earlyS n with
  | some v => if s.newer 0 n then v else s.cur.sAt n
  | none => s.cur.sAt n
def State.readSlotV (s : State) (n : Nat) : Vec :=
  match s.cur.earlyV n with
  | some v => if s.newer 1 n then v else s.cur.vAt n
  | none => s.cur.vAt n

/-- A scalar source operand (R38, R42). -/
def State.rdS (s : State) (code : Code) : Word :=
  if code.toNat < 48 then s.readSlotS (s.slotS code.toNat)
  else match s.cur.latchAt code.toNat with
    | some (.s v) => v
    | _ => 0
/-- A vector source operand by code number (R38, R42). -/
def State.rdVn (s : State) (code : Nat) : Vec :=
  if code < 48 then s.readSlotV (s.slotV code)
  else match s.cur.latchAt code with
    | some (.v v) => v
    | _ => 0
def State.rdV (s : State) (code : Code) : Vec := s.rdVn code.toNat

/-- The masks that a yield left in flight to mask register `m` (R47); of several, as for a scalar (log 93). -/
def Ctx.earlyM (x : Ctx) (m : Nat) : Option Mask :=
  (x.flight.filterMap fun f => match f.eff with
    | .mask n v => if decide (n = m) && x.leftAt f.iss then some v else none
    | _ => none).getLast?
/-- What a mask register holds; m0 is all ones (R110). -/
def Ctx.maskHeld (x : Ctx) (m : Nat) : Mask := if m = 0 then BitVec.allOnes 128 else NMap.getD x.mask m 0
/-- A mask register as a bundle that issues now reads it; after a yield, a mask still in flight may show already (R47). -/
def State.maskAt (s : State) (m : Nat) : Mask :=
  match if m = 0 then none else s.cur.earlyM m with
  | some v => if s.newer 2 m then v else s.cur.maskHeld m
  | none => s.cur.maskHeld m
/-- A guard register; q0 is true (R37). -/
def Ctx.guardAt (x : Ctx) (q : Nat) : Bool := decide (q = 0) || x.q.getLsbD q
def Ctx.condAt (x : Ctx) (j : Nat) : Bool := (NMap.getD x.cond j (false, 0)).1
def Ctx.targetAt (x : Ctx) (j : Nat) : Nat := (NMap.getD x.target j 0).toNat * 16
/-- A c-kind source: condition bit or guard (R125). -/
def Ctx.cSrc (x : Ctx) (c : Nat) : Bool := if c < 12 then x.condAt c else x.guardAt (c - 16)

-- ## Results in flight

/-- A result of the operation in issue, landing `lat` core cycles on (R44). -/
def State.later (s : State) (lat : Nat) (causes : Causes) (e : Eff) : State :=
  s.modCur fun x => { x with flight := x.flight ++ [⟨x.clk + lat, x.clk, s.iss.pos, s.iss.addr, causes, e⟩] }

/-- The destination slot of a scalar or vector result: none for `nul` (R41). -/
def State.dstS (s : State) (d : Code) : Option Nat := if d.toNat < 48 then some (s.slotS d.toNat) else none
def State.dstV (s : State) (d : Code) : Option Nat := if d.toNat < 48 then some (s.slotV d.toNat) else none

/-- A scalar result (R44). -/
def State.putS (s : State) (lat : Nat) (causes : Causes) (d : Code) (v : Word) : State := s.later lat causes (.sreg (s.dstS d) v)
/-- A vector result (R44). -/
def State.putV (s : State) (lat : Nat) (causes : Causes) (d : Code) (v : Vec) : State := s.later lat causes (.vreg (s.dstV d) v)
/-- An exception record that lands with no result (R115). -/
def State.note (s : State) (causes : Causes) : State := if causes = 0 then s else s.later 1 causes .note

/-- A transform-unit effect landing `lat` core cycles on (R212). -/
def State.unitLater (s : State) (lat port : Nat) (e : UEff) : State :=
  s.modCurCore fun k => { k with flight := k.flight ++ [⟨k.ccyc + lat, port, e⟩] }
/-- An array effect landing `lat` array cycles on (R270). -/
def State.arrLater (s : State) (lat : Nat) (e : AEff) : State :=
  s.modCurArr fun a => { a with flight := a.flight ++ [⟨a.clk + lat, a.clk, e⟩] }

-- ## Report cards (R112 to R116)

/-- An exception record applied to a card (R115). -/
def Card.apply (k : Card) (addr : Nat) (c : Causes) : Card :=
  { cause := k.cause ||| c
    addr := if k.v then k.addr else BitVec.ofNat 57 addr
    v := true
    pdrop := if c &&& cPREFDROP ≠ 0 then (if k.pdrop = 7 then 7 else k.pdrop + 1) else k.pdrop }

def Ctx.record (x : Ctx) (p addr : Nat) (c : Causes) : Ctx :=
  if c = 0 then x else { x with cards := NMap.set x.cards p ((NMap.getD x.cards p {}).apply addr c) }

-- ## Choosing the context that issues (R143)

def CtxSt.isReady : CtxSt → Bool
  | .ready => true
  | _ => false

/-- Of the ready contexts of a core, the one of highest priority, the first after `from_` among equals (R143). -/
def Core.choose (k : Core) (from_ : Nat) : Option Nat :=
  let order := (List.range 8).map fun i => (from_ + 1 + i) % 8
  let ready := order.filter fun x => (k.ctx x).st.isReady
  ready.foldl (fun best x => match best with
    | none => some x
    | some b => if (k.ctx b).prio < (k.ctx x).prio then some x else some b) none

/-- The core gives its issue slots to the context R143 chooses. A context that gets them after another had them finds its
steer registers freshly prepared (R132). A pre-emption that the host asked for is met or past (R424). -/
def Core.reschedule (k : Core) (from_ : Nat) : Core :=
  match k.choose from_ with
  | none => { k with run := none, hostPre := none }
  | some x =>
    let k' := { k with run := some x, lastRun := x, hostPre := none }
    if x = k.lastRun then k' else k'.modCtx x fun c => { c with prepAll := c.issued }

-- ## Faults (R354 to R364)

def fILLEGAL : Nat := 0x01
def fABSENT : Nat := 0x02
def fREGALLOT : Nat := 0x03
def fGUARD : Nat := 0x04
def fBREAK : Nat := 0x05
def fSOFT : Nat := 0x06
def fDIVZ : Nat := 0x07
def fALIGN : Nat := 0x08
def fPAGE : Nat := 0x09
def fPERM : Nat := 0x0A
def fWORLD : Nat := 0x0B
def fDEPTH : Nat := 0x0C
def fTIMING : Nat := 0x10
def fWINDOW : Nat := 0x11
def fLAYRES : Nat := 0x12
def fLAYRANGE : Nat := 0x13
def fTAG : Nat := 0x14
def fGROUP : Nat := 0x15
def fCHECKSUM : Nat := 0x16
def fGANG : Nat := 0x18
def fPOOL : Nat := 0x1F

/-- An event entered in the Registrar's log, or counted as dropped where the ring is full; each new entry raises MSI-X vector 0 (R429). -/
def State.logAt (s : State) (code core ctx world : Nat) (a b : Word) : State :=
  if (s.evwidx + 2 ^ 32 - s.evridx) % 2 ^ 32 < 1024 then
    let l := s.evlog ++ [⟨code, core, ctx, world, s.evwidx, s.cyc, a, b⟩]
    { s with evlog := l.drop (l.length - 1024), evwidx := (s.evwidx + 1) % 2 ^ 32, msix := s.msix + 1 }
  else { s with evdrop := min (s.evdrop + 1) (2 ^ 64 - 1) }
/-- A data word of an entry whose event has no such data (R429, log 25). -/
def State.noData (s : State) : Word := Config.freeWord (2 ^ 42 + s.evwidx)
/-- Field `k` of the next entry where the manual does not state it: 0 core, 1 context, 2 world (log 25). -/
def State.freeLog (s : State) (k : Nat) : Nat := (Config.freeWord (2 ^ 40 + 4 * s.evwidx + k)).toNat
/-- An event of world `w` whose core and context the manual does not state (log 25). -/
def State.logW (s : State) (code w : Nat) (a b : Word) : State := s.logAt code (s.freeLog 0 % 2 ^ 10) (s.freeLog 1 % 8) w a b
/-- An event whose core, context and world the manual does not state (log 25). -/
def State.log (s : State) (code : Nat) (a b : Word) : State := s.logW code (s.freeLog 2 % 64) a b

/-- Whose access an event is about, so far as the event fixes it: core, context, world (R429). -/
structure Who where
  core : Option Nat := none
  ctx : Option Nat := none
  world : Option Nat := none
/-- An event with what it fixes of core, context and world; the manual does not state the rest (log 25). -/
def State.logWho (s : State) (q : Who) (code : Nat) (a b : Word) : State :=
  s.logAt code (q.core.getD (s.freeLog 0 % 2 ^ 10)) (q.ctx.getD (s.freeLog 1 % 8)) (q.world.getD (s.freeLog 2 % 64)) a b

/-- The world of a context: its core's, or for a supervisor slot the one it was started in (R360). -/
def State.worldOf (s : State) (c x : Nat) : Nat := if isSupervisor c then (s.ctx c x).world else (s.core c).world

def Ctx.waits (x : Ctx) : List Wait := match x.st with | .wait ws => ws | _ => []
/-- Is the context a reserved cluster slot, of the world that its core is in (R328, R404)? -/
def Ctx.isSlot (x : Ctx) : Bool := x.proc && !x.leaving && !x.waits.contains .foreign && (match x.st with | .free => false | _ => true)
/-- The context with some of its waits ended; ready when none is left. -/
def Ctx.endWaits (x : Ctx) (p : Wait → Bool) : Ctx :=
  match x.st with
  | .wait ws => let r := ws.filter fun w => !p w
    { x with st := if r.isEmpty then .ready else .wait r }
  | _ => x
def Wait.isFwait : Wait → Bool | .fwait _ => true | _ => false
/-- The destination of the FWAIT in which the context waits; what else its bundle waits for goes on (R352, R358). One whose core is another
world's serves no fault (R404). -/
def Ctx.inFwait (x : Ctx) : Option Nat :=
  if x.waits.contains .foreign then none else x.waits.findSome? fun w => match w with | .fwait d => some d | _ => none

/-- The value of a pass (R361): KILL, RESUME, PATCH and INSPECT always, SKIP only where the pass has it. -/
def Pass.value (p : Pass) : Word :=
  (BitVec.ofNat 64 (p.ctx * 1024 + p.core)) ||| (BitVec.ofNat 64 p.gen.toNat <<< 16) ||| (BitVec.ofNat 64 p.fgen.toNat <<< 32) |||
  (BitVec.ofNat 64 (if p.skip then 0x1F else 0x17) <<< 48)

/-- Deliver fault `r` to proctor context `y` of core `d`, which waits in FWAIT with destination slot `reg` (R361, R369). DESIGN CHOICE
(log 97): the pass enters no latch chain. -/
def State.deliver (s : State) (r : FRef) (d y reg : Nat) : State :=
  let x := s.ctx r.core r.ctx
  let p : Pass := ⟨r.core, r.ctx, x.gen, x.fgen, decide (r.code ≠ fGANG), true⟩
  s.modCtx d y fun c => { c.endWaits Wait.isFwait with pass := some p, sreg := NMap.set c.sreg reg p.value }

/-- The waiting slots of a list of cores that serve world `w`: core, context, destination. -/
def State.waiting (s : State) (w : Nat) (places : List (Nat × Nat)) : List (Nat × Nat × Nat) :=
  places.filterMap fun (c, x) =>
    let k := s.ctx c x
    if k.proc && decide (s.worldOf c x = w) then (k.inFwait.map fun d => (c, x, d)) else none

def clusterSlots (cl : Nat) : List (Nat × Nat) := (List.range 4).map fun i => (4 * cl + i, 7)
def supervisorSlots (die : Nat) : List (Nat × Nat) :=
  (List.range 16).map fun i => (256 * die + 4 * (62 + i / 8), i % 8)

/-- Does the cluster hold a reserved slot of the world (R358)? -/
def State.hasSlot (s : State) (cl w : Nat) : Bool :=
  (clusterSlots cl).any fun (c, x) => (s.ctx c x).isSlot && decide (s.worldOf c x = w)

/-- One of a nonempty list, which one the device chooses (R7). -/
def State.pickOf {α : Type} (s : State) : List α → Option α × State
  | [] => (none, s)
  | [a] => (some a, s)
  | a :: as => ((a :: as)[Config.pick s.picks % (as.length + 1)]?, { s with picks := s.picks + 1 })

/-- The CYC at which the context of a fault froze. -/
def State.frozeAt (s : State) (r : FRef) : Nat := (s.ctx r.core r.ctx).frec.cyc
/-- An overflow list holds its faults in order of freeze (R359). -/
def State.intoOverflow (s : State) (r : FRef) (l : List FRef) : List FRef :=
  let older := fun (f : FRef) => decide (s.frozeAt f ≤ s.frozeAt r)
  l.takeWhile older ++ r :: l.dropWhile older

/-- The die's supervisor pool is offered a fault (R359). -/
def State.offerSupervisor (s : State) (r : FRef) : State :=
  let die := dieOf r.core
  let w := s.worldOf r.core r.ctx
  match s.pickOf (s.waiting w (supervisorSlots die)) with
  | (some (c, x, d), s') => s'.deliver r c x d
  | (none, s') =>
    let s'' := s'.logAt fPOOL r.core r.ctx w (BitVec.ofNat 64 r.code) s'.noData
    { s'' with overflow := NMap.set s''.overflow die (s''.intoOverflow r (NMap.getD s''.overflow die [])) }

/-- A frozen context's fault is offered (R358, R359, R363). -/
def State.offer (s : State) (r : FRef) : State :=
  let x := s.ctx r.core r.ctx
  if isSupervisor r.core then
    s.logAt 0x20 r.core r.ctx (s.worldOf r.core r.ctx) (BitVec.ofNat 64 r.code) (BitVec.ofNat 64 x.pc)
  else if x.proc then s.offerSupervisor r
  else
    let cl := clusterOf r.core
    let w := s.worldOf r.core r.ctx
    let q := NMap.getD s.queues cl []
    if !s.hasSlot cl w then s.offerSupervisor r
    else
      let sameWorld := q.any fun f => decide (s.worldOf f.core f.ctx = w)
      match if sameWorld then (none, s) else s.pickOf (s.waiting w (clusterSlots cl)) with
      | (some (c, y, d), s') => s'.deliver r c y d
      | (none, s') =>
        if q.length < 64 then { s' with queues := NMap.set s'.queues cl (q ++ [r]) } else s'.offerSupervisor r

/-- The faults of a CYC cycle are offered in ascending core number, and within a core in ascending context number (R358). -/
def State.offerAll (s : State) : State :=
  (s.offers.insertionSort fun a b => a.core < b.core ∨ (a.core = b.core ∧ a.ctx ≤ b.ctx)).foldl (fun t r => t.offer r) { s with offers := [] }

/-- The slot codes of the faults of a bundle, by position (R356, item 0x104). -/
def codesOf (fs : List (Nat × Nat × Word × Word)) : List Nat :=
  (List.range 4).map fun p => ((fs.filter fun f => decide (f.1 = p)).head?.map (·.2.1)).getD 0

/-- The context stops at a boundary in core cycle `t` of its core (R50): results in flight keep the counts they have left; their exception
records go on by themselves (R116, R355). -/
def Ctx.snap (x : Ctx) (t : Nat) : Ctx :=
  if x.snapped then x
  else
    { x with snapped := true
             recs := x.recs ++ (x.flight.filter fun f => decide (f.causes ≠ 0)).map fun f => { f with due := t + (f.due - x.clk), eff := .note }
             flight := (x.flight.filter fun f => decide (f.eff ≠ .note)).map fun f => { f with causes := 0 } }

/-- Taking a fault (R355): the context stops at the boundary before the bundle in issue, its fault generation advances, the
faulting bundle record and the detail are written, the core gives its issue slots away, and the fault is to be offered (R358). -/
def State.freeze (s : State) (fs : List (Nat × Nat × Word × Word)) (deferred waitF : Bool) : State :=
  match fs with
  | [] => s
  | (_, code, d0, d1) :: _ =>
    let c := s.iss.core
    let x := s.iss.ctx
    let s1 := s.modCtx c x fun k =>
      { k.snap (s.core c).ccyc with
        st := .frozen, fgen := k.fgen + 1, stall := 0,
        frec := { codes := codesOf fs, deferred := deferred, waitFault := waitF, cyc := s.cyc, words := s.iss.words, d0 := d0, d1 := d1,
                  rrbS := k.rrbS, rrbV := k.rrbV } }
    let s2 := s1.modCore c fun k => if k.run = some x then k.reschedule x else k
    { s2 with offers := s2.offers ++ [⟨c, x, code⟩] }

/-- An operation of the bundle in issue faults (R48, R49, R355): the first fault of the bundle freezes the context, a later one
adds its code to the record. The step withdraws every other effect of the bundle. -/
def State.raise (s : State) (code : Nat) (d0 d1 : Word) : Out3 :=
  let fs := s.iss.faults ++ [(s.iss.pos, code, d0, d1)]
  let s1 := s.modIss fun i => { i with faults := fs }
  .next (if s.iss.faults.isEmpty then s1.freeze fs false false
    else s1.modCur fun k => { k with frec := { k.frec with codes := codesOf fs } })

/-- Detail word 1 with a source code (R356). -/
def src (n : Nat) (low : Nat) : Word := BitVec.ofNat 64 (n * 2 ^ 60 + low)
/-- A privilege fault with its reason (R356, R368). -/
def State.perm (s : State) (reason : Nat) : Out3 := s.raise fPERM 0 (src 2 reason)
/-- LAYOUT_RANGE with the number of the failing check and the offending value (R356). -/
def State.range (s : State) (n : Nat) (v : Word) : Out3 := s.raise fLAYRANGE (BitVec.ofNat 64 n) v
/-- ALIGN of a scratchpad, transport or K address (R356). -/
def State.align3 (s : State) (a : Word) : Out3 := s.raise fALIGN (a &&& 0x01FFFFFFFFFFFFFF) (src 3 0)

-- ## The common frame of a slot word (R36, R37, R48, R106)

/-- How many operations of a class a bundle may hold (R36); classes 2 and 3, and 5 and 6, count together. -/
def classLimit (c : Nat) : Nat := if c = 1 ∨ c = 2 ∨ c = 3 ∨ c = 5 ∨ c = 6 ∨ c = 8 then 2 else 1
def classOf (c : Nat) : Nat := if c = 3 then 2 else if c = 6 then 5 else c

/-- Does the operation exceed its class's number, counting the lower positions (R36)? DESIGN CHOICE (log 48): R36 does not say which
positions carry the fault; here each one above the number, in slot order. -/
def Iss.over (i : Iss) (op : Instr) : Bool :=
  decide (op.cls ≠ 0) && decide (classLimit op.cls ≤ (i.ops.filter fun o => decide (classOf o.cls = classOf op.cls)).length)

/-- Does a scalar operand read a vector latch or a vector operand a scalar one (R42)? -/
def State.latchBad (s : State) (i : Instr) : Bool :=
  (i.ssrc.any fun c => decide (48 ≤ c) && (match s.cur.latchAt c with | some (.v _) => true | _ => false)) ||
  (i.vsrc.any fun c => decide (48 ≤ c) && decide (c < 64) && (match s.cur.latchAt c with | some (.s _) => true | _ => false))

/-- Does a source name an empty latch entry (R42)? -/
def State.latchStale (s : State) (i : Instr) : Bool :=
  (i.ssrc.any fun c => decide (48 ≤ c) && (s.cur.latchAt c).isNone) ||
  (i.vsrc.any fun c => decide (48 ≤ c) && decide (c < 64) && (s.cur.latchAt c).isNone)

/-- The first register code at or above the allotment (R106): code, and whether a vector. -/
def State.overAllot (s : State) (i : Instr) : Option (Nat × Bool) :=
  match i.sregs.find? fun c => decide (c < 48) && decide (s.iss.allocS ≤ c) with
  | some c => some (c, false)
  | none => (i.vregs.find? fun c => decide (c < 48) && decide (s.iss.allocV ≤ c)).map fun c => (c, true)

/-- Free registers of a core's pools (R100). -/
def Core.freeS (k : Core) : Nat := 512 - (k.ctxs.map fun c => c.2.allocS).foldl (· + ·) 0
def Core.freeV (k : Core) : Nat := 384 - (k.ctxs.map fun c => c.2.allocV).foldl (· + ·) 0

/-- Detail word 1 of REG_ALLOT (R356): the allotment and the free counts as they stood before the bundle took effect. -/
def State.allotDetail (s : State) : Word :=
  let k := s.curCore.modCtx s.iss.ctx fun x => { x with allocS := s.iss.allocS, allocV := s.iss.allocV }
  BitVec.ofNat 64 (s.iss.allocS + s.iss.allocV * 2 ^ 8 + k.freeS % 2 ^ 9 * 2 ^ 16 + k.freeV % 2 ^ 9 * 2 ^ 32)

/-- The word in issue, and the header word or 0 (R356). -/
def State.word (s : State) : Word := (s.iss.words.getD s.iss.pos 0).setWidth 64
def State.hdrWord (s : State) : Word := if s.iss.hdr then (s.iss.words.getD 0 0).setWidth 64 else 0
def State.illegal (s : State) : Out3 := s.raise fILLEGAL s.word s.hdrWord
def State.absent (s : State) : Out3 := s.raise fABSENT s.word s.hdrWord

/-- Does the guard read true (R37)? -/
def State.guardOn (s : State) (i : Instr) : Bool := s.cur.guardAt i.guard.toNat

/-- The common frame of an operation (R37, R48): ILLEGAL_OP, with the operation's own conditions `bad`; ABSENT_UNIT, where `gone`;
REG_ALLOT; then, if the guard reads true, its effect. A read of an empty latch is recorded (R42). -/
def sop (i : Instr) (bad gone : Bool) (s : State) (k : State → Out3) : Out3 :=
  if !i.wf || s.iss.over i || bad || (s.guardOn i && s.latchBad i) then s.illegal
  else if gone then s.absent
  else match s.overAllot i with
    | some (c, v) => s.raise fREGALLOT (BitVec.ofNat 64 (c + (if v then 64 else 0))) s.allotDetail
    | none => if s.guardOn i then k (if s.latchStale i then s.note cLATCH else s) else .next s

end Sys2Proof.Machine
end

