-- ==== Sys2Proof/Machine/Operands.lean ====
section
/-! DEFINITION. Operand forms: addresses of the scratchpad and of global memory, mode words, and elements of vectors (R33, R175, R195, R315). -/

namespace Sys2Proof.Machine

/-- The scratchpad address of base register and scaled offset (R206): computed modulo 2^20. -/
def State.spadEA (s : State) (a : Code) (off : Word) (z : Nat) : Nat :=
  (s.rdS a + off * BitVec.ofNat 64 z).toNat % 2 ^ 20

/-- The virtual address of an M operation (R315): 64 bits, wrapping. -/
def State.memEA (s : State) (a : Code) (o : Code) (z : Nat) : Nat :=
  (s.rdS a + o.signExtend 64 * BitVec.ofNat 64 z).toNat

/-- Element `i` of a vector under type `ty` (R175): a residue takes a lane pair. -/
def elem (ty : Nat) (v : Vec) (i : Nat) : Nat :=
  if ty = 5 then (v.extractLsb' (64 * i) 64).toNat else (v.lane i).toNat % 2 ^ tyBits ty

/-- Residue `j` of a vector. -/
def residue (v : Vec) (j : Nat) : Nat := (v.extractLsb' (64 * j) 64).toNat

/-- The vector of 64 residues. -/
def ofResidues (f : Nat → Nat) : Vec := BitVec.ofNat 4096 (packNat 64 f 64)

/-- The vector of 128 lanes given as numbers. -/
def ofLanesN (f : Nat → Nat) : Vec := BitVec.ofNat 4096 (packNat 32 f 128)

/-- Lane 0 of a vector, the other lanes zero. -/
def lane0 (v : Nat) : Vec := BitVec.ofNat 4096 (v % 2 ^ 32)

/-- The rounding mode of a vector operation: its suffix, or RNDMODE (R65, R162). -/
def State.rm (s : State) (r : Nat) : Nat :=
  if r = 1 then 0 else if r = 2 then 1 else if r = 3 then 4 else bits s.cur.rnd.toNat 2 0
/-- The rounding mode of a VCVT minor (R187). -/
def State.rm3 (s : State) (r : Nat) : Nat := if r = 7 then bits s.cur.rnd.toNat 2 0 else r
/-- FTZ of the context (R162). -/
def State.ftz (s : State) : Bool := s.cur.rnd.getLsbD 3

/-- Fields of a mode word (R260). -/
def mFmt (m : Word) : Nat := bits m.toNat 2 0
def mKr (m : Word) : Nat := bits m.toNat 14 8 + 1
def mNc (m : Word) : Nat := bits m.toNat 22 16 + 1
def mCk (m : Word) : Bool := m.getLsbD 24
def mTau (m : Word) : Nat := bits m.toNat 63 32

end Sys2Proof.Machine
end

