-- ==== Sys2Proof/Machine/Flags.lean ====
section
/-! DEFINITION. Flag computations: compare records, condition targets, guard writes, control registers as CRD reads them. -/

namespace Sys2Proof.Machine

/-- The compare record of two operands (R109): EQ, LT, LTU. -/
def cmpRecord (a b : Word) : BitVec 3 :=
  BitVec.ofNat 3 ((if a = b then 1 else 0) + (if a.slt b then 2 else 0) + (if a.ult b then 4 else 0))

/-- Is the level a LOOPR's? -/
def Level.rot (l : Level) : Bool := decide (l.kind = 2)
/-- Is a LOOPR body of the context active (R108)? -/
def Ctx.inLoopr (x : Ctx) : Bool := x.loops.any fun l => l.rot

/-- A result into a condition target (R108, R109, R124, R125): q0 never, q8 to q15 not inside a LOOPR body. -/
def State.putC (s : State) (c : Code) (v : Bool) (r : BitVec 3) : Out3 :=
  let n := c.toNat
  if n < 12 then .next (s.later 1 0 (.cond n v r))
  else if n = 16 ∨ (24 ≤ n ∧ s.cur.inLoopr = true) then s.raise fGUARD (BitVec.ofNat 64 n) 0
  else .next (s.later 1 0 (.guardReg (n - 16) v))

/-- The 64-bit image of a report card (R112). -/
def Card.word (k : Card) : Word :=
  BitVec.ofNat 64 (k.cause.toNat * 2 ^ 48 + bits k.addr.toNat 47 4 * 16 + (if k.v then 8 else 0) + k.pdrop.toNat)
/-- The image of RPTHI (R113). -/
def Card.hi (k : Card) : Word := BitVec.ofNat 64 (k.addr.toNat / 2 ^ 48)

/-- RNDMODE as a write leaves it (R162). -/
def rndOf (w : Word) : Word :=
  let rm := bits w.toNat 2 0
  BitVec.ofNat 64 ((if rm < 5 then rm else 0) + bits w.toNat 4 3 * 8)

/-- A BANKFMT register as a write leaves it (R199). -/
def bankfmtOf (cmpu : Bool) (w : Word) : Nat :=
  let f := bits w.toNat 2 0
  (if f < 6 then f else 0) + (if cmpu && w.getLsbD 3 then 8 else 0)

/-- CTXSTAT (R329). -/
def Ctx.stat (x : Ctx) (core n : Nat) : Word :=
  BitVec.ofNat 64 (x.gen.toNat * 2 ^ 48 + core * 2 ^ 38 + x.depth * 2 ^ 36 + (if x.proc then 2 ^ 35 else 0) + x.prio * 2 ^ 32 +
    x.memb * 2 ^ 27 + (x.csz - 1) * 2 ^ 22 + x.lvl * 2 ^ 20 + x.slot * 2 ^ 4 + n)

/-- ARRMODE as a read returns it (R256). -/
def Arr.modeWord (a : Arr) : Word := BitVec.ofNat 64 ((a.clk - a.base) % 2 ^ 32 * 2 ^ 32 + a.wsz * 4 + a.mode)

/-- WSTATE of a world as its cores show it (R398): 0 free, 1 loading, 2 running, 3 tearing down. -/
def State.wstate (s : State) (w : Nat) : Nat :=
  let r := NMap.getD s.worlds w {}
  if w = 0 then 0 else if r.closing then 3 else if r.loaded then 2 else 1

/-- Is the core's world in teardown? Its cores issue nothing (R410). -/
def State.shut (s : State) (c : Nat) : Bool := decide (s.wstate (s.core c).world = 3)

/-- WORLD as a context reads it (R398); a supervisor slot shows the world it was started in. -/
def State.worldWord (s : State) (c x : Nat) : Word :=
  let w := s.worldOf c x
  let t := s.wstate w
  BitVec.ofNat 64 ((if s.dbg then 2 ^ 8 else 0) + t * 2 ^ 6 + (if t = 0 ∨ t = 3 then 0 else w))

def State.cluster (s : State) (cl : Nat) : Cluster := NMap.getD s.clusters cl {}
/-- Copy channel `n` of a cluster (R11, R242). DESIGN CHOICE (log 44): the manual gives channels to clusters; a supervisor core has four of its
own, under its cluster value 62 or 63. -/
def State.chan (s : State) (cl n : Nat) : Channel := NMap.getD (s.cluster cl).ch n {}
def State.modChan (s : State) (cl n : Nat) (f : Channel → Channel) : State :=
  { s with clusters := NMap.set s.clusters cl { s.cluster cl with ch := NMap.set (s.cluster cl).ch n (f (s.chan cl n)) } }

/-- Unstarted tracked entries, and timed copies with a packet still to read (R221, R239). -/
def Channel.qlev (c : Channel) : Nat := (c.queue.filter fun e => e.marker.isNone).length
def Channel.tlev (c : Channel) : Nat := (c.timed.filter fun e => decide (e.read < e.packets)).length

/-- CPSTAT of a channel (R239). -/
def State.cpstat (s : State) (cl n : Nat) : Word :=
  let c := s.chan cl n
  BitVec.ofNat 64 (c.flags.length * 2 ^ 48 + c.tlev * 2 ^ 40 + c.qlev * 2 ^ 32 + c.done_)

/-- The GSTAT value of position `p` as core `c` sees it (R297). -/
def Arr.gstat (a : Arr) (p c : Nat) : Word :=
  let (busy, pb) := match a.gbusy with
    | some g => (decide (a.clk < g.until_), decide (a.clk < g.until_) && decide (g.core ≠ c))
    | none => (false, false)
  BitVec.ofNat 64 (a.krc % 2 ^ 7 * 2 ^ 48 + a.dev % 2 ^ 16 * 2 ^ 32 + (a.pos p).ldc % 2 ^ 6 * 2 ^ 24 + (a.pos p).sel % 2 ^ 6 * 2 ^ 16 +
    b2n pb (2 ^ 12) + b2n busy (2 ^ 11) + a.chk % 2 ^ 2 * 2 ^ 9 + a.inex % 2 * 2 ^ 8 + a.kind % 2 ^ 2 * 2 ^ 6 + (a.gn - 1) % 2 ^ 6)

end Sys2Proof.Machine
end

