-- ==== Sys2Proof/Machine/Control.lean ====
section
/-! DEFINITION. The control instructions (R129 to R150), with CTXID, PRIO and TCUR (R330, R331, R346). A transfer, a loop
level, a yield and the like are asked of the fault check point through the issue record, and the step performs them there. -/

namespace Sys2Proof.Machine

def isLoopOp : Instr → Bool
  | .loop _ _ _ _ => true
  | .loopi _ _ _ _ => true
  | .loopr _ _ _ _ => true
  | _ => false
def isTransferOp : Instr → Bool
  | .br _ _ => true
  | .brl _ _ _ => true
  | .ret _ _ => true
  | .lbrk _ => true
  | _ => false
def isDeferOp : Instr → Bool
  | .defer _ _ _ _ _ => true
  | .defdr _ _ _ _ => true
  | _ => false

/-- The conflicts of R136: a loop instruction with another, or with a transfer. DESIGN CHOICE (log 48): of two operations in conflict the one
in the higher slot position carries ILLEGAL_OP, here as in R105, R149 and R212. -/
def Iss.loopBad (i : Iss) : Bool := i.ops.any fun o => isLoopOp o || isTransferOp o
def Iss.xferBad (i : Iss) : Bool := i.ops.any isLoopOp

/-- Bubble cycles of a taken branch through jN (R132). DESIGN CHOICE (log 95): where nothing has prepared jN since the task began, k counts from
the task's first bundle. -/
def Ctx.bubbles (x : Ctx) (j : Nat) : Nat := 3 - (x.issued - max (NMap.getD x.prep j 0) x.prepAll)

/-- A transfer asked of the check point: the first of a bundle takes effect (R136). -/
def State.transfer (s : State) (x : Xfer) : State :=
  if s.iss.xfer.isSome || s.iss.lbrk then s else s.modIss fun i => { i with xfer := some x }
def State.canTransfer (s : State) : Bool := s.iss.xfer.isNone && !s.iss.lbrk

/-- Bits 56:4 of a target address, as a bundle number. -/
def bundleNo (a : Nat) : BitVec 53 := BitVec.ofNat 53 (a / 16)

/-- PREP (R134): the target is relative to the instruction's own bundle and lands at issue + 1. -/
def execPrep (g : Guard) (j : Code) (i : BitVec 12) (x : Ext) (s : State) : Out3 :=
  sop (.prep g j i x) false false s fun s =>
    .next (s.later 1 0 (.target j.toNat (bundleNo s.iss.addr + (immS20 x i).setWidth 53) s.cur.issued))

/-- PREPR (R134): ALIGN where the address is no bundle's. -/
def execPrepr (g : Guard) (j a : Code) (s : State) : Out3 :=
  sop (.prepr g j a) false false s fun s =>
    let v := s.rdS a
    if v.toNat % 16 ≠ 0 then s.align3 v
    else .next (s.later 1 0 (.target j.toNat (bundleNo v.toNat) s.cur.issued))

/-- BR (R134): transfers where the condition is true. -/
def execBr (g : Guard) (j : Code) (s : State) : Out3 :=
  sop (.br g j) s.iss.xferBad false s fun s =>
    if s.cur.condAt j.toNat then .next (s.transfer ⟨s.cur.targetAt j.toNat, s.cur.bubbles j.toNat, true⟩) else .next s

/-- BRL (R134): as BR, and the link only when it transfers; it pops no level (R135). -/
def execBrl (g : Guard) (j d : Code) (s : State) : Out3 :=
  sop (.brl g j d) s.iss.xferBad false s fun s =>
    if s.cur.condAt j.toNat && s.canTransfer then
      .next ((s.transfer ⟨s.cur.targetAt j.toNat, s.cur.bubbles j.toNat, false⟩).putS 1 0 d (BitVec.ofNat 64 (s.iss.addr + 16)))
    else .next s

/-- RET (R134): always transfers, three bubbles. -/
def execRet (g : Guard) (a : Code) (s : State) : Out3 :=
  sop (.ret g a) s.iss.xferBad false s fun s =>
    let v := s.rdS a
    if v.toNat % 16 ≠ 0 then s.align3 v else .next (s.transfer ⟨(bundleNo v.toNat).toNat * 16, 3, false⟩)

/-- The conditions of R138 on a loop instruction with a body of `len` bundles. -/
def State.loopBad (s : State) (len : Nat) (rot : Bool) : Bool :=
  s.iss.loopBad || decide (4 ≤ s.cur.loops.length) || (rot && s.cur.inLoopr) ||
  (match s.cur.loops with | [] => false | l :: _ => decide (l.last < s.iss.addr + 16 * len))

/-- A loop instruction's effect (R139): a level asked of the check point, or the body skipped. -/
def State.startLoop (s : State) (n len drain kind : Nat) : State :=
  let a := s.iss.addr
  if n = 0 then s.transfer ⟨a + 16 * (len + 1), 3, false⟩
  else s.modIss fun i => { i with push := some ⟨a + 16, a + 16 * len, n + drain, kind, n, 0⟩ }

/-- LOOP (R137, R139). -/
def execLoop (g : Guard) (a : Code) (l : BitVec 12) (x : Ext) (s : State) : Out3 :=
  let len := immU20 x l
  sop (.loop g a l x) (s.loopBad len false) false s fun s => .next (s.startLoop ((s.rdS a).toNat % 2 ^ 32) len 0 0)

/-- LOOPI (R137, R139). -/
def execLoopi (g : Guard) (l : Code) (n : BitVec 12) (x : Ext) (s : State) : Out3 :=
  let len := loopiLen l x
  sop (.loopi g l n x) (s.loopBad len false) false s fun s => .next (s.startLoop (loopiCount n x) len 0 1)

/-- LOOPR (R137, R139): the drain runs extra iterations. -/
def execLoopr (g : Guard) (a : Code) (l : BitVec 12) (x : Ext) (s : State) : Out3 :=
  sop (.loopr g a l x) (s.loopBad l.toNat true) false s fun s =>
    .next (s.startLoop ((s.rdS a).toNat % 2 ^ 32) l.toNat (bits x.byte.toNat 2 0) 2)

/-- The rotation and the guard shift of a LOOPR boundary; `more`: the guard q8 of the next iteration (R140). -/
def Ctx.rotate (x : Ctx) (more : Bool) : Ctx :=
  { x with rrbS := if x.allocS = 48 then (x.rrbS + 15) % 16 else x.rrbS
           rrbV := if x.allocV = 48 then (x.rrbV + 15) % 16 else x.rrbV
           q := (x.q &&& 0x00FF) ||| ((x.q &&& 0xFF00) <<< 1) ||| (if more then 0x0100 else 0) }

/-- The iterations that end at address `a`, of the given levels, innermost first, and the next address (R140). -/
def Ctx.ends (x : Ctx) (a : Nat) : List Level → Ctx × Nat
  | [] => ({ x with loops := [] }, a + 16)
  | l :: ls =>
    if l.last ≠ a then ({ x with loops := l :: ls }, a + 16)
    else
      let l1 := { l with left := l.left - 1, it := if l.rot then l.it + 1 else l.it }
      let x1 := if l.rot then x.rotate (decide (l1.it < l.n)) else x
      if 0 < l1.left then ({ x1 with loops := l1 :: ls }, l.first)
      else Ctx.ends (if l.rot then { x1 with q := x1.q &&& 0x00FF } else x1) a ls

/-- The boundary at address `a` with the given loop levels, and the next address: the innermost level that ends there is found first
(R140); levels inside it that end elsewhere stay. -/
def Ctx.boundary (x : Ctx) (a : Nat) (ls : List Level) : Ctx × Nat :=
  let inner := ls.takeWhile fun l => decide (l.last ≠ a)
  match inner, ls.dropWhile fun l => decide (l.last ≠ a) with
  | [], _ => x.ends a ls
  | _, [] => ({ x with loops := ls }, a + 16)
  | _, l :: out =>
    let r := x.ends a [l]
    ({ r.1 with loops := inner ++ r.1.loops ++ out }, r.2)

/-- LBRK (R142): pops the innermost level at the check point; ILLEGAL_OP where none is active (R138). -/
def execLbrk (g : Guard) (s : State) : Out3 :=
  sop (.lbrk g) (s.iss.xferBad || s.cur.loops.isEmpty) false s fun s =>
    if s.canTransfer then .next (s.modIss fun i => { i with lbrk := true }) else .next s

/-- YIELD (R143). -/
def execYield (g : Guard) (s : State) : Out3 :=
  sop (.yield g) false false s fun s => .next (s.modIss fun i => { i with yield := true })

/-- DONE (R144). -/
def execDone (g : Guard) (s : State) : Out3 :=
  sop (.done g) false false s fun s => .next (s.modIss fun i => { i with done := true, yield := true })

/-- TRAP (R146): raises SOFT with its code. -/
def execTrap (g : Guard) (i : BitVec 12) (s : State) : Out3 :=
  sop (.trap g i) false false s fun s => s.raise fSOFT (i.setWidth 64) 0

/-- A wait asked of the check point; its bundle is a yield bundle (R143, R352). -/
def State.await (s : State) (w : Wait) : State := s.modIss fun i => { i with wait := i.wait ++ [w], yield := true }

/-- WAITC (R145). -/
def execWaitc (g : Guard) (a : Code) (s : State) : Out3 :=
  sop (.waitc g a) false false s fun s => .next (s.await (.cyc (s.rdS a).toNat))

/-- BKPT (R62): raises BREAKPOINT. -/
def execBkpt (g : Guard) (s : State) : Out3 :=
  sop (.bkpt g) false false s fun s => s.raise fBREAK 0 0

/-- The 32 bytes of a deferral entry (R147). -/
def defBytes (lane path n : Nat) (vals : List Nat) : List Byte :=
  leBytes 4 (lane + path * 2 ^ 7 + n * 2 ^ 13) ++ ((List.range 4).map fun j => leBytes 4 (vals.getD j 0)).flatten ++ leBytes 12 0

/-- DEFER (R149): the first lanes that fit are appended; DEFER_FULL where some do not. -/
def execDefer (g : Guard) (a : Code) (k n : BitVec 3) (p : Code) (s : State) : Out3 :=
  sop (.defer g a k n p) (s.iss.ops.any isDeferOp) false s fun s =>
    let m := s.maskAt k.toNat
    let sel := (List.range 128).filter fun i => m.getLsbD i
    let take := sel.take (s.cur.deferC - s.cur.defer.length)
    let vs := (List.range n.toNat).map fun j => s.rdVn (a.toNat + j)
    let es := take.map fun i => defBytes i p.toNat n.toNat (vs.map fun v => (v.lane i).toNat)
    .next (s.later 1 (causeIf (decide (take.length < sel.length)) cDEFER) (.append p.toNat es))

/-- A deferral entry's bytes at place `k` of the context's region. -/
def State.defPlace (s : State) (k : Nat) : List Byte := spadRead s.issueSpad (s.cur.deferBase + 32 * k) 32

/-- DEFDR (R149): the oldest entries of the path fill the lanes, as their bytes stand; one of the registers, which one the
spec leaves open, enters the latch chain (logs 2, 9). -/
def execDefdr (g : Guard) (d : Code) (n : BitVec 3) (p : Code) (s : State) : Out3 :=
  sop (.defdr g d n p) (s.iss.ops.any isDeferOp) false s fun s =>
    let e := ((s.cur.defer.filter fun q => decide (q.1 = p.toNat)).take 128).map fun q => s.defPlace q.2
    let val := fun j => ofLanesN fun l =>
      match e[l]? with
      | none => 0
      | some b => if j < leNat (b.take 4) / 2 ^ 13 % 8 then leNat ((b.drop (4 + 4 * j)).take 4) else 0
    let c := Config.pick s.picks % (max n.toNat 1)
    let s' := ((List.range n.toNat).filter fun j => decide (j ≠ c)).foldl
      (fun t j => t.later 1 0 (.vplain (t.slotV (d.toNat + j)) (val j))) { s with picks := s.picks + 1 }
    let s'' := if n = 0 then s' else s'.later 1 0 (.vreg (some (s.slotV (d.toNat + c))) (val c))
    .next (s''.later 1 0 (.remove p.toNat e.length))

/-- DEFCT (R149). -/
def execDefct (g : Guard) (d p : Code) (s : State) : Out3 :=
  sop (.defct g d p) false false s fun s =>
    let cnt := (s.cur.defer.filter fun q => decide (q.1 = p.toNat)).length
    .next (s.putS 1 0 d (BitVec.ofNat 64 ((s.cur.deferC - s.cur.defer.length) * 2 ^ 32 + cnt)))

/-- TCUR (R346): the timetable entry under the cursor, or the end marker. -/
def execTcur (g : Guard) (d : Code) (s : State) : Out3 :=
  sop (.tcur g d) false false s fun s =>
    let x := s.cur
    let e := if x.cursor ≤ 255 then x.ttab.getD x.cursor (BitVec.allOnes 64) else BitVec.allOnes 64
    let s' := s.putS 1 0 d e
    .next (if e = BitVec.allOnes 64 then s' else s'.later 1 0 .cursor)

/-- CTXID (R330). -/
def execCtxid (g : Guard) (d : Code) (s : State) : Out3 :=
  sop (.ctxid g d) false false s fun s =>
    .next (s.putS 1 0 d (BitVec.ofNat 64 (s.cur.memb * 2 ^ 32 + s.cur.gen.toNat * 2 ^ 16 + s.iss.ctx * 2 ^ 10 + s.iss.core)))

/-- PRIO (R331): never above the launch's priority; no effect in a proctor or supervisor context (R328). -/
def execPrio (g : Guard) (p : Code) (s : State) : Out3 :=
  sop (.prio g p) false false s fun s =>
    if s.cur.proc then .next s else .next (s.later 1 0 (.prio (min p.toNat s.cur.ceiling)))

end Sys2Proof.Machine
end

