-- ==== Sys2Proof/Machine/Scalar.lean ====
section
/-! DEFINITION. The scalar instructions (R117 to R128). -/

namespace Sys2Proof.Machine


/-- Which ALU the operation issues on (R117, R81): the first S operation of a bundle on S0, the second on S1, mapped onto the
physical ALUs by SEATMAP. -/
def State.alu (s : State) : Nat :=
  let first := !(s.iss.ops.any fun o => decide (classOf o.cls = 2))
  let seat := bits s.curCore.seat.toNat 1 0
  if seat = 1 then 0 else if seat = 2 then 1 else if first then 0 else 1

/-- Is the physical ALU still in a divide (R44, R117)? -/
def State.divBusy (s : State) : Bool := decide (s.curCore.ccyc < NMap.getD s.curCore.divBusy s.alu 0)

/-- A scalar operation of latency 1 without own conditions (R118). -/
def scalar1 (i : Instr) (d : Code) (s : State) (f : State → Word) : Out3 :=
  sop i false false s fun s => .next (s.putS 1 0 d (f s))

/-- A multiply (R120): latency 3. -/
def scalar3 (i : Instr) (d : Code) (s : State) (f : State → Word) : Out3 :=
  sop i false false s fun s => .next (s.putS 3 0 d (f s))

/-- A divide (R121): `q` where the divisor is not zero, with its causes; the ALU is busy for 18 core cycles (R44). -/
def divide (i : Instr) (d a b : Code) (s : State) (q : Word → Word → Word × Causes) : Out3 :=
  sop i s.divBusy false s fun s =>
    let x := s.rdS a
    let y := s.rdS b
    if y = 0 ∧ s.cur.rnd.getLsbD 4 = true then s.raise fDIVZ x 0
    else
      let r := if y = 0 then (0, cDZ) else q x y
      let s' := s.modCurCore fun k => { k with divBusy := NMap.set k.divBusy s.alu (k.ccyc + 18) }
      .next (s'.putS 18 r.2 d r.1)

/-- A compare (R124). -/
def compare (i : Instr) (c : Code) (s : State) (f : Word → Word → Bool) (x y : State → Word) : Out3 :=
  sop i false false s fun s => s.putC c (f (x s) (y s)) (cmpRecord (x s) (y s))

/-- A guard-logic operation (R125): its record is zero. -/
def guardLogic (i : Instr) (c : Code) (s : State) (f : State → Bool) : Out3 :=
  sop i false false s fun s => s.putC c (f s) 0

/-- Leading zeros (R119). -/
def clzOf (a : Word) : Word := BitVec.ofNat 64 (64 - bitLen a.toNat)
/-- One bits (R119). -/
def popcOf (a : Word) : Word := BitVec.ofNat 64 ((List.range 64).filter fun i => a.getLsbD i).length
/-- Shift amounts use bits 5:0 (R118). -/
def sh6 (b : Word) : Nat := b.toNat % 64


/-- MOV (R119). -/
def execMov (g : Guard) (d a : Code) (s : State) : Out3 :=
  scalar1 (.mov g d a) d s fun s => s.rdS a

/-- ADD (R119). -/
def execAdd (g : Guard) (d a b : Code) (s : State) : Out3 :=
  scalar1 (.add g d a b) d s fun s => s.rdS a + s.rdS b

/-- SUB (R119). -/
def execSub (g : Guard) (d a b : Code) (s : State) : Out3 :=
  scalar1 (.sub g d a b) d s fun s => s.rdS a - s.rdS b

/-- MUL (R120). -/
def execMul (g : Guard) (d a b : Code) (s : State) : Out3 :=
  scalar3 (.mul g d a b) d s fun s => s.rdS a * s.rdS b

/-- MULH (R120). -/
def execMulh (g : Guard) (d a b : Code) (s : State) : Out3 :=
  scalar3 (.mulh g d a b) d s fun s => ((s.rdS a).signExtend 128 * (s.rdS b).signExtend 128).extractLsb' 64 64

/-- MULHU (R120). -/
def execMulhu (g : Guard) (d a b : Code) (s : State) : Out3 :=
  scalar3 (.mulhu g d a b) d s fun s => ((s.rdS a).setWidth 128 * (s.rdS b).setWidth 128).extractLsb' 64 64

/-- DIVS (R121): truncates toward zero; -2^63 by -1 gives -2^63 with DIVOVF. -/
def execDivs (g : Guard) (d a b : Code) (s : State) : Out3 :=
  divide (.divs g d a b) d a b s fun x y =>
    if x = 0x8000000000000000 ∧ y = 0xFFFFFFFFFFFFFFFF then (x, cDIVOVF) else (x.sdiv y, 0)

/-- DIVU (R121). -/
def execDivu (g : Guard) (d a b : Code) (s : State) : Out3 :=
  divide (.divu g d a b) d a b s fun x y => (x / y, 0)

/-- AND (R119). -/
def execAnd (g : Guard) (d a b : Code) (s : State) : Out3 :=
  scalar1 (.and g d a b) d s fun s => s.rdS a &&& s.rdS b

/-- OR (R119). -/
def execOr (g : Guard) (d a b : Code) (s : State) : Out3 :=
  scalar1 (.or g d a b) d s fun s => s.rdS a ||| s.rdS b

/-- XOR (R119). -/
def execXor (g : Guard) (d a b : Code) (s : State) : Out3 :=
  scalar1 (.xor g d a b) d s fun s => s.rdS a ^^^ s.rdS b

/-- ANDN (R119). -/
def execAndn (g : Guard) (d a b : Code) (s : State) : Out3 :=
  scalar1 (.andn g d a b) d s fun s => s.rdS a &&& ~~~(s.rdS b)

/-- SHL (R119). -/
def execShl (g : Guard) (d a b : Code) (s : State) : Out3 :=
  scalar1 (.shl g d a b) d s fun s => s.rdS a <<< sh6 (s.rdS b)

/-- SHR (R119). -/
def execShr (g : Guard) (d a b : Code) (s : State) : Out3 :=
  scalar1 (.shr g d a b) d s fun s => s.rdS a >>> sh6 (s.rdS b)

/-- SAR (R119). -/
def execSar (g : Guard) (d a b : Code) (s : State) : Out3 :=
  scalar1 (.sar g d a b) d s fun s => (s.rdS a).sshiftRight (sh6 (s.rdS b))

/-- ROTL (R119). -/
def execRotl (g : Guard) (d a b : Code) (s : State) : Out3 :=
  scalar1 (.rotl g d a b) d s fun s => (s.rdS a).rotateLeft (sh6 (s.rdS b))

/-- CLZ (R119). -/
def execClz (g : Guard) (d a : Code) (s : State) : Out3 :=
  scalar1 (.clz g d a) d s fun s => clzOf (s.rdS a)

/-- POPC (R119). -/
def execPopc (g : Guard) (d a : Code) (s : State) : Out3 :=
  scalar1 (.popc g d a) d s fun s => popcOf (s.rdS a)

/-- MIN (R119). -/
def execMin (g : Guard) (d a b : Code) (s : State) : Out3 :=
  scalar1 (.min g d a b) d s fun s => if (s.rdS a).slt (s.rdS b) then s.rdS a else s.rdS b

/-- MAX (R119). -/
def execMax (g : Guard) (d a b : Code) (s : State) : Out3 :=
  scalar1 (.max g d a b) d s fun s => if (s.rdS a).slt (s.rdS b) then s.rdS b else s.rdS a

/-- MINU (R119). -/
def execMinu (g : Guard) (d a b : Code) (s : State) : Out3 :=
  scalar1 (.minu g d a b) d s fun s => if (s.rdS a).ult (s.rdS b) then s.rdS a else s.rdS b

/-- MAXU (R119). -/
def execMaxu (g : Guard) (d a b : Code) (s : State) : Out3 :=
  scalar1 (.maxu g d a b) d s fun s => if (s.rdS a).ult (s.rdS b) then s.rdS b else s.rdS a

/-- SEL (R122): the guard number in the extension byte. -/
def execSel (g : Guard) (d a b : Code) (x : Ext) (s : State) : Out3 :=
  scalar1 (.sel g d a b x) d s fun s => if s.cur.guardAt (bits x.byte.toNat 3 0) then s.rdS a else s.rdS b

/-- EXTB (R122). -/
def execExtb (g : Guard) (d a p : Code) (x : Ext) (s : State) : Out3 :=
  scalar1 (.extb g d a p x) d s fun s => (s.rdS a >>> p.toNat) &&& BitVec.ofNat 64 (2 ^ (bits x.byte.toNat 5 0 + 1) - 1)

/-- INSB (R122): reads its destination at issue. -/
def execInsb (g : Guard) (d a p : Code) (x : Ext) (s : State) : Out3 :=
  scalar1 (.insb g d a p x) d s fun s => let m : Word := BitVec.ofNat 64 (2 ^ (bits x.byte.toNat 5 0 + 1) - 1) <<< p.toNat
    (s.rdS d &&& ~~~m) ||| ((s.rdS a <<< p.toNat) &&& m)

/-- LEA (R122). -/
def execLea (g : Guard) (d a b : Code) (x : Ext) (s : State) : Out3 :=
  scalar1 (.lea g d a b x) d s fun s => s.rdS a + (s.rdS b <<< bits x.byte.toNat 2 0)

/-- CEQ (R124). -/
def execCeq (g : Guard) (c a b : Code) (s : State) : Out3 :=
  compare (.ceq g c a b) c s (fun x y => x == y) (fun s => s.rdS a) fun s => s.rdS b

/-- CNE (R124). -/
def execCne (g : Guard) (c a b : Code) (s : State) : Out3 :=
  compare (.cne g c a b) c s (fun x y => x != y) (fun s => s.rdS a) fun s => s.rdS b

/-- CLT (R124). -/
def execClt (g : Guard) (c a b : Code) (s : State) : Out3 :=
  compare (.clt g c a b) c s (fun x y => x.slt y) (fun s => s.rdS a) fun s => s.rdS b

/-- CLTU (R124). -/
def execCltu (g : Guard) (c a b : Code) (s : State) : Out3 :=
  compare (.cltu g c a b) c s (fun x y => x.ult y) (fun s => s.rdS a) fun s => s.rdS b

/-- CLE (R124). -/
def execCle (g : Guard) (c a b : Code) (s : State) : Out3 :=
  compare (.cle g c a b) c s (fun x y => x.sle y) (fun s => s.rdS a) fun s => s.rdS b

/-- CLEU (R124). -/
def execCleu (g : Guard) (c a b : Code) (s : State) : Out3 :=
  compare (.cleu g c a b) c s (fun x y => x.ule y) (fun s => s.rdS a) fun s => s.rdS b

/-- CEQI (R124). -/
def execCeqi (g : Guard) (c a i : Code) (x : Ext) (s : State) : Out3 :=
  compare (.ceqi g c a i x) c s (fun u v => u == v) (fun s => s.rdS a) fun _ => immS14 x i

/-- CLTI (R124). -/
def execClti (g : Guard) (c a i : Code) (x : Ext) (s : State) : Out3 :=
  compare (.clti g c a i x) c s (fun u v => u.slt v) (fun s => s.rdS a) fun _ => immS14 x i

/-- QSET (R125). -/
def execQset (g : Guard) (c a : Code) (s : State) : Out3 :=
  guardLogic (.qset g c a) c s fun s => s.rdS a != 0

/-- QAND (R125). -/
def execQand (g : Guard) (c y z : Code) (s : State) : Out3 :=
  guardLogic (.qand g c y z) c s fun s => s.cur.cSrc y.toNat && s.cur.cSrc z.toNat

/-- QOR (R125). -/
def execQor (g : Guard) (c y z : Code) (s : State) : Out3 :=
  guardLogic (.qor g c y z) c s fun s => s.cur.cSrc y.toNat || s.cur.cSrc z.toNat

/-- QNOT (R125). -/
def execQnot (g : Guard) (c y : Code) (s : State) : Out3 :=
  guardLogic (.qnot g c y) c s fun s => !s.cur.cSrc y.toNat

/-- A control register as CRD reads it, at the first issue cycle of a bundle that is split or held (R79, R82, R126). -/
def State.readCr (s : State) (r : Nat) : Word :=
  let x := s.cur
  let k := s.curCore
  if r = 0 then s.caps
  else if r = 1 then k.seat
  else if r = 2 then BitVec.ofNat 64 s.firstCyc
  else if r = 3 then x.stat s.iss.core s.iss.ctx
  else if r = 4 then (match k.first with | some f => f.world | none => s.worldWord s.iss.core s.iss.ctx)
  else if r = 8 then x.rnd
  else if r = 9 then (if isSupervisor s.iss.core then 0 else s.issueArr.modeWord)
  else if 0x10 ≤ r ∧ r ≤ 0x13 then (NMap.getD x.cards (r - 0x10) {}).word
  else if 0x14 ≤ r ∧ r ≤ 0x17 then (NMap.getD x.cards (r - 0x14) {}).hi
  else if 0x18 ≤ r ∧ r ≤ 0x1B then
    (match k.first with | some f => f.stat.getD (r - 0x18) 0 | none => s.cpstat (clusterOf s.iss.core) (r - 0x18))
  else if 0x20 ≤ r ∧ r ≤ 0x2F then BitVec.ofNat 64 (NMap.getD k.bankfmt (r - 0x20) 0)
  else if !s.hasRes then 0
  else if 0x30 ≤ r ∧ r ≤ 0x33 then NMap.getD x.md (r - 0x30) 0
  else NMap.getD x.mdrcp (r - 0x34) 0

/-- CRD (R126). -/
def execCrd (g : Guard) (d : Code) (r : BitVec 12) (s : State) : Out3 :=
  scalar1 (.crd g d r) d s fun s => s.readCr r.toNat

/-- CWR of a register without behaviour of its own (R126, R127): RNDMODE and the bank formats take their fields; a read-only
register takes nothing. -/
def execCwr (g : Guard) (a : Code) (r : BitVec 12) (s : State) : Out3 :=
  sop (.cwr g a r) false false s fun s =>
    let n := r.toNat
    if n = 8 then .next (s.later 1 0 (.rndmode (rndOf (s.rdS a))))
    else if 0x20 ≤ n ∧ n ≤ 0x2F then .next (s.later 1 0 (.bankfmt (n - 0x20) (bankfmtOf s.hasCmp (s.rdS a))))
    else .next s

/-- CWR of a modulus register (R111): ABSENT_UNIT without residue mode (R21); an invalid modulus is recorded as BADMOD. -/
def execCwrModulus (g : Guard) (a : Code) (k : BitVec 2) (s : State) : Out3 :=
  sop (.cwrModulus g a k) false (!s.hasRes) s fun s =>
    let m := s.rdS a
    .next (s.later 1 (causeIf (!modValid m.toNat) cBADMOD) (.modulus k.toNat m))

/-- CWR of a report card clears it, and its high address word (R112, R113). -/
def execCwrRptcard (g : Guard) (a : Code) (n : BitVec 2) (s : State) : Out3 :=
  sop (.cwrRptcard g a n) false false s fun s => .next (s.later 1 0 (.clearCard n.toNat))

/-- Are contributions, drains, XCKS or XFIX of a position in flight, of earlier bundles (R257, R261)? -/
def Arr.inFlight (a : Arr) (p : Nat) : Bool :=
  a.flight.any fun f => decide (f.iss < a.clk) && (match f.eff with
    | .contrib q _ _ _ _ _ _ _ _ _ => decide (q = p)
    | .busy q => decide (q = p)
    | _ => false)

/-- CWR of ARRMODE (R257): takes effect for both positions at issue + 1; ABSENT_UNIT on a supervisor core (R430). -/
def execCwrArrmode (g : Guard) (a : Code) (s : State) : Out3 :=
  sop (.cwrArrmode g a) false (isSupervisor s.iss.core) s fun s =>
    let v := s.rdS a
    let r := s.curArr
    if bits v.toNat 1 0 = 3 then s.range 0 3
    else if (r.mode ≠ 2 ∧ r.mode ≠ s.iss.core % 2) ∨ r.inFlight 0 = true ∨ r.inFlight 1 = true then
      s.raise fWINDOW (BitVec.ofNat 64 ((r.clk - r.base) % 2 ^ 32)) r.modeWord
    else .next (s.arrLater 1 (.arrmode v))

/-- Grant and release of registers (R104): the new counts hold from the next bundle; registers that enter read zero (R103). DESIGN CHOICE
(log 47): while a rotation is in force, a release from 48 takes the slots from `ns` on by their own numbers, and a grant of 48 zeroes the slots
that were not held by theirs. -/
def State.setAllot (s : State) (ns nv : Nat) : State :=
  let s' := s.modCur fun x =>
    { x with allocS := ns, allocV := nv
             sreg := ((List.range 48).filter fun r => decide (s.iss.allocS ≤ r)).foldl (fun m r => NMap.erase m r) x.sreg
             vreg := ((List.range 48).filter fun r => decide (s.iss.allocV ≤ r)).foldl (fun m r => NMap.erase m r) x.vreg }
  s'.modIss fun i => { i with allot := true }

/-- Two of ALLOT and SHRINK in a bundle (R105), one under a LOOPR level (R138), or one by a proctor (R102). -/
def State.allotBad (s : State) : Bool :=
  s.cur.proc || s.cur.inLoopr || (s.iss.ops.any fun o => match o with
    | .allot _ _ _ => true
    | .shrink _ _ _ => true
    | _ => false)

/-- ALLOT (R104): REG_ALLOT where a pool's free count cannot cover the growth. -/
def execAllot (g : Guard) (m n : Code) (s : State) : Out3 :=
  sop (.allot g m n) s.allotBad false s fun s =>
    let k := s.curCore
    if k.freeS < m.toNat - s.iss.allocS then s.raise fREGALLOT (BitVec.ofNat 64 (s.iss.allocS + 128)) s.allotDetail
    else if k.freeV < n.toNat - s.iss.allocV then s.raise fREGALLOT (BitVec.ofNat 64 (s.iss.allocV + 64 + 128)) s.allotDetail
    else .next (s.setAllot m.toNat n.toNat)

/-- SHRINK (R104): counts only fall. -/
def execShrink (g : Guard) (m n : Code) (s : State) : Out3 :=
  sop (.shrink g m n) s.allotBad false s fun s =>
    .next (s.setAllot (min m.toNat s.iss.allocS) (min n.toNat s.iss.allocV))

/-- MOVI (R123). -/
def execMovi (g : Guard) (d : Code) (i : BitVec 12) (x : Ext) (s : State) : Out3 :=
  scalar1 (.movi g d i x) d s fun _ => immS20 x i

/-- MOVHI (R123): reads its destination at issue. -/
def execMovhi (g : Guard) (d : Code) (i : BitVec 12) (x : Ext) (s : State) : Out3 :=
  scalar1 (.movhi g d i x) d s fun s => (s.rdS d <<< 20) ||| BitVec.ofNat 64 (immU20 x i)

/-- ADDI (R123). -/
def execAddi (g : Guard) (d a i : Code) (x : Ext) (s : State) : Out3 :=
  scalar1 (.addi g d a i x) d s fun s => s.rdS a + immS14 x i

/-- NOP (R35): occupies its slot position. -/
def execNop (s : State) : Out3 := .next s

/-- A word that is no instruction (R62): ILLEGAL_OP at the check point of its bundle, whatever its guard reads. -/
def execIllegalEncoding (s : State) : Out3 := s.illegal

end Sys2Proof.Machine
end

