-- ==== Sys2Proof/Machine/Crypto.lean ====
section
/-! DEFINITION. SHA-256 (FIPS 180-4) and ECDSA verification over P-256, as the transform units compute them (R217, R218), and
AES-256-GCM (FIPS 197, SP 800-38D), by which lines and images are sealed (R401, R404). -/

namespace Sys2Proof.Machine

/-- The largest number below 2^k whose `e`-th power is at most `n`, on top of `r`. -/
def rootBelow (e n : Nat) : Nat → Nat → Nat
  | 0, r => r
  | k + 1, r => rootBelow e n k (if (r + 2 ^ k) ^ e ≤ n then r + 2 ^ k else r)

/-- The first 32 bits of the fraction of the `e`-th root of `n`. -/
def rootBits (e n : Nat) : BitVec 32 := BitVec.ofNat 32 (rootBelow e (n * 2 ^ (32 * e)) 40 0)

/-- The 64 primes below 312, whose roots give SHA-256 its constants. -/
def shaPrimes : List Nat :=
  (List.range 312).filter fun n => decide (2 ≤ n) && (List.range 18).all fun d => decide (d < 2 ∨ n ≤ d ∨ n % d ≠ 0)

/-- A chaining value: H0 in its 32 highest bits, H7 in the lowest. -/
abbrev Chain := BitVec 256
/-- Word `i` of a chaining value, 0 for H0. -/
def Chain.word (h : Chain) (i : Nat) : BitVec 32 := h.extractLsb' (32 * (7 - i)) 32

/-- The initial chaining value: square roots of the first eight primes. -/
def shaInit : Chain := (shaPrimes.take 8).foldl (fun h p => (h <<< 32) ||| (rootBits 2 p).setWidth 256) 0

/-- The exclusive or of a word's rotations. -/
def rotations (x : BitVec 32) (ns : List Nat) : BitVec 32 := ns.foldl (fun y n => y ^^^ x.rotateRight n) 0

/-- One round with the sum of constant and message word: a and e are new, the other words move down by one. -/
def shaRound (h : Chain) (kw : BitVec 32) : Chain :=
  let pick := (h.word 4 &&& h.word 5) ||| (~~~(h.word 4) &&& h.word 6)
  let most := (h.word 0 &&& (h.word 1 ||| h.word 2)) ||| (h.word 1 &&& h.word 2)
  let t := h.word 7 + kw + pick + rotations (h.word 4) [6, 11, 25]
  (t + most + rotations (h.word 0) [2, 13, 22]) ++ h.extractLsb' 160 96 ++ (h.word 3 + t) ++ h.extractLsb' 32 96

/-- The rounds with the constants of the primes listed. `w` holds the next sixteen words of the message schedule, the first highest. -/
def shaRounds : List Nat → BitVec 512 → Chain → Chain
  | [], _, h => h
  | p :: ps, w, h =>
    let at_ (i : Nat) : BitVec 32 := w.extractLsb' (32 * (15 - i)) 32
    let next := at_ 0 + at_ 9 + (rotations (at_ 1) [7, 18] ^^^ (at_ 1 >>> 3)) + (rotations (at_ 14) [17, 19] ^^^ (at_ 14 >>> 10))
    shaRounds ps ((w <<< 32) ||| next.setWidth 512) (shaRound h (rootBits 3 p + at_ 0))

/-- The compression function on one 64-byte block: the rounds, then a sum word by word. -/
def shaBlock (h : Chain) (block : List Byte) : Chain :=
  let r := shaRounds shaPrimes (BitVec.ofNat 512 (beNat block)) h
  (List.range 8).foldl (fun v i => (v <<< 32) ||| (h.word i + r.word i).setWidth 256) 0

/-- The 32 bytes of a chaining value. -/
def shaBytes (h : Chain) : List Byte := beBytes 32 h.toNat

/-- The SHA-256 digest of a message: a 1 bit, zeros up to 8 bytes short of a block, and the length in bits end it. -/
def sha256 (m : List Byte) : List Byte :=
  let blocks := (m.length + 8) / 64 + 1
  shaBytes ((List.range blocks).foldl (fun h i => shaBlock h (((m ++ 0x80 :: (List.replicate (64 * blocks - m.length - 9) 0 ++
    beBytes 8 (8 * m.length))).drop (64 * i)).take 64)) shaInit)

-- P-256
def pP : Nat := 0xffffffff00000001000000000000000000000000ffffffffffffffffffffffff
def pN : Nat := 0xffffffff00000000ffffffffffffffffbce6faada7179e84f3b9cac2fc632551
def pB : Nat := 0x5ac635d8aa3a93e7b3ebbd55769886bc651d06b0cc53b0f63bce3c3e27d2604b
def pGx : Nat := 0x6b17d1f2e12c4247f8bce6e563a440f277037d812deb33a0f4a13945d898c296
def pGy : Nat := 0x4fe342e2fe1a7f9b8ee7eb4a7c0f9e162bce33576b315ececbb6406837bf51f5

/-- b^e mod m by the `n` low bits of e. -/
def powMod (m b : Nat) : Nat → Nat → Nat
  | 0, _ => 1 % m
  | n + 1, e => if e = 0 then 1 % m else
      let h := powMod m (b * b % m) n (e / 2)
      if e % 2 = 1 then b * h % m else h
/-- The inverse modulo a prime (Fermat). -/
def invMod (m a : Nat) : Nat := powMod m (a % m) 256 (m - 2)

/-- The sum of two points of the curve, `none` the point at infinity. -/
def ecAdd (p q : Option (Nat × Nat)) : Option (Nat × Nat) :=
  match p, q with
  | none, _ => q
  | _, none => p
  | some (x1, y1), some (x2, y2) =>
    if x1 = x2 ∧ (y1 + y2) % pP = 0 then none
    else
      let l := if x1 = x2 then (3 * x1 * x1 + (pP - 3)) % pP * invMod pP (2 * y1) % pP
               else (y2 + pP - y1) % pP * invMod pP (x2 + pP - x1) % pP
      let x3 := (l * l + 2 * pP - x1 - x2) % pP
      some (x3, (l * (x1 + pP - x3) + pP - y1) % pP)

/-- k times a point, by the `n` low bits of k. -/
def ecMul : Nat → Nat → Option (Nat × Nat) → Option (Nat × Nat)
  | 0, _, _ => none
  | n + 1, k, p =>
    let h := ecMul n (k / 2) (ecAdd p p)
    if k % 2 = 1 then ecAdd p h else h

/-- The verdict of the ECDSA unit (R218): 1 valid, 0 invalid, 2 where r or s is out of range or Q is not on the curve. -/
def ecdsaVerify (qx qy z r s : Nat) : Nat :=
  if r = 0 ∨ pN ≤ r ∨ s = 0 ∨ pN ≤ s ∨ pP ≤ qx ∨ pP ≤ qy ∨
      (qy * qy) % pP ≠ (qx * qx * qx + (pP - 3) * qx + pB) % pP then 2
  else
    let w := invMod pN s
    match ecAdd (ecMul 256 (z * w % pN) (some (pGx, pGy))) (ecMul 256 (r * w % pN) (some (qx, qy))) with
    | none => 0
    | some (x, _) => if x % pN = r then 1 else 0

-- ## AES-256

/-- Twice an element of GF(2^8). -/
def gfTwice (a : Byte) : Byte := if a.msb then (a <<< 1) ^^^ 0x1B else a <<< 1
/-- A product in GF(2^8), by Horner's rule over the bits of `b`. -/
def gfMul (a b : Byte) : Byte :=
  (List.range 8).foldl (fun z i => if b.getMsbD i then gfTwice z ^^^ a else gfTwice z) 0
/-- The 254th power: the inverse, or 0 of 0. Its factors are the square, the fourth power and so on. -/
def gfInv (a : Byte) : Byte :=
  ((List.range 7).foldl (fun (q : Byte × Byte) _ => (gfMul q.1 q.1, gfMul q.2 (gfMul q.1 q.1))) (a, 1)).2
/-- The substitution of a byte: the inverse, and the sum of five of its rotations. -/
def aesSub (a : Byte) : Byte := [0, 1, 2, 3, 4].foldl (fun z n => z ^^^ (gfInv a).rotateLeft n) 0x63
def aesSubWord (w : BitVec 32) : BitVec 32 := BitVec.ofNat 32 (beNat ((beBytes 4 w.toNat).map aesSub))

/-- `n` more words of a key schedule, `ws` the last eight with the newest first, `i` the number of the next, `c` the round constant. -/
def aesKeys : Nat → Nat → Byte → List (BitVec 32) → List (BitVec 32)
  | 0, _, _, _ => []
  | n + 1, i, c, ws =>
    let last := ws.getD 0 0
    let mixed := if i % 8 = 0 then aesSubWord (last.rotateLeft 8) ^^^ (c.setWidth 32 <<< 24) else if i % 8 = 4 then aesSubWord last else last
    let w := ws.getD 7 0 ^^^ mixed
    w :: aesKeys n (i + 1) (if i % 8 = 0 then gfTwice c else c) (w :: ws.take 7)
/-- The 60 words of a key, the key's own eight first. -/
def aesSchedule (key : BitVec 256) : List (BitVec 32) :=
  let own := (List.range 8).map fun i => key.extractLsb' (32 * (7 - i)) 32
  own ++ aesKeys 52 8 1 own.reverse

/-- Round `r` of 14 on the 16 bytes of a block: bytes substituted, rows shifted, columns mixed in all rounds but the last, key added. -/
def aesRound (ks : List (BitVec 32)) (b : List Byte) (r : Nat) : List Byte :=
  let sub := b.map aesSub
  let moved := fun (c i : Nat) => sub.getD ((4 * c + 5 * (i % 4)) % 16) 0
  (List.range 16).map fun n =>
    let c := n / 4
    let i := n % 4
    let mixed := gfTwice (moved c i) ^^^ gfMul 3 (moved c (i + 1)) ^^^ moved c (i + 2) ^^^ moved c (i + 3)
    (if r = 14 then moved c i else mixed) ^^^ (ks.getD (4 * r + c) 0).extractLsb' (8 * (3 - i)) 8
/-- A block enciphered under the words of a key. -/
def aesBlock (ks : List (BitVec 32)) (x : BitVec 128) : BitVec 128 :=
  let first := x ^^^ (ks.getD 0 0 ++ ks.getD 1 0 ++ ks.getD 2 0 ++ ks.getD 3 0 : BitVec 128)
  BitVec.ofNat 128 (beNat ((List.range 14).foldl (fun b r => aesRound ks b (r + 1)) (beBytes 16 first.toNat)))

-- ## GCM

/-- A product in GF(2^128), the highest bit of a word the lowest power. -/
def ghMul (x y : BitVec 128) : BitVec 128 :=
  (List.range 128).foldl (fun z i =>
    let up := if z.getLsbD 0 then (z >>> 1) ^^^ (0xE1 <<< 120) else z >>> 1
    if x.getLsbD i then up ^^^ y else up) 0
/-- Block `i` of a text, zeros after its end. -/
def gcmWord (t : List Byte) (i : Nat) : BitVec 128 :=
  let part := (t.drop (16 * i)).take 16
  BitVec.ofNat 128 (beNat part * 256 ^ (16 - part.length))
/-- A text under the counter blocks from 2 on. -/
def gcmCrypt (ks : List (BitVec 32)) (iv : BitVec 96) (t : List Byte) : List Byte :=
  ((List.range ((t.length + 15) / 16)).map fun i =>
    (beBytes 16 (gcmWord t i ^^^ aesBlock ks (iv ++ BitVec.ofNat 32 (i + 2))).toNat).take (t.length - 16 * i)).flatten
/-- The tag of a ciphertext without further data. -/
def gcmTag (ks : List (BitVec 32)) (iv : BitVec 96) (t : List Byte) : BitVec 128 :=
  let h := aesBlock ks 0
  let sum := (List.range ((t.length + 15) / 16)).foldl (fun z i => ghMul (z ^^^ gcmWord t i) h) 0
  ghMul (sum ^^^ BitVec.ofNat 128 (8 * t.length)) h ^^^ aesBlock ks (iv ++ (1 : BitVec 32))
/-- A text sealed: its ciphertext and tag. -/
def gcmSeal (key : BitVec 256) (iv : BitVec 96) (t : List Byte) : List Byte × BitVec 128 :=
  let ks := aesSchedule key
  let c := gcmCrypt ks iv t
  (c, gcmTag ks iv c)
/-- A text opened, or none where its tag does not verify. -/
def gcmOpen (key : BitVec 256) (iv : BitVec 96) (t : List Byte) (tag : BitVec 128) : Option (List Byte) :=
  let ks := aesSchedule key
  if gcmTag ks iv t = tag then some (gcmCrypt ks iv t) else none

end Sys2Proof.Machine
end

