-- ==== Sys2Proof/Machine/Translate.lean ====
section
/-! DEFINITION. Physical addresses, the dies' views of memory, and the two-level translation (R305 to R314, R323, R324). -/

namespace Sys2Proof.Machine

-- ## Physical addresses (R306)

def State.die (s : State) (d : Nat) : Die := NMap.getD s.dies d {}
def State.modDie (s : State) (d : Nat) (f : Die → Die) : State := { s with dies := NMap.set s.dies d (f (s.die d)) }

/-- Bytes of HBM4E: 64 GiB a stack (R80, R306). -/
def State.hbmSize (s : State) : Nat := bits s.caps.toNat 15 11 * 2 ^ 36
def isWindow (pa : Nat) : Bool := decide (pa / 2 ^ 48 = 8)
def isRegPage (pa : Nat) : Bool := decide (pa / 2 ^ 32 = 0xF0000)
def State.populated (s : State) (pa : Nat) : Bool := decide (pa < s.hbmSize) || isWindow pa || isRegPage pa
/-- The home die of an HBM address (R306). -/
def homeDie (pa : Nat) : Nat := pa / 2 ^ 38
/-- Parts of a fabric-window address (R375): the window, and the address in the destination package. -/
def winOf (pa : Nat) : Nat := bits pa 47 40
def winPa (pa : Nat) : Nat := pa % 2 ^ 40

-- ## A die's view (R323, R324)

/-- The world under whose key a line is sealed, 0 where it stands in plaintext (R400, R401). -/
def State.sealer (s : State) (line : Nat) : Nat := NMap.getD s.sealed line 0

/-- One byte of a die's view, as an agent that reaches it under world tag `w` sees it: of a line sealed for another world, the
ciphertext that HBM holds (R401, R410). -/
def State.viewByte (s : State) (d w a : Nat) : Byte :=
  let o := s.sealer (a / 128)
  Memory.read (if o = 0 || o = w then (s.die d).view else s.hbm) a
def State.viewRead (s : State) (d w a n : Nat) : List Byte := (List.range n).map fun i => s.viewByte d w (a + i)

/-- The numbers of the blocks of `z` bytes that `n` bytes from `a` touch. -/
def blocks (z a n : Nat) : List Nat := if n = 0 then [] else (List.range ((a + n - 1) / z + 1 - a / z)).map fun i => a / z + i

/-- Does the address lie in world `r`'s instruction region (R402)? -/
def World.holds (r : World) (pa : Nat) : Bool := decide (r.ireg ≤ pa) && decide (pa < r.ireg + r.ilen)
/-- Does it lie in any world's? -/
def State.inRegion (s : State) (pa : Nat) : Bool := s.worlds.any fun w => w.2.holds pa

/-- The first line of a range with a sector that a fill for world `w` does not deliver: it is not sealed under the world's key, or its
tag did not verify (R401). -/
def State.badLine (s : State) (w pa len : Nat) : Option Nat :=
  if w = 0 ∨ s.hbmSize ≤ pa then none
  else ((blocks 16 pa len).find? fun q => decide (s.sealer (q / 8) ≠ w) || NMap.getD s.badTag q false).map (· / 8)

/-- The key under which world `w` seals a line (R401, R402). -/
def State.lineKey (s : State) (w line : Nat) : BitVec 256 :=
  let r := NMap.getD s.worlds w {}
  if r.holds (128 * line) then r.ki else r.kd
/-- The IV of a line at its write count (R401). -/
def State.lineIv (s : State) (line : Nat) : BitVec 96 :=
  BitVec.ofNat 45 line ++ (0 : BitVec 3) ++ BitVec.ofNat 48 (NMap.getD s.wcounts line 0)
/-- What HBM holds of a line, opened under world `w`'s key; none where its tag does not verify (R401). -/
def State.openLine (s : State) (w line : Nat) : Option (List Byte) :=
  gcmOpen (s.lineKey w line) (s.lineIv line) (Memory.readN s.hbm (128 * line) 128) (NMap.getD s.tags line 0)
/-- A line of world `w` written back, sealed whole, its write count advanced (R401). -/
def State.sealLine (s : State) (w line : Nat) (bs : List Byte) : State :=
  let t := { s with wcounts := NMap.set s.wcounts line ((NMap.getD s.wcounts line 0 + 1) % 2 ^ 48) }
  let c := gcmSeal (t.lineKey w line) (t.lineIv line) bs
  { t with hbm := Memory.writeN t.hbm (128 * line) c.1, tags := NMap.set t.tags line c.2 }

/-- Bytes stored into one die's view; a `.last` mark of a written sector ends (R309). -/
def Die.store (d : Die) (pa : Nat) (data : List Byte) : Die :=
  { d with view := Memory.writeN d.view pa data, marks := (blocks 16 pa data.length).foldl NMap.erase d.marks }

/-- A line before a write under world tag `w`: one that is not sealed for that world becomes the world's, its other bytes as HBM holds
them for world 0, and free where a key would have to open them (R401; log 26). -/
def State.takeLine (s : State) (w line : Nat) : State :=
  if s.sealer line = w then s
  else
    let bs := (List.range 128).map fun i => if w = 0 then Memory.read s.hbm (128 * line + i) else Config.staleByte (128 * line + i) (s.occ s.cyc)
    { s with dies := s.dies.map fun (d, k) => (d, { k with view := Memory.writeN k.view (128 * line) bs })
             sealed := if w = 0 then NMap.erase s.sealed line else NMap.set s.sealed line w
             badTag := (blocks 16 (128 * line) 128).foldl NMap.erase s.badTag }
/-- The lines of a write under world tag `w`; a sector that it covers is delivered again (R401). -/
def State.takeLines (s : State) (pa n w : Nat) : State :=
  let t := (blocks 128 pa n).foldl (fun t l => t.takeLine w l) s
  { t with badTag := ((blocks 16 pa n).filter fun q => decide (pa ≤ 16 * q) && decide (16 * q + 16 ≤ pa + n)).foldl NMap.erase t.badTag }

/-- The vector clock of die `d`, its own count `n` (R319, R324). -/
def State.clockOf (s : State) (d n : Nat) : List Nat :=
  let k := s.die d
  (List.range s.nDies).map fun e => if e = d then n else max (NMap.getD k.applied e 0) (NMap.getD k.dep e 0)

/-- What originates at die `d` now: its place in the die's order and its vector clock (R324). -/
def State.originate (s : State) (d : Nat) (pa : Nat) (data : List Byte) (mark : Bool) : State × (Nat × Nat) :=
  let n := (s.die d).out + 1
  let w : XWrite := { id := s.nextWrite, origin := d, vc := s.clockOf d n, pa := pa, data := data, mark := mark }
  let s1 := s.modDie d fun k => { k with out := n }
  let s2 := ((List.range s.nDies).filter fun e => decide (e ≠ d)).foldl
    (fun t e => t.modDie e fun k => { k with inq := k.inq ++ [w] }) s1
  ({ s2 with nextWrite := s.nextWrite + 1 }, (d, n))

/-- A write performs in the view of die `d`, under world tag `w`, and originates there (R323, R324). -/
def State.writeView (s : State) (d w pa : Nat) (data : List Byte) : State × (Nat × Nat) :=
  ((s.takeLines pa data.length w).modDie d fun k => k.store pa data).originate d pa data false

def State.writeOnly (s : State) (d w pa : Nat) (data : List Byte) : State := (s.writeView d w pa data).1

/-- Sectors marked by a `.last` load from address `pa` on, each with the bytes that HBM held (R309). -/
def Die.mark (d : Die) (pa : Nat) (old : List Byte) : Die :=
  let at_ := fun (i : Nat) => BitVec.ofNat 128 (leNat ((old.drop (16 * i)).take 16))
  { d with marks := (List.range (old.length / 16)).foldl (fun m i => NMap.set m (pa / 16 + i) (at_ i)) d.marks }
/-- A dropped sector of a marked line reads as HBM held it when the load performed (R309). -/
def Die.drop (d : Die) (sector : Nat) : Die :=
  match NMap.get? d.marks sector with
  | none => d
  | some v => d.store (16 * sector) (leBytes 16 v.toNat)
/-- A line as a fill would find it in HBM, in plaintext (R309, R401). -/
def State.hbmLine (s : State) (line : Nat) : List Byte :=
  if s.sealer line = 0 then Memory.readN s.hbm (128 * line) 128
  else (s.openLine (s.sealer line) line).getD (List.replicate 128 0)
/-- The lines that a `.last` load touches are marked, and the marks travel as a write does (R309). -/
def State.markLast (s : State) (d pa n : Nat) : State :=
  let a := pa / 128 * 128
  let old := (blocks 128 pa n).flatMap s.hbmLine
  ((s.modDie d fun k => k.mark a old).originate d a old true).1

/-- May die `f` apply the write (R324)? The counts never wrap here: within the bound of R324 they compare alike. -/
def State.canApply (s : State) (f : Nat) (w : XWrite) : Bool :=
  let k := s.die f
  (List.range s.nDies).all fun e =>
    if e = w.origin then decide (NMap.getD k.applied e 0 + 1 = w.vc.getD e 0)
    else decide (e = f) || decide (w.vc.getD e 0 ≤ NMap.getD k.applied e 0)

/-- Is the write with this stamp applied in every view (R323)? -/
def State.appliedAll (s : State) (st : Nat × Nat) : Bool :=
  (List.range s.nDies).all fun e => decide (e = st.1) || decide (st.2 ≤ NMap.getD (s.die e).applied st.1 0)

/-- CROSS_DIE_WRITE_APPLY (R324). -/
def execCrossDieWriteApply (die id : Nat) (s : State) : Out3 :=
  match (s.die die).inq.find? fun w => decide (w.id = id) with
  | none => .next s
  | some w =>
    if s.canApply die w then
      .next (s.modDie die fun k =>
        let k1 := if w.mark then w.gone.foldl Die.drop (k.mark w.pa w.data) else k.store w.pa w.data
        { k1 with applied := NMap.set k1.applied w.origin (w.vc.getD w.origin 0),
                  inq := k1.inq.filter fun v => decide (v.id ≠ id) })
    else .next s

-- ## Buffered updates of a line (R317)

/-- The die whose L2 an AMO of core `c` executes at (R317). -/
def amoDie (c scope pa : Nat) : Nat := if 1 ≤ scope ∧ scope ≤ 4 then dieOf c else homeDie pa

/-- Have the buffered updates of the lines of an access merged into die `d`'s L2, those that entered before the access of core
`c` numbered `n` of CYC `t` (R317)? -/
def State.lineClear (s : State) (d pa len c n t : Nat) : Bool :=
  let ls := blocks 128 pa len
  s.cores.all fun (e, k) => k.amo.all fun b =>
    !(decide (amoDie e b.scope b.pa = d) && ls.contains (b.pa / 128)) || !(decide (b.since < t) || (decide (e = c) && decide (b.seq < n)))

-- ## Walks (R310, R311)

/-- Address bits below the entry of a level (R310). -/
def lvlShift (l : Nat) : Nat := if l = 0 then 46 else if l = 1 then 35 else if l = 2 then 30 else if l = 3 then 21 else 16
/-- The index of an address at a level. -/
def lvlIndex (l a : Nat) : Nat :=
  if l = 0 then bits a 56 46 else if l = 1 then bits a 45 35 else if l = 2 then bits a 34 30 else if l = 3 then bits a 29 21
  else bits a 20 16

/-- The address field of a table entry. -/
def pteAddr (e : Nat) : Nat := bits e 51 8 * 256
def pteLeaf (e : Nat) : Bool := e.testBit 1

/-- Does an entry of level `l` fail step 1 of R311? -/
def pteBad (l e : Nat) : Bool :=
  !e.testBit 0 || decide (bits e 57 52 ≠ 0) || decide (bits e 7 5 ≠ 0) ||
  (if pteLeaf e then decide (l = 0) || decide (pteAddr e % 2 ^ lvlShift l ≠ 0) else decide (l = 4))

/-- A leaf found: its entry and level. -/
abbrev Leaf := Nat × Nat

/-- The host-level walk of IPA `a` from table `t`, reading entries by `rd` (R310): the leaf, or the level that fails. -/
def hostWalk (rd : Nat → Nat) (ok : Nat → Bool) (a : Nat) : List Nat → Nat → Except Nat Leaf
  | [], _ => .error 4
  | l :: ls, t =>
    let e := rd (t + 8 * lvlIndex l a)
    if pteBad l e then .error l
    else if pteLeaf e then
      if ok (pteAddr e + a % 2 ^ lvlShift l) then .ok (e, l) else .error l
    else hostWalk rd ok a ls (pteAddr e)

def leafAddr (f : Leaf) (a : Nat) : Nat := pteAddr f.1 + a % 2 ^ lvlShift f.2

/-- The tenant-level walk of `va` from table `t` (an IPA), every table address translated by `host` (R310): the leaf, or level and
stage of the failure. -/
def tenantWalk (rd : Nat → Nat) (host : Nat → Except Nat Leaf) (va : Nat) : List Nat → Nat → Except (Nat × Nat) Leaf
  | [], _ => .error (4, 0)
  | l :: ls, t =>
    let ipa := t + 8 * lvlIndex l va
    match host ipa with
    | .error h => .error (h, 1)
    | .ok f =>
      let e := rd (leafAddr f ipa)
      if pteBad l e then .error (l, 0)
      else if pteLeaf e then .ok (e, l)
      else tenantWalk rd host va ls (pteAddr e)

/-- The addresses of the entries that such walks read, in their order (R310, R311). -/
def hostReads (rd : Nat → Nat) (a : Nat) : List Nat → Nat → List Nat
  | [], _ => []
  | l :: ls, t =>
    let p := t + 8 * lvlIndex l a
    p :: (if pteBad l (rd p) || pteLeaf (rd p) then [] else hostReads rd a ls (pteAddr (rd p)))
def tenantReads (rd : Nat → Nat) (host : Nat → Except Nat Leaf) (reads : Nat → List Nat) (va : Nat) : List Nat → Nat → List Nat
  | [], _ => []
  | l :: ls, t =>
    let ipa := t + 8 * lvlIndex l va
    reads ipa ++ (match host ipa with
      | .error _ => []
      | .ok f =>
        let p := leafAddr f ipa
        let e := rd p
        p :: (if pteBad l e then [] else if pteLeaf e then reads (leafAddr (e, l) va) else tenantReads rd host reads va ls (pteAddr e)))

/-- The host-level page that holds an IPA, by its leaf: base and size. -/
def hostPage (ipa : Nat) (f : Leaf) : Nat × Nat := (ipa - ipa % 2 ^ lvlShift f.2, 2 ^ lvlShift f.2)
/-- The host-level mappings that a tenant-level walk goes through, the final one among them (R310, R313). -/
def tenantVia (rd : Nat → Nat) (host : Nat → Except Nat Leaf) (va : Nat) : List Nat → Nat → List (Nat × Nat)
  | [], _ => []
  | l :: ls, t =>
    let ipa := t + 8 * lvlIndex l va
    match host ipa with
    | .error _ => []
    | .ok f =>
      let e := rd (leafAddr f ipa)
      let last := leafAddr (e, l) va
      hostPage ipa f :: (if pteBad l e then [] else if pteLeaf e then (match host last with | .ok h => [hostPage last h] | .error _ => [])
        else tenantVia rd host va ls (pteAddr e))

/-- A translation's end: an entry, or level, stage and cause of the failure (R314). -/
inductive Tr where
  | ok (e : TlbEntry)
  | bad (lvl stg cause : Nat)
  deriving DecidableEq, Repr

def levels : List Nat := [0, 1, 2, 3, 4]

/-- Step 1 of R311 for `va` in world `w`, from the tables of die `d`'s view. -/
def State.walk1 (s : State) (d w va : Nat) : Tr :=
  let r := NMap.getD s.worlds w {}
  let rd := fun a => leNat (s.viewRead d w a 8)
  let host := fun ipa => hostWalk rd s.populated (ipa % 2 ^ 52) levels r.hroot
  if 2 ^ 57 ≤ va then .bad 0 0 0
  else match tenantWalk rd host va levels r.troot with
    | .error (l, g) => .bad l g 0
    | .ok t =>
      let ipa := leafAddr t va
      match host ipa with
      | .error l => .bad l 1 0
      | .ok h =>
        let size := min (2 ^ lvlShift t.2) (2 ^ lvlShift h.2)
        let pa := leafAddr h ipa
        .ok { va := va - va % size, size := size, pa := pa - pa % size, tperm := bits t.1 4 2, tlvl := t.2, hperm := bits h.1 4 2,
              hlvl := h.2, wtag := bits h.1 63 58, via := tenantVia rd host va levels r.troot, world := w }

/-- May the walk of `va` in world `w` read its entries now? As a .fresh load, it waits for the buffered updates of their lines (R309,
R311, R317). -/
def State.walkClear (s : State) (d w va : Nat) : Bool :=
  let r := NMap.getD s.worlds w {}
  let rd := fun a => leNat (s.viewRead d w a 8)
  let host := fun ipa => hostWalk rd s.populated (ipa % 2 ^ 52) levels r.hroot
  s.cores.all (fun q => q.2.amo.isEmpty) || decide (2 ^ 57 ≤ va) ||
  (tenantReads rd host (fun ipa => hostReads rd (ipa % 2 ^ 52) levels r.hroot) va levels r.troot).all fun a =>
    s.lineClear d a 8 1024 0 (s.cyc + 1)

/-- May an engine of die `d` reach `n` bytes at `va` of world `w` now, at the L2 of die `site`? Its walks and its access, as a .fresh load's,
wait for the buffered updates of their lines (R309, R311, R317). -/
def State.rangeClear (s : State) (d w va n : Nat) (site : Nat → Nat) : Bool :=
  s.cores.all (fun q => q.2.amo.isEmpty) || (blocks 65536 va n).all fun b =>
    let lo := max va (b * 65536)
    s.walkClear d w lo && (match s.walk1 d w lo with
      | .ok e => s.lineClear (site (e.pa + (lo - e.va))) (e.pa + (lo - e.va)) (min (va + n) (b * 65536 + 65536) - lo) 1024 0 (s.cyc + 1)
      | .bad _ _ _ => true)

/-- The permissions an access kind needs (R311): 0 load, 1 store, 2 AMO or CAS, 3 prefetch, 4 fetch. -/
def needs (kind perm : Nat) : Bool :=
  if kind = 1 then perm.testBit 1
  else if kind = 2 then perm.testBit 0 && perm.testBit 1
  else if kind = 4 then perm.testBit 2
  else perm.testBit 0

/-- Does the entry map `va` for world `w`? -/
def TlbEntry.covers (e : TlbEntry) (w va : Nat) : Bool := decide (e.world = w) && decide (e.va ≤ va) && decide (va < e.va + e.size)
/-- Was the entry formed through the host-level page of IPA `ipa` (R313)? -/
def TlbEntry.formedBy (e : TlbEntry) (ipa : Nat) : Bool := e.via.any fun p => decide (p.1 ≤ ipa) && decide (ipa < p.1 + p.2)
/-- The physical address of a virtual address under an entry. -/
def TlbEntry.phys (e : TlbEntry) (va : Nat) : Nat := e.pa + (va - e.va)

/-- Is the physical address closed to the access, whatever the leaves say (R375, R402, R422)? `mgmt`: the issuer is a management
context. -/
def State.closed (s : State) (pa kind : Nat) (mgmt : Bool) : Bool :=
  (isWindow pa && (decide (kind ≠ 1) || !(NMap.getD s.windows (winOf pa) ⟨0, 0, false⟩).v)) ||
  (isRegPage pa && !mgmt) || (decide (kind = 1 ∨ kind = 2) && s.inRegion pa)

/-- Steps 2 and 3 of R311 on a translation. -/
def State.judge (s : State) (e : TlbEntry) (va kind w : Nat) (mgmt : Bool) : Option (Nat × Nat × Nat) :=
  if !needs kind e.tperm then some (e.tlvl, 0, 1)
  else if !needs kind e.hperm || s.closed (e.phys va) kind mgmt then some (e.hlvl, 1, 1)
  else if e.wtag ≠ w then some (e.hlvl, 1, 2)
  else none

/-- The whole of R311 for an engine that keeps no buffer. -/
def State.walk (s : State) (d w va kind : Nat) (mgmt : Bool) : Tr :=
  match s.walk1 d w va with
  | .bad l g c => .bad l g c
  | .ok e => match s.judge e va kind w mgmt with
    | some (l, g, c) => .bad l g c
    | none => .ok e

/-- The fault of a cause code (R314); the model's own code 4 is a line that does not verify (R401). -/
def causeFault (c : Nat) : Nat := if c = 0 then fPAGE else if c = 1 then fPERM else if c = 3 then fALIGN else fWORLD
/-- Detail word 1's fields of R314. -/
def walkDetail (lvl stg kind cause : Nat) : Nat := lvl + stg * 8 + kind * 16 + cause * 64

/-- A management context: a supervisor context whose slot was started in world 0 (R414). -/
def State.isMgmt (s : State) (c x : Nat) : Bool := isSupervisor c && decide ((s.ctx c x).world = 0)

-- ## The translation buffer of the core in issue (R312)

/-- Does the entry translate `va` for world `w` at this cycle? One that an invalidation has hit may serve until its time (R313);
`still`: it does so on this occasion. DESIGN CHOICE (log 91): until an invalidation the access uses the entry, also where the tables have
changed. -/
def State.serves (s : State) (still : Bool) (e : TlbEntry) (va w : Nat) : Bool :=
  decide (e.world = w) && decide (e.va ≤ va) && decide (va < e.va + e.size) &&
  (match e.dead with | none => true | some t => decide (s.cyc < t) && still)

/-- The translation that the core's buffer holds for the operation in issue. -/
def State.tlbFind (s : State) (c va w : Nat) : Option TlbEntry := (s.core c).tlb.find? fun e => s.serves (s.newer 4 (va / 65536)) e va w
/-- The translation that it holds for the fetch of the bundle at `pc` by context `x`. -/
def State.tlbFetch (s : State) (c x pc w : Nat) : Option TlbEntry :=
  (s.core c).tlb.find? fun e => s.serves (newerAt (s.occ s.cyc) 6 pc ((c * 8 + x) * 4)) e pc w

/-- The bundle in issue is held at its check point (R46). -/
def State.holdIssue (s : State) : State := s.modIss fun i => { i with held := true }

/-- Has die `d`'s translation service a free walk slot (R12, R305, R312)? -/
def State.walkSlot (s : State) (d : Nat) : Bool :=
  let n := fun (k : Core) => b2n k.walk.isSome 1 + k.prefs.length
  decide (((s.cores.filter fun q => decide (dieOf q.1 = d)).map fun q => n q.2).foldl (· + ·) 0 < Config.maxWalks)

/-- Detail word 1 of a line that does not verify (R401). -/
def lineDetail (line : Nat) : Word := src 5 (128 * line)
/-- A fault that the Registrar logs, an integrity failure met by the access of `q` (R401, R429). -/
def State.logBad (s : State) (q : Who) (code : Nat) (d1 : Word) : State :=
  if code = fWORLD ∧ bits d1.toNat 63 60 = 5 then s.logWho q 0x24 (BitVec.ofNat 64 (d1.toNat % 2 ^ 52)) s.noData else s

/-- The log of an engine's access that met such a line. -/
def State.logLine (s : State) (q : Who) (cause line : Nat) : State := if cause = 4 then s.logBad q fWORLD (lineDetail line) else s

/-- Detail word 1 of a failed access, with source code `sc` (R314, R356); of a line that does not verify, `lvl` is its number. -/
def walkWord (sc lvl stg kind cause : Nat) : Word := if cause = 4 then lineDetail lvl else src sc (walkDetail lvl stg kind cause)
/-- A translation, integrity or alignment fault of the operation in issue (R314, R356, R401). -/
def State.raiseWalk (s : State) (sc va kind lvl stg cause : Nat) : Out3 :=
  s.raise (causeFault cause) (BitVec.ofNat 64 (va % 2 ^ 57)) (walkWord sc lvl stg kind cause)

/-- The access of the operation in issue to `va`: its fault where its own walk has failed; its translation from the buffer; or a hold until the
walk ends, one walk of the bundle after the other (R46, R311, R312). A tenant line's tag must verify too, for an access that reads it
(R401). -/
def State.translate (s : State) (va kind sc : Nat) (k : TlbEntry → State → Out3) : Out3 :=
  let c := s.iss.core
  let w := s.worldOf c s.iss.ctx
  match s.curCore.failed.find? fun f => decide (f.va = va ∧ f.kind = kind) with
  | some f => s.raiseWalk sc va (if kind = 4 then 0 else kind) f.lvl f.stg f.cause
  | none =>
    match s.tlbFind c va w with
    | some e =>
      match s.judge e va kind w (s.isMgmt c s.iss.ctx) with
      | some (l, g, cause) => s.raiseWalk sc va (if kind = 4 then 0 else kind) l g cause
      | none =>
        match if kind = 1 then none else s.badLine e.wtag (e.phys va) 1 with
        | some l => s.raiseWalk sc va 0 l 0 4
        | none => k e s
    | none =>
      .next (if s.curCore.walk.isNone && s.walkSlot (dieOf c) then (s.modCurCore fun q => { q with walk := some ⟨va, kind⟩ }).holdIssue else s.holdIssue)

/-- The buffer with one more entry, 64 at most (R312). DESIGN CHOICE (log 91): of 64 entries the oldest makes room. -/
def tlbInsert (t : List TlbEntry) (e : TlbEntry) : List TlbEntry :=
  let t' := t ++ [e]
  t'.drop (t'.length - Config.tlbEntries)

/-- A channel no longer holds the translations that `p` selects (R245). -/
def Channel.forget (p : TlbEntry → Bool) (h : Channel) : Channel := { h with map := h.map.filter fun e => !p e }
/-- An invalidation reaches the entries `p` of every buffer and channel of die `d`: a buffer's are gone from CYC c + 256 on (R313), and no
channel hands them to a command queued from now on (R245). -/
def State.invalidate (s : State) (d : Nat) (p : TlbEntry → Bool) : State :=
  let t := s.cyc + 256
  let core := fun (c : Nat) (k : Core) =>
    if dieOf c = d then { k with tlb := k.tlb.map fun e => if p e && e.dead.isNone then { e with dead := some t } else e } else k
  let cluster := fun (cl : Nat) (k : Cluster) => if cl / 64 = d then { k with ch := k.ch.map fun q => (q.1, q.2.forget p) } else k
  { s with cores := s.cores.map (fun q => (q.1, core q.1 q.2)), clusters := s.clusters.map fun q => (q.1, cluster q.1 q.2) }

/-- SEALED_LINE_FILL (R401): a tenant line's tag verifies, or it does not: no sector is delivered, and the event is logged. -/
def execSealedLineFill (die line : Nat) (ok : Bool) (s : State) : Out3 :=
  let secs := blocks 16 (128 * line) 128
  if s.nDies ≤ die ∨ s.sealer line = 0 then .next s
  else if ok then .next { s with badTag := secs.foldl NMap.erase s.badTag }
  else .next ({ s with badTag := secs.foldl (fun m q => NMap.set m q true) s.badTag }.logBad { world := some (s.sealer line) } fWORLD (lineDetail line))

/-- DIRTY_SECTOR_WRITE_BACK (R309, R401): a sector leaves die `die`'s L2. An unmarked one is written back, in a sealed line with the line
as a whole; a marked one may be dropped, and every later read then finds what HBM held when its load performed, or a line that does not
verify. -/
def execDirtySectorWriteBack (die sector : Nat) (s : State) : Out3 :=
  let a := sector * 16
  let line := sector / 8
  let o := s.sealer line
  if (NMap.get? (s.die die).marks sector).isSome then
    let late := fun (w : XWrite) =>
      if w.mark && decide (w.pa ≤ a) && decide (a < w.pa + w.data.length) then { w with gone := w.gone ++ [sector] } else w
    let t := { s with dies := s.dies.map fun p => (p.1, { p.2.drop sector with inq := p.2.inq.map late }) }
    .next (if o ≠ 0 ∧ (s.openLine o line).isNone = true then { t with badTag := NMap.set t.badTag sector true } else t)
  else if o ≠ 0 then .next (s.sealLine o line (Memory.readN (s.die die).view (128 * line) 128))
  else .next { s with hbm := Memory.writeN s.hbm a (Memory.readN (s.die die).view a 16) }

end Sys2Proof.Machine
end

