-- ==== Sys2Proof/Machine/Packets.lean ====
section
/-! DEFINITION. Jobs and their counts, and packets into fabric windows (R372 to R376). -/

namespace Sys2Proof.Machine

/-- The job-table entry that holds a job number, with its index (R373). -/
def State.jobEntry (s : State) (job : Nat) : Option (Nat × Job) := s.jobs.find? fun e => decide (e.2.job = job)

/-- The world of a job's valid entry; 0 where there is none (R375). -/
def State.jobWorld (s : State) (job : Nat) : Nat :=
  match s.jobEntry job with | some (_, e) => if e.v then e.wtag else 0 | none => 0

/-- A job's counts changed in its entry, if the table holds one (R374). -/
def State.modJob (s : State) (job : Nat) (f : Job → Job) : State :=
  { s with jobs := s.jobs.map fun p => if p.2.job = job then (p.1, f p.2) else p }

def State.addInj (s : State) (die job : Nat) : State :=
  s.modJob job fun e => { e with inj := NMap.set e.inj die ((NMap.getD e.inj die 0 + 1) % 2 ^ 48) }
/-- Applying a repair notice (R385). -/
def State.subInj (s : State) (die job : Nat) : State :=
  s.modJob job fun e => { e with inj := NMap.set e.inj die ((NMap.getD e.inj die 0 + 2 ^ 48 - 1) % 2 ^ 48) }
def State.addCons (s : State) (die job : Nat) : State :=
  s.modJob job fun e => { e with cons := NMap.set e.cons die ((NMap.getD e.cons die 0 + 1) % 2 ^ 48) }

/-- The first free index of the job table (R372). -/
def State.freeJob (s : State) : Option Nat := (List.range 256).find? fun i => (NMap.get? s.jobs i).isNone

/-- The destination's table takes an entry with V = 0 for an unknown job (R374); `none` where the table is full, or the job's world has
been torn down (R411). -/
def State.withJob (s : State) (job : Nat) : Option State :=
  match s.jobEntry job with
  | some _ => some s
  | none =>
    if s.goneJobs.contains job then none
    else s.freeJob.map fun i =>
      { s with jobs := NMap.set s.jobs i { job := job, wtag := 0, def_ := false, v := false }, cleared := NMap.erase s.cleared i }

/-- The job of a context's task (R373). -/
def State.jobOf (s : State) (c x : Nat) : Option Nat :=
  let k := s.ctx c x
  match k.handler with
  | some j => some j
  | none =>
    match (NMap.get? s.launches k.launch).bind (·.gang) with
    | some (j, _, _, _) => some j
    | none => (s.jobs.find? fun e => e.2.v && e.2.def_ && decide (e.2.wtag = s.worldOf c x)).map (·.2.job)

/-- A write into a fabric window is handed to the die's interface and counted INJ (R374, R375). -/
def State.windowSend (s : State) (die pa : Nat) (data : List Byte) (core access : Nat) (copy : Option (Nat × Nat × Nat))
    (ctx : Nat := 0) : State :=
  let w := NMap.getD s.windows (winOf pa) ⟨0, 0, false⟩
  let p : Packet := { id := s.nextPacket, kind := 0, die := die, job := w.job, node := w.node, core := core, access := access,
                      copy := copy, pa := winPa pa, data := data, tries := 0, ctx := ctx, win := winOf pa, wtag := s.jobWorld w.job }
  { s.addInj die w.job with packets := s.packets ++ [p], nextPacket := s.nextPacket + 1 }

/-- The stream of a packet (R376, R381): its sender's core and context, the window, and whether a message. -/
def Packet.stream (p : Packet) : Nat := p.core * 8 + p.ctx + p.win * 2 ^ 16 + p.kind * 2 ^ 32

-- ## Orphan records (R348)

def State.modLaunch (s : State) (l : Nat) (f : Launch → Launch) : State :=
  match NMap.get? s.launches l with
  | some v => { s with launches := NMap.set s.launches l (f v) }
  | none => s

/-- An orphan entry offered to a launch's record (R348): its kind, fault code or flag cause, cause mask, context, generation, and
word 1. DESIGN CHOICE (log 101): one of a launch that has completed and been erased has no record to go to and is dropped (R116). -/
def State.orphan (s : State) (launch kind code causes core ctx gen word1 : Nat) : State :=
  let w0 := BitVec.ofNat 64 (kind + code * 2 ^ 8 + causes * 2 ^ 16 + core * 2 ^ 32 + ctx * 2 ^ 42 + gen * 2 ^ 48)
  s.modLaunch launch fun l =>
    { l with on_ := min (l.on_ + 1) (2 ^ 32 - 1), ocause := l.ocause ||| BitVec.ofNat 16 causes,
             orphans := if l.orphans.length < 8 then l.orphans ++ [(w0, BitVec.ofNat 64 word1)] else l.orphans }

/-- An exception record, of a bundle that issued in cycle `iss`, of a context that may have gone on to another task meanwhile (R115, R116). -/
def State.lateRecord (s : State) (core ctx : Nat) (gen : BitVec 16) (launch pos addr iss : Nat) (causes : Causes) : State :=
  if (s.ctx core ctx).gen = gen then
    s.modCtx core ctx fun x => { x with recs := x.recs ++ [⟨(s.core core).ccyc + 1, iss, pos, addr, causes, .note⟩] }
  else s.orphan launch 1 0 causes.toNat core ctx gen.toNat addr

/-- A deferred fault for the context that had generation `gen`, or an orphan entry where the context has another task now (R173, R237,
R290). -/
def State.defer (s : State) (core ctx gen launch code : Nat) (d0 d1 : Word) (addr : Nat) : State :=
  let x := s.ctx core ctx
  if x.gen.toNat = gen && (match x.st with | .free => false | _ => true) then
    s.modCtx core ctx fun k => { k with deferred := k.deferred ++ [{ code := code, d0 := d0, d1 := d1, addr := addr }] }
  else s.orphan launch 2 code 0 core ctx gen addr

end Sys2Proof.Machine
end

