-- ==== Sys2Proof/Machine/Record.lean ====
section
/-! DEFINITION. Layout records (R223 to R229), the spaces they address, exception lists (R171 to R173), tiles (R201 to R204). -/

namespace Sys2Proof.Machine

-- ## Fields (R223)

def recWord (r : CRec) (i : Nat) : Nat := (r.getD i 0).toNat
def recBase (r : CRec) : Nat := bits (recWord r 0) 56 0
def recSpace (r : CRec) : Nat := bits (recWord r 0) 59 57
def recFmt (r : CRec) : Nat := bits (recWord r 1) 2 0
def recRank (r : CRec) : Nat := bits (recWord r 1) 4 3 + 1
def recCore (r : CRec) : Nat := bits (recWord r 1) 6 5
def recFifo (r : CRec) : Bool := (recWord r 1).testBit 7
def recIlv (r : CRec) : Nat := bits (recWord r 1) 11 8
def recGran (r : CRec) : Nat := bits (recWord r 1) 13 12
def recTagen (r : CRec) : Bool := (recWord r 1).testBit 14
def recCt (r : CRec) : Bool := (recWord r 1).testBit 15
def recTag (r : CRec) : Nat := bits (recWord r 1) 31 16
def recXlen (r : CRec) : Nat := bits (recWord r 1) 51 32
def recWtag (r : CRec) : Nat := bits (recWord r 1) 57 52
def recExt (r : CRec) (k : Nat) : Nat := bits (recWord r (2 + k / 2)) (32 * (k % 2) + 31) (32 * (k % 2))
def recStr (r : CRec) (k : Nat) : Int := (BitVec.ofNat 40 (recWord r (4 + k))).toInt
def recWext (r : CRec) (k : Nat) : Nat := bits (recWord r (4 + k)) 63 40
def recOrg (r : CRec) (k : Nat) : Int := (BitVec.ofNat 32 (bits (recWord r (8 + k / 2)) (32 * (k % 2) + 31) (32 * (k % 2)))).toInt
def recFill (r : CRec) : Nat := recWord r 10
def recXbase (r : CRec) : Nat := bits (recWord r 11) 56 0
/-- Element width in bytes. -/
def recW (r : CRec) : Nat := tyBits (recFmt r) / 8
/-- The dimensions of a record. -/
def recDims (r : CRec) : List Nat := List.range (recRank r)
/-- Elements of the window (R226). -/
def recN (r : CRec) : Nat := (recDims r).foldl (fun n k => n * recWext r k) 1

/-- The reserved bits of a record's words (R223, R225): unlisted bits, the fields of dimensions at or above the rank, and FILL bits at or
above the format's width. -/
def recReserved (r : CRec) (i : Nat) : Word :=
  let n := recRank r
  let pair := fun k => (if n ≤ k then 2 ^ 32 - 1 else 0) + (if n ≤ k + 1 then 2 ^ 64 - 2 ^ 32 else 0)
  BitVec.ofNat 64 (
    if i = 0 then 2 ^ 64 - 2 ^ 60
    else if i = 1 then 2 ^ 64 - 2 ^ 58
    else if i = 2 then pair 0
    else if i = 3 then pair 2
    else if i < 8 then (if n ≤ i - 4 then 2 ^ 64 - 1 else 0)
    else if i = 8 then pair 0
    else if i = 9 then pair 2
    else if i = 10 then (if recFmt r < 6 then 2 ^ 64 - 2 ^ tyBits (recFmt r) else 0)
    else 2 ^ 64 - 2 ^ 57)

/-- The first word of a record with a reserved bit set (R225 step 1, R251). -/
def recBadWord (r : CRec) : Option Nat := (List.range 12).find? fun i => decide (r.getD i 0 &&& recReserved r i ≠ 0)

/-- The granule code that a format derives (R229); none for U64R. -/
def granCode (fmt : Nat) : Nat := if fmt = 2 ∨ fmt = 3 then 1 else if fmt = 1 then 2 else if fmt = 5 then 0 else 3
/-- The granule of a source width (R229). -/
def granule (fmt : Nat) : Nat := if fmt = 2 ∨ fmt = 3 then 32 else if fmt = 1 then 16 else 8

def spadSpace (sp : Nat) : Bool := decide (sp = 1 ∨ sp = 2)
def fifoSpace (sp : Nat) : Bool := decide (sp = 4 ∨ sp = 5)

/-- The value that breaks step 4 of R225, if one does. -/
def recRange (r : CRec) : Option Nat :=
  let sp := recSpace r
  let f := recFmt r
  let b := recBase r
  let ilv := recIlv r
  let x := recXlen r
  let b2n := fun (c : Bool) => if c then 1 else 0
  if 5 < sp then some sp
  else if 5 < f then some f
  else if 4 < ilv ∨ (ilv ≠ 0 ∧ (spadSpace sp = false ∨ b % 512 ≠ 0)) then some ilv
  else if spadSpace sp && decide (2 ^ (if recCt r then 22 else 20) ≤ b) then some b
  else if fifoSpace sp && decide (b ≠ 0 ∨ ilv ≠ 0 ∨ x ≠ 0) then some (if b ≠ 0 then b else if ilv ≠ 0 then ilv else x)
  else if fifoSpace sp && (recTagen r || recCt r) then some (b2n true)
  else if recCt r && !spadSpace sp then some (b2n true)
  else if b % recW r ≠ 0 then some b
  else if x ≠ 0 ∧ (x % 8 ≠ 0 ∨ x < 24) then some x
  else if recGran r ≠ 0 ∧ recGran r ≠ granCode f then some (recGran r)
  else none

-- ## Elements (R226, R228, R229)

/-- The window index of element j in dimension k. -/
def winIdx (r : CRec) (j k : Nat) : Nat :=
  j / ((List.range k).foldl (fun n i => n * recWext r i) 1) % max (recWext r k) 1

/-- An element of a window by its index: in range, and its signed byte offset. -/
def recElemAt (r : CRec) (i : Nat → Nat) : Bool × Int :=
  ((recDims r).all fun k => let x := recOrg r k + (i k : Int); decide (0 ≤ x) && decide (x < (recExt r k : Int)),
   (recW r : Int) * (recDims r).foldl (fun o k => o + (recOrg r k + (i k : Int)) * recStr r k) 0)

def recElem (r : CRec) (j : Nat) : Bool × Int := recElemAt r (winIdx r j)

/-- The source element that element j of the destination takes: the same j, or for CPYX dimensions 0 and 1 exchanged (R227, R229). -/
def srcElem (x : Bool) (src dst : CRec) (j : Nat) : Bool × Int :=
  if x then recElemAt src fun k => winIdx dst j (if k = 0 then 1 else if k = 1 then 0 else k)
  else recElem src j

/-- The address of offset `o` in SPACE 1 or 2, or in SPACE 3 or 0 (R226). -/
def recAddr (r : CRec) (o : Int) : Int :=
  let b := recBase r
  if spadSpace (recSpace r) then
    if recCt r then (bits b 21 18 : Int) * 2 ^ 18 + ((b % 2 ^ 18 : Nat) + o) % 2 ^ 18
    else if recIlv r = 0 then ((b : Int) + o) % 2 ^ 20
    else
      let n := 2 ^ recIlv r
      let p := o / 512
      let rem := o - 512 * p
      let bank := ((bits b 19 16 : Int) + p % n) % 16
      let off := ((b % 2 ^ 16 : Nat) + 512 * (p / n) + rem) % 2 ^ 16
      bank * 2 ^ 16 + off
  else (b : Int) + o

/-- The bank that an address of a record in SPACE 1 or 2 lies in. -/
def recBank (r : CRec) (a : Int) : Nat := if recCt r then (a / 2 ^ 18).toNat else (a / 2 ^ 16).toNat

/-- The core whose scratchpad or FIFO a record names, for an issuer on core `c` (R224). DESIGN CHOICE (log 43): for a supervisor core,
which is core 0 of its cluster value (R8), CORE 1 to 3 name no core the manual has; the copy runs, upon a scratchpad or FIFO that no
context reaches. -/
def recPeer (r : CRec) (c : Nat) : Nat := if recSpace r = 2 ∨ recSpace r = 5 then clusterOf c * 4 + recCore r else c

/-- FMT and CMP of a bank's BANKFMT (R199). -/
def State.bankFmt (s : State) (c b : Nat) : Nat := bits (NMap.getD (s.core c).bankfmt b 0) 2 0
def State.bankCmp (s : State) (c b : Nat) : Bool := (NMap.getD (s.core c).bankfmt b 0).testBit 3

-- ## Compressed tiles (R203, R204)

/-- An offset-table entry of a bank (R203). -/
def tileEntry (m : Memory) (bank i : Nat) : Nat := leNat (spadRead m (bank * 2 ^ 16 + 8 * i) 8)
def tilePresent (e : Nat) : Bool := e.testBit 63
def tileRaw (e : Nat) : Bool := e.testBit 62
def tileLen (e : Nat) : Nat := bits e 40 28
def tileStart (e : Nat) : Nat := bits e 27 16
def tileTag (e : Nat) : Nat := bits e 15 0

/-- The nonzero words of a block by its mask, taken from a list of stored words: the 32 words and what is left. -/
def expandBlock (mask : Nat) : Nat → List (List Byte) → List Byte × List (List Byte)
  | 0, ws => ([], ws)
  | n + 1, ws =>
    if mask.testBit (31 - n) then
      match ws with
      | [] => let (b, r) := expandBlock mask n []; (leBytes 4 0 ++ b, r)
      | w :: ws' => let (b, r) := expandBlock mask n ws'; (w ++ b, r)
    else let (b, r) := expandBlock mask n ws; (leBytes 4 0 ++ b, r)

/-- The blocks of a stored form from the block map on. -/
def expandBlocks (map : Nat) : Nat → List (List Byte) → List Byte × List (List Byte)
  | 0, ws => ([], ws)
  | n + 1, ws =>
    if map.testBit (31 - n) then
      let (b, r) := expandBlock (leNat (ws.headD [])) 32 ws.tail
      let (bs, r') := expandBlocks map n r
      (b ++ bs, r')
    else let (bs, r) := expandBlocks map n ws; (List.replicate 128 0 ++ bs, r)

/-- Words of 4 bytes. -/
def words4 : Nat → List Byte → List (List Byte)
  | 0, _ => []
  | n + 1, bs => bs.take 4 :: words4 n (bs.drop 4)

/-- The stored form of 4,096 bytes, without padding (R204). -/
def compressForm (bs : List Byte) : List Byte :=
  let ws := words4 1024 bs
  let blk := fun b => (ws.drop (32 * b)).take 32
  let nz := fun (w : List Byte) => decide (leNat w ≠ 0)
  let mask := fun b => ((List.range 32).filter fun i => nz ((blk b).getD i [])).foldl (fun m i => m + 2 ^ i) 0
  let used := (List.range 32).filter fun b => decide (mask b ≠ 0)
  leBytes 4 (used.foldl (fun m b => m + 2 ^ b) 0) ++ (used.map fun b => leBytes 4 (mask b) ++ ((blk b).filter nz).flatten).flatten

/-- A tile as compress stores it (R204): raw or not, and its bytes, a multiple of 16. -/
def compressTile (bs : List Byte) : Bool × List Byte :=
  let f := compressForm bs
  let g := f ++ List.replicate ((16 - f.length % 16) % 16) 0
  if 4096 ≤ g.length then (true, bs) else (false, g)

/-- The 4,096 bytes of a tile by its entry, or `none` where the stored form disagrees with LEN (R203, R204, R219). -/
def expandTile (m : Memory) (bank e : Nat) : Option (List Byte) :=
  let len := tileLen e
  if tileStart e < 32 ∨ 4096 < tileStart e + len then none
  else
    let bs := spadRead m (bank * 2 ^ 16 + 16 * tileStart e) (16 * len)
    if tileRaw e then (if len = 256 then some bs else none)
    else
      let ws := words4 (4 * len) bs ++ List.replicate 1100 (leBytes 4 0)
      let (out, rest) := expandBlocks (leNat (bs.take 4)) 32 ws.tail
      if (4 * (ws.length - rest.length) + 15) / 16 = len then some out else none

-- ## The pages of a global record

/-- The in-range elements' addresses. -/
def recAddrs (r : CRec) : List Int :=
  (List.range (recN r)).filterMap fun j => let e := recElem r j; if e.1 then some (recAddr r e.2) else none
/-- The 64 KiB pages of a global record's in-range elements from element `j` on, and of its list. -/
def recPages (r : CRec) (j : Nat) : List Nat :=
  if recSpace r ≠ 0 then []
  else ((List.range (recN r - j)).filterMap fun i => let e := recElem r (j + i)
                                                     if e.1 then some ((BitVec.ofInt 64 (recAddr r e.2)).toNat / 65536) else none).dedup ++
    blocks 65536 (recXbase r) (recXlen r)

/-- A tracked copy's translation of a global address (R245): by the mapping it was queued with; a page that had none then stays without
one once an invalidation of it stands behind the copy in its queue. -/
def Tracked.tr (t : Tracked) (q : List Tracked) (s : State) (va : Nat) : Tr :=
  match t.map.find? fun e => e.covers t.world va with
  | some e => .ok e
  | none =>
    let past := fun (m : Tracked) => match m.marker with | some (w, p) => decide (w = t.world) && (decide (p = va / 65536) || decide (2 ^ 48 ≤ p)) | none => false
    if t.holes.contains (va / 65536) && q.any past then .bad 4 0 0 else s.walk1 (dieOf t.core) t.world va

/-- The mapping of a command's pages (R245): what `m` holds, or the tables as they stand, where no buffered update keeps the walk waiting
(R311, R317). Of the old and the new mapping that R312 permits where the tables have changed without an invalidation, a page that the
channel still translates keeps the old one (DESIGN CHOICE, log 14). -/
def State.mapFor (s : State) (d w : Nat) (m : List TlbEntry) (pages : List Nat) : List TlbEntry :=
  pages.filterMap fun p => match m.find? fun e => e.covers w (p * 65536) with
    | some e => some e
    | none => if !s.walkClear d w (p * 65536) then none else match s.walk1 d w (p * 65536) with
      | .ok e => some e
      | .bad _ _ _ => none

/-- A command with the mapping of its pages as they stand, and the pages that have none (R245). A page whose walk must wait is neither: it
is walked as a marker comes to stand behind the command, or as its element is reached. -/
def State.mapped (s : State) (m : List TlbEntry) (t : Tracked) : Tracked :=
  let d := dieOf t.core
  let pages := (recPages t.src 0 ++ recPages t.dst 0).filter fun p => !t.holes.contains p
  let es := s.mapFor d t.world (t.map ++ m) pages
  { t with map := es
           holes := t.holes ++ pages.filter fun p => s.walkClear d t.world (p * 65536) && !es.any fun e => e.covers t.world (p * 65536) }
/-- A command that an invalidation's marker is about to follow takes what mapping it still lacks (R245). -/
def State.remapped (s : State) (t : Tracked) : Tracked := if t.marker.isSome then t else s.mapped [] t

-- ## Exception lists (R171 to R173)

/-- Bytes of a local space: SPACE 3 the L2 region of core `c`'s die, else the scratchpad of core `c`. -/
def State.localRead (s : State) (sp c a n : Nat) : List Byte :=
  if sp = 3 then Memory.readN (s.die (dieOf c)).l2 a n else spadRead (s.core c).spad a n
def State.localWrite (s : State) (sp c a : Nat) (data : List Byte) : State :=
  if sp = 3 then s.modDie (dieOf c) fun d => { d with l2 := Memory.writeN d.l2 a data }
  else s.modCore c fun k => { k with spad := spadWrite k.spad a data }

/-- A signed offset as the 48 bits of an entry. -/
def off48 (o : Int) : Nat := (BitVec.ofInt 48 o).toNat

end Sys2Proof.Machine
end

