-- ==== Sys2Proof/Machine/Registers.lean ====
section
/-! DEFINITION. The register pages as they read (R422 to R429), and a 64-bit word at a physical address. -/

namespace Sys2Proof.Machine

/-- The world whose control page an offset lies in (R423). -/
def pageOf (off : Nat) : Option Nat :=
  if off / 0x1000 = 0x20 then some 0
  else if 0x101000 ≤ off ∧ off < 0x140000 then some ((off - 0x100000) / 0x1000)
  else none
def pageBase (w : Nat) : Nat := if w = 0 then 0x20000 else 0x100000 + 0x1000 * w

-- ## Registers as they read (R422 to R429)

/-- BOOT (R426). -/
def State.boot (s : State) : Nat := b2n s.ready (2 ^ 63) + s.regionMiB * 2 ^ 16 + s.bootStep
/-- PSTAT (R427). -/
def State.pstat (s : State) : Nat := s.tj % 2 ^ 8 * 2 ^ 40 + b2n (s.throt && decide (s.clk = 6)) (2 ^ 31) + s.draw % 2 ^ 12 * 2 ^ 16 + s.clk
/-- An event-log entry's words (R429). -/
def LogEntry.word (e : LogEntry) (j : Nat) : Nat :=
  if j = 0 then e.code % 2 ^ 8 + e.core % 2 ^ 10 * 2 ^ 8 + e.ctx % 8 * 2 ^ 18 + e.world % 64 * 2 ^ 21 + e.seq % 2 ^ 32 * 2 ^ 32
  else if j = 1 then e.cyc % 2 ^ 64 else if j = 2 then e.a.toNat else e.b.toNat
/-- The sum of a job's counts over the dies (R425). -/
def sumCounts (m : NMap Nat) : Nat := (m.foldl (fun n p => n + p.2) 0) % 2 ^ 48
/-- A job-table entry's words (R425). -/
def Job.word (e : Job) (j : Nat) : Nat :=
  if j = 0 then e.job % 2 ^ 16 + e.wtag % 64 * 2 ^ 16 + b2n e.def_ (2 ^ 22) + b2n e.v (2 ^ 23)
  else if j = 1 then sumCounts e.inj else if j = 2 then sumCounts e.cons else 0
def Window.word (v : Window) : Nat := v.node % 2 ^ 20 + v.job % 2 ^ 16 * 2 ^ 20 + b2n v.v (2 ^ 63)
/-- What the host wrote last for a supervisor slot on page `w`; other control registers read zero (R424; log 31). -/
def State.ctlRead (s : State) (w q : Nat) : Nat :=
  if 0x100 ≤ q ∧ q < 0x500 ∧ q / 8 % 2 = 0 then (NMap.getD s.sv (w * 64 + (q - 0x100) / 16) {}).entry.toNat
  else if 0x800 ≤ q then (NMap.getD (NMap.getD s.sv (w * 64 + (q - 0x800) / 32) {}).args (q / 8 % 4) 0).toNat
  else 0

/-- A BAR0 register by its offset, a multiple of 8 (R422 to R429). -/
def State.barRead (s : State) (off : Nat) : Word := BitVec.ofNat 64 (
  if off = 0 then s.boot
  else if !s.ready then 0
  else if off = 8 then s.node
  else if off = 0x10 then s.caps.toNat
  else if off = 0x1000 then s.pcap
  else if off = 0x1008 then s.pstat
  else if off = 0x2000 then s.evwidx
  else if off = 0x2008 then s.evridx
  else if off = 0x2010 then s.evdrop
  else if 0x3000 ≤ off ∧ off < 0xB000 then
    match s.evlog.find? fun e => decide (e.seq % 1024 = (off - 0x3000) / 32) with
    | some e => e.word (off / 8 % 4)
    | none => 0
  else if 0x10000 ≤ off ∧ off < 0x12000 then
    match NMap.get? s.jobs ((off - 0x10000) / 32) with
    | some e => e.word (off / 8 % 4)
    | none => if off % 32 = 0 then NMap.getD s.cleared ((off - 0x10000) / 32) 0 else 0
  else if 0x12000 ≤ off ∧ off < 0x12800 then
    match NMap.get? s.windows ((off - 0x12000) / 8) with
    | some v => v.word
    | none => 0
  else match pageOf off with
    | some w => s.ctlRead w (off - pageBase w)
    | none => 0)

/-- Bytes of the register pages from offset `a`. -/
def State.regRead (s : State) (a n : Nat) : List Byte :=
  (List.range n).map fun i => (leBytes 8 (s.barRead ((a + i) / 8 * 8)).toNat).getD ((a + i) % 8) 0
/-- A 64-bit word at a physical address: a register as a management context reads it, or as die `d`'s view holds it (R323, R422). -/
def State.wordAt (s : State) (d w pa : Nat) : Word :=
  BitVec.ofNat 64 (leNat (if isRegPage pa then s.regRead (pa % 2 ^ 32) 8 else s.viewRead d w pa 8))

end Sys2Proof.Machine
end

