-- ==== Sys2Proof/Machine/Task.lean ====
section
/-! DEFINITION. The life of a context: the performance of its accesses and the ends of its waits, its copies cut short, its
retirement and its start, proctor slots, hall passes and fault queues, barriers (R99 to R103, R116, R144, R244 to R247, R315 to R323,
R341, R347 to R351, R357 to R364). -/

namespace Sys2Proof.Machine

-- ## Performance (R315, R317, R321, R323)

/-- Has a load, a returning AMO or a CAS still to land? -/
def Access.landing (a : Access) : Bool := decide (a.kind = 0) || (decide (a.kind = 2 ∨ a.kind = 3) && a.dest.isSome)
def Access.of (a : Access) (x : Nat) (g : BitVec 16) : Bool := decide (a.ctx = x ∧ a.gen = g)

/-- Has the access performed at the scope (R323)? Scopes as the extension byte writes them: 0 .sys, 4 .die, 5 .pkg. -/
def State.performed (s : State) (a : Access) (scope : Nat) : Bool :=
  decide (a.kind = 5) || (a.done && (match a.stamp with
    | none => true
    | some st => decide (1 ≤ scope ∧ scope ≤ 4) || s.appliedAll st) && (decide (scope ≠ 0) || !a.unacked))

/-- Have the accesses before number `n` of context `x` with generation `g` performed at the scope, buffered AMOs with them? -/
def State.settledBy (s : State) (c x : Nat) (g : BitVec 16) (scope n : Nat) : Bool :=
  ((s.core c).access.all fun a => !(a.of x g && decide (a.id < n)) || s.performed a scope) &&
  ((s.core c).amo.all fun b => !decide (b.ctx = x ∧ b.gen = g ∧ b.seq < n))
/-- Has every access of the context performed at the scope? -/
def State.settledAll (s : State) (c x scope : Nat) : Bool :=
  s.settledBy c x (s.ctx c x).gen scope (s.core c).nextAccess

/-- Do the fences before number `n` let a later write perform (R321)? -/
def State.fencesOpen (s : State) (c x : Nat) (g : BitVec 16) (n : Nat) : Bool :=
  (s.core c).access.all fun f => !(decide (f.kind = 5) && f.of x g && decide (f.id < n)) || s.settledBy c x g f.scope f.id

def overlap (a n b m : Nat) : Bool := decide (a < b + m) && decide (b < a + n)
/-- Has the access performed, and has its write reached die `d`'s view? -/
def State.inView (s : State) (a : Access) (d : Nat) : Bool :=
  a.done && (match a.stamp with
    | none => true
    | some (o, m) => decide (o = d) || decide (m ≤ NMap.getD (s.die d).applied o 0))
/-- Have the context's accesses before number `n` that overlap the given bytes performed, in the views of the dies `ds` (R323)? A
buffered update performs when it merges. -/
def State.ownClear (s : State) (c x : Nat) (g : BitVec 16) (n pa len : Nat) (ds : List Nat) : Bool :=
  ((s.core c).access.all fun a =>
    !(a.of x g && decide (a.id < n) && decide (a.kind ≠ 5) && overlap a.pa a.len pa len) || ds.all (s.inView a)) &&
  (s.core c).amo.all fun b => !(decide (b.ctx = x ∧ b.gen = g ∧ b.seq < n) && overlap b.pa 8 pa len)

/-- The access enters its core's list, in its 16-byte sectors if it is a vector's (R315). -/
def State.enter (s : State) (a : Access) (sectors : Bool) : State :=
  let part := fun (i : Nat) => { a with pa := a.pa + 16 * i, len := 16, value := (a.value >>> (128 * i)) &&& (2 ^ 128 - 1 : Vec) }
  s.modCurCore fun q =>
    { q with access := q.access ++ (if sectors then (List.range 32).map part else [a]), nextAccess := q.nextAccess + 1 }

/-- The core whose L1 a core reads through: its own, or the cluster's while the L1s are fused (R11). -/
def State.l1Core (s : State) (c : Nat) : Nat := if (s.cluster (clusterOf c)).fused.isSome then clusterOf c * 4 else c
/-- The written sectors leave the L1 that the core reads through (R307). -/
def State.dropL1 (s : State) (c pa len : Nat) : State :=
  s.modCore (s.l1Core c) fun q => { q with l1 := (blocks 16 pa len).foldl NMap.erase q.l1 }

/-- The value an AMO leaves (R317): add, signed min and max, and, or, xor. -/
def amoVal (op : Nat) (old v : Word) : Word :=
  if op = 0 then old + v
  else if op = 1 then (if v.slt old then v else old)
  else if op = 2 then (if old.slt v then v else old)
  else if op = 3 then old &&& v
  else if op = 4 then old ||| v
  else old ^^^ v

/-- A buffered update merges into its L2, the first that stands for the word (R317); none is made to a register page. -/
def State.mergeAmo (s : State) (core pa : Nat) : State :=
  match (s.core core).amo.find? fun b => decide (b.pa = pa) with
  | none => s
  | some b =>
    let d := amoDie core b.scope pa
    if s.fencesOpen core b.ctx b.gen b.seq && s.ownClear core b.ctx b.gen b.seq pa 8 [dieOf core, d] then
      let (t, st) := s.writeView d b.wtag pa (leBytes 8 (amoVal b.op (s.wordAt d b.wtag pa) b.value).toNat)
      let a : Access := { id := b.seq, ctx := b.ctx, gen := b.gen, launch := b.launch, kind := 1, pa := pa, wtag := b.wtag, len := 8,
                          done := true, stamp := some st, merged := true }
      t.modCore core fun k => { k with amo := k.amo.filter fun c => decide (c.seq ≠ b.seq), access := k.access ++ [a] }
    else s

/-- The requests at a die's shared path (R25; log 11). -/
def State.path (s : State) (d : Nat) : List Req := NMap.getD s.paths d []
/-- A request comes to the path of die `d`, unless it waits there already: its class, its source, and how many packets move before the one
that completes it. -/
def State.request (s : State) (d cls src left : Nat) (i : Instr) : State :=
  if (s.path d).any fun r => decide (r.what = i) then s
  else { s with paths := NMap.set s.paths d (s.path d ++ [⟨i, cls, src, s.cyc, left⟩]) }
/-- The merges of the buffered updates of a core that satisfy `p` are due: their requests come to the die's path, in class 2 (R25, R317). -/
def State.askMerges (s : State) (core : Nat) (p : AmoBuf → Bool) : State :=
  ((s.core core).amo.filter p).foldl (fun t b => t.request (dieOf core) 2 (core + 1) 0 (.bufferedAmoMerge core b.pa)) s
/-- Comes source `a` before source `b` in the turn of a class whose last grant went to `g` (R25)? -/
def turnBefore (g a b : Nat) : Bool := if g < a then decide (b ≤ g ∨ a ≤ b) else decide (b ≤ g ∧ a ≤ b)
/-- Is it the turn of source `src`, with a request of class `cls`, at the path of die `d`: nothing of a lower class waits there, and nothing
of its own class whose turn comes first (R25)? -/
def State.pathTurn (s : State) (d cls src : Nat) : Bool :=
  (s.path d).all fun r => decide (cls < r.cls) || (decide (cls = r.cls) && turnBefore (NMap.getD s.granted (4 * d + cls) 0) src r.src)
/-- The path of die `d` has served source `src` in class `cls`. -/
def State.served (s : State) (d cls src : Nat) : State := { s with granted := NMap.set s.granted (4 * d + cls) src }

/-- The bundle in issue is held until `ok` (R46), then goes on. -/
def State.heldUntil (s : State) (ok : Bool) (k : State → Out3) : Out3 := if ok then k s else .next s.holdIssue

/-- Bytes that an F operation reads as LD.fresh reads them, its bundle held meanwhile (R46, R343); of a register page, for a management
context, as the registers read (R422). The accesses of its own bundle follow the check point at which it reads (R48). -/
def State.freshRead (s : State) (va n : Nat) (k : List Byte → State → Out3) : Out3 :=
  s.translate va 0 0 fun e s =>
    let c := s.iss.core
    let d := dieOf c
    let pa := e.phys va
    let m := s.iss.acc
    s.heldUntil (s.ownClear c s.iss.ctx s.cur.gen m pa n [d] && s.lineClear d pa n c m s.cyc) fun s =>
      match s.badLine e.wtag pa n with
      | some l => s.raiseWalk 0 va 0 l 0 4
      | none => k (if isRegPage pa then s.regRead (pa % 2 ^ 32) n else s.viewRead d (s.worldOf c s.iss.ctx) pa n) s

/-- 64-bit words of bytes. -/
def words8 : Nat → List Byte → List Word
  | 0, _ => []
  | n + 1, bs => BitVec.ofNat 64 (leNat (bs.take 8)) :: words8 n (bs.drop 8)

-- ## Waits (R143, R352)

def State.endWait (s : State) (c x : Nat) (p : Wait → Bool) : State := s.modCtx c x fun k => k.endWaits p

/-- Does a load, returning AMO or CAS of the context still have to land? -/
def State.loadsOut (s : State) (c x : Nat) : Bool :=
  (s.core c).access.any fun a => a.of x (s.ctx c x).gen && a.landing

/-- A wait ends with an acquire (R349): as FENCE.acq, what is still to land lands first. -/
def State.endWaitAcq (s : State) (c x : Nat) (p : Wait → Bool) : State :=
  let out := s.loadsOut c x
  s.modCtx c x fun k =>
    match k.st with
    | .wait ws => let r := (ws.filter fun w => !p w) ++ (if out then [.fence 0 0] else [])
      { k with st := if r.isEmpty then .ready else .wait r }
    | _ => k

/-- Every context of the package that is not free, with its place. -/
def State.allCtxs (s : State) : List (Nat × Nat × Ctx) :=
  s.cores.flatMap fun (c, k) => (k.ctxs.filter fun p => decide (p.2.st ≠ .free)).map fun p => (c, p.1, p.2)

/-- A word written for a waiting context when it becomes ready, in its register and no latch (R343). -/
def State.landWait (s : State) (c x : Nat) (d : Option Nat) (v : Word) : State :=
  match d with
  | none => s
  | some r => s.modCtx c x fun k => { k with sreg := NMap.set k.sreg r v }

-- ## Copies cut short (R238, R244, R246)

/-- DONE passes every identifier that has completed or been parked (R238). -/
def Channel.advance (c : Channel) : Channel :=
  (c.finished.foldl (fun (q : Nat × List Nat) _ =>
      if q.2.contains q.1 then ((q.1 + 1) % 2 ^ 32, q.2.erase q.1) else q) (c.done_, c.finished)) |> fun q =>
    { c with done_ := q.1, finished := q.2 }
/-- An identifier completes, or is parked; one that was re-pushed had been passed before. -/
def Channel.complete (c : Channel) (t : Tracked) : Channel :=
  if t.repush then c else { c with finished := c.finished ++ [t.id] }.advance

def Tracked.of (t : Tracked) (c x : Nat) (g : BitVec 16) : Bool := decide (t.core = c ∧ t.ctx = x ∧ t.gen = g) && t.marker.isNone
def Timed.of (t : Timed) (c x : Nat) (g : BitVec 16) : Bool := decide (t.core = c ∧ t.ctx = x ∧ t.gen = g)

/-- CHALT on one channel (R246): unstarted tracked entries and timed copies of a context are cancelled. -/
def Channel.halt (ch : Channel) (c x : Nat) (g : BitVec 16) : Channel :=
  let gone := ch.queue.filter fun t => t.of c x g
  let ch1 := { ch with queue := ch.queue.filter fun t => !t.of c x g
                       timed := ch.timed.filter fun t => !t.of c x g
                       parked := ch.parked.filter fun t => !t.of c x g }
  gone.foldl (fun h t => h.complete t) ch1
def State.haltAll (s : State) (c x : Nat) : State :=
  let g := (s.ctx c x).gen
  (List.range 4).foldl (fun t n => t.modChan (clusterOf c) n fun ch => ch.halt c x g) s

/-- A flag-file entry in the orphan record of the launch that owned it (R247, R348). -/
def State.orphanFlag (s : State) (launch n : Nat) (f : Flag) : State :=
  s.orphan launch 3 f.cause 0 f.core f.ctx f.gen.toNat (f.id + n * 2 ^ 32)
def Flag.of (f : Flag) (c x : Nat) (g : BitVec 16) : Bool := decide (f.core = c ∧ f.ctx = x ∧ f.gen = g)

/-- The flag entries of a retiring context go to the orphan record (R247). -/
def State.orphanFlags (s : State) (c x : Nat) : State :=
  let k := s.ctx c x
  (List.range 4).foldl (fun t n =>
    let ch := t.chan (clusterOf c) n
    let mine := (ch.flags ++ ch.pflags).filter fun f => f.of c x k.gen
    let t1 := t.modChan (clusterOf c) n fun h =>
      { h with flags := h.flags.filter fun f => !f.of c x k.gen, pflags := h.pflags.filter fun f => !f.of c x k.gen }
    mine.foldl (fun u f => u.orphanFlag k.launch n f) t1) s

/-- May a tracked copy still send a packet into a fabric window, with what is left of it (R374)? -/
def State.sends (s : State) (q : List Tracked) (t : Tracked) : Bool :=
  !t.stopped && decide (t.pos < recN t.dst) && (recPages t.dst t.pos).any fun p =>
    match t.tr q s (p * 65536) with | .ok e => isWindow (e.phys (p * 65536)) | .bad _ _ _ => true
/-- Have every window write and window copy packet of the context been handed to the interface (R379, R384)? -/
def State.sentAll (s : State) (c x : Nat) (g : BitVec 16) : Bool :=
  ((s.core c).access.all fun a => !(a.of x g && isWindow a.pa) || a.done) &&
  (List.range 4).all fun n =>
    let ch := s.chan (clusterOf c) n
    (ch.queue ++ ch.run.toList ++ ch.parked).all fun t => !t.of c x g || !s.sends ch.queue t

-- ## The deferral queue's appends (R147)

/-- One entry written at the lowest free place. -/
def State.landEntry (s : State) (c x path : Nat) (bs : List Byte) : State :=
  let k := s.ctx c x
  match (List.range k.deferC).find? fun p => !(k.defer.any fun q => decide (q.2 = p)) with
  | none => s
  | some p => (s.localWrite 1 c (k.deferBase + 32 * p) bs).modCtx c x fun y => { y with defer := y.defer ++ [(path, p)] }
/-- The entries of a DEFER written (R147). DESIGN CHOICE (log 84): their bytes stand in the scratchpad from issue + 1 on. -/
def State.landAppend (s : State) (c x path : Nat) (es : List (List Byte)) : State :=
  es.foldl (fun t e => t.landEntry c x path e) s

-- ## The fault pools (R357 to R364)

def State.modQueue (s : State) (cl : Nat) (f : List FRef → List FRef) : State :=
  { s with queues := NMap.set s.queues cl (f (NMap.getD s.queues cl [])) }
def State.modOver (s : State) (die : Nat) (f : List FRef → List FRef) : State :=
  { s with overflow := NMap.set s.overflow die (f (NMap.getD s.overflow die [])) }
def FRef.is (r : FRef) (c x : Nat) : Bool := decide (r.core = c ∧ r.ctx = x)

/-- The cluster's oldest overflow fault that a cluster slot may serve enters the queue, which has gained a free entry (R359). -/
def State.gain (s : State) (cl : Nat) : State :=
  match (NMap.getD s.overflow (cl / 64) []).find? fun r =>
      decide (clusterOf r.core = cl) && !(s.ctx r.core r.ctx).proc && s.hasSlot cl (s.worldOf r.core r.ctx) with
  | none => s
  | some r => (s.modOver (cl / 64) fun q => q.filter fun u => !u.is r.core r.ctx).modQueue cl fun q => q ++ [r]
/-- Faults leave a cluster's queue; an overflow fault may follow into each entry that is free again (R359). -/
def State.leaveQueue (s : State) (cl : Nat) (gone : FRef → Bool) : State :=
  let q := NMap.getD s.queues cl []
  (q.filter gone).foldl (fun t _ => t.gain cl) (s.modQueue cl fun q => q.filter fun r => !gone r)

/-- A context's faults leave every queue. -/
def State.dropRefs (s : State) (c x : Nat) : State :=
  let s1 := s.modOver (dieOf c) fun q => q.filter fun r => !r.is c x
  { s1.leaveQueue (clusterOf c) fun r => r.is c x with offers := s.offers.filter fun r => !r.is c x }

/-- Waiting cluster slots take the oldest queued faults of their worlds (R358). -/
def State.drain (s : State) (cl : Nat) : State :=
  (clusterSlots cl).foldl (fun t (c, x) =>
    let k := t.ctx c x
    match if k.isSlot then k.inFwait else none with
    | none => t
    | some d =>
      match (NMap.getD t.queues cl []).find? fun r => decide (t.worldOf r.core r.ctx = t.worldOf c x) with
      | none => t
      | some r => (t.leaveQueue cl fun u => u.is r.core r.ctx).deliver r c x d) s

/-- Waiting supervisor slots take the oldest overflow faults of their worlds (R359). -/
def State.drainSup (s : State) (die : Nat) : State :=
  (supervisorSlots die).foldl (fun t (c, x) =>
    let k := t.ctx c x
    match if k.proc then k.inFwait else none with
    | none => t
    | some d =>
      match (NMap.getD t.overflow die []).find? fun r => decide (t.worldOf r.core r.ctx = k.world) with
      | none => t
      | some r => (t.modOver die fun q => q.filter fun u => !u.is r.core r.ctx).deliver r c x d) s

/-- The pools serve what they can (R358, R359). -/
def State.servePools (s : State) : State :=
  let s1 := s.queues.foldl (fun t q => (List.range 4).foldl (fun u _ => u.drain q.1) t) s
  s1.overflow.foldl (fun t q => t.drainSup q.1) s1

/-- The primary code of a frozen context. -/
def FaultRec.primary (f : FaultRec) : Nat := (f.codes.find? fun c => decide (c ≠ 0)).getD 0

/-- A live pass is revoked: the fault it served is offered again, at the head of its cluster's queue (R364). -/
def State.revoke (s : State) (c x : Nat) : State :=
  match (s.ctx c x).pass with
  | none => s
  | some p =>
    let s1 := s.modCtx c x fun k => { k with pass := some { p with live := false } }
    let f := s.ctx p.core p.ctx
    if !p.live || decide (f.st ≠ .frozen) || decide (f.gen ≠ p.gen) then s1
    else
      let s2 := s1.modCtx p.core p.ctx fun k => { k with fgen := k.fgen + 1 }
      let r : FRef := ⟨p.core, p.ctx, f.frec.primary⟩
      let cl := clusterOf p.core
      if f.proc || decide (64 ≤ (NMap.getD s2.queues cl []).length) || !s2.hasSlot cl (s2.worldOf p.core p.ctx) then s2.offerSupervisor r
      else s2.modQueue cl fun q => r :: q

-- ## Retirement (R101, R103, R144, R247, R347)

/-- What of a flight outlives its context: writes of core state, and exception records (R116, R144). -/
def Flight.outlives (f : Flight) : Option Flight :=
  match f.eff with
  | .bankfmt _ _ => some f
  | .store _ _ _ => none
  | _ => if f.causes = 0 then none else some { f with eff := .note }

/-- The stores in flight of a retiring context, as writes of its core that perform at their cycles (R144, R198). -/
def Ctx.storesOut (x : Ctx) (k : Core) : List UFlight :=
  x.flight.filterMap fun f => match f.eff with
    | .store p a d => some ⟨k.ccyc + (f.due - x.clk), 0, if p = 0 then .write a d else .writeT1 a d⟩
    | _ => none

/-- The completion tree's counts after a retirement (R347). -/
def Launch.retired (l : Launch) (c : Nat) (killed : Bool) : Launch :=
  { l with coreCnt := NMap.set l.coreCnt c (NMap.getD l.coreCnt c 0 - 1)
           coreDone := NMap.set l.coreDone c (NMap.getD l.coreDone c 0 + 1)
           nRetired := l.nRetired + (if killed then 0 else 1)
           nKilled := l.nKilled + (if killed then 1 else 0) }
/-- The counts after a placement (R347, R348). -/
def Launch.placedOn (l : Launch) (c : Nat) : Launch :=
  { l with coreCnt := NMap.set l.coreCnt c (NMap.getD l.coreCnt c 0 + 1)
           clCnt := NMap.set l.clCnt (clusterOf c) (NMap.getD l.clCnt (clusterOf c) 0 + 1)
           dieCnt := NMap.set l.dieCnt (dieOf c) (NMap.getD l.dieCnt (dieOf c) 0 + 1)
           nPlaced := l.nPlaced + 1 }

/-- The context as it stands free after its task. -/
def Ctx.freed (k : Ctx) : Ctx :=
  { k with st := .free, allocS := 0, allocV := 0, sreg := [], vreg := [], flight := k.flight.filterMap Flight.outlives, latch := [],
           loops := [], cond := [], target := [], prep := [], defer := [], lrec := [], deferred := [], save := none, spilled := false, unspilled := 0, refill := [], snapped := false,
           stall := 0, pass := none, ttab := [], handler := none, proc := false, leaving := false, saved := [], startArgs := [] }

/-- A cluster's L1s fused for launch `l`, or each core's own again: the lines of all four are dropped (R11, R307, R340). -/
def State.setFused (s : State) (cl : Nat) (l : Option Nat) : State :=
  if (s.cluster cl).fused = l then s
  else
    let s1 := { s with clusters := NMap.set s.clusters cl { s.cluster cl with fused := l } }
    (List.range 4).foldl (fun t i => t.modCore (4 * cl + i) fun q => { q with l1 := [] }) s1
/-- Does a task of the launch remain on the cluster? -/
def State.tasksOn (s : State) (cl l : Nat) : Bool :=
  (List.range 4).any fun i => (s.core (4 * cl + i)).ctxs.any fun p => decide (p.2.st ≠ .free) && !p.2.proc && decide (p.2.launch = l)
/-- The L1s stay fused for as long as a task of the launch remains (R340). -/
def State.unfuse (s : State) (cl : Nat) : State :=
  match (s.cluster cl).fused with
  | some l => if s.tasksOn cl l then s else s.setFused cl none
  | none => s

/-- A context's task retires (R144, R347), by DONE or killed; `counted`: in its launch's tree and block. -/
def State.retire (s : State) (c x : Nat) (killed counted : Bool) : State :=
  let k := s.ctx c x
  let s0 := if killed then s.haltAll c x else s
  let s1 := k.deferred.foldl (fun t d => t.orphan k.launch 2 d.code 0 c x k.gen.toNat d.addr) (s0.orphanFlags c x)
  let s2 := k.flight.foldl (fun t f => match f.eff with | .append p es => t.landAppend c x p es | _ => t) s1
  let drop := fun (a : Access) => if a.of x k.gen then (if a.kind = 0 then none else some { a with dest := none }) else some a
  let s3 := s2.modCore c fun q =>
    { q with flight := q.flight ++ k.storesOut q
             access := q.access.filterMap drop
             handlers := q.handlers.filter fun h => !decide (h.ctx = x ∧ h.gen = k.gen) }
  let s4 := match k.handler with
    | some j => { s3 with consWait := s3.consWait ++ [(c, x, k.gen.toNat, j)] }
    | none => s3
  let s5 := s4.dropRefs c x
  let s6 := if counted && !k.proc then s5.modLaunch k.launch fun l => l.retired c killed else s5
  let s7 : State := (s6.modCtx c x Ctx.freed).unfuse (clusterOf c)
  if (s7.core c).run = some x then
    let s8 := s7.modCore c fun q => { q with first := none, hold := 0, walk := none, failed := [] }.reschedule x
    { s8 with asks := s8.asks.filter fun a => decide (a.core ≠ c), regq := s8.regq.filter fun r => decide (r ≠ .dbgopen c) }
  else s7

-- ## Start of a task (R99, R101, R307, R341)


/-- The context is given to a new task: its generation advances, and records still in flight of the old one go to the orphan
record of their launch (R116). DESIGN CHOICE (log 102): they do so at once, as the context is given away. -/
def State.start (s : State) (c x : Nat) (new : Ctx) : State :=
  let k := s.ctx c x
  let s1 := (k.recs ++ k.flight).foldl (fun t f => if f.causes = 0 then t else t.orphan k.launch 1 0 f.causes.toNat c x k.gen.toNat f.addr) s
  let s2 := s1.modCtx c x fun _ =>
    { new with st := .ready, gen := k.gen + 1, clk := k.clk, flight := k.flight.filter fun f => decide (f.causes = 0) }
  s2.modCore (s.l1Core c) fun q => { q with l1 := [] }

/-- Arguments in consecutive scalar registers. -/
def setArgs (m : NMap Word) (r : Nat) (ws : List Word) : NMap Word :=
  (List.range ws.length).foldl (fun m i => NMap.set m (r + i) (ws.getD i 0)) m

/-- A proctor or supervisor context at its entry (R102, R341, R362, R424). -/
def slotCtx (entry ns nv r : Nat) (args : List Word) (launch slot world depth : Nat) : Ctx :=
  { allocS := ns, allocV := nv, sreg := setArgs [] r args, pc := entry, launch := launch, slot := slot, world := world,
    depth := depth, prio := 7, ceiling := 7, proc := true, entry := entry, startS := ns, startV := nv, startR := r, startArgs := args }

/-- A DONE or FRKILL in a proctor or supervisor context restarts its slot; one whose reservation has ended leaves at its next FWAIT
(R362, R364). -/
def State.restartSlot (s : State) (c x : Nat) (killed : Bool) : State :=
  let k := s.ctx c x
  let new := slotCtx k.entry k.startS k.startV k.startR k.startArgs k.launch k.slot k.world k.depth
  let t := ((s.revoke c x).retire c x killed false).start c x { new with leaving := k.leaving }
  if k.waits.contains .foreign || k.saved.contains .foreign then t.modCtx c x fun y => { y with st := .wait [.foreign] } else t

/-- A task's end by DONE (R144, R362). -/
def State.finishTask (s : State) (c x : Nat) : State :=
  if (s.ctx c x).proc then s.restartSlot c x false else s.retire c x false true
/-- A task's end by FRKILL (R362, R369). -/
def State.killTask (s : State) (c x : Nat) : State :=
  if (s.ctx c x).proc then s.restartSlot c x true else s.retire c x true true

/-- A slot whose reservation has ended leaves its pool when it waits in FWAIT (R362). -/
def State.leaveSlots (s : State) : State :=
  s.allCtxs.foldl (fun t (c, x, k) => if k.leaving && k.inFwait.isSome then t.retire c x false false else t) s

/-- Queued faults of worlds that hold no slot in the cluster go to the supervisor pool, in queue order (R362). -/
def State.flushQueue (s : State) (cl : Nat) : State :=
  let gone := (NMap.getD s.queues cl []).filter fun r => !s.hasSlot cl (s.worldOf r.core r.ctx)
  gone.foldl (fun t r => t.offerSupervisor r) (s.leaveQueue cl fun r => !s.hasSlot cl (s.worldOf r.core r.ctx))

/-- The reservation of a launch's cluster slots ends (R362). -/
def State.endReservation (s : State) (l : Nat) : State :=
  let mine := s.allCtxs.filter fun (c, _, k) => k.proc && decide (k.launch = l) && !isSupervisor c
  let s1 := mine.foldl (fun t (c, x, _) => t.modCtx c x fun k => { k with leaving := true }) s
  (mine.map fun q => clusterOf q.1).dedup.foldl (fun t cl => t.flushQueue cl) s1

-- ## Barriers (R350, R351)

/-- The key of a barrier: launch, crew (or core and context of a handler task, which is a crew of one), number; a gang's apart. -/
def barKey (l : Nat) (sub id : Nat) : Nat := l * 2 ^ 64 + sub * 16 + id
def Ctx.barSub (k : Ctx) (c x : Nat) : Nat := if k.handler.isSome then 2 ^ 40 + c * 8 + x else k.crew

/-- What of a context's waits is an arrival counted at barrier `key`. -/
def Ctx.atBar (k : Ctx) (c x key : Nat) : Bool :=
  k.waits.any fun w => match w with
    | .bar id true _ => decide (barKey k.launch (k.barSub c x) id = key)
    | .gbar id true _ => decide (barKey k.launch 0 (8 + id) = key)
    | _ => false
/-- Is the context a member of the barrier's crew or gang? -/
def Ctx.inBar (k : Ctx) (c x key : Nat) : Bool :=
  !k.proc && (if key % 16 < 8 then decide (key = barKey k.launch (k.barSub c x) (key % 16))
    else k.handler.isNone && decide (key = barKey k.launch 0 (key % 16)))

/-- Is a gang of several packages? -/
def State.multi (s : State) (l : Nat) : Bool :=
  match (NMap.get? s.launches l).bind (·.gang) with | some (_, n, _, _) => decide (0 < n) | none => false

/-- Arrivals whose earlier accesses and scratchpad stores have performed are counted (R350); the accesses of the barrier's own bundle follow
its check point (R48). -/
def State.arrive (s : State) (c x : Nat) (k : Ctx) : State :=
  let stores := k.flight.any fun f => match f.eff with | .store _ _ _ => true | _ => false
  let go := fun (w : Wait) => match w with
    | .bar id false n => if !stores && s.settledBy c x k.gen 4 n then .bar id true n else w
    | .gbar id false n => if !stores && s.settledBy c x k.gen (if s.multi k.launch then 0 else 5) n then .gbar id true n else w
    | _ => w
  let ws := k.waits.map go
  if ws = k.waits then s else s.modCtx c x fun y => { y with st := .wait ws }

def Launch.bar (l : Launch) (sub : Nat) : Barrier := NMap.getD l.barriers sub {}

/-- A barrier whose members have all arrived, or count as arrived, is complete now: its release falls at CYC L + 8, a gang's at
L + 64 or as much later as the device chooses (R350, R351). The members on a gang's other packages must have arrived too. -/
def State.fillBar (s : State) (key : Nat) : State :=
  let l := key / 2 ^ 64
  let sub := key % 2 ^ 64
  match NMap.get? s.launches l with
  | none => s
  | some v =>
    let b := v.bar sub
    let full := s.allCtxs.all fun (c, x, k) => !k.inBar c x key || k.atBar c x key || b.excused.contains (c * 8 + x)
    let gang := decide (8 ≤ key % 16)
    if b.release.isNone && full && !(gang && s.multi l && decide (b.others = 0)) then
      let at_ := s.cyc + (if gang then 64 + Config.pick s.picks else 8)
      { s with picks := s.picks + b2n gang 1 }.modLaunch l fun v => { v with barriers := NMap.set v.barriers sub { b with release := some at_ } }
    else s

/-- The barriers that some context has arrived at. -/
def State.barKeys (s : State) : List Nat :=
  (s.allCtxs.flatMap fun (c, x, k) => k.waits.filterMap fun w => match w with
    | .bar id true _ => some (barKey k.launch (k.barSub c x) id)
    | .gbar id true _ => some (barKey k.launch 0 (8 + id))
    | _ => none).dedup

def State.settleBars (s : State) : State :=
  let s1 := s.allCtxs.foldl (fun t (c, x, k) => t.arrive c x k) s
  s1.barKeys.foldl (fun t key => t.fillBar key) s1

/-- The barrier's phase as it stands once released. -/
def Barrier.advance (b : Barrier) : Barrier := { others := b.others - 1 }
/-- BARRIER_RELEASE (R350): every member that waits becomes ready and acquires, and the phase advances. Before the release has come it
brings, at a barrier of a gang of several packages, the news that the other packages' members have all arrived. -/
def execBarrierRelease (key : Nat) (s : State) : Out3 :=
  let l := key / 2 ^ 64
  let sub := key % 2 ^ 64
  match NMap.get? s.launches l with
  | none => .next s
  | some v =>
    let b := v.bar sub
    if (match b.release with | some t => decide (t ≤ s.cyc) | none => false) then
      let isBar := fun (w : Wait) => match w with | .bar id true _ => decide (id = key % 16) | .gbar id true _ => decide (8 + id = key % 16) | _ => false
      let s1 := s.allCtxs.foldl (fun u (c, x, k) => if k.atBar c x key then u.endWaitAcq c x isBar else u) s
      .next (s1.modLaunch l fun v =>
        { v with barriers := if 1 < b.others then NMap.set v.barriers sub b.advance else NMap.erase v.barriers sub })
    else if decide (8 ≤ key % 16) && s.multi l then
      .next (s.modLaunch l fun v => { v with barriers := NMap.set v.barriers sub { b with others := b.others + 1 } })
    else .next s

-- ## What follows a step at once

/-- A WQUIET's earlier packets are all counted: a wave that begins from now on may answer it (R379). -/
def State.settleQuiet (s : State) : State :=
  s.allCtxs.foldl (fun t (c, x, k) =>
    if (k.waits.any fun w => match w with | .quiet _ none => true | _ => false) && t.sentAll c x k.gen then
      let go := fun (w : Wait) => match w with | .quiet j none => .quiet j (some (t.die (dieOf c)).waves) | _ => w
      t.modCtx c x fun y => { y with st := .wait (y.waits.map go) }
    else t) s

/-- The messages of retired handler tasks are counted CONS (R384). -/
def State.settleCons (s : State) : State :=
  let ready := fun (q : Nat × Nat × Nat × Nat) => s.sentAll q.1 q.2.1 (BitVec.ofNat 16 q.2.2.1)
  (s.consWait.filter ready).foldl (fun t q => t.addCons (dieOf q.1) q.2.2.2)
    { s with consWait := s.consWait.filter fun q => !ready q }

/-- What the device does at once after every step: arrivals at barriers, counts, the pools (R350, R358, R359, R362, R379, R384). -/
def State.settle (s : State) : State := s.leaveSlots.servePools.settleBars.settleQuiet.settleCons

end Sys2Proof.Machine
end

