-- ==== Sys2Proof/Machine/Launch.lean ====
section
/-! DEFINITION. Launches: records and their checks, the pool, LAUNCH and its forms, placement, completion counters, barriers, the
completion tree, and gangs of several packages (R327 to R353, R386 to R388). -/

namespace Sys2Proof.Machine

-- ## Launch records (R335)

abbrev LaunchRec := List Word
/-- The 8-byte word at offset `o`. -/
def lw (r : LaunchRec) (o : Nat) : Nat := (r.getD (o / 8) 0).toNat
def lrKind (r : LaunchRec) : Nat := bits (lw r 8) 1 0
def lrPrio (r : LaunchRec) : Nat := bits (lw r 8) 4 2
def lrPin (r : LaunchRec) : Bool := (lw r 8).testBit 7
def lrProcres (r : LaunchRec) : Bool := (lw r 8).testBit 8
def lrFuse (r : LaunchRec) : Bool := (lw r 8).testBit 9
def lrSaven (r : LaunchRec) : Bool := (lw r 8).testBit 10
def lrCsz (r : LaunchRec) : Nat := bits (lw r 8) 15 11 + 1
def lrNs (r : LaunchRec) : Nat := bits (lw r 8) 21 16
def lrNv (r : LaunchRec) : Nat := bits (lw r 8) 27 22
def lrDies (r : LaunchRec) : Nat := bits (lw r 8) 31 28
def lrWtag (r : LaunchRec) : Nat := bits (lw r 8) 37 32
def lrX (r : LaunchRec) : Nat := bits (lw r 0x10) 15 0
def lrY (r : LaunchRec) : Nat := bits (lw r 0x10) 31 16
def lrZ (r : LaunchRec) : Nat := bits (lw r 0x10) 47 32
def lrTcr (r : LaunchRec) : Nat := bits (lw r 0x18) 5 0
def lrArgr (r : LaunchRec) : Nat := bits (lw r 0x18) 11 6
def lrArgn (r : LaunchRec) : Nat := bits (lw r 0x18) 15 12
def lrDeferC (r : LaunchRec) : Nat := bits (lw r 0x30) 43 32
def lrTtn (r : LaunchRec) : Nat := bits (lw r 0xE0) 9 0
/-- The tasks of a record (R335, R345). -/
def lrTiles (r : LaunchRec) : Nat := if lrKind r = 3 then lrTtn r else lrX r * lrY r * lrZ r
/-- The DEP pairs: counter address and target. -/
def lrDeps (r : LaunchRec) : List (Nat × Word) := (List.range 4).map fun i => (lw r (0x40 + 16 * i), r.getD (9 + 2 * i) 0)
/-- The record with the DEPTH the device gives it and CLAIM set (R335, R343). -/
def lrFor (r : LaunchRec) (depth : Nat) : LaunchRec :=
  (r.set 1 (BitVec.ofNat 64 (lw r 8 - bits (lw r 8) 6 5 * 32 + depth * 32))).set 31 (r.getD 31 0 ||| 1)

/-- The bits of a record that must be zero, by word (R335). DEPTH is the device's own. -/
def lrReserved (i : Nat) : Word :=
  BitVec.ofNat 64 (
    if i = 0 then 2 ^ 64 - 2 ^ 57
    else if i = 1 then 2 ^ 64 - 2 ^ 38
    else if i = 2 then 2 ^ 64 - 2 ^ 48
    else if i = 3 then 2 ^ 64 - 2 ^ 16
    else if i = 5 then 2 ^ 64 - 2 ^ 5
    else if i = 6 then (2 ^ 64 - 2 ^ 44) + (2 ^ 32 - 2 ^ 20)
    else if i = 7 then 2 ^ 64 - 2 ^ 20
    else if i = 28 then 2 ^ 64 - 2 ^ 10
    else if i = 30 then 2 ^ 64 - 1
    else if i = 31 then 2 ^ 64 - 2
    else 0)

/-- The first nonzero of some values. -/
def firstOf (vs : List Nat) : Option Nat := vs.find? fun v => decide (v ≠ 0)

/-- Rule 1: reserved bits and unused fields. -/
def lrUnused (r : LaunchRec) : Option Nat :=
  let off := fun (b : Bool) (v : Nat) => if b then 0 else v
  firstOf ((List.range 32).map (fun i => (r.getD i 0 &&& lrReserved i).toNat) ++
    [off (decide (lrKind r = 3)) (lw r 0xD0), off (decide (lrKind r = 3)) (lw r 0xE0), off (lrProcres r) (lw r 0xD8),
     off (decide (lrKind r = 2)) (lw r 0xE8), off (lrSaven r) (lw r 0x38), off (decide (lrKind r ≠ 3)) (lw r 0x10),
     off (decide (lrKind r ≠ 3)) (lrCsz r - 1)] ++
    (lrDeps r).map fun p => off (decide (p.1 ≠ 0)) p.2.toNat)
/-- Rule 2: alignment. -/
def lrMisaligned (r : LaunchRec) : Option Nat :=
  let bad := fun (v z : Nat) => if v % z = 0 then 0 else v
  firstOf ([bad (lw r 0) 16, bad (lw r 0x20) 16, bad (bits (lw r 0x30) 19 0) 32, bad (lw r 0x38) 4096, bad (lw r 0xC0) 256,
    bad (lw r 0xC8) 8, bad (lw r 0xD0) 2048] ++ (lrDeps r).map fun p => bad p.1 8)

def popc4 (m : Nat) : Nat := bits m 0 0 + bits m 1 1 + bits m 2 2 + bits m 3 3

/-- The checks of R337 in order, for a writer of world `w`: the number of the first that fails, and the offending value. -/
def State.lrBad (s : State) (r : LaunchRec) (w : Nat) : Option (Nat × Nat) :=
  let dies := 2 ^ s.nDies - 1
  match lrUnused r, lrMisaligned r with
  | some v, _ => some (1, v)
  | none, some v => some (2, v)
  | none, none =>
    if 48 < lrNs r then some (3, lrNs r)
    else if 48 < lrNv r then some (3, lrNv r)
    else if 8 < lrArgn r then some (3, lrArgn r)
    else if lrKind r ≠ 3 ∧ (lrX r = 0 ∨ lrY r = 0 ∨ lrZ r = 0) then some (3, 0)
    else if lrTcr r ≠ 63 ∧ lrNs r ≤ lrTcr r then some (4, lrTcr r)
    else if 0 < lrArgn r ∧ lrNs r < lrArgr r + lrArgn r then some (4, lrArgr r)
    else if lrKind r ≠ 3 ∧ lrTiles r % lrCsz r ≠ 0 then some (5, lrTiles r)
    else if lrKind r = 0 ∧ 1 < lrCsz r then some (6, lrCsz r - 1)
    else if lrKind r = 3 ∧ lw r 0xD0 = 0 then some (7, 0)
    else if lrKind r = 3 ∧ (lrTtn r = 0 ∨ 896 < lrTtn r) then some (7, lrTtn r)
    else if lrKind r = 2 ∧ 7 * 224 * popc4 (lrDies r) < lrTiles r then some (8, lrTiles r)
    else if lrDies r = 0 ∨ lrDies r &&& dies ≠ lrDies r then some (9, lrDies r)
    else if 2048 < lrDeferC r then some (10, lrDeferC r)
    else if lrProcres r && decide (lw r 0xD8 = 0) then some (11, 0)
    else if lrProcres r && decide (28 < lrCsz r) then some (11, lrCsz r - 1)
    else if lrWtag r ≠ w then some (12, lrWtag r)
    else none

-- ## The arbiter's accesses to memory (R336, R339, R347, R348)

/-- A write by the arbiter at an address of world `w`, translated by die `d`'s service and made at the home die; the fault code
where it cannot be made. -/
def State.arbWrite (s : State) (w va : Nat) (data : List Byte) : Except Nat (State × Option (Nat × Nat)) :=
  match s.walk 0 w va 1 false with
  | .bad _ _ c => .error (causeFault c)
  | .ok e =>
    let pa := e.phys va
    if isWindow pa then .ok (s.windowSend 0 pa data 1024 0 none, none)
    else let (s1, st) := s.writeView (homeDie pa) w pa data
         .ok (s1, some st)

/-- Bytes of world `w` as die `d` reads them, page by page, a register page's for a management context, `mgmt`, as the registers read (R422); the
fault code and address of the first that cannot be read. -/
def State.readAs (s : State) (mgmt : Bool) (d w va n : Nat) : Except (Nat × Nat × Nat × Nat) (List Byte) :=
  (blocks 65536 va n).foldlM (fun (acc : List Byte) b =>
    let lo := max va (b * 65536)
    let hi := min (va + n) (b * 65536 + 65536)
    match s.walk d w lo 0 mgmt with
    | .bad l g c => .error (l, g, c, lo)
    | .ok e => match s.badLine e.wtag (e.phys lo) (hi - lo) with
      | some l => .error (l, 0, 4, lo)
      | none => .ok (acc ++ (if isRegPage (e.phys lo) then s.regRead (e.phys lo % 2 ^ 32) (hi - lo) else s.viewRead d w (e.phys lo) (hi - lo)))) []
/-- The same for an access that no management context makes. -/
def State.readPages (s : State) (d w va n : Nat) : Except (Nat × Nat × Nat × Nat) (List Byte) := s.readAs false d w va n

/-- May the arbiter reach `n` bytes at `va` of world `w` at their home die now (R309, R311, R317)? -/
def State.arbClear (s : State) (w va n : Nat) : Bool := s.rangeClear 0 w va n homeDie

/-- The line of a counter that does not verify (R401). -/
def State.counterBad (s : State) (w va kind : Nat) : Option Nat :=
  match s.walk 0 w va kind false with | .ok e => s.badLine e.wtag (e.phys va) 8 | .bad _ _ _ => none
/-- A counter's value, read for world `w` at the home die as a .fresh load reads it (R339); `none` where it cannot be read. -/
def State.counter (s : State) (w va : Nat) : Option (Nat × Word) :=
  match s.walk 0 w va 0 false with
  | .bad _ _ _ => none
  | .ok e =>
    let pa := e.phys va
    if (s.counterBad w va 0).isSome then none else some (pa, BitVec.ofNat 64 (leNat (s.viewRead (homeDie pa) w pa 8)))

/-- A completion increment or a CTRINC has changed the counter at `pa`: waiters it satisfies may wake, and launches that watch
it, or one they could not read, are to be evaluated anew (R339, R349). -/
def State.counterHit (s : State) (pa : Nat) : State :=
  let v := fun (w : Nat) => s.wordAt (homeDie pa) w pa
  let poke := fun (u : Wait) => match u with
    | .ctr a w t h => if a = pa then .ctr a w t (h || decide (t.ule (v w))) else u
    | _ => u
  let s1 := s.allCtxs.foldl (fun t (c, x, k) =>
    if k.waits.any fun u => match u with | .ctr a _ _ _ => decide (a = pa) | _ => false then
      t.modCtx c x fun y => { y with st := .wait (y.waits.map poke) } else t) s
  { s1 with pool := s1.pool.map fun (n, p) => (n, if p.watch.contains pa || p.unread then { p with elig := none } else p) }

/-- The counter at physical address `pa` increased at its home die (R349). -/
def State.counterAdd (s : State) (w pa : Nat) (v : Word) : State × (Nat × Nat) :=
  let d := homeDie pa
  let old := leNat (s.viewRead d w pa 8)
  let (s1, st) := s.writeView d w pa (leBytes 8 ((old + v.toNat) % 2 ^ 64))
  (s1.counterHit pa, st)

/-- A completion counter increased by 1 (R347, R392); the fault code where it cannot be. -/
def State.doneCtr (s : State) (w va : Nat) : Except Nat State :=
  match s.walk 0 w va 2 false with
  | .bad _ _ c => .error (causeFault c)
  | .ok e => if (s.counterBad w va 2).isSome then .error fWORLD else .ok (s.counterAdd w (e.phys va) 1).1
/-- The log of a counter that cannot be read because its line does not verify (R401). -/
def State.logCounter (s : State) (w va kind : Nat) : State :=
  match s.counterBad w va kind with | some l => s.logLine { world := some w } 4 l | none => s

-- ## The pool (R338, R342, R343)

def State.slotAt (s : State) (n : Nat) : PoolSlot := NMap.getD s.pool n {}
def State.modSlot (s : State) (n : Nat) (f : PoolSlot → PoolSlot) : State := { s with pool := NMap.set s.pool n (f (s.slotAt n)) }
def PoolSlot.taken (p : PoolSlot) : Bool := p.claim || p.reserved
/-- The lowest free slot of a depth. -/
def State.freeSlot (s : State) (depth : Nat) : Option Nat :=
  ((List.range 1024).find? fun i => !(s.slotAt (1024 * depth + i)).taken).map (1024 * depth + ·)
/-- A record becomes pending (R339: in the order in which CLAIM was set). -/
def State.pend (s : State) (n : Nat) (r : LaunchRec) (w : Nat) (gang : Option (Nat × Nat × Nat × Nat)) : State :=
  { s.modSlot n fun _ => { rec_ := r, claim := true, order := s.nextOrder, world := w, gang := gang } with nextOrder := s.nextOrder + 1 }

/-- The contexts that wait for a slot of a depth, first in line first (R343). -/
def State.line (s : State) (depth : Nat) : List (Nat × Nat × Nat) :=
  let ws := s.allCtxs.flatMap fun (c, x, k) => k.waits.filterMap fun w => match w with
    | .slot r _ _ t => if bits (lw r 8) 6 5 = depth then some (t, c, x) else none
    | _ => none
  ws.insertionSort fun a b => a.1 < b.1 ∨ (a.1 = b.1 ∧ (a.2.1 < b.2.1 ∨ (a.2.1 = b.2.1 ∧ a.2.2 ≤ b.2.2)))
/-- The slot that a launch instruction finds at once: none while others stand in line. -/
def State.slotNow (s : State) (depth : Nat) : Option Nat := if (s.line depth).isEmpty then s.freeSlot depth else none

-- ## Gangs (R344, R386 to R388)

/-- The number by which messages between packages name a gang: its slot on the issuing package, that package's node ID, and how many gangs
it had begun before (R387; log 23). -/
def State.gangNo (s : State) (slot : Nat) : Nat := slot + s.node * 2 ^ 12 + s.nextGang * 2 ^ 32
def State.gangOf (s : State) (no : Nat) : Option Gang := s.gangs.find? fun g => decide (g.no = no)
def State.modGang (s : State) (no : Nat) (f : Gang → Gang) : State :=
  { s with gangs := s.gangs.map fun g => if g.no = no then f g else g }

/-- GANG_INCOMPLETE's detail for a member's launch, where its gang is known incomplete (R388). -/
def State.ginc (s : State) (l : Nat) : Option (Nat × Nat) := (NMap.get? s.launches l).bind (·.ginc)

/-- The waiting context freezes with the bundle it waits in as its faulting bundle: a wait fault (R388). -/
def State.freezeWaiting (s : State) (c x code : Nat) (d0 d1 : Word) : State :=
  let k := s.ctx c x
  let w := fun i => k.wb.2.getD i 0
  let b := decodeBundle (w 0) (w 1) (w 2) (w 3)
  let codes := (List.range 4).map fun p => match b.word p with
    | some (.gbar _ _) => code
    | some (.wquiet _) => code
    | _ => 0
  let back := fun (u : Wait) => match u with | .gbar id _ n => .gbar id false n | .quiet j _ => .quiet j none | _ => u
  let s1 := s.modCtx c x fun y =>
    { y.snap (s.core c).ccyc with
      st := .frozen, fgen := y.fgen + 1, saved := y.waits.map back, resumePc := y.pc, pc := y.wb.1,
      frec := { codes := codes, waitFault := true, cyc := s.cyc, words := y.wb.2, d0 := d0, d1 := d1, rrbS := y.rrbS, rrbV := y.rrbV } }
  let s2 := s1.modCore c fun q => if q.run = some x then q.reschedule x else q
  { s2 with offers := s2.offers ++ [⟨c, x, code⟩] }

/-- What a gang's launches and pending slots know of its completeness (R388). -/
def State.setGinc (s : State) (mine : Option (Nat × Nat × Nat × Nat) → Bool) (d : Option (Nat × Nat)) : State :=
  let onL := fun (q : Nat × Launch) => if mine q.2.gang then (q.1, { q.2 with ginc := d }) else q
  let onP := fun (q : Nat × PoolSlot) => if mine q.2.gang then (q.1, { q.2 with ginc := d }) else q
  { s with launches := s.launches.map onL, pool := s.pool.map onP }

/-- Members left incomplete: those waiting in GBAR or WQUIET freeze now (R388). -/
def State.markIncomplete (s : State) (job index count no : Nat) : State :=
  let d := (index % 2 ^ 12 + count % 2 ^ 12 * 2 ^ 16, job % 2 ^ 16 + no % 2 ^ 12 * 2 ^ 16)
  let mine := fun (g : Option (Nat × Nat × Nat × Nat)) => match g with | some (j, _, _, q) => decide (j = job ∧ q = no) | none => false
  let s1 := s.setGinc mine (some d)
  s1.allCtxs.foldl (fun t (c, x, k) =>
    let g := (NMap.get? t.launches k.launch).bind (·.gang)
    if mine g && k.handler.isNone && !k.proc && (k.waits.any fun w => match w with | .gbar _ _ _ => true | .quiet _ _ => true | _ => false) then
      t.freezeWaiting c x fGANG (BitVec.ofNat 64 d.1) (BitVec.ofNat 64 d.2) else t) s1
/-- The gang is complete again (R388). -/
def State.clearIncomplete (s : State) (job no : Nat) : State :=
  let mine := fun (g : Option (Nat × Nat × Nat × Nat)) => match g with | some (j, _, _, q) => decide (j = job ∧ q = no) | none => false
  s.setGinc mine none

/-- GANG_INCOMPLETE_NOTICE (R388); a count of 0 says that the gang is complete again. -/
def execGangIncompleteNotice (job index count slot : Nat) (s : State) : Out3 :=
  .next (if count = 0 then s.clearIncomplete job slot else s.markIncomplete job index count slot)

/-- A gang's slot and arming begin on the issuing package (R387). -/
def State.gangBegin (s : State) (n : Nat) (r : LaunchRec) (w : Nat) (job : Nat) (nodes : List Nat) (self_ : Nat) (c x : Nat) (d : Option Nat) : State :=
  let g : Gang := { core := c, ctx := x, gen := (s.ctx c x).gen, dest := d, job := job, nodes := nodes, self_ := self_,
                    need := (List.range nodes.length).filter fun i => decide (i ≠ self_), since := s.cyc, slot := n, no := s.gangNo n }
  let s1 := s.modSlot n fun _ => { rec_ := r, reserved := true, world := w, gang := some (job, nodes.length - 1, self_, g.no) }
  { s1 with gangs := s1.gangs ++ [g], nextGang := s.nextGang + 1 }

/-- The gang's go: every arm is in (R387). The issuing package's own slot becomes pending. -/
def State.gangSendGo (s : State) (no : Nat) : State :=
  match s.gangOf no with
  | none => s
  | some g =>
    let s1 := s.modGang no fun g => { g with phase := 1, since := s.cyc, gone := [] }
    if g.rearm then s1
    else { s1.modSlot g.slot fun p => { p with claim := true, reserved := false, order := s.nextOrder } with nextOrder := s.nextOrder + 1 }
/-- The gang aborts: its slot is released and nothing is placed (R387). -/
def State.gangAbort (s : State) (no : Nat) : State :=
  match s.gangOf no with
  | none => s
  | some g =>
    let s1 := s.modGang no fun g => { g with phase := 4 }
    if g.rearm then s1 else { s1 with pool := NMap.erase s1.pool g.slot }
/-- Every go is acknowledged: the gang is whole (R387, R388). -/
def State.gangWhole (s : State) (no : Nat) : State :=
  match s.gangOf no with
  | none => s
  | some g => (s.modGang no fun g => { g with phase := 2 }).clearIncomplete g.job no

/-- GLAUNCH's status lands where the phase has ended, with the issuing context ready again (R344, R387). A gang that lists no
other package goes at once. -/
def State.settleGangs (s : State) : State :=
  s.gangs.foldl (fun t g0 =>
    let t1 := if decide (g0.phase = 0) && g0.need.isEmpty then (t.gangSendGo g0.no).gangWhole g0.no else t
    match t1.gangOf g0.no with
    | none => t1
    | some g =>
      if g.phase < 2 then t1
      else
        let waits := (t1.ctx g.core g.ctx).gen = g.gen ∧ ((t1.ctx g.core g.ctx).waits.any fun w => match w with | .gang n _ => decide (n = g.no) | _ => false) = true
        let v := BitVec.ofNat 64 ((if g.phase = 4 then 2 ^ 62 else 2 ^ 63) + g.slot)
        let t2 := if waits then
            (t1.landWait g.core g.ctx g.dest v).endWait g.core g.ctx fun w => match w with | .gang n _ => decide (n = g.no) | _ => false
          else t1
        if g.phase = 3 then t2
        else if g.phase = 4 ∧ g.rearm then t2.modGang g.no fun g => { g with phase := 3 }
        else { t2 with gangs := t2.gangs.filter fun h => decide (h.no ≠ g.no) }) s

/-- Does the package's table hold the job in world `w` (R386, R387)? -/
def State.holdsJob (s : State) (job w : Nat) : Bool := match s.jobEntry job with | some (_, e) => e.v && decide (e.wtag = w) | none => false

/-- GANG_ARM (R387): a listed package checks the record and the job, and reserves a slot as LAUNCH takes one: none while others wait. -/
def execGangArm (src wtag depth : Nat) (rec : BitVec 2048) (job npkg index : Nat) (s : State) : Out3 :=
  let r := words8 32 (leBytes 256 rec.toNat)
  let own := s.holdsJob job wtag
  match s.lrBad r wtag, s.slotNow (depth + 1) with
  | none, some n =>
    if own && decide (depth < 3) then
      .next (s.modSlot n fun _ => { rec_ := lrFor r (depth + 1), reserved := true, world := wtag, gang := some (job, npkg, index, src) })
    else .next s
  | _, _ => .next s

/-- GANG_GO (R387): the reserved slot's record becomes pending. -/
def execGangGo (src job : Nat) (s : State) : Out3 :=
  match s.pool.find? fun p => p.2.reserved && (match p.2.gang with | some (j, _, _, q) => decide (j = job ∧ q = src) | none => false) with
  | none => .next s
  | some (n, _) =>
    .next { s.modSlot n fun p => { p with claim := true, reserved := false, order := s.nextOrder } with nextOrder := s.nextOrder + 1 }

/-- GANG_ARM_ACK (R387). -/
def execGangArmAck (slot index : Nat) (ok : Bool) (s : State) : Out3 :=
  match s.gangOf slot with
  | none => .next s
  | some g =>
    if g.phase ≠ 0 ∨ ¬ index ∈ g.need then .next s
    else if ok then
      let armed := (g.armed ++ [index]).dedup
      let s1 := s.modGang slot fun g => { g with armed := armed }
      .next (if g.need.all fun i => armed.contains i then s1.gangSendGo slot else s1)
    else .next (s.gangAbort slot)

/-- The slot that a gang's arm has reserved here for another package. -/
def PoolSlot.armedFor (p : PoolSlot) (no : Nat) : Bool :=
  p.reserved && !p.claim && (match p.gang with | some (_, _, _, q) => decide (q = no) | none => false)

/-- GANG_ARM_TIMEOUT (R387): the gang aborts; on a package that has armed it for another, the slot it reserved is released. -/
def execGangArmTimeout (slot : Nat) (s : State) : Out3 :=
  match s.gangOf slot with
  | none => .next { s with pool := s.pool.filter fun q => !q.2.armedFor slot }
  | some g => .next (if g.phase = 0 ∧ g.since + 2 ^ 20 ≤ s.cyc then s.gangAbort slot else s)

/-- GANG_GO_ACK (R387). -/
def execGangGoAck (slot index : Nat) (s : State) : Out3 :=
  match s.gangOf slot with
  | none => .next s
  | some g =>
    if g.phase ≠ 1 ∨ ¬ index ∈ g.need then .next s
    else
      let gone := (g.gone ++ [index]).dedup
      let s1 := s.modGang slot fun g => { g with gone := gone }
      .next (if g.need.all fun i => gone.contains i then s1.gangWhole slot else s1)

/-- GANG_GO_TIMEOUT (R388): the status lands, and the packages that acknowledged, this one with them, are told. -/
def execGangGoTimeout (slot : Nat) (s : State) : Out3 :=
  match s.gangOf slot with
  | none => .next s
  | some g =>
    if g.phase = 1 ∧ g.since + 2 ^ 20 ≤ s.cyc then
      let miss := g.need.filter fun i => !g.gone.contains i
      let s1 := s.modGang slot fun g => { g with phase := 3, need := miss, armed := [], gone := [] }
      .next (s1.markIncomplete g.job (miss.foldl min (miss.headD 0)) miss.length slot)
    else .next s

-- ## LAUNCH, LAUNCHN, GLAUNCH (R343, R344)

/-- What reading its record leaves beside the record: the merges of the core's buffered updates are asked for, as at FENCE.rel (R317), and the
core has had its turn in class 1 of its die's path (R25). -/
def State.recordRead (s : State) : State := (s.askMerges s.iss.core fun _ => true).served (dieOf s.iss.core) 1 (s.iss.core + 1)
/-- The common part: depth, alignment, every earlier access performed at .pkg, the record read and checked. As at FENCE.rel, the
merges of the core's buffered updates are asked for (R317); the accesses of its own bundle follow the check point, and are not among the earlier ones (R48). The record
is read in class 1 of the die's path (R25). -/
def launchOp (i : Instr) (a : Code) (gang : Bool) (s : State) (k : LaunchRec → State → Out3) : Out3 :=
  sop i false false s fun s =>
    let va := (s.rdS a).toNat
    if s.cur.depth = 3 then s.raise fDEPTH (BitVec.ofNat 64 va) 0
    else if va % 256 ≠ 0 then s.raiseWalk 0 va 0 0 0 3
    else if !s.settledBy s.iss.core s.iss.ctx s.cur.gen 5 s.iss.acc then .next (s.modIss fun i => { i with held := true, rel := true })
    else s.heldUntil (s.pathTurn (dieOf s.iss.core) 1 (s.iss.core + 1)) fun s => s.freshRead va 256 fun bs s =>
      let r := words8 32 bs
      match s.lrBad r (s.worldOf s.iss.core s.iss.ctx) with
      | some (n, v) => if n = 12 then s.raiseWalk 0 va 0 0 0 2 else s.range n (BitVec.ofNat 64 v)
      | none =>
        if gang && decide (lrKind r ≠ 2) then s.range 0 (BitVec.ofNat 64 (lrKind r))
        else if gang && decide (lw r 0xE8 = 0) then s.range 0 0
        else k (lrFor r (s.cur.depth + 1)) s.recordRead

/-- The value a launch instruction lands: the slot that holds the record. -/
def slotWord (n : Nat) : Word := BitVec.ofNat 64 (2 ^ 63 + n)

/-- LAUNCH (R343): waits where no slot is free. -/
def execLaunch (g : Guard) (d a : Code) (s : State) : Out3 :=
  launchOp (.launch g d a) a false s fun r s =>
    match s.slotNow (s.cur.depth + 1) with
    | some n => .next ((s.pend n r (s.worldOf s.iss.core s.iss.ctx) none).putS 1 0 d (slotWord n))
    | none => .next (s.await (.slot r none (s.dstS d) s.cyc))

/-- LAUNCHN (R343): 0 where no slot is free. -/
def execLaunchn (g : Guard) (d a : Code) (s : State) : Out3 :=
  launchOp (.launchn g d a) a false s fun r s =>
    match s.slotNow (s.cur.depth + 1) with
    | some n => .next ((s.pend n r (s.worldOf s.iss.core s.iss.ctx) none).putS 1 0 d (slotWord n))
    | none => .next (s.putS 1 0 d 0)

/-- The first of a list's numbers that stands in it twice. -/
def firstTwice : List Nat → Option Nat
  | [] => none
  | n :: ns => if ns.contains n then some n else firstTwice ns
/-- A package list (R386): job, node IDs, and whether it re-arms; or the value that breaks its rules. -/
def pkgList (ws : List Word) (tiles csz node : Nat) : Except Nat (Nat × List Nat × Bool) :=
  let w0 := (ws.getD 0 0).toNat
  let p := bits w0 27 16 + 1
  let nodes := (List.range p).map fun i => (ws.getD (2 + i) 0).toNat
  if ws.getD 0 0 &&& 0xFFFFFFFEF0000000 ≠ 0 then .error (ws.getD 0 0 &&& 0xFFFFFFFEF0000000).toNat
  else if ws.getD 1 0 ≠ 0 then .error (ws.getD 1 0).toNat
  else match nodes.find? fun n => decide (2 ^ 20 ≤ n) with
    | some n => .error n
    | none =>
      match firstTwice nodes with
      | some n => .error n
      | none =>
      if ¬ node ∈ nodes then .error node
      else if tiles % (csz * p) ≠ 0 then .error tiles
      else .ok (bits w0 15 0, nodes, w0.testBit 32)

/-- The words of a package list at `va`, read page by page (R386), as the bundle in issue reads (R422). -/
def State.readList (s : State) (va : Nat) : Except (Nat × Nat × Nat × Nat) (List Word) :=
  let d := dieOf s.iss.core
  let w := s.worldOf s.iss.core s.iss.ctx
  let read := s.readAs (s.isMgmt s.iss.core s.iss.ctx) d w va
  match read 16 with
  | .error e => .error e
  | .ok h =>
    let p := bits (leNat (h.take 8)) 27 16 + 1
    match read (16 + 8 * p) with
    | .error e => .error e
    | .ok bs => .ok (words8 (2 + p) bs)

/-- The state without what the bundle in issue has itself buffered, which follows its check point (R48). -/
def State.beforeBundle (s : State) : State := s.modCurCore fun q => { q with amo := q.amo.filter fun b => decide (b.seq < s.iss.acc) }
/-- May the words of a package list be read now (R311, R317)? What the bundle itself has buffered follows the read (R48). -/
def State.listWordsClear (s : State) (va : Nat) : Bool :=
  let s := s.beforeBundle
  let d := dieOf s.iss.core
  let w := s.worldOf s.iss.core s.iss.ctx
  s.cores.all (fun q => q.2.amo.isEmpty) || (s.rangeClear d w va 16 (fun _ => d) && (match s.readAs (s.isMgmt s.iss.core s.iss.ctx) d w va 16 with
    | .error _ => true
    | .ok h => s.rangeClear d w va (16 + 8 * (bits (leNat (h.take 8)) 27 16 + 1)) fun _ => d))

/-- GLAUNCH (R343, R344, R386 to R388). DESIGN CHOICE (log 94): REARM = 1 takes the latest of several incomplete gangs of the job;
DESIGN CHOICE (log 109): where the job has none it raises LAYOUT_RANGE. -/
def execGlaunch (g : Guard) (d a : Code) (s : State) : Out3 :=
  launchOp (.glaunch g d a) a true s fun r s =>
    let va := lw r 0xE8
    let c := s.iss.core
    let x := s.iss.ctx
    if va % 8 ≠ 0 then s.range 0 (BitVec.ofNat 64 va)
    else s.heldUntil (s.listWordsClear va) fun s => match s.readList va with
      | .error (l, st, q, at_) => s.raiseWalk 0 at_ 0 l st q
      | .ok ws => match pkgList ws (lrTiles r) (lrCsz r) s.node with
        | .error v => s.range 0 (BitVec.ofNat 64 v)
        | .ok (job, nodes, rearm) =>
          if !s.holdsJob job (s.worldOf c x) then s.range 0 (BitVec.ofNat 64 job)
          else
          let self_ := nodes.findIdx fun n => decide (n = s.node)
          if rearm then
            match (s.gangs.filter fun q => decide (q.job = job ∧ q.phase = 3)).getLast? with
            | none => s.range 0 (BitVec.ofNat 64 job)
            | some q =>
              let s1 := s.modGang q.no fun q =>
                { q with core := c, ctx := x, gen := s.cur.gen, dest := s.dstS d, nodes := nodes, phase := 0, rearm := true,
                         since := s.cyc, armed := [], gone := [] }
              .next (s1.await (.gang q.no (s.dstS d)))
          else match s.slotNow (s.cur.depth + 1) with
            | some n =>
              .next ((s.gangBegin n r (s.worldOf c x) job nodes self_ c x (s.dstS d)).await (.gang (s.gangNo n) (s.dstS d)))
            | none => .next (s.await (.slot r (some (job, nodes, self_)) (s.dstS d) s.cyc))

/-- LAUNCH_WAIT_SLOT (R343): the first in line takes a freed slot. -/
def execLaunchWaitSlot (core ctx : Nat) (s : State) : Out3 :=
  match (s.ctx core ctx).waits.findSome? fun w => match w with | .slot r g d _ => some (r, g, d) | _ => none with
  | none => .next s
  | some (r, g, d) =>
    let depth := bits (lw r 8) 6 5
    match s.line depth, s.freeSlot depth with
    | (_, c, x) :: _, some n =>
      if c = core ∧ x = ctx then
        let isSlot := fun (w : Wait) => match w with | .slot _ _ _ _ => true | _ => false
        match g with
        | none => .next (((s.pend n r (s.worldOf core ctx) none).landWait core ctx d (slotWord n)).endWait core ctx isSlot)
        | some (job, nodes, self_) =>
          let s1 := s.gangBegin n r (s.worldOf core ctx) job nodes self_ core ctx d
          .next (s1.modCtx core ctx fun k => { k with st := .wait (k.waits.map fun w => if isSlot w then .gang (s.gangNo n) d else w) })
      else .next s
    | _, _ => .next s

-- ## Counters and barriers (R349 to R351)

/-- CTRINC (R349): as FENCE.rel.pkg, for which the merges of the core's buffered updates are asked for (R317); the add follows as an access of the context, whose
sectors leave the L1 (R309). -/
def execCtrinc (g : Guard) (a b : Code) (s : State) : Out3 :=
  sop (.ctrinc g a b) false false s fun s =>
    let va := (s.rdS a).toNat
    if va % 8 ≠ 0 then s.raiseWalk 0 va 2 0 0 3
    else s.translate va 2 0 fun e s =>
      let t := s.askMerges s.iss.core fun _ => true
      let n := t.curCore.nextAccess
      let x := s.iss.ctx
      let f : Access := { id := n, ctx := x, gen := s.cur.gen, launch := s.cur.launch, kind := 5, scope := 5 }
      let k : Access := { id := n + 1, ctx := x, gen := s.cur.gen, launch := s.cur.launch, kind := 4, pa := e.phys va, wtag := e.wtag,
                          len := 8, value := (s.rdS b).setWidth 4096, scope := 5, at_ := s.cyc }
      .next (((t.enter f false).enter k false).dropL1 s.iss.core k.pa 8)

/-- CTRWAIT (R349): waits for the counter at its home die. Where its own bundle accesses the counter first, the first read is made once that
access has performed (R48, R323). -/
def execCtrwait (g : Guard) (a b : Code) (s : State) : Out3 :=
  sop (.ctrwait g a b) false false s fun s =>
    let va := (s.rdS a).toNat
    if va % 8 ≠ 0 then s.raiseWalk 0 va 0 0 0 3
    else s.translate va 0 0 fun e s =>
      let pa := e.phys va
      let h := homeDie pa
      let own := fun (n : Nat) => s.ownClear s.iss.core s.iss.ctx s.cur.gen n pa 8 [h]
      s.heldUntil (own s.iss.acc && s.lineClear h pa 8 s.iss.core s.iss.acc s.cyc) fun s =>
        if own s.curCore.nextAccess then .next (s.await (.ctr pa e.wtag (s.rdS b) (decide ((s.rdS b).ule (s.wordAt h e.wtag pa)))))
        else .next (s.await (.ctrRead pa e.wtag (s.rdS b) s.curCore.nextAccess))

/-- The first read of a counter that follows the context's own accesses (R323, R349). -/
def State.firstRead (s : State) (c x : Nat) (w : Wait) : Wait :=
  match w with
  | .ctrRead pa tag v n =>
    let h := homeDie pa
    if s.ownClear c x (s.ctx c x).gen n pa 8 [h] && s.lineClear h pa 8 1024 0 (s.cyc + 1) then .ctr pa tag v (decide (v.ule (s.wordAt h tag pa)))
    else w
  | _ => w
/-- COUNTER_WAIT_WAKE (R349). -/
def execCounterWaitWake (core ctx : Nat) (s : State) : Out3 :=
  let read := fun (k : Ctx) => match k.st with | .wait ws => { k with st := .wait (ws.map (s.firstRead core ctx)) } | _ => k
  .next ((s.modCtx core ctx read).endWaitAcq core ctx fun w => match w with | .ctr _ _ _ h => h | _ => false)

/-- BAR (R350, R351). -/
def execBar (g : Guard) (n : Code) (s : State) : Out3 :=
  sop (.bar g n) false false s fun s => if s.cur.proc then s.perm 4 else .next (s.await (.bar n.toNat false s.iss.acc))

/-- GBAR (R350, R351, R388). -/
def execGbar (g : Guard) (n : Code) (s : State) : Out3 :=
  sop (.gbar g n) false false s fun s =>
    if s.cur.proc || s.cur.handler.isSome || decide (s.cur.lvl ≠ 2) then s.perm 4
    else match if s.multi s.cur.launch then s.ginc s.cur.launch else none with
      | some (d0, d1) => s.raise fGANG (BitVec.ofNat 64 d0) (BitVec.ofNat 64 d1)
      | none => .next (s.await (.gbar n.toNat false s.iss.acc))

-- ## Placement (R336, R339 to R341, R345)

/-- The DEP counters of a pending record evaluated: the values known to have reached their targets, the counters to watch, and whether
one could not be read, which is logged (R339). -/
def State.evaluate (s : State) (n : Nat) : State :=
  let p := s.slotAt n
  let deps := (lrDeps p.rec_).filter fun d => decide (d.1 ≠ 0)
  let rd := deps.map fun d => (d, s.counter p.world d.1)
  let ok := rd.all fun q => match q.2 with | some (_, v) => decide (q.1.2.ule v) | none => false
  let s1 := rd.foldl (fun t q => match q.2 with
    | none => (t.logCounter p.world q.1.1 0).logW 0x28 p.world (BitVec.ofNat 64 n) (BitVec.ofNat 64 q.1.1)
    | some _ => t) s
  s1.modSlot n fun p => { p with elig := some ok, watch := rd.filterMap fun q => q.2.map (·.1), unread := rd.any fun q => q.2.isNone }

/-- The free contexts of a core and its free registers, less what is taken already; context 7 aside where slots are reserved. -/
structure Room where
  ctxs : List Nat
  s : Nat
  v : Nat

/-- Is the core's world the record's, with work admitted (R340, R398)? -/
def State.runsWorld (s : State) (c w : Nat) : Bool := decide ((s.core c).world = w) && (decide (w = 0) || decide (s.wstate w = 2))

def State.room (s : State) (c : Nat) (procres : Bool) : Room :=
  let k := s.core c
  let free := (List.range 8).filter fun x => decide ((k.ctx x).st = .free) && !(procres && decide (x = 7))
  let take := procres && decide ((k.ctx 7).st = .free)
  ⟨free, k.freeS - (if take then 48 else 0), k.freeV - (if take then 16 else 0)⟩

/-- The places of a crew's members on a cluster, in member order, where the cluster holds them at once (R340). -/
def assign (ns nv : Nat) (pin : Bool) : Nat → Nat → List Room → Option (List (Nat × Nat))
  | 0, _, _ => some []
  | left + 1, m, rooms =>
    let fits := fun (r : Room) => !r.ctxs.isEmpty && decide (ns ≤ r.s) && decide (nv ≤ r.v)
    let core := if pin then (if fits (rooms.getD (m % 4) ⟨[], 0, 0⟩) then some (m % 4) else none)
      else (List.range 4).find? fun i => fits (rooms.getD i ⟨[], 0, 0⟩)
    match core with
    | none => none
    | some i =>
      let r := rooms.getD i ⟨[], 0, 0⟩
      (assign ns nv pin left (m + 1) (rooms.set i ⟨r.ctxs.tail, r.s - ns, r.v - nv⟩)).map fun l => (i, r.ctxs.headD 0) :: l

/-- Does the cluster admit a crew of the record, launch `l` (R340, R399)? The places of its members, as cores and contexts. -/
def State.crewPlaces (s : State) (r : LaunchRec) (l cl : Nat) : Option (List (Nat × Nat)) :=
  let cs := (List.range 4).map (4 * cl + ·)
  let w := lrWtag r
  let others := cs.any fun c => (s.core c).ctxs.any fun p => decide (p.2.st ≠ .free) && !p.2.proc && decide (p.2.launch ≠ l)
  let slots := cs.all fun c => let k := s.ctx c 7
    decide (k.st = .free) || (k.isSlot && decide (k.launch = l))
  if (if lrFuse r then !others && cs.all fun c => s.runsWorld c w else true) && (!lrProcres r || slots) then
    let rooms := cs.map fun c => if s.runsWorld c w then s.room c (lrProcres r) else ⟨[], 0, 0⟩
    (assign (lrNs r) (lrNv r) (lrPin r) (lrCsz r) 0 rooms).map fun ps => ps.map fun p => (4 * cl + p.1, p.2)
  else none

/-- The clusters of the dies that a record names. -/
def State.clustersFor (s : State) (r : LaunchRec) : List Nat :=
  ((List.range s.nDies).filter fun d => (lrDies r).testBit d).flatMap fun d => (List.range Config.clustersPerDie).map fun i => 64 * d + i

/-- The scratchpad images of a record copied into a core (R336); the fault code and address of the first read that fails, with
the copies made before it. -/
def State.copyImages (s : State) (c : Nat) (r : LaunchRec) : State × Option (Nat × Nat) :=
  let d := dieOf c
  let w := lrWtag r
  let n := bits (lw r 0x28) 4 0
  if lw r 0x20 = 0 ∨ n = 0 then (s, none)
  else match s.readPages d w (lw r 0x20) (16 * n) with
    | .error (l, _, q, a) => (s.logLine { world := some w } q l, some (causeFault q, a))
    | .ok tab =>
      (List.range n).foldl (fun (q : State × Option (Nat × Nat)) i =>
        match q.2 with
        | some _ => q
        | none =>
          let e := (tab.drop (16 * i)).take 16
          let src := bits (leNat (e.take 8)) 56 0
          let w1 := leNat (e.drop 8)
          match q.1.readPages d w src (bits w1 24 8) with
          | .error (l, _, k, a) => (q.1.logLine { world := some w } k l, some (causeFault k, a))
          | .ok bs => (q.1.localWrite 1 c (bits w1 3 0 * 2 ^ 16) bs, none)) (s, none)

/-- A tile task placed on a context (R341). -/
def State.placeTask (s : State) (l : Nat) (r : LaunchRec) (slot depth c x coord crew memb : Nat) (ttab : List Word) : State :=
  let args := (List.range (lrArgn r)).map fun i => r.getD (16 + i) 0
  let regs := setArgs (if lrTcr r = 63 then [] else NMap.set [] (lrTcr r) (BitVec.ofNat 64 coord)) (lrArgr r) args
  let new : Ctx :=
    { allocS := lrNs r, allocV := lrNv r, sreg := regs, pc := bits (lw r 0) 56 0, deferBase := bits (lw r 0x30) 19 0,
      deferC := lrDeferC r, save := if lrSaven r then some (bits (lw r 0x38) 19 0) else none, launch := l, slot := slot,
      world := lrWtag r, depth := depth, prio := lrPrio r, ceiling := lrPrio r, memb := memb, csz := lrCsz r,
      lvl := if lrKind r = 1 then 1 else if lrKind r = 2 then 2 else 0, crew := crew, ttab := ttab, cursor := if ttab.isEmpty then 256 else 1 }
  let s1 := (s.start c x new).modLaunch l fun v => v.placedOn c
  match s1.copyImages c r with
  | (s2, none) => s2
  | (s2, some (code, va)) =>
    (s2.retire c x true true).orphan l 4 code 0 c x (s2.ctx c x).gen.toNat va

/-- Context 7 of the cluster's cores reserved for the launch, and started at PROCENT (R102, R340). -/
def State.reserveSlots (s : State) (l : Nat) (r : LaunchRec) (slot depth cl : Nat) : State :=
  (List.range 4).foldl (fun t i =>
    let c := 4 * cl + i
    if (t.ctx c 7).isSlot then t
    else t.start c 7 (slotCtx (bits (lw r 0xD8) 56 4 * 16) 48 16 0 [] l slot (lrWtag r) depth)) s

/-- The tile coordinate of tile `k` (R335). -/
def lrCoord (r : LaunchRec) (k : Nat) : Nat := k % lrX r + k / lrX r % lrY r * 2 ^ 16 + k / (lrX r * lrY r) * 2 ^ 32

/-- One crew placed on a cluster, where one can hold it; the arbiter chooses which (R340). -/
def State.placeCrew (s : State) (l : Nat) (r : LaunchRec) (slot depth crew : Nat) : Option State :=
  match s.pickOf ((s.clustersFor r).filterMap fun cl => (s.crewPlaces r l cl).map fun ps => (cl, ps)) with
  | (none, _) => none
  | (some (cl, ps), s0) =>
    let s1 := if lrProcres r then s0.reserveSlots l r slot depth cl else s0
    some ((List.range ps.length).foldl (fun t m =>
      let p := ps.getD m (0, 0)
      let k := crew * lrCsz r + m
      (if lrFuse r then t.setFused cl (some l) else t).placeTask l r slot depth p.1 p.2 (lrCoord r k) crew m []) s1)

/-- Block `k` of a timetable and the context it is placed on, where its core can take it (R345, R399). Each task is a crew of one. -/
def State.placeBlock (s : State) (l : Nat) (r : LaunchRec) (slot depth k : Nat) : Option State :=
  match s.readPages 0 (lrWtag r) (lw r 0xD0 + 2048 * k) 2048 with
  | .error _ => none
  | .ok bs =>
    let ws := words8 256 bs
    let c := (ws.getD 0 0).toNat % 1024
    let room := s.room c (lrProcres r)
    let others := (List.range 4).any fun i =>
      (s.core (4 * clusterOf c + i)).ctxs.any fun p => decide (p.2.st ≠ .free) && !p.2.proc && decide (p.2.launch ≠ l)
    let fuseWorlds := (List.range 4).all fun i => s.runsWorld (4 * clusterOf c + i) (lrWtag r)
    let slots := (List.range 4).all fun i => let q := s.ctx (4 * clusterOf c + i) 7
      decide (q.st = .free) || (q.isSlot && decide (q.launch = l))
    if clusterNo c < Config.clustersPerDie ∧ dieOf c < s.nDies ∧ (lrDies r).testBit (dieOf c) = true ∧ s.runsWorld c (lrWtag r) = true ∧
        !room.ctxs.isEmpty = true ∧ lrNs r ≤ room.s ∧ lrNv r ≤ room.v ∧ !(lrFuse r && (others || !fuseWorlds)) = true ∧ (!lrProcres r || slots) = true then
      let s1 := if lrProcres r then s.reserveSlots l r slot depth (clusterOf c) else s
      let s2 := if lrFuse r then s1.setFused (clusterOf c) (some l) else s1
      some (s2.placeTask l r slot depth c (room.ctxs.headD 0) k k 0 ws)
    else none

/-- What the arbiter places of a launch in one step: a task, a crew, or the whole gang (R339). -/
def State.placeNext (s : State) (l : Nat) (v : Launch) : Option State :=
  let r := v.rec_
  if lrKind r = 3 then (s.placeBlock l r v.slot v.depth v.placed).map fun t => t.modLaunch l fun q => { q with placed := q.placed + 1 }
  else if lrKind r = 2 then
    ((List.range (v.tiles / lrCsz r)).foldlM (fun (t : State) i => t.placeCrew l r v.slot v.depth (v.first / lrCsz r + i)) s).map fun t =>
      t.modLaunch l fun q => { q with placed := q.tiles }
  else (s.placeCrew l r v.slot v.depth ((v.first + v.placed) / lrCsz r)).map fun t =>
    t.modLaunch l fun q => { q with placed := q.placed + lrCsz r }

/-- The launch of a pending slot, entered at its first placement (R347). -/
def State.launchOf (s : State) (n : Nat) : State × Nat :=
  let p := s.slotAt n
  match p.launch with
  | some l => (s, l)
  | none =>
    let l := s.nextLaunch
    let all := lrTiles p.rec_
    let (first, tiles) := match p.gang with | some (_, np, i, _) => (i * (all / (np + 1)), all / (np + 1)) | none => (0, all)
    let v : Launch := { rec_ := p.rec_, slot := n, depth := n / 1024, world := p.world, first := first, tiles := tiles, gang := p.gang, ginc := p.ginc }
    ({ s.modSlot n fun p => { p with launch := some l } with launches := NMap.set s.launches l v, nextLaunch := l + 1 }, l)

/-- May the arbiter read what slot `n`'s next placement takes from memory, and write its block's STATE, now (R311, R317): the timetable's
next block, the table of images and the images, at every die that the record names? -/
def State.placeClear (s : State) (n : Nat) : Bool :=
  let p := s.slotAt n
  let r := p.rec_
  let w := lrWtag r
  let m := bits (lw r 0x28) 4 0
  let k := (p.launch.bind fun l => NMap.get? s.launches l).map (·.placed)
  s.cores.all (fun q => q.2.amo.isEmpty) ||
  ((k.isSome || s.arbClear p.world (lw r 0xC0) 8) && (decide (lrKind r ≠ 3) || s.rangeClear 0 w (lw r 0xD0 + 2048 * k.getD 0) 2048 fun _ => 0) &&
   (decide (lw r 0x20 = 0) || decide (m = 0) || (List.range s.nDies).all fun d => s.rangeClear d w (lw r 0x20) (16 * m) (fun _ => d) &&
     (match s.readPages d w (lw r 0x20) (16 * m) with
      | .error _ => true
      | .ok tab => (List.range m).all fun i =>
        let e := words8 2 ((tab.drop (16 * i)).take 16)
        s.rangeClear d w (bits (e.getD 0 0).toNat 56 0) (bits (e.getD 1 0).toNat 24 8) fun _ => d)))

/-- The next placement of a pending slot, made in a copy of the state: none where no cluster can hold it now. -/
def State.tryPlace (s : State) (n : Nat) : Option State :=
  let (s1, l) := s.launchOf n
  match NMap.get? s1.launches l with
  | none => none
  | some v => s1.placeNext l v

/-- Slots that stand before slot `n`, eligible or still to be evaluated: of higher priority, or of the same and claimed earlier (R28,
R339). -/
def State.ahead (s : State) (n : Nat) : List Nat :=
  let p := s.slotAt n
  (s.pool.filter fun q => q.2.claim && decide (q.2.elig ≠ some false) &&
    (decide (lrPrio p.rec_ < lrPrio q.2.rec_) || (decide (lrPrio p.rec_ = lrPrio q.2.rec_) && decide (q.2.order < p.order)))).map (·.1)

/-- LAUNCH_PLACEMENT (R339): a pending launch is evaluated, and an eligible one placed where no launch ahead of it can be; the
slot frees with its last tile (R338), and the block's STATE becomes 1 with the first (R348). DESIGN CHOICE (log 98): an eligible launch that
fits on no cluster now holds up no later one that does (R28, R339). -/
def execLaunchPlacement (slot : Nat) (s : State) : Out3 :=
  let p := s.slotAt slot
  if !p.claim then .next s
  else match p.elig with
    | none => .next (if (lrDeps p.rec_).all fun d => decide (d.1 = 0) || s.arbClear p.world d.1 8 then s.evaluate slot else s)
    | some false => .next s
    | some true =>
      if !s.placeClear slot || (s.ahead slot).any fun m => (s.slotAt m).elig.isNone || (s.tryPlace m).isSome then .next s
      else match s.tryPlace slot with
        | none => .next s
        | some s1 =>
          let l := (s1.slotAt slot).launch.getD 0
          let v := NMap.getD s1.launches l { rec_ := [], slot := 0, depth := 0, world := 0 }
          let s2 := if p.launch.isNone then
              (match s1.arbWrite p.world (lw p.rec_ 0xC0) (leBytes 8 1) with | .ok (t, _) => t | .error _ => s1)
            else s1
          .next (if v.tiles ≤ v.placed then { s2 with pool := NMap.erase s2.pool slot } else s2)

-- ## The completion tree (R347, R348)

/-- COMPLETION_TREE_REPORT (R347): level 0 a core to its cluster, 1 a cluster to its die, 2 a die to the arbiter. -/
def execCompletionTreeReport (launch level node : Nat) (s : State) : Out3 :=
  match NMap.get? s.launches launch with
  | none => .next s
  | some l =>
    if level = 0 ∧ NMap.getD l.coreCnt node 1 = 0 then
      let n := NMap.getD l.coreDone node 0
      let cl := clusterOf node
      .next (s.modLaunch launch fun l =>
        { l with coreCnt := NMap.erase l.coreCnt node, coreDone := NMap.erase l.coreDone node,
                 clCnt := NMap.set l.clCnt cl (NMap.getD l.clCnt cl 0 - n), clDone := NMap.set l.clDone cl (NMap.getD l.clDone cl 0 + n) })
    else if level = 1 ∧ NMap.getD l.clCnt node 1 = 0 then
      let n := NMap.getD l.clDone node 0
      let d := node / 64
      .next (s.modLaunch launch fun l =>
        { l with clCnt := NMap.erase l.clCnt node, clDone := NMap.erase l.clDone node,
                 dieCnt := NMap.set l.dieCnt d (NMap.getD l.dieCnt d 0 - n) })
    else if level = 2 ∧ NMap.getD l.dieCnt node 1 = 0 then
      .next (s.modLaunch launch fun l => { l with dieCnt := NMap.erase l.dieCnt node })
    else .next s

/-- The completion block (R348). -/
def Launch.block (l : Launch) (cyc : Nat) : List Byte :=
  leBytes 8 2 ++ leBytes 8 l.nPlaced ++ leBytes 8 l.nRetired ++ leBytes 8 l.nKilled ++ leBytes 8 cyc ++ leBytes 8 l.ocause.toNat ++
    leBytes 8 l.on_ ++ List.replicate 72 0 ++
    ((List.range 8).map fun i => let e := l.orphans.getD i (0, 0); leBytes 8 e.1.toNat ++ leBytes 8 e.2.toNat).flatten

/-- Have the launch's accesses and copies performed at .pkg, and its window writes been acknowledged (R347)? -/
def State.quietLaunch (s : State) (l : Nat) : Bool :=
  (s.cores.all fun (_, k) =>
    (k.access.all fun a => decide (a.launch ≠ l) || (s.performed a 5 && (!isWindow a.pa || !a.unacked))) &&
    k.amo.all fun b => decide (b.launch ≠ l)) &&
  (s.clusters.all fun (_, cl) => cl.ch.all fun (_, ch) =>
    ((ch.queue ++ ch.run.toList ++ ch.parked).all fun t => t.marker.isSome || decide (t.launch ≠ l)) &&
    ch.timed.all fun t => decide (t.launch ≠ l))

/-- LAUNCH_COMPLETE (R347, R348): the completion block is written with release at .pkg, and then DONECTR is increased and the
launch's reservation ends (R362). A gang left incomplete stays to be re-armed (R388). -/
def execLaunchComplete (launch : Nat) (s : State) : Out3 :=
  match NMap.get? s.launches launch with
  | none => .next s
  | some l =>
    let cblk := lw l.rec_ 0xC0
    let ctr := lw l.rec_ 0xC8
    let fail := fun (t : State) (a code : Nat) => t.logW 0x27 l.world (BitVec.ofNat 64 a) (BitVec.ofNat 64 code)
    if !l.complete then
      if decide (l.placed < l.tiles) || !l.coreCnt.isEmpty || !l.clCnt.isEmpty || !l.dieCnt.isEmpty || !s.quietLaunch launch ||
          !s.arbClear l.world cblk 256 then .next s
      else match s.arbWrite l.world cblk (l.block s.cyc) with
        | .ok (s1, st) => .next (s1.modLaunch launch fun l => { l with complete := true, cstamp := st })
        | .error code => .next ((fail s cblk code).modLaunch launch fun l => { l with complete := true })
    else if !(match l.cstamp with | none => true | some st => s.appliedAll st) || (decide (ctr ≠ 0) && !s.arbClear l.world ctr 8) then .next s
    else
      let s1 := if ctr = 0 then s else match s.doneCtr l.world ctr with | .ok t => t | .error code => fail (s.logCounter l.world ctr 2) ctr code
      let s2 := s1.endReservation launch
      .next { s2 with launches := NMap.erase s2.launches launch }

/-- A rejected record (R337): its block is written with STATE 3 and the rule's number, and the slot frees. -/
def State.rejectRec (s : State) (n : Nat) (r : LaunchRec) (w rule : Nat) : State :=
  let s1 := { s with pool := NMap.erase s.pool n }
  match s1.arbWrite w (lw r 0xC0) (leBytes 8 (3 + rule * 2 ^ 8) ++ List.replicate 248 0) with
  | .ok (t, _) => t
  | .error code => s1.logW 0x27 w (r.getD 24 0) (BitVec.ofNat 64 code)

end Sys2Proof.Machine
end

