-- ==== Sys2Proof/Machine/Trust.lean ====
section
/-! DEFINITION. Worlds, the Registrar, SPDM and TDISP, teardown and resets (R397 to R420, R426). -/

namespace Sys2Proof.Machine

-- ## Registrar requests (R414)

/-- A trust instruction's bundle is held until the Registrar has answered (R414). -/
def State.ask (s : State) (least : Nat) (k : State → Out3) : Out3 :=
  match s.asks.find? fun a => decide (a.core = s.iss.core) with
  | none => .next { s.holdIssue with asks := s.asks ++ [⟨s.iss.core, false, s.cyc, least⟩] }
  | some a => if a.answered then k { s with asks := s.asks.filter fun b => decide (b.core ≠ s.iss.core) } else .next s.holdIssue

/-- REGISTRAR_ANSWER (R414, R419). -/
def execRegistrarAnswer (core : Nat) (s : State) : Out3 :=
  .next { s with asks := s.asks.map fun a => if a.core = core ∧ a.since + a.least ≤ s.cyc then { a with answered := true } else a }

def State.newNonce (s : State) : State := { s with nonce := Config.random s.draws, draws := s.draws + 1 }

/-- A fuse word (R417): the debug nonce in words 12 to 15, the variant in word 3 as CAPS gives it. -/
def State.fuseWord (s : State) (k : Nat) : Word :=
  if k = 2 then BitVec.ofNat 64 Config.lcs
  else if k = 3 then
    BitVec.ofNat 64 (bits (Config.fuse 3).toNat 15 0 + (if s.nDies = 2 then 3 else if s.hasRes then 1 else 2) * 2 ^ 16)
  else if 12 ≤ k then s.nonce.extractLsb' (64 * (k - 12)) 64
  else Config.fuse k

/-- An extension of a measurement block (R405). -/
def extendMb (mb : BitVec 256) (t : Nat) (x : List Byte) : BitVec 256 :=
  BitVec.ofNat 256 (leNat (sha256 (leBytes 32 mb.toNat ++ leBytes 2 t ++ x)))

-- ## Worlds (R397, R403, R404)

def State.world (s : State) (w : Nat) : World := NMap.getD s.worlds w {}
def State.modWorld (s : State) (w : Nat) (f : World → World) : State := { s with worlds := NMap.set s.worlds w (f (s.world w)) }
/-- A core taken for world `w` (R404). A loaded world runs nothing before a launch of it: a world-0 task that is on the core stands still
while the core is that world's (DESIGN CHOICE, log 46). -/
def Core.taken (w : Nat) (k : Core) : Core :=
  let still := fun (q : Nat × Ctx) => (q.1, match q.2.st with
    | .free => q.2
    | .ready => { q.2 with st := .wait [.foreign] }
    | .wait ws => { q.2 with st := .wait (ws ++ [.foreign]) }
    | .frozen => { q.2 with saved := q.2.saved ++ [.foreign] })
  { k with world := w, run := none, ctxs := k.ctxs.map still }
/-- A core that leaves world `w` for world 0; what stands still on it goes on (R404; log 46). -/
def Core.leave (w : Nat) (k : Core) : Core :=
  let go := fun (q : Nat × Ctx) => (q.1, { q.2.endWaits (fun u => decide (u = .foreign)) with saved := q.2.saved.filter fun u => decide (u ≠ .foreign) })
  if k.world = w then { k with world := 0, ctxs := k.ctxs.map go } else k
def State.freeCores (s : State) (w : Nat) : State :=
  let f := fun (q : Nat × Core) => (q.1, q.2.leave w)
  { s with cores := s.cores.map f }
def State.coresOf (s : State) (w : Nat) : List Nat := (s.cores.filter fun k => decide (k.2.world = w)).map (·.1)
/-- Does world `w` exist: loading, running or tearing down? -/
def State.worldExists (s : State) (w : Nat) : Bool := (s.world w).loaded || (s.world w).closing || (decide (w ≠ 0) && !(s.coresOf w).isEmpty)

/-- The core pairs a bitmap names. -/
def pairsIn (bm : List Byte) : List Nat := (List.range 512).filter fun p => (leNat bm).testBit p

/-- A descriptor's fields (R403). -/
def dscW (d : List Byte) (o : Nat) : Nat := leNat ((d.drop o).take 8)

/-- STATUS of a WLOAD (R403, R415). -/
def State.wstatus (s : State) (die va code : Nat) : State :=
  match s.walk die 0 (va + 0xF8) 1 false with
  | .bad _ _ _ => s
  | .ok e => s.writeOnly die 0 (e.phys (va + 0xF8)) (leBytes 8 (2 ^ 63 + code))

/-- Steps 1 and 2 of R404: the code of the failed check, or the cores of the world. -/
def State.wloadCheck (s : State) (die w : Nat) (d : List Byte) : Except Nat (List Nat) :=
  if Config.lcs = 1 then .error 6
  else if s.worldExists w then .error 1
  else match s.readPages die 0 (dscW d 0x08) 64 with
    | .error _ => .error 2
    | .ok bm =>
      let cores := (pairsIn bm).flatMap fun p => [2 * p, 2 * p + 1]
      if cores.any fun c => decide (s.nDies ≤ dieOf c) || decide (Config.clustersPerDie ≤ clusterNo c) || decide ((s.core c).world ≠ 0) then .error 2
      else if (s.world w).imageKey.isNone then .error 3
      else .ok cores

/-- Is the 64-byte header of a linked image valid (R97)? Instruction level 1 is the one there is (R80; log 37). DESIGN CHOICE (log 37): a seat
value with a field 0b00 is no fault of the header, and a variant byte 1 to 3 that names another part than this one is none either;
the symbol, relocation and string tables, but for the relocation count, are not examined. -/
def gofHeader (b : List Byte) : Bool :=
  let f := fun (o n : Nat) => leNat ((b.drop o).take n)
  decide (64 ≤ b.length) && decide (f 0 4 = 0x00464F47) && decide (f 4 2 = 1) && decide (f 6 1 = 1) && decide (f 7 1 = 1) &&
    decide (f 8 1 < 64) && decide (f 9 1 ≤ 3) && decide (f 0x18 4 = 0) && decide (f 0x28 24 = 0)

/-- The .text and .rodata sections of a linked GOF image, or none where its header is not valid (R97, R404). DESIGN CHOICE (log 37): a
section table, or a section other than .bss, that runs past the image's end is not valid either; a section whose type is above 5 is passed over,
and an entry's zero bytes are not examined. -/
def gofSections (b : List Byte) : Option (List (List Byte)) :=
  let f := fun (o n : Nat) => leNat ((b.drop o).take n)
  if !gofHeader b then none
  else
    let tab := f 0x0C 4
    let one := fun (i : Nat) =>
      let e := tab + 32 * i
      (f (e + 4) 1, f (e + 16) 8, f (e + 8) 8)
    let es := (List.range (f 0x0A 2)).map one
    if b.length < tab + 32 * f 0x0A 2 ∨ (es.any fun e => decide (b.length < e.2.1 + e.2.2) && decide (e.1 ≠ 3)) = true then none
    else some ((es.filter fun e => decide (e.1 ≤ 1)).map fun e => (b.drop e.2.1).take e.2.2)

/-- Sections laid one after the other, each aligned to 16 bytes. -/
def layOut (ss : List (List Byte)) : List Byte := ss.foldl (fun a x => a ++ List.replicate ((16 - a.length % 16) % 16) 0 ++ x) []

/-- Entries of a host-level table of level `l` (R310). -/
def hostCount (l : Nat) : Nat := if l = 0 then 64 else if l = 1 then 2048 else if l = 3 then 512 else 32
/-- The addresses of the entries of a host-level table and of the tables below it (R310). -/
def hostEntries (rd : Nat → Nat) : List Nat → Nat → List Nat
  | [], _ => []
  | l :: ls, t => (List.range (hostCount l)).flatMap fun i =>
      let e := rd (t + 8 * i)
      (t + 8 * i) :: (if pteBad l e || pteLeaf e then [] else hostEntries rd ls (pteAddr e))
/-- The leaf entries of a host-level table, with their addresses and levels (R310). -/
def hostLeaves (rd : Nat → Nat) : List Nat → Nat → List (Nat × Nat × Nat)
  | [], _ => []
  | l :: ls, t =>
    (List.range (hostCount l)).flatMap fun i =>
      let e := rd (t + 8 * i)
      if pteBad l e then [] else if pteLeaf e then [(t + 8 * i, e, l)] else hostLeaves rd ls (pteAddr e)

/-- The Registrar's writes, each at its home die, with the places they take in the dies' orders (R323, R404). -/
def State.writeAll (s : State) (w : Nat) (ws : List (Nat × List Byte)) : State × List (Nat × Nat) :=
  ws.foldl (fun (t : State × List (Nat × Nat)) q =>
    let (u, p) := t.1.writeView (homeDie q.1) w q.1 q.2
    (u, t.2 ++ [p])) (s, [])

/-- The region's host-level leaves take R = 1, X = 1 and W = 0 (R402). -/
def State.regionLeaves (s : State) (r : World) : List (Nat × List Byte) :=
  let rd := fun a => leNat (s.viewRead (homeDie a) 0 a 8)
  ((hostLeaves rd levels r.hroot).filter fun q =>
    decide (pteAddr q.2.1 < r.ireg + r.ilen) && decide (r.ireg < pteAddr q.2.1 + 2 ^ lvlShift q.2.2)).map fun q =>
    (q.1, leBytes 8 (q.2.1 / 32 * 32 + 20 + q.2.1 % 4))

/-- The region written, each of its lines sealed under KI(w) as it stands then (R402, R404): 2 MiB at a time, each at its home die. -/
def State.writeRegion (s : State) (w base : Nat) (body : List Byte) : State × List (Nat × Nat) :=
  let parts := (blocks (2 ^ 21) base body.length).map fun b => (b * 2 ^ 21, (body.drop (b * 2 ^ 21 - base)).take (2 ^ 21))
  let (t, ps) := s.writeAll w parts
  ((blocks 128 base body.length).foldl (fun u l => u.sealLine w l (Memory.readN (u.die (homeDie (128 * l))).view (128 * l) 128)) t, ps)

/-- May the region's lines be written, and its host-level entries read and written, at their L2s now, with no buffered update of theirs still to
merge (R317)? -/
def State.regionClear (s : State) (base len hroot : Nat) : Bool :=
  let rd := fun a => leNat (s.viewRead (homeDie a) 0 a 8)
  let at_ := fun (a n : Nat) => s.lineClear (homeDie a) a n 1024 0 (s.cyc + 1)
  s.cores.all (fun q => q.2.amo.isEmpty) ||
  (((blocks (2 ^ 21) base len).all fun b => at_ (b * 2 ^ 21) (min (2 ^ 21) (base + len - b * 2 ^ 21))) &&
    (hostEntries rd levels hroot).all fun a => at_ a 8)

/-- Steps 3 to 5 of R404: the request that follows, for step 6, the same again where a line must wait, or none where STATUS has been written. -/
def State.wloadOpen (s : State) (die w : Nat) (va : Nat) (d : List Byte) : State × Option RegReq :=
  let n := dscW d 0x18
  let fail := fun (code : Nat) => ((s.freeCores w).wstatus die va code, none)
  match s.readPages die 0 (dscW d 0x10) n, s.readPages die 0 (dscW d 0x08) 64, (s.world w).imageKey with
  | .ok img, .ok bm, some key =>
    let text := (img.drop 16).take (n - 32)
    match gcmOpen key (BitVec.ofNat 96 (beNat (img.take 12))) text (BitVec.ofNat 128 (beNat (img.drop (n - 16)))) with
    | none => fail 4
    | some plain =>
      match gofSections plain with
      | none => fail 4
      | some ss =>
        let body := layOut ss
        let base := dscW d 0x20
        if s.hbmSize < base + body.length then fail 5
        else if !s.regionClear base body.length (dscW d 0x30) then (s, some (.opening die va w d))
        else
          let mb := extendMb (extendMb 0 1 (sha256 plain)) 2 (sha256 (bm ++ d.take 0x38))
          let s1 := { s with draws := s.draws + 2 }.modWorld w fun r =>
            { r with troot := dscW d 0x28, hroot := dscW d 0x30, ireg := base, ilen := body.length, mb := mb,
                     ki := Config.random s.draws, kd := Config.random (s.draws + 1) }
          let (s2, p2) := s1.writeRegion w base body
          let (s3, p3) := s2.writeAll 0 (s2.regionLeaves (s2.world w))
          (s3, some (.loaded die va w (p2 ++ p3)))
  | _, _, _ => fail 4

/-- May the Registrar reach a WLOAD's bitmap, image and STATUS now (R311, R317)? -/
def State.loadClear (s : State) (die va : Nat) (d : List Byte) : Bool :=
  let at_ := fun (a n : Nat) => s.rangeClear die 0 a n fun _ => die
  at_ (dscW d 0x08) 64 && at_ (dscW d 0x10) (dscW d 0x18) && at_ (va + 0xF8) 8
/-- WLOAD_SERVICE (R404): the WLOAD at the head of the Registrar's queue: once to check it and take its cores, at a bundle boundary of each,
once to open its image, and once to write STATUS, a .pkg release, when every view has the region (R415). -/
def execWloadService (s : State) : Out3 :=
  if (match s.regq with
    | .wload die va _ d _ :: _ => !s.loadClear die va d
    | .opening die va _ d :: _ => !s.loadClear die va d
    | .loaded die va _ _ :: _ => !s.rangeClear die 0 (va + 0xF8) 8 fun _ => die
    | _ => false) then .next s
  else match s.regq with
  | .wload die va w d late :: rest =>
    let t := { s with regq := rest }
    (match if late then .error 1 else s.wloadCheck die w d with
      | .error code => .next (t.wstatus die va code)
      | .ok cores =>
        .next (if cores.any fun c => (s.core c).first.isSome then s
               else { cores.foldl (fun t c => t.modCore c (Core.taken w)) t with regq := .opening die va w d :: rest }))
  | .opening die va w d :: rest =>
    let (t, q) := { s with regq := rest }.wloadOpen die w va d
    .next { t with regq := q.toList ++ rest }
  | .loaded die va w ps :: rest =>
    if ps.all s.appliedAll then
      .next (({ s with regq := rest }.modWorld w fun r => { r with loaded := true }).wstatus die va 0)
    else .next s
  | _ => .next s

-- ## Teardown (R410)

def State.tdi (s : State) (w : Nat) : Tdi := NMap.getD s.tdis w .unlocked
def State.setTdi (s : State) (w : Nat) (t : Tdi) : State := { s with tdis := NMap.set s.tdis w t }

/-- Step 1: WSTATE becomes 3, and pending launches of the world are freed without a completion write. -/
def State.closeWorld (s : State) (w : Nat) : State :=
  let s1 := s.modWorld w fun r => { r with closing := true }
  { s1 with pool := s1.pool.filter fun p => !(p.2.taken && decide (p.2.world = w)) }

/-- The retirement of a context as FRKILL has it, without a completion write; a live pass over it is revoked (R410). -/
def State.haltCtx (s : State) (c x : Nat) : State :=
  if (s.ctx c x).st = .free then s
  else
    let t := s.allCtxs.foldl (fun u (e, y, k) => match k.pass with
      | some q => if q.core = c ∧ q.ctx = x ∧ q.live then u.modCtx e y fun k => { k with pass := some { q with live := false } } else u
      | none => u) s
    (t.revoke c x).retire c x true false

/-- Step 2: every context on the world's cores, and every supervisor slot of the world. -/
def State.haltWorld (s : State) (w : Nat) : State :=
  let t := s.allCtxs.foldl (fun u (c, x, _) => if u.worldOf c x = w then u.haltCtx c x else u)
    { s with launches := s.launches.filter fun l => decide (l.2.world ≠ w) }
  t.modWorld w fun r => { r with halted := true }

/-- Has the world copies that started before step 2 and have still to finish (R246, R410)? -/
def State.copiesOut (s : State) (w : Nat) : Bool :=
  s.clusters.any fun q => q.2.ch.any fun h => match h.2.run with | some t => decide (t.world = w) | none => false

/-- Step 3, of one core: the contexts keep their generations and their clocks. -/
def State.wipeCore (s : State) (c : Nat) : State :=
  let k := s.core c
  let empty := fun (y : Ctx) => ({ gen := y.gen, fgen := y.fgen, clk := y.clk } : Ctx)
  s.setCore c { ctxs := k.ctxs.map fun p => (p.1, empty p.2), ccyc := k.ccyc, seat := k.seat, world := k.world }

def State.endSession (s : State) (n : Nat) : State :=
  let x := NMap.getD s.sessions n {}
  let s1 := { s with sessions := NMap.erase s.sessions n }
  if x.world = 0 ∨ (NMap.get? s.worlds x.world).isNone then s1 else s1.modWorld x.world fun r => { r with imageKey := none }

/-- A line of a world that has lost its keys: what HBM holds of it stays (R410). -/
def State.lockLine (s : State) (l : Nat) : State :=
  let bs := Memory.readN s.hbm (128 * l) 128
  { s with dies := s.dies.map fun (d, k) => (d, { k with view := Memory.writeN k.view (128 * l) bs }),
           sealed := NMap.erase s.sealed l, badTag := (blocks 16 (128 * l) 128).foldl NMap.erase s.badTag }

/-- Writes of a world still on their way are gone with it. Of those that other dies have still to apply, and of its `.last` marks, the places
in the dies' orders stand, but they bring nothing; no mark of the world's lines is left (R410). -/
def Core.dropStores (w : Nat) (k : Core) : Core :=
  { k with access := k.access.filter fun a => decide (a.wtag ≠ w), amo := k.amo.filter fun b => decide (b.wtag ≠ w) }
def State.dropStores (s : State) (w : Nat) : State :=
  let f := fun (q : Nat × Core) => (q.1, q.2.dropStores w)
  let mine := fun (a : Nat) => decide (s.sealer (a / 128) = w)
  let inq := fun (k : Die) => k.inq.map fun v => if mine v.pa then { v with data := [], mark := false, gone := [] } else v
  let g := fun (q : Nat × Die) => (q.1, { q.2 with inq := inq q.2, marks := q.2.marks.filter fun m => !mine (16 * m.1) })
  { s with cores := s.cores.map f, dies := s.dies.map g }

/-- The tables' entries of world `w` cleared, with the gangs of its jobs, and its jobs noted: their packets are refused from now on (R410,
R411). -/
def State.clearTables (s : State) (w : Nat) : State :=
  { s with windows := s.windows.filter fun v => decide (s.jobWorld v.2.job ≠ w)
           jobs := s.jobs.filter fun j => decide (j.2.wtag ≠ w)
           gangs := s.gangs.filter fun g => decide (s.jobWorld g.job ≠ w)
           cleared := s.cleared.filter fun q => decide (bits q.2 21 16 ≠ w)
           goneJobs := (s.goneJobs ++ (s.jobs.filter fun j => decide (j.2.wtag = w)).map fun j => j.2.job).dedup }

/-- An array as the Registrar leaves it: every register, store and table of it zero, table 0 of the group with them; its clock goes on. -/
def Arr.zeroed (a : Arr) : Arr := { clk := a.clk, tables := [(0, 0)], chk := 0 }
/-- Steps 3 to 6 (R410). -/
def State.wipeWorld (s : State) (w : Nat) : State :=
  let cs := s.coresOf w
  let s1 := cs.foldl (fun t c => t.wipeCore c) s
  let s2 := (s1.allCtxs.filter fun q => decide (s1.worldOf q.1 q.2.1 = w) && isSupervisor q.1).foldl
    (fun t (c, x, k) => t.modCtx c x fun _ => { gen := k.gen, fgen := k.fgen, clk := k.clk }) s1
  let s3 := (cs.map pairOf).dedup.foldl (fun t p => { t with arrs := NMap.set t.arrs p (t.arr p).zeroed }) s2
  let s4 := s3.dropStores w
  let s5 := ((s4.sealed.filter fun l => decide (l.2 = w)).map (·.1)).foldl (fun t l => t.lockLine l) s4
  let s6 := { s5.clearTables w with worlds := NMap.erase s5.worlds w }
  let s7 := ((s6.sessions.filter fun x => decide (x.2.world = w)).map (·.1)).foldl (fun t n => t.endSession n) s6
  let s8 := match s7.tdi w with | .unlocked => s7 | _ => s7.setTdi w .error
  s8.freeCores w

/-- WORLD_TEARDOWN (R410, R411): the teardown at the head of the Registrar's queue: step 1, step 2, and the others once the copies that had
started are done. -/
def execWorldTeardown (w : Nat) (s : State) : Out3 :=
  match s.regq with
  | .kwipe v :: rest =>
    if v ≠ w then .next s
    else if !s.worldExists w then .next { s with regq := rest }
    else if !(s.world w).closing then .next (s.closeWorld w)
    else if !(s.world w).halted then .next (s.haltWorld w)
    else if s.copiesOut w then .next s
    else .next ({ s with regq := rest }.wipeWorld w)
  | _ => .next s

/-- Every tenant world that exists. -/
def State.tenants (s : State) : List Nat := ((List.range 64).drop 1).filter fun w => s.worldExists w
def State.wipeAll (s : State) : State := s.tenants.foldl (fun t w => ((t.closeWorld w).haltWorld w).wipeWorld w) s

-- ## The instructions (R414 to R419)

/-- May the pair bitmap be read for that check now (R311, R317)? -/
def State.lateClear (s : State) (die : Nat) (d : List Byte) : Bool :=
  !(s.worlds.any fun q => q.2.closing) || s.beforeBundle.rangeClear die 0 (dscW d 0x08) 64 fun _ => die
/-- Does a WLOAD name the world of a teardown under way, or one of its cores (R411)? -/
def State.wloadLate (s : State) (die w : Nat) (d : List Byte) : Bool :=
  s.worlds.any fun q => q.2.closing && (decide (q.1 = w) || (match s.readPages die 0 (dscW d 0x08) 64 with
    | .ok bm => (pairsIn bm).any fun p => decide ((s.core (2 * p)).world = q.1)
    | .error _ => false))

/-- WLOAD (R415). -/
def execWload (g : Guard) (a : Code) (s : State) : Out3 :=
  sop (.wload g a) false false s fun s =>
    let va := (s.rdS a).toNat
    if !s.isMgmt s.iss.core s.iss.ctx then s.perm 1
    else if va % 256 ≠ 0 then s.raiseWalk 0 va 0 0 0 3
    else s.freshRead va 256 fun d s =>
      let w := dscW d 0 % 64
      let n := dscW d 0x18
      let resv := ((List.range 24).map fun i => dscW d (0x38 + 8 * i)).find? fun v => decide (v ≠ 0)
      if dscW d 0 / 64 ≠ 0 then s.range 0 (BitVec.ofNat 64 (dscW d 0 / 64 * 64))
      else if resv ≠ none then s.range 0 (BitVec.ofNat 64 (resv.getD 0))
      else if w = 0 then s.range 0 0
      else if n % 16 ≠ 0 ∨ n < 48 ∨ 2 ^ 26 < n then s.range 0 (BitVec.ofNat 64 n)
      else s.heldUntil (s.lateClear (dieOf s.iss.core) d) fun s => s.ask 1 fun s =>
        let die := dieOf s.iss.core
        .next { s with regq := s.regq ++ [.wload die va w d (s.wloadLate die w d)] }

/-- KWIPE (R416): the teardown is queued with the Registrar. -/
def execKwipe (g : Guard) (a : Code) (s : State) : Out3 :=
  sop (.kwipe g a) false false s fun s =>
    let v := (s.rdS a).toNat
    let me := s.worldOf s.iss.core s.iss.ctx
    if !isSupervisor s.iss.core then s.perm 1
    else if v = 0 ∨ 64 ≤ v then s.range 0 (s.rdS a)
    else if me ≠ 0 ∧ me ≠ v then s.perm 1
    else s.ask 1 fun s => .next { s with regq := s.regq ++ [.kwipe v] }

/-- FUSERD (R417). -/
def execFuserd (g : Guard) (d a : Code) (s : State) : Out3 :=
  sop (.fuserd g d a) false false s fun s =>
    let v := (s.rdS a).toNat
    if 16 ≤ v then s.range 0 (s.rdS a)
    else s.ask 1 fun s => .next (s.putS 1 0 d (s.fuseWord v))

/-- MEXT (R418). -/
def execMext (g : Guard) (a b : Code) (s : State) : Out3 :=
  sop (.mext g a b) false false s fun s =>
    let va := (s.rdS a).toNat
    let t := (s.rdS b).toNat
    let me := s.worldOf s.iss.core s.iss.ctx
    if me = 0 ∧ s.isMgmt s.iss.core s.iss.ctx = false then s.perm 1
    else if va % 32 ≠ 0 then s.raiseWalk 0 va 0 0 0 3
    else s.freshRead va 32 fun x s =>
      if t < 0x100 ∨ 2 ^ 16 ≤ t then s.range 0 (s.rdS b)
      else s.ask 1 fun s =>
        .next (if me = 0 then { s with mb2 := extendMb s.mb2 t x } else s.modWorld me fun r => { r with mb := extendMb r.mb t x })

/-- The first of DBGOPEN's checks that fails (R419). -/
def State.tokenBad (s : State) (t : List Byte) : Option Nat :=
  let f := fun (o n : Nat) => leNat ((t.drop o).take n)
  let be := fun (o : Nat) => beNat ((t.drop o).take 32)
  if f 0 4 ≠ 1 ∨ f 0x38 8 ≠ 0 ∨ f 0xC0 64 ≠ 0 then some 1
  else if f 4 4 ≠ (s.fuseWord 2).toNat then some 2
  else if f 8 8 ≠ (s.fuseWord 0).toNat ∨ f 16 8 ≠ (s.fuseWord 1).toNat then some 3
  else if f 0x18 32 ≠ s.nonce.toNat then some 4
  else if leNat (sha256 ((t.drop 0x40).take 64)) ≠
      (s.fuseWord 8).toNat + (s.fuseWord 9).toNat * 2 ^ 64 + (s.fuseWord 10).toNat * 2 ^ 128 + (s.fuseWord 11).toNat * 2 ^ 192 then some 5
  else if ecdsaVerify (be 0x40) (be 0x60) (beNat (sha256 (t.take 0x80))) (be 0x80) (be 0xA0) ≠ 1 then some 6
  else none

/-- What a token that verifies brings about (R419). -/
def State.debugOpen (s : State) (token : List Byte) : State :=
  let s1 := s.newNonce.wipeAll
  let s2 := (s1.sessions.map (·.1)).foldl (fun u n => u.endSession n) s1
  { s2.log 0x32 s2.noData s2.noData with mb3 := extendMb s2.mb3 3 (sha256 (token.take 0x80)), dbg := true, debugPort := true }

/-- DBGOPEN (R404, R419): the request stands in the Registrar's queue from its check point on, and is served at its head. -/
def execDbgopen (g : Guard) (a : Code) (s : State) : Out3 :=
  sop (.dbgopen g a) false false s fun s =>
    let va := (s.rdS a).toNat
    if !s.isMgmt s.iss.core s.iss.ctx then s.perm 1
    else if va % 256 ≠ 0 then s.raiseWalk 0 va 0 0 0 3
    else s.freshRead va 256 fun t s =>
      let me := RegReq.dbgopen s.iss.core
      let wait : State → Out3 := fun s => .next { s.holdIssue with asks := s.asks ++ [⟨s.iss.core, true, s.cyc, 0⟩] }
      { s with regq := if s.regq.contains me then s.regq else s.regq ++ [me] }.ask 180000 fun s =>
      if s.regq.head? ≠ some me then wait s
      else if s.dbg then .next { s with regq := s.regq.tail }
      else match s.tokenBad t with
        | some n => s.newNonce.raise fPERM (BitVec.ofNat 64 n) (src 2 6)
        | none =>
          -- the copies that the tenants' cores have started finish first (R246, R410)
          if s.tenants.any s.copiesOut then wait s else .next ({ s with regq := s.regq.tail }.debugOpen t)

-- ## SPDM (R405, R406)

def State.answer (s : State) (session : Nat) (bs : List Byte) : State := { s with spdmOut := s.spdmOut ++ [(session, bs)] }
def State.session (s : State) (n : Nat) : Session := NMap.getD s.sessions n {}
/-- A request that is refused answers with an error. -/
def State.refuse (s : State) (session : Nat) : Out3 := .next (s.answer session [1])
def State.accept (s : State) (session : Nat) : Out3 := .next (s.answer session [0])

/-- The measurement block of an index, and the indices there are (R405). -/
def State.block? (s : State) (i : Nat) : Option (BitVec 256) :=
  if i = 1 then some s.mb1 else if i = 2 then some s.mb2 else if i = 3 then some s.mb3 else if i = 4 then some s.mb4
  else if 0x11 ≤ i ∧ i < 0x50 then some (s.world (i - 0x10)).mb else none
def blockIndices : List Nat := [1, 2, 3, 4] ++ (List.range 63).map (0x11 + ·)
/-- A block as it is reported: its index and its SHA-256 value (R405). -/
def State.blockOut (s : State) (i : Nat) : List Byte := leBytes 1 i ++ leBytes 32 ((s.block? i).getD 0).toNat
/-- Every measurement block in order of its index (R405). -/
def State.blocksOut (s : State) : List Byte := blockIndices.flatMap s.blockOut
/-- An answer signed with the identity key (R400, R406): over the request with its nonce, and over the answer. -/
def State.signed (s : State) (session : Nat) (data out : List Byte) : Out3 :=
  .next (s.answer session (out ++ Config.sign Config.identityKey (data ++ out)))

/-- GET_VERSION (R406): 1.3. -/
def execGetVersion (session : Nat) (_data : List Byte) (s : State) : Out3 := .next (s.answer session [0x13])
/-- GET_CAPABILITIES (R406; log 4). -/
def execGetCapabilities (session : Nat) (data : List Byte) (s : State) : Out3 := .next (s.answer session (Config.spdmAnswer 1 data))
/-- NEGOTIATE_ALGORITHMS (R406): TPM_ALG_ECDSA_ECC_NIST_P256, SHA-256 and AES-256-GCM, by their bits in SPDM's three fields (log 4). -/
def execNegotiateAlgorithms (session : Nat) (_data : List Byte) (s : State) : Out3 :=
  .next (s.answer session (leBytes 4 0x10 ++ leBytes 4 1 ++ leBytes 2 2))
/-- GET_DIGESTS (R406): of the chain in slot 0. -/
def execGetDigests (session : Nat) (_data : List Byte) (s : State) : Out3 := .next (s.answer session (sha256 Config.certChain))
/-- GET_CERTIFICATE (R406): the chain in slot 0. -/
def execGetCertificate (session : Nat) (_data : List Byte) (s : State) : Out3 := .next (s.answer session Config.certChain)
/-- CHALLENGE (R406): signed over the requester's nonce, with the digest of the chain and of the blocks. -/
def execChallenge (session : Nat) (data : List Byte) (s : State) : Out3 :=
  s.signed session data (sha256 Config.certChain ++ sha256 s.blocksOut)
/-- GET_MEASUREMENTS (R405, R406): index 0 asks for how many blocks there are, 0xFF for all (log 4). -/
def execGetMeasurements (session : Nat) (asked : Measure) (s : State) : Out3 :=
  let index := asked.index
  let data := asked.data
  if index = 0 then s.signed session data (leBytes 1 blockIndices.length)
  else if index = 0xFF then s.signed session data s.blocksOut
  else if (s.block? index).isSome then s.signed session data (s.blockOut index)
  else s.refuse session

/-- KEY_EXCHANGE (R406): up to 64 concurrent sessions. -/
def execKeyExchange (session : Nat) (data : List Byte) (s : State) : Out3 :=
  if 64 ≤ s.sessions.length ∨ (NMap.get? s.sessions session).isSome = true then s.refuse session
  else .next ({ s with sessions := NMap.set s.sessions session { keyed := true } }.answer session (Config.spdmAnswer 7 data))
/-- FINISH (R406). -/
def execFinish (session : Nat) (s : State) : Out3 :=
  if (s.session session).keyed && !(s.session session).live then
    { s with sessions := NMap.set s.sessions session { (s.session session) with live := true } }.accept session
  else s.refuse session
/-- END_SESSION (R406): the bound world's image key is erased. -/
def execEndSession (session : Nat) (s : State) : Out3 :=
  if (NMap.get? s.sessions session).isSome then (s.endSession session).accept session else s.refuse session
/-- BIND (R406). -/
def execBind (session w : Nat) (s : State) : Out3 :=
  if !(s.session session).live || decide (w = 0) || decide (64 ≤ w) ||
      (s.sessions.any fun x => decide (x.1 ≠ session) && x.2.live && decide (x.2.world = w)) then s.refuse session
  else { s with sessions := NMap.set s.sessions session { (s.session session) with world := w } }.accept session
/-- KEY_IMAGE (R406). -/
def execKeyImage (session : Nat) (key : BitVec 256) (s : State) : Out3 :=
  let x := s.session session
  if !x.live || decide (x.world = 0) then s.refuse session
  else (s.modWorld x.world fun r => { r with imageKey := some key }).accept session

/-- Bytes written into world `w`'s memory by the Registrar, page by page; none where a page is not mapped writable. -/
def State.writePages (s : State) (w va : Nat) (data : List Byte) : Option State :=
  (blocks 65536 va data.length).foldlM (fun (t : State) b =>
    let lo := max va (b * 65536)
    let hi := min (va + data.length) (b * 65536 + 65536)
    match t.arbWrite w lo ((data.drop (lo - va)).take (hi - lo)) with
    | .ok (u, _) => some u
    | .error _ => none) s

/-- KEY_EVAL (R406): the blob is written only where the measurement is the one expected. It comes here only once its walks and its lines are
clear of buffered updates (`State.accepts`; R311, R317). -/
def execKeyEval (session va : Nat) (expect : BitVec 256) (blob : List Byte) (s : State) : Out3 :=
  let x := s.session session
  if !x.live || decide (x.world = 0) then s.refuse session
  else if (s.world x.world).mb ≠ expect then s.refuse session
  else match s.writePages x.world va blob with
    | some t => t.accept session
    | none => s.refuse session

-- ## TDISP (R407)

/-- The 8-byte registers lockable for world `w` (R409, R423): job-table and window entries of the world at lock. Every register of its
control page is watched too. -/
def State.lockable (s : State) (w : Nat) : List Nat :=
  let held := (s.jobs.filter fun j => decide (j.2.wtag = w)).map (·.1) ++ (s.cleared.filter fun q => decide (bits q.2 21 16 = w)).map (·.1)
  (held.flatMap fun j => (List.range 4).map fun i => 0x10000 + 32 * j + 8 * i) ++
  ((s.windows.filter fun v => decide (s.jobWorld v.2.job = w)).map fun v => 0x12000 + 8 * v.1)

/-- LOCK_INTERFACE_REQUEST (R407, R409). -/
def execLockInterfaceRequest (session w : Nat) (s : State) : Out3 :=
  if s.tdi w = .unlocked ∧ (s.session session).live = true ∧ (s.session session).world = w ∧ w ≠ 0 ∧ s.wstate w = 2 then
    { s.setTdi w .locked with watch := NMap.set s.watch w (s.lockable w) }.accept session
  else s.refuse session
/-- START_INTERFACE_REQUEST (R407). -/
def execStartInterfaceRequest (session w : Nat) (s : State) : Out3 :=
  if s.tdi w = .locked then (s.setTdi w .run).accept session
  else s.refuse session
/-- STOP_INTERFACE_REQUEST (R407): from a state other than CONFIG_UNLOCKED the world is torn down if it exists. -/
def execStopInterfaceRequest (session w : Nat) (s : State) : Out3 :=
  if w = 0 ∨ 64 ≤ w then s.refuse session
  else
    let s1 := { s.setTdi w .unlocked with watch := NMap.erase s.watch w }
    (if s.tdi w ≠ .unlocked ∧ s.worldExists w = true then { s1 with regq := s1.regq ++ [.kwipe w] } else s1).accept session
/-- TDISP_OTHER_REQUEST (R407). -/
def execTdispOtherRequest (session _w : Nat) (s : State) : Out3 := s.refuse session

-- ## Resets (R412, R426)

/-- What a die's view becomes once every write on its way has been applied (R324). -/
def Die.lastView (d : Die) : Memory :=
  (d.inq.foldl (fun (k : Die) w => if w.mark then k else k.store w.pa w.data) d).view
/-- The sectors of which something is kept: each is a choice of its own (R412). -/
def State.resetSectors (s : State) : List Nat :=
  let last := s.dies.flatMap fun (d, k) => k.lastView.filter fun b => decide (homeDie b.1 = d)
  ((last ++ s.hbm).map fun b => b.1 / 16).dedup
/-- World-0 memory after a hot reset (R412): each sector holds its last value, or the value last written back. -/
def State.resetView (s : State) : Memory :=
  let views := s.dies.map fun (d, k) => (d, k.lastView)
  let sectors := s.resetSectors
  (List.range sectors.length).foldl (fun m i =>
    let a := sectors.getD i 0
    let from_ := if Config.pick (s.picks + i) % 2 = 0 then NMap.getD views (homeDie (a * 16)) [] else s.hbm
    Memory.writeN m (a * 16) (Memory.readN from_ (a * 16) 16)) []

/-- Hot reset and link-down (R412, R426): teardown of every tenant world, sessions and TDIs ended, a new nonce; bring-up goes on from step
6. -/
def State.hotReset (s : State) : State :=
  let s1 := s.wipeAll.newNonce
  let m := s1.resetView
  let cold := fun (q : Nat × Core) => (q.1, ({ seat := q.2.seat } : Core))
  let keep := fun (d : Nat) => (d, ({ view := m, l2 := (s1.die d).l2 } : Die))
  { s1 with
    cyc := 0, boots := s1.boots + 1, cores := s1.cores.map cold, arrs := [], clusters := [], queues := [], overflow := [],
    dies := if m.isEmpty && s1.dies.isEmpty then [] else (List.range s1.nDies).map keep, pool := [], launches := [], gangs := [],
    packets := [], gates := [], consWait := [], arrivals := [], offers := [], regq := [], asks := [], sessions := [], worlds := [], tdis := [], watch := [], turn := [], iss := {},
    bootStep := 6, ready := false, picks := s1.picks + s1.resetSectors.length, paths := [], granted := [] }

/-- HOT_RESET (R412). -/
def execHotReset (s : State) : Out3 := .next s.hotReset
/-- LINK_DOWN (R412). -/
def execLinkDown (s : State) : Out3 := .next s.hotReset

/-- COLD_RESET (R412, R426): the whole bring-up begins; firmware that does not verify holds the device at step 1. -/
def execColdReset (fwOk : Bool) (s : State) : Out3 :=
  let cold := fun (q : Nat × Core) => (q.1, ({ seat := q.2.seat } : Core))
  let t : State := { caps := s.caps, inbox := s.inbox, picks := s.picks, boots := s.boots + 1, nonce := Config.random s.draws, draws := s.draws + 1,
                     cores := s.cores.map cold, bootStep := 1, ready := false, refusedFw := !fwOk,
                     mb1 := if fwOk then Config.measured 1 else 0, mb3 := 0, mb4 := 0, regionMiB := 0 }
  .next t

/-- The next step of bring-up (R426): 2 sets MB3, 3 MB4 with CAPS and SEATMAP, 4 carves the L2 reserved region, 6 starts CYC; 7 sets READY. -/
def State.bootNext (s : State) : State :=
  let n := s.bootStep + 1
  { s with bootStep := n, ready := decide (7 ≤ n)
           mb3 := if n = 2 then Config.measured 3 else s.mb3
           mb4 := if n = 3 then Config.measured 4 else s.mb4
           regionMiB := if n = 4 then Config.regionMiB % 65 else s.regionMiB
           cyc := if n = 6 then 0 else s.cyc
           boots := if n = 6 then s.boots + 1 else s.boots }

end Sys2Proof.Machine
end

