-- ==== Sys2Proof/Machine/Host.lean ====
section
/-! DEFINITION. The host interface: the Registrar's filter, the register pages, the launch window, power (R338, R408, R409, R422 to
R429). -/

namespace Sys2Proof.Machine

-- ## The filter (R408, R409, R423)

/-- The world a host access counts as written by (R408): w for a trusted access of TDI w, else 0. -/
def State.hostWorld (s : State) (tdi : Nat) : Nat := if tdi ≠ 0 ∧ s.tdi tdi = .run then tdi else 0

/-- An access completes with Unsupported Request, and is logged with its BAR offset and requester (R429; log 30). -/
def State.unsup (s : State) (off tdi : Nat) : State :=
  { s.logW 0x21 (s.hostWorld tdi) (BitVec.ofNat 64 off) (Config.freeWord tdi) with unsupported := s.unsupported + 1 }

/-- Is offset `q` of a control page a register (R424)? Supervisor slots are those of the dies there are. -/
def State.ctlReg (s : State) (q : Nat) : Bool :=
  decide (q = 0 ∨ q = 8) || (decide (0x100 ≤ q) && decide (q < 0x100 + 256 * s.nDies)) || (decide (0x800 ≤ q) && decide (q < 0x800 + 512 * s.nDies))

/-- The TDI whose write-watch bitmap holds a register (R409). -/
def State.watcher (s : State) (off : Nat) : Option Nat :=
  ((List.range 64).drop 1).find? fun w =>
    decide (s.tdi w ≠ .unlocked) && (match NMap.get? s.watch w with
      | some regs => regs.contains off || (decide (pageOf off = some w) && s.ctlReg (off - pageBase w))
      | none => false)

/-- A write that TDI `w`'s bitmap records (R407, R409): ERROR, and the world is torn down. -/
def State.watchHit (s : State) (w off : Nat) : State :=
  let s1 := s.logW 0x25 w (BitVec.ofNat 64 off) (BitVec.ofNat 64 w)
  let s2 := if s1.tdi w = .error then s1 else { s1.setTdi w .error with regq := s1.regq ++ [.kwipe w] }
  { s2 with unsupported := s2.unsupported + 1 }

-- ## Control pages (R424)

/-- A marker at the tail of a channel's queue: the commands behind it translate anew (R245). -/
def Channel.mark (ch : Channel) (w page : Nat) : Channel :=
  { ch with queue := ch.queue ++ [{ id := 0, core := 0, ctx := 0, gen := 0, launch := 0, world := w, x := false, src := [], dst := [],
                                    marker := some (w, page) }] }

/-- The commands of a channel take the mapping that they still lack, and a marker comes behind them (R245). -/
def State.markChan (s : State) (cl n w page : Nat) : State :=
  s.modChan cl n fun h => ({ h with queue := h.queue.map s.remapped, run := h.run.map s.remapped } : Channel).mark w page

/-- HINV (R245, R313, R424): on the dies of the mask, every translation of the world that was formed through a host-level page which
holds IPA page `page` is invalidated, and every channel's queue takes a marker. -/
def State.hinv (s : State) (w page mask : Nat) : State :=
  ((List.range s.nDies).filter fun d => mask.testBit d).foldl (fun t d =>
    let p := fun (e : TlbEntry) => decide (e.world = w) && e.formedBy (65536 * page)
    (List.range 64).foldl (fun t i => (List.range 4).foldl (fun t n =>
      t.markChan (64 * d + i) n w (2 ^ 48 + page)) t) (t.invalidate d p)) s

/-- A PREEMPT write (R424): a context that holds the issue slots and has a save area leaves them at the next bundle boundary. -/
def State.hostPreempt (s : State) (c x : Nat) : State :=
  if (s.core c).run = some x ∧ (s.ctx c x).save.isSome then s.modCore c fun k => { k with hostPre := some x }
  else s.logAt 0x26 c x (s.worldOf c x) (BitVec.ofNat 64 c) (BitVec.ofNat 64 x)

/-- The core and context of supervisor slot `k` of die `d` (R424). -/
def svPlace (d k : Nat) : Nat × Nat := (256 * d + 4 * (62 + k / 8), k % 8)

/-- A slot is retired, its pass revoked (R362, R364). -/
def State.svRetire (s : State) (c x : Nat) (killed : Bool) : State :=
  if (s.ctx c x).st = .free then s else (s.revoke c x).retire c x killed false

/-- SVSTART word 1 (R424), written through world `w`'s page, by requester `tdi` at offset `off`. -/
def State.svGo (s : State) (w d k off tdi v : Nat) : State :=
  let ns := bits v 21 16
  let nv := bits v 27 22
  let r := bits v 37 32
  let n := bits v 42 40
  let sv := NMap.getD s.sv (w * 64 + 16 * d + k) {}
  let (c, x) := svPlace d k
  if !v.testBit 0 then s.svRetire c x true
  else if 48 < ns ∨ 48 < nv ∨ 47 < r ∨ 4 < n ∨ (0 < n ∧ ns < r + n) then s.unsup off tdi
  else
    let args := (List.range n).map fun i => NMap.getD sv.args i 0
    (s.svRetire c x false).start c x (slotCtx (bits sv.entry.toNat 56 4 * 16) ns nv r args 0 0 w 0)

/-- A write to offset `q` of world `w`'s control page, past the filter (R423, R424). -/
def State.ctlWrite (s : State) (w q off tdi v : Nat) : State :=
  let foreign := fun (d k : Nat) =>
    let (c, x) := svPlace d k
    decide ((s.ctx c x).st ≠ .free) && decide ((s.ctx c x).world ≠ w)
  if q = 0 then (if bits v 57 52 ≠ w then s.unsup off tdi else s.hinv w (bits v 51 16) (bits v 61 58))
  else if q = 8 then
    let c := bits v 9 0
    let x := bits v 12 10
    if s.worldOf c x ≠ w then s.unsup off tdi else s.hostPreempt c x
  else if 0x100 ≤ q ∧ q < 0x500 then
    let i := (q - 0x100) / 16
    if s.nDies ≤ i / 16 then s
    else if foreign (i / 16) (i % 16) then s.unsup off tdi
    else if q / 8 % 2 = 1 then s.svGo w (i / 16) (i % 16) off tdi v
    else { s with sv := NMap.set s.sv (w * 64 + i) { NMap.getD s.sv (w * 64 + i) {} with entry := BitVec.ofNat 64 (bits v 56 4 * 16) } }
  else if 0x800 ≤ q then
    let i := (q - 0x800) / 32
    if s.nDies ≤ i / 16 then s
    else if foreign (i / 16) (i % 16) then s.unsup off tdi
    else
      let e := NMap.getD s.sv (w * 64 + i) {}
      { s with sv := NMap.set s.sv (w * 64 + i) { e with args := NMap.set e.args (q / 8 % 4) (BitVec.ofNat 64 v) } }
  else s

-- ## Tables (R373, R375, R423, R425)

/-- A write to a job entry's word 0, by world `me` (R373, R425). With V = 0 the entry frees and its counts are discarded (R372), and the
fields read as written (R5; log 38): it leaves no entry that could conflict with another. -/
def State.jobWrite (s : State) (me i off tdi v : Nat) : State :=
  let old := NMap.get? s.jobs i
  let e : Job := { job := bits v 15 0, wtag := bits v 21 16, def_ := v.testBit 22, v := v.testBit 23 }
  let oldW := match old with | some o => o.wtag | none => bits (NMap.getD s.cleared i 0) 21 16
  let others := s.jobs.filter fun p => decide (p.1 ≠ i)
  let clash := others.any fun p => decide (p.2.job = e.job) || (e.def_ && p.2.v && p.2.def_ && decide (p.2.wtag = e.wtag))
  if (oldW ≠ 0 ∧ oldW ≠ me) ∨ (e.wtag ≠ 0 ∧ e.wtag ≠ me) then s.unsup off tdi
  else if e.v && clash then s.unsup off tdi
  else if !e.v then
    let word := v % 2 ^ 23
    { s with jobs := NMap.erase s.jobs i, cleared := if word = 0 then NMap.erase s.cleared i else NMap.set s.cleared i word }
  else
    let new := match old with
      | some o => if o.job = e.job then { e with inj := o.inj, cons := o.cons, loss := o.loss } else e
      | none => e
    { s with jobs := NMap.set s.jobs i new, cleared := NMap.erase s.cleared i, goneJobs := s.goneJobs.filter fun j => decide (j ≠ e.job) }

/-- A write to a window entry, by world `me`. -/
def State.windowWrite (s : State) (me i off tdi v : Nat) : State :=
  let e : Window := { node := bits v 19 0, job := bits v 35 20, v := v.testBit 63 }
  let oldW := match NMap.get? s.windows i with | some o => s.jobWorld o.job | none => 0
  let newW := s.jobWorld e.job
  if (oldW ≠ 0 ∧ oldW ≠ me) ∨ (newW ≠ 0 ∧ newW ≠ me) then s.unsup off tdi
  else { s with windows := NMap.set s.windows i e }

/-- A write to a shared BAR0 register outside the control pages (R423 to R427). -/
def State.barWrite (s : State) (me off tdi v : Nat) : State :=
  if off = 8 then { s with node := bits v 19 0 }
  else if off = 0x1000 then { s with pcap := max 600 (min 2800 (bits v 11 0)) }
  else if off = 0x2008 then { s with evridx := v % 2 ^ 32 }
  else if 0x10000 ≤ off ∧ off < 0x12000 then
    (if off % 32 = 0 then s.jobWrite me ((off - 0x10000) / 32) off tdi v else s)
  else if 0x12000 ≤ off ∧ off < 0x12800 then s.windowWrite me ((off - 0x12000) / 8) off tdi v
  else s

/-- A write past the filter, by requester `tdi` (R408, R423). -/
def State.filtered (s : State) (tdi off v : Nat) : State :=
  let me := s.hostWorld tdi
  match pageOf off with
  | some w => if w ≠ 0 ∧ me ≠ w then s.unsup off tdi else s.ctlWrite w (off - pageBase w) off tdi v
  | none => s.barWrite me off tdi v

/-- A host write to the BAR0 register at `off` (R408, R409, R426). -/
def State.hostWrite (s : State) (tdi off : Nat) (val : Word) : State :=
  let o := off / 8 * 8
  if !s.ready then s
  else match s.watcher o with
    | some w => s.watchHit w o
    | none => s.filtered tdi o val.toNat

/-- HOST_REGISTER_WRITE (R408). -/
def execHostRegisterWrite (tdi off : Nat) (val : BitVec 64) (s : State) : Out3 := .next (s.hostWrite tdi off val)
/-- HINV (R424). -/
def execHinv (tdi page : Nat) (val : BitVec 64) (s : State) : Out3 := .next (s.hostWrite tdi (pageBase page) val)
/-- PREEMPT (R424). -/
def execPreempt (tdi page : Nat) (val : BitVec 64) (s : State) : Out3 := .next (s.hostWrite tdi (pageBase page + 8) val)
/-- SVSTART with GO = 1 (R424). -/
def execSvstartGo (tdi page die k : Nat) (val : BitVec 64) (s : State) : Out3 :=
  .next (s.hostWrite tdi (pageBase page + 0x108 + 16 * (16 * die + k)) (val ||| 1))
/-- SVSTART with GO = 0 (R424). -/
def execSvstartStop (tdi page die k : Nat) (s : State) : Out3 :=
  .next (s.hostWrite tdi (pageBase page + 0x108 + 16 * (16 * die + k)) 0)
/-- JOB_ENTRY_WRITE (R425). -/
def execJobEntryWrite (tdi index : Nat) (val : BitVec 64) (s : State) : Out3 := .next (s.hostWrite tdi (0x10000 + 32 * index) val)
/-- WINDOW_ENTRY_WRITE (R425). -/
def execWindowEntryWrite (tdi index : Nat) (val : BitVec 64) (s : State) : Out3 := .next (s.hostWrite tdi (0x12000 + 8 * index) val)
/-- PCAP_WRITE (R427). -/
def execPcapWrite (val : BitVec 64) (s : State) : Out3 := .next (s.hostWrite 0 0x1000 val)

/-- A word of the launch window as the host reads it (R338, R422): the record as last written, and CLAIM. -/
def State.launchRead (s : State) (off : Nat) : Word :=
  let p := s.slotAt (off / 256)
  let i := off / 8 % 32
  let v := p.rec_.getD i 0
  if !s.ready || decide (1024 ≤ off / 256) then 0
  else if i = 31 then BitVec.ofNat 64 (v.toNat / 2 * 2 + b2n p.claim 1) else v
/-- A word of configuration space (R422): the DOE capability's identifier at offset 0x200, PCIe's 0x2E; the rest is PCIe's own (log 39). -/
def State.configRead (off : Nat) : Word :=
  let v := Config.freeWord (2 ^ 44 + off)
  if off = 0x200 then BitVec.ofNat 64 (v.toNat / 2 ^ 16 * 2 ^ 16 + 0x2E) else v

/-- HOST_REGISTER_READ (R408, R422): address space 0 the register pages, 2 the launch window, any other configuration space. -/
def execHostRegisterRead (tdi : Nat) (adr : HostAddr) (s : State) : Out3 :=
  let o := adr.off / 8 * 8
  if adr.space = 2 then .next { s with lastRead := s.launchRead o }
  else if adr.space ≠ 0 then .next { s with lastRead := State.configRead o }
  else match pageOf o with
  | some w => .next (if s.ready && decide (w ≠ 0) && decide (s.hostWorld tdi ≠ w) then s.unsup o tdi else { s with lastRead := s.barRead o })
  | none => .next { s with lastRead := s.barRead o }

-- ## Register pages as a management context reaches them (R422)

/-- Bytes stored to the register pages from offset `a`, register by register, as by world 0. -/
def State.regWrite (s : State) (a : Nat) (data : List Byte) : State :=
  if !s.ready then s
  else (blocks 8 a data.length).foldl (fun t r =>
    let old := leBytes 8 (t.barRead (8 * r)).toNat
    let new := (List.range 8).map fun i => if a ≤ 8 * r + i ∧ 8 * r + i < a + data.length then data.getD (8 * r + i - a) 0 else old.getD i 0
    t.filtered 0 (8 * r) (leNat new)) s

-- ## The launch window (R338)

/-- LAUNCH_CLAIM (R337, R338). -/
def State.claimSlot (s : State) (tdi slot : Nat) : State :=
  let w := s.hostWorld tdi
  let p := s.slotAt slot
  if !s.ready || decide (1024 ≤ slot) then s
  else if p.claim then s.unsup (256 * slot + 0xF8) tdi
  else
    let r := lrFor ((List.range 32).map fun i => p.rec_.getD i 0) 0
    match s.lrBad r w with
    | none => s.pend slot r w none
    | some (rule, _) => s.rejectRec slot r w rule
def execLaunchClaim (tdi slot : Nat) (s : State) : Out3 := .next (s.claimSlot tdi slot)

/-- LAUNCH_WINDOW_WRITE (R338): eight bytes of a depth-0 slot; a write of CLAIM claims it. -/
def execLaunchWindowWrite (tdi slot off : Nat) (val : BitVec 64) (s : State) : Out3 :=
  let p := s.slotAt slot
  let i := off / 8
  if !s.ready || decide (1024 ≤ slot) || decide (32 ≤ i) then .next s
  else if p.claim then .next (s.unsup (256 * slot + off) tdi)
  else
    let r := (List.range 32).map fun j => if j = i then val else p.rec_.getD j 0
    let s1 := s.modSlot slot fun p => { p with rec_ := r }
    .next (if i = 31 ∧ val.getLsbD 0 = true then s1.claimSlot tdi slot else s1)

-- ## Power (R427, R428)

/-- POWER_WINDOW_END (R428): it decides one step of the clock at most, which `State.reclock` takes; a step that the clock took in the window
that ends is logged in the next one (R429); module power goes at 115 °C. -/
def execPowerWindowEnd (draw tj : Nat) (s : State) : Out3 :=
  let hot := decide (s.pcapNow < draw)
  let good := decide (draw + 100 ≤ s.pcapNow)
  let run := if good then s.okWindows + 1 else 0
  let down := hot || decide (105 ≤ tj)
  let up := !down && decide (10 ≤ run)
  let clk := if down then max 6 (s.clkNext - 1) else if up then min 12 (s.clkNext + 1) else s.clkNext
  let s0 := match s.stepped with | some (k, d) => s.log 0x30 (BitVec.ofNat 64 k) (BitVec.ofNat 64 d) | none => s
  let s1 := { s0 with draw := draw, tj := tj, okWindows := if down || up then 0 else run, throt := hot, pcapNow := s.pcap, stepped := none,
                      clkSteps := if clk = s.clkNext then s.clkSteps else s.clkSteps ++ [(clk, draw)] }
  .next (if 115 ≤ tj then { s1.log 0x31 (BitVec.ofNat 64 tj) s1.noData with power := false } else s1)

end Sys2Proof.Machine
end

