-- ==== Sys2Proof/Machine/Lists.lean ====
section
/-! DEFINITION. Exception lists: how a conversion's entries reach the list that a layout record names (R171 to R173). -/

namespace Sys2Proof.Machine

/-- A failed list write: level, stage, cause and virtual address. -/
abbrev ListFail := Option (Nat × Nat × Nat × Nat)

/-- A list's writer: how it translates global addresses, whether it may reach a line now, and whose its writes into fabric windows are:
core, context and tracked copy (R173, R240, R376). -/
structure ListBy where
  tr : State → Nat → Tr
  clear : State → Nat → Nat → Bool
  core : Nat
  ctx : Nat
  copy : Option (Nat × Nat × Nat) := none
/-- A writer that keeps no mapping: context `x` of core `c`, in world `w`. -/
def plainTr (c x w : Nat) : ListBy := ⟨fun s a => s.walk1 (dieOf c) w a, fun s a n => s.rangeClear (dieOf c) w a n fun _ => dieOf c, c, x, none⟩

/-- One write of a list: where the list lies in global memory, translated and judged as a store of world `w`, a packet where it lies in a
fabric window, register writes where a management context's lies in a register page (R173, R323, R375, R422). -/
def State.listWrite (s : State) (tr : ListBy) (sp c w a : Nat) (data : List Byte) : State × ListFail :=
  if sp = 0 then
    match tr.tr s a with
    | .bad l g q => (s, some (l, g, q, a))
    | .ok e => match s.judge e a 1 w (isSupervisor tr.core && decide (w = 0)) with
      | some (l, g, q) => (s, some (l, g, q, a))
      | none => (if isWindow (e.phys a) then s.windowSend (dieOf c) (e.phys a) data tr.core 0 tr.copy tr.ctx
                 else if isRegPage (e.phys a) then s.regWrite (e.phys a % 2 ^ 32) data
                 else s.writeOnly (dieOf c) w (e.phys a) data, none)
  else (s.localWrite sp c a data, none)

/-- Four bytes of a list's header; in global memory through the die's view, or as the registers read where it lies in a register page (R422);
zero where it does not translate. -/
def State.listRead (s : State) (tr : ListBy) (sp c w a : Nat) : Nat :=
  if sp = 0 then
    match tr.tr s a with
    | .bad _ _ _ => 0
    | .ok e => leNat (if isRegPage (e.phys a) then s.regRead (e.phys a % 2 ^ 32) 4 else s.viewRead (dieOf c) w (e.phys a) 4)
  else leNat (s.localRead sp c a 4)

/-- The line of a list's header that does not verify (R401). -/
def State.listBad (s : State) (tr : ListBy) (sp w base : Nat) : Option Nat :=
  if sp ≠ 0 then none else match tr.tr s base with | .ok e => s.badLine w (e.phys base) 16 | .bad _ _ _ => none

/-- May `k` entries be appended now: do their translations, and the lines of the header and the entries, wait for no buffered update (R309,
R311, R317)? -/
def State.listClear (s : State) (tr : ListBy) (sp c w base len k : Nat) : Bool :=
  decide (sp ≠ 0) || (tr.clear s base 16 && (List.range k).all fun i =>
    tr.clear s (base + 16 + 8 * ((s.listRead tr sp c w base + i) % max ((len - 16) / 8) 1)) 8)

/-- One entry appended, or counted as dropped (R172), with RIDX as the copy read it. -/
def State.listAdd (s : State) (tr : ListBy) (sp c w base len ridx cause off : Nat) : State × ListFail :=
  let n := (len - 16) / 8
  let widx := s.listRead tr sp c w base
  match s.listBad tr sp w base with
  | some l => (s.logLine ⟨some tr.core, some tr.ctx, some w⟩ 4 l, some (l, 0, 4, base))
  | none =>
  if (widx + 2 ^ 32 - ridx) % 2 ^ 32 < n then
    match s.listWrite tr sp c w (base + 16 + 8 * (widx % n)) (leBytes 8 (off + cause * 2 ^ 48)) with
    | (s1, some f) => (s1, some f)
    | (s1, none) => s1.listWrite tr sp c w base (leBytes 4 ((widx + 1) % 2 ^ 32))
  else
    s.listWrite tr sp c w (base + 4) (leBytes 4 (min (s.listRead tr sp c w (base + 4) + 1) (2 ^ 32 - 1)))

/-- Entries appended in order; the first failing write ends it, with the index of the entry concerned. -/
def State.listAddAll (s : State) (tr : ListBy) (sp c w base len ridx : Nat) : List (Nat × Nat) → Nat → State × Option (Nat × Nat × Nat × Nat × Nat)
  | [], _ => (s, none)
  | (cause, off) :: es, i =>
    match s.listAdd tr sp c w base len ridx cause off with
    | (s1, some (l, g, q, a)) => (s1, some (i, l, g, q, a))
    | (s1, none) => State.listAddAll s1 tr sp c w base len ridx es (i + 1)

end Sys2Proof.Machine
end

