-- ==== Sys2Proof/Machine/Spad.lean ====
section
/-! DEFINITION. The T instructions: scratchpad loads and stores, bank formats, operand FIFOs, moves and the transform units (R195 to
R220), and the landings of their results. -/

namespace Sys2Proof.Machine

-- ## Loads and stores (R205, R206)

/-- LDS (R206). -/
def execLds (g : Guard) (d a o : Code) (x : Ext) (s : State) : Out3 :=
  sop (.lds g d a o x) false false s fun s =>
    let p := s.spadEA a (immS14 x o) 512
    if p % 512 ≠ 0 then s.align3 (BitVec.ofNat 64 p)
    else .next (s.putV 6 0 d (vecOfBytes (spadRead s.issueSpad p 512)))

/-- LDS.tag (R202). -/
def execLdsTag (g : Guard) (d a t : Code) (s : State) : Out3 :=
  sop (.ldsTag g d a t) false false s fun s =>
    let p := (s.rdS a).toNat % 2 ^ 20
    let v := vecOfBytes (spadRead s.issueSpad p 512)
    let want := (s.rdS t).toNat % 2 ^ 16
    if s.bankCmp s.iss.core (p / 2 ^ 16) then s.range 0 1
    else if p % 4096 ≠ 0 then s.align3 (BitVec.ofNat 64 p)
    else if v.toNat % 2 ^ 16 ≠ want then s.raise fTAG (BitVec.ofNat 64 (v.toNat % 2 ^ 16)) (BitVec.ofNat 64 want)
    else .next (s.putV 6 0 d v)

/-- The T port of the operation in issue (R198): T0 for the lower slot position. -/
def State.tPort (s : State) : Nat := if s.iss.ops.any fun o => decide (o.cls = 8) then 1 else 0

/-- STS (R206). -/
def execSts (g : Guard) (v a o : Code) (x : Ext) (s : State) : Out3 :=
  sop (.sts g v a o x) false false s fun s =>
    let p := s.spadEA a (immS14 x o) 512
    if p % 512 ≠ 0 then s.align3 (BitVec.ofNat 64 p)
    else .next (s.later 2 0 (.store s.tPort p (bytesOfVec (s.rdV v))))

/-- LDSS (R206). -/
def execLdss (g : Guard) (d a o : Code) (x : Ext) (s : State) : Out3 :=
  sop (.ldss g d a o x) false false s fun s =>
    let p := s.spadEA a (immS14 x o) 8
    if p % 8 ≠ 0 then s.align3 (BitVec.ofNat 64 p)
    else .next (s.putS 6 0 d (BitVec.ofNat 64 (leNat (spadRead s.issueSpad p 8))))

/-- STSS (R206). -/
def execStss (g : Guard) (v a o : Code) (x : Ext) (s : State) : Out3 :=
  sop (.stss g v a o x) false false s fun s =>
    let p := s.spadEA a (immS14 x o) 8
    if p % 8 ≠ 0 then s.align3 (BitVec.ofNat 64 p)
    else .next (s.later 2 0 (.store s.tPort p (leBytes 8 (s.rdS v).toNat)))

/-- Is the flight a store through T port `p` that is due on the context's clock? -/
def Ctx.storeDue (x : Ctx) (p : Nat) (f : Flight) : Bool :=
  decide (f.due ≤ x.clk) && (match f.eff with | .store q _ _ => decide (q = p) | _ => false)
/-- SCRATCHPAD_STORE_PERFORM (R198): the context's stores that are due write their banks: those of the T0 port, or where there are none,
those of T1, so that the core's contexts take the port order together. -/
def execScratchpadStorePerform (core ctx : Nat) (s : State) : Out3 :=
  let x := s.ctx core ctx
  let p := if x.flight.any (x.storeDue 0) then 0 else 1
  let put := fun (m : Memory) (f : Flight) => match f.eff with
    | .store _ a d => if x.storeDue p f then spadWrite m a d else m
    | _ => m
  let s1 := s.modCore core fun k => { k with spad := x.flight.foldl put k.spad }
  .next (s1.modCtx core ctx fun y => { y with flight := y.flight.filter fun f => !x.storeDue p f })

/-- BFMT (R200): the bank's format at issue + 1; where CMP is set anew, the offset table is cleared at issue + 2. DESIGN CHOICE (log 80):
each of two BFMTs of a bundle does so, also where the other leaves CMP clear. -/
def execBfmt (g : Guard) (k a : Code) (s : State) : Out3 :=
  sop (.bfmt g k a) false (s.guardOn (.bfmt g k a) && !s.hasCmp && (s.rdS a).getLsbD 3) s fun s =>
    let v := s.rdS a
    let s1 := s.later 1 0 (.bankfmt k.toNat (bankfmtOf s.hasCmp v))
    if v.getLsbD 3 && !s.bankCmp s.iss.core k.toNat then
      .next (s1.later 2 0 (.store s.tPort (k.toNat * 2 ^ 16) (List.replicate 512 0)))
    else .next s1

-- ## Operand FIFOs (R207 to R209)

/-- Does position `p` hold FIFOs under ARRMODE (R207)? -/
def Arr.holds (a : Arr) (p : Nat) : Bool := decide (a.mode = 2) || decide (a.mode = p % 2)
def Arr.cap (a : Arr) : Nat := if a.mode = 2 then 32 else 64
/-- The FIFO of position `p`: A, or B where `b`. -/
def Pos.fifo (p : Pos) (b : Bool) : Fifo := if b then p.fb else p.fa
def Pos.setFifo (p : Pos) (b : Bool) (f : Fifo) : Pos := if b then { p with fb := f } else { p with fa := f }
/-- ACYC (R256). -/
def Arr.acyc (a : Arr) : Nat := (a.clk - a.base) % 2 ^ 32

/-- WINDOW_MISS with the issue cycle's ACYC and ARRMODE (R356). -/
def State.windowMiss (s : State) : Out3 := s.raise fWINDOW (BitVec.ofNat 64 s.curArr.acyc) s.curArr.modeWord
/-- Does the issuing core hold no FIFO? -/
def State.noFifo (s : State) : Bool := isSupervisor s.iss.core || !s.curArr.holds (s.iss.core % 2)
def State.curPos (s : State) : Pos := s.curArr.pos (s.iss.core % 2)

/-- An entry pushed by a move: elements in their lanes, the bits above them cleared (R175, R208). -/
def entryOf (fmt : Nat) (v : Vec) : Vec := if fmt = 5 then v else ofLanesN fun i => (v.lane i).toNat % 2 ^ tyBits fmt

/-- Bytes 0 to 7 of an entry in its stored order (R209). -/
def entryHead (fmt : Nat) (v : Vec) : Word :=
  if fmt = 5 then BitVec.ofNat 64 (residue v 0)
  else BitVec.ofNat 64 (packNat (tyBits fmt) (fun i => (v.lane i).toNat) (64 / tyBits fmt))

/-- An entry pushed, in format `fmt` (R208, R261). -/
def Fifo.push (f : Fifo) (fmt : Nat) (e : Vec) : Fifo := { f with q := f.q ++ [(fmt, e)], pushes := f.pushes + 1 }
def Fifo.level (f : Fifo) : Word := BitVec.ofNat 64 (f.q.length + f.pushes % 2 ^ 24 * 2 ^ 8 + f.pops % 2 ^ 24 * 2 ^ 32)

/-- The state in which the array shows its FIFOs and ARRMODE as the bundle in issue finds them (R57, R209). -/
def State.issuePos (s : State) : Pos := s.issueArr.pos (s.iss.core % 2)

/-- FPEEK (R209): the entry packed at the width of the format it was pushed in (R261). -/
def execFpeek (g : Guard) (d f : Code) (s : State) : Out3 :=
  sop (.fpeek g d f) false (isSupervisor s.iss.core) s fun s =>
    if s.noFifo then s.windowMiss
    else match (s.issuePos.fifo (decide (f.toNat = 1))).q with
      | [] => .next (s.putS 1 0 d 0)
      | e :: _ => .next (s.putS 1 0 d (entryHead e.1 e.2))

/-- FLEV (R209). -/
def execFlev (g : Guard) (d f : Code) (s : State) : Out3 :=
  sop (.flev g d f) false (isSupervisor s.iss.core) s fun s =>
    if s.noFifo then s.windowMiss
    else .next (s.putS 1 0 d (s.issuePos.fifo (decide (f.toNat = 1))).level)

-- ## Transform ports (R210 to R219)

/-- A port's contents: CVTLIST names no list until it is written (R214), every other port reads zero (R213). -/
def Core.port (k : Core) (p : Nat) : Vec := NMap.getD k.ports p (if p = 0xC1 then 0x10 else 0)

/-- The unit a trigger port starts (R212): 0 convert, 1 transpose, 2 gather, 3 SHA-256, 4 ECDSA, 5 expand and compress. -/
def unitOf (p : Nat) : Option Nat :=
  if 0x80 ≤ p ∧ p < 0xC0 then some 0
  else if 0xD8 ≤ p ∧ p ≤ 0xDA then some 1
  else if 0xF1 ≤ p ∧ p ≤ 0xF3 then some 2
  else if p = 0x101 ∨ p = 0x103 then some 3
  else if p = 0x111 then some 4
  else if p = 0x120 ∨ p = 0x121 then some 5
  else none
/-- The unpipelined units (R212). -/
def unpipelined (u : Nat) : Bool := decide (u ≠ 0 ∧ u ≠ 2)

/-- The port a move writes. -/
def moveDst : Instr → Option Nat
  | .mv _ d _ x => some (mvDst d x)
  | .mvi _ d _ x => some (mvDst d x)
  | _ => none

/-- The instructions of the bundle in issue, by position. -/
def Iss.all (i : Iss) : List Instr :=
  let w := fun p => i.words.getD p 0
  let b := decodeBundle (w 0) (w 1) (w 2) (w 3)
  (List.range 4).filterMap fun p => b.word p
def isGload : Instr → Bool
  | .gload _ _ _ => true
  | _ => false
/-- Do a GLOAD's reads take the unit port of the issuing core (R285)? -/
def State.unitPortTaken (s : State) : Bool :=
  decide (s.curCore.ccyc < NMap.getD s.curCore.busy 9 0) || s.iss.all.any fun o => isGload o && s.guardOn o

/-- A trigger into a busy unit, or one whose reads would meet a GLOAD's (R212, R285). -/
def State.unitTaken (s : State) (p : Nat) : Bool :=
  match unitOf p with
  | none => false
  | some u => ((decide (u = 2) || decide (u = 5)) && s.unitPortTaken) ||
    (unpipelined u && decide (s.curCore.ccyc < NMap.getD s.curCore.busy u 0))
/-- A second trigger of the bundle into one unit, whatever the guards (R37, R212). -/
def Iss.triggers (i : Iss) (p : Nat) : Bool :=
  (unitOf p).isSome && i.ops.any fun o => decide ((moveDst o).bind unitOf = unitOf p)

/-- The pair's effects without a push into this FIFO by a lower position of the bundle: the higher one's value is left (R211). -/
def State.unpush (s : State) (p : Nat) (b : Bool) : State :=
  let lower := s.iss.ops.any fun o => decide (moveDst o = some (if b then 0x41 else 0x40)) && s.guardOn o
  let mine := fun (a : Arr) (f : AFlight) => decide (f.iss = a.clk) && (match f.eff with | .push q c _ _ => decide (q = p) && c == b | _ => false)
  if lower then s.modCurArr fun a => { a with flight := a.flight.filter fun f => !mine a f } else s

def State.unitBusy (s : State) (u lat : Nat) : State :=
  if unpipelined u then s.modCurCore fun k => { k with busy := NMap.set k.busy u (k.ccyc + lat) } else s

/-- A read of port `p` (R213): a result that has landed, until the next lands (log 65); before the first has, one in flight may show
already. -/
def State.portRead (s : State) (p : Nat) : Vec :=
  let k := s.curCore
  let early := (k.flight.filterMap fun f => match f.eff with
    | .port q v => if q = p then some v else none
    | .lines v => if 0xE0 ≤ p ∧ p ≤ 0xE7 then v[p - 0xE0]? else none
    | _ => none).head?
  match if (NMap.get? k.ports p).isSome then none else early with
  | some v => if s.newer 3 p then v else k.port p
  | none => k.port p

/-- The convert unit (R214): the value, and the entries by element. -/
def convertVec (dst src : Nat) (v : Vec) : Vec × List (Nat × Nat) :=
  let n := if dst = 5 ∨ src = 5 then 64 else 128
  let o := fun i => moveElem src dst (elem src v i)
  (if dst = 5 then ofResidues fun i => (o i).bits else ofLanesN fun i => if i < n then (o i).bits else 0,
   (List.range n).filterMap fun i => if (o i).entry = 0 then none else some ((o i).entry, off48 (i * (tyBits src / 8))))

/-- The transpose unit (R215): eight lines of elements of `w` bits. -/
def transposeLines (w : Nat) (k : Core) : List Vec :=
  let all := ((List.range 8).map fun i => bytesOfVec (k.port (0xD0 + i))).flatten
  let n := 1024 * (w / 8)
  let b := w / 8
  let byteAt := fun j => let m := j / n
    let q := (j % n) / b
    all.getD (m * n + (32 * (q % 32) + q / 32) * b + j % b) 0
  (List.range 8).map fun i => vecOfBytes ((List.range 512).map fun j => byteAt (512 * i + j))

/-- A trigger of the convert unit (R214). -/
def State.convertTrigger (s : State) (p : Nat) (v : Vec) : Out3 :=
  let dst := (p - 0x80) / 8
  let sr := p % 8
  if !movePairOk sr dst then s.range 0 (BitVec.ofNat 64 dst)
  else
    let (r, es) := convertVec dst sr v
    let sel := (s.curCore.port 0xC1).toNat
    let rec_ := (NMap.getD s.cur.lrec (sel % 16) {}).words
    let s1 := s.unitLater 4 0xC0 (.port 0xC0 r)
    if sel.testBit 4 || recXlen rec_ = 0 || es.isEmpty then .next s1
    else .next (s1.unitLater 4 0 (.list (recXbase rec_) (recXlen rec_) (recSpace rec_) (recPeer rec_ s.iss.core) s.iss.ctx
      s.cur.gen s.cur.launch (s.worldOf s.iss.core s.iss.ctx) s.iss.addr es))

/-- A trigger of the gather unit (R216). -/
def State.gatherTrigger (s : State) (p : Nat) (v : Vec) : Out3 :=
  let w := if p = 0xF1 then 4 else if p = 0xF2 then 2 else 1
  let b := (s.curCore.port 0xF0).toNat % 2 ^ 20
  if b % w ≠ 0 then s.align3 (BitVec.ofNat 64 b)
  else .next (s.unitLater 8 0xF4 (.port 0xF4 (ofLanesN fun i => leNat (spadRead s.issueSpad ((b + (v.lane i).toNat * w) % 2 ^ 20) w))))

/-- The chaining state as a port shows it (R217). -/
def shaVec (st : Chain) : Vec := vecOfBytes (shaBytes st)
def shaOfVec (v : Vec) : Chain := BitVec.ofNat 256 (beNat ((bytesOfVec v).take 32))

/-- A trigger of the SHA-256 unit (R217): its state stands in port 0x100, its result in 0x102. DESIGN CHOICE (log 81): SHAOUT shows the last
result that has landed, also after a write of SHAIN; a landing overwrites SHAIN. -/
def State.shaTrigger (s : State) (p : Nat) (v : Vec) : Out3 :=
  let st := if p = 0x103 then shaInit else shaBlock (shaOfVec (s.curCore.port 0x100)) ((bytesOfVec v).take 64)
  let lat := if p = 0x103 then 1 else 72
  .next (((s.unitBusy 3 lat).unitLater lat 0x100 (.port 0x100 (shaVec st))).unitLater lat 0x102 (.port 0x102 (shaVec st)))

/-- A trigger of the ECDSA unit (R218). -/
def State.ecdsaTrigger (s : State) (v : Vec) : Out3 :=
  let b := bytesOfVec v
  let at_ := fun i => beNat ((b.drop (32 * i)).take 32)
  .next ((s.unitBusy 4 180000).unitLater 180000 0x112 (.port 0x112 (lane0 (ecdsaVerify (at_ 0) (at_ 1) (at_ 2) (at_ 3) (at_ 4)))))

/-- A trigger of the expand unit (R219). DESIGN CHOICE (log 82): the lanes of a bank and of a tile count modulo 16 and 64. -/
def State.expandTrigger (s : State) (v : Vec) : Out3 :=
  let c := s.iss.core
  let bank := (v.lane 0).toNat % 16
  let tile := (v.lane 1).toNat % 64
  let dst := (v.lane 3).toNat % 2 ^ 20
  let e := tileEntry s.issueSpad bank tile
  let want := (v.lane 2).toNat % 2 ^ 16
  if !s.bankCmp c bank then s.range 0 (BitVec.ofNat 64 bank)
  else if !tilePresent e then s.range 0 (BitVec.ofNat 64 tile)
  else if (v.lane 2).getLsbD 16 && decide (tileTag e ≠ want) then
    s.raise fTAG (BitVec.ofNat 64 (tileTag e)) (BitVec.ofNat 64 want)
  else if dst % 4096 ≠ 0 then s.align3 (BitVec.ofNat 64 dst)
  else if s.bankCmp c (dst / 2 ^ 16) then s.range 0 (BitVec.ofNat 64 dst)
  else
    let (data, st) := match expandTile s.issueSpad bank e with
      | some bs => (bs, tileLen e)
      | none => (List.replicate 4096 0, 0xFFFFFFFF)
    .next (((s.unitBusy 5 48).unitLater 48 0 (.write dst data)).unitLater 48 0x122 (.port 0x122 (lane0 st)))

/-- A trigger of the compress unit (R219; log 82). -/
def State.compressTrigger (s : State) (v : Vec) : Out3 :=
  let c := s.iss.core
  let from_ := (v.lane 0).toNat % 2 ^ 20
  let bank := (v.lane 1).toNat % 16
  let tile := (v.lane 2).toNat % 64
  let start := (v.lane 3).toNat
  let tag := (v.lane 4).toNat % 2 ^ 16
  if from_ % 4096 ≠ 0 then s.align3 (BitVec.ofNat 64 from_)
  else if s.bankCmp c (from_ / 2 ^ 16) then s.range 0 (BitVec.ofNat 64 (from_ / 2 ^ 16))
  else if !s.bankCmp c bank then s.range 0 (BitVec.ofNat 64 bank)
  else if start < 32 ∨ 65536 < 16 * start + 4096 then s.range 0 (BitVec.ofNat 64 start)
  else
    let (raw, bs) := compressTile (spadRead s.issueSpad from_ 4096)
    let len := bs.length / 16
    let e := 2 ^ 63 + (if raw then 2 ^ 62 else 0) + len * 2 ^ 28 + start * 2 ^ 16 + tag
    let b := bank * 2 ^ 16
    .next ((((s.unitBusy 5 72).unitLater 72 0 (.write (b + 16 * start) bs)).unitLater 72 0 (.write (b + 8 * tile) (leBytes 8 e))).unitLater
      72 0x122 (.port 0x122 (lane0 len)))

/-- A move into port `p` (R208, R210, R211), past its common checks. -/
def State.moveInto (s : State) (p : Nat) (d : Code) (v : Vec) : Out3 :=
  let w0 := s.worldOf s.iss.core s.iss.ctx
  if p < 0x30 then .next (s.putV 1 0 d v)
  else if p = 0x40 ∨ p = 0x41 then
    let b := decide (p = 0x41)
    if s.noFifo then s.windowMiss
    else if s.curArr.cap ≤ (s.curPos.fifo b).q.length then
      s.raise fTIMING (BitVec.ofNat 64 (1 + (if b then 256 else 0))) 0
    else .next ((s.unpush (s.iss.core % 2) b).arrLater 1 (.push (s.iss.core % 2) b (mFmt s.curPos.mode) (entryOf (mFmt s.curPos.mode) v)))
  else if p < 0xC0 then s.convertTrigger p v
  else if 0xD8 ≤ p ∧ p ≤ 0xDA then
    .next ((s.unitBusy 1 16).unitLater 16 0xE0 (.lines (transposeLines (2 ^ (p - 0xD8 + 3)) s.curCore)))
  else if 0xF1 ≤ p ∧ p ≤ 0xF3 then s.gatherTrigger p v
  else if 0x100 ≤ p ∧ p ≤ 0x103 then
    if w0 = 0 then s.raise fWORLD 0 0
    else if p = 0x100 then .next (s.unitLater 1 p (.port p v))
    else s.shaTrigger p v
  else if p = 0x111 then (if s.cur.proc then s.ecdsaTrigger v else s.perm 1)
  else if p = 0x120 then s.expandTrigger v
  else if p = 0x121 then s.compressTrigger v
  else .next (s.unitLater 1 p (.port p v))

/-- Ports of the compress units, absent on some variants (R22), and FIFO ports, absent on a supervisor core (R430). -/
def State.portGone (s : State) (p : Nat) : Bool :=
  (decide (0x120 ≤ p ∧ p ≤ 0x122) && !s.hasCmp) || (decide (p = 0x40 ∨ p = 0x41) && isSupervisor s.iss.core)

/-- MV (R211, R220). DESIGN CHOICE (log 106): where the source port and the destination port both fault, the source port's fault is raised. -/
def execMv (g : Guard) (d t : Code) (x : Ext) (s : State) : Out3 :=
  let i := Instr.mv g d t x
  let p := mvDst d x
  let q := mvSrc t x
  sop i (s.iss.triggers p || (s.guardOn i && s.unitTaken p)) (s.portGone p || s.portGone q) s fun s =>
    if q = 0x102 ∧ s.worldOf s.iss.core s.iss.ctx = 0 then s.raise fWORLD 0 0
    else if q = 0x112 ∧ s.cur.proc = false then s.perm 1
    else s.moveInto p d (if q < 0x40 then s.rdVn q else s.portRead q)

/-- MVI (R211). -/
def execMvi (g : Guard) (d : Code) (i : BitVec 12) (x : Ext) (s : State) : Out3 :=
  let op := Instr.mvi g d i x
  let p := mvDst d x
  sop op (s.iss.triggers p || (s.guardOn op && s.unitTaken p)) (s.portGone p) s fun s =>
    s.moveInto p d (lane0 (i.signExtend 32).toNat)

-- ## Landings (R212)

def ListOut.by_ (o : ListOut) : ListBy := plainTr o.peer o.ctx o.world
/-- All that is left of a list written, and the failure that ends it. -/
def State.outAll (s : State) (o : ListOut) : State × Option (Nat × Nat × Nat × Nat × Nat) :=
  s.listAddAll o.by_ 0 o.peer o.world o.base o.len (o.ridx.getD (s.listRead o.by_ 0 o.peer o.world (o.base + 8))) o.es 0
/-- The failure of a list write as the issuing context's deferred fault (R173). -/
def State.listFault (s : State) (core : Nat) (o : ListOut) (f : Nat × Nat × Nat × Nat) : State :=
  s.defer core o.ctx o.gen.toNat o.launch (causeFault f.2.2.1) (BitVec.ofNat 64 (f.2.2.2 % 2 ^ 57)) (walkWord 0 f.1 f.2.1 1 f.2.2.1) o.addr

/-- A convert result's list entries at their landing (R173, R214): written at once in a scratchpad; for global memory they wait for the die's
path (R25), while a write that is bound to fail, with all that the core has still to write before it, is reported now. -/
def State.landList (s : State) (core base len sp peer ctx : Nat) (gen : BitVec 16) (launch world addr : Nat) (es : List (Nat × Nat)) :
    State :=
  let o : ListOut := ⟨base, len, peer, ctx, gen, launch, world, addr, es, none, false⟩
  if sp ≠ 0 then
    let by_ := plainTr peer ctx world
    (s.listAddAll by_ sp peer world base len (s.listRead by_ sp peer world (base + 8)) es 0).1
  else
    let ahead := (s.core core).lists.foldl (fun t o => (t.outAll o).1) s
    let (t, o1) := match if ahead.listClear o.by_ 0 peer world base len es.length then (ahead.outAll o).2 else none with
      | some (_, f) => (s.listFault core o f, { o with told := true })
      | none => (s, o)
    t.modCore core fun k => { k with lists := k.lists ++ [o1] }
/-- The first entry of the first list that still waits is written, once the buffered updates of its lines have merged (R317). A failure ends its
list and is reported, if it has not been. -/
def State.writeList (s : State) (core : Nat) : State :=
  match (s.core core).lists with
  | [] => s
  | o :: rest =>
    if !s.listClear o.by_ 0 o.peer o.world o.base o.len 1 then s
    else
      let r := o.ridx.getD (s.listRead o.by_ 0 o.peer o.world (o.base + 8))
      match s.outAll { o with es := o.es.take 1 } with
      | (t, none) => t.modCore core fun k => { k with lists := if o.es.length ≤ 1 then rest else { o with es := o.es.drop 1, ridx := some r } :: rest }
      | (t, some (_, f)) => (if o.told then t else t.listFault core o f).modCore core fun k => { k with lists := rest }

/-- A unit's effect at its landing. -/
def State.landUnit (s : State) (core : Nat) (f : UFlight) : State :=
  match f.eff with
  | .port p v => s.modCore core fun k => { k with ports := NMap.set k.ports p v }
  | .lines vs => s.modCore core fun k =>
    { k with ports := (List.range 8).foldl (fun m i => NMap.set m (0xE0 + i) (vs.getD i 0)) k.ports }
  | .write a d | .writeT1 a d => s.modCore core fun k => { k with spad := spadWrite k.spad a d }
  | .list base len sp peer ctx gen launch world addr es => s.landList core base len sp peer ctx gen launch world addr es

/-- Is a unit operation due that comes ahead of the T ports' stores, or one that comes with T1's (R198)? -/
def Core.unitDue (k : Core) (t1 : Bool) (f : UFlight) : Bool :=
  decide (f.due ≤ k.ccyc) && (match f.eff with | .writeT1 _ _ => t1 | _ => !t1)
/-- UNIT_RESULT_LANDING (R173, R198, R212): the core's unit results that are due land; where there are none, the stores that retired contexts left
on the T1 port perform; where none of these is due either, a list entry goes into global memory. -/
def execUnitResultLanding (core : Nat) (s : State) : Out3 :=
  let k0 := s.core core
  let lands := k0.unitDue (!k0.flight.any (k0.unitDue false))
  let due := (s.core core).flight.filter lands
  if due.isEmpty then .next (s.writeList core) else
  let s1 := s.modCore core fun k => { k with flight := k.flight.filter fun f => !lands f }
  .next (due.foldl (fun s f => s.landUnit core f) s1)

end Sys2Proof.Machine
end

