-- ==== Sys2Proof/Machine/Array.lean ====
section
/-! DEFINITION. The matrix array: XBEAT and the other X instructions (R254 to R279), routing of filter rows (R283, R287), and the
landings of array effects. -/

namespace Sys2Proof.Machine

-- ## Elements of rows and planes

/-- A row of the accumulators: element c in bits 64c and up. -/
abbrev AccRow := BitVec 8192
def Arr.row (a : Arr) (r : Nat) : AccRow := NMap.getD a.rows r 0
def rowEl (v : AccRow) (c : Nat) : Nat := (v.extractLsb' (64 * c) 64).toNat
def setRowEl (v : AccRow) (c x : Nat) : AccRow :=
  (v &&& ~~~(BitVec.ofNat 8192 (2 ^ 64 - 1) <<< (64 * c))) ||| (BitVec.ofNat 8192 (x % 2 ^ 64) <<< (64 * c))
/-- The row with elements 0 to n - 1 replaced. -/
def mapRow (v : AccRow) (f : Nat → Nat) (n : Nat) : AccRow := (List.range n).foldl (fun w c => setRowEl w c (f c)) v

/-- The signed value of a 48-bit accumulator element in INT8 mode. -/
def s48 (x : Nat) : Int := (BitVec.ofNat 48 x).toInt
/-- Saturation at ±(2^47 - 1) (R159): the element and whether it saturated. -/
def clamp48 (z : Int) : Nat × Bool :=
  let m : Int := 2 ^ 47 - 1
  if m < z then ((BitVec.ofInt 48 m).toNat, true)
  else if z < -m then ((BitVec.ofInt 48 (-m)).toNat, true)
  else ((BitVec.ofInt 48 z).toNat, false)

/-- An exact integer value. -/
def Num.toInt : Num → Int
  | .fin s m e => signed s (if 0 ≤ e then m * 2 ^ e.toNat else m / 2 ^ (-e).toNat)
  | _ => 0

/-- The value of an accumulator element under an operand format (R255). -/
def accNum (fmt x : Nat) : Num := if fmt = 3 then numOfInt (s48 x) else fp48 x

/-- The magnitude of a value. -/
def Num.abs : Num → Num
  | .nan => .nan
  | .inf _ => .inf false
  | .fin _ m e => .fin false m e

/-- The test of R272 on a sum and its prediction. -/
def sumFails (tau x p : Num) : Bool :=
  match x, p with
  | .nan, _ => true
  | _, .nan => true
  | .inf a, .inf b => a != b
  | .inf _, _ => true
  | _, .inf _ => true
  | _, _ =>
    let big := if Num.lt false x.abs p.abs then p.abs else x.abs
    Num.lt false (Num.mul tau big) (Num.add 0 x p.neg).abs

/-- A sum in FP48, in list order (R272, R273). -/
def sum48 : List Num → Num
  | [] => .fin false 0 0
  | x :: xs => xs.foldl (fun a y => fp48 (add48 a y).1) x

/-- The dot product of R159: exact products, each further one added and rounded to FP48; and whether one saturated. -/
def dot48 : List Num → Num × Bool
  | [] => (.fin false 0 0, false)
  | x :: xs => xs.foldl (fun a y => let r := add48 a.1 y; (fp48 r.1, a.2 || r.2)) (x, false)

/-- An element of a plane row or FIFO entry. -/
def planeNum (fmt : Nat) (v : Vec) (i : Nat) : Num := decodeTy fmt (elem fmt v i)

/-- The FP32 sum of a shadow row (R263). -/
def rowSum32 (fmt : Nat) (v : Vec) (nc : Nat) : Nat :=
  if fmt = 5 then 0
  else
    match (List.range nc).map fun c => planeNum fmt v c with
    | [] => 0
    | x :: xs => (xs.foldl (fun a y => (encodeBin 23 0 false (Num.add 0 (decodeBin 23 a) y)).bits) (encodeBin 23 0 false x).bits)

-- ## The filter store (R283, R287)

/-- Row `k` of the filter store under a format, its elements in their lanes (R175, R283). -/
def Arr.filtRow (a : Arr) (fmt k : Nat) : Vec :=
  let w := tyBits fmt
  let z := if fmt = 0 then 4096 else if fmt = 1 ∨ fmt = 5 then 2048 else 1024
  let k := k % (512 * 4096 / z)
  let per := 4096 / z
  let unit := NMap.getD a.filt (k / per) 0
  let bitsAt := fun c => (unit.extractLsb' (k % per * z + c * w) w).toNat
  if fmt = 5 then ofResidues fun i => if i < 32 then bitsAt i else 0 else ofLanesN bitsAt

/-- The action table of an element (R286); at boot table 0 is the identity and the others are zero (R282). -/
def Arr.table (a : Arr) (g : Nat) : Vec := NMap.getD a.tables g (if g = 0 then ofLanesN fun i => i else 0)
def Arr.entry (a : Arr) (g t : Nat) : Nat := ((a.table g).lane t).toNat
def entA (e : Nat) : Nat := bits e 6 0
def entB (e : Nat) : Nat := bits e 14 8
def entW (e : Nat) : Nat := bits e 23 16

/-- The row that a `.filt` push writes for target site `t` under element `g` (R287). -/
def Arr.routed (a : Arr) (fmt g base t : Nat) : Vec :=
  let e := a.entry g t
  if g = 0 then a.filtRow fmt (base + t)
  else if a.inex = 0 then a.filtRow fmt (base + entA e)
  else
    let fa := a.filtRow fmt (base + entA e)
    let fb := a.filtRow fmt (base + entB e)
    let mix := fun c =>
      let x := Num.mul (numOfInt (256 - entW e : Nat)) (planeNum fmt fa c)
      let y := Num.mul (numOfInt (entW e)) (planeNum fmt fb c)
      (encodeTy fmt 0 false (Num.mul (.fin false 1 (-8)) (Num.add 0 x y))).bits
    if fmt = 5 then fa else ofLanesN mix

-- ## Checks (R258)

def Arr.w (a : Arr) : Nat := 2 ^ a.wsz
/-- Is the array cycle the position's own? -/
def Arr.inWindow (a : Arr) (p : Nat) : Bool := decide (a.mode ≠ 2) || decide (a.acyc % (2 * a.w) / a.w = p % 2)
/-- Does the position own row `r`? -/
def Arr.owns (a : Arr) (p r : Nat) : Bool := decide (a.mode ≠ 2) || decide (r / 32 = p % 2)

def State.curP (s : State) : Nat := s.iss.core % 2
/-- May an X word of the issuing core that names these rows go ahead (R258)? -/
def State.windowOk (s : State) (rows : List Nat) : Bool :=
  s.curArr.holds s.curP && s.curArr.inWindow s.curP && rows.all fun r => s.curArr.owns s.curP r
/-- The common frame of a windowed X word: no X word on a supervisor core (R430). -/
def xop (i : Instr) (bad gone : Bool) (rows : List Nat) (s : State) (k : State → Out3) : Out3 :=
  sop i bad (isSupervisor s.iss.core || gone) s fun s => if s.windowOk rows then k s else s.windowMiss

-- ## XBEAT (R262 to R269, R276)

/-- The array modulus of a position: 0 where it is invalid. -/
def Pos.mod (p : Pos) : Nat := if modValid p.modulus.toNat then p.modulus.toNat else 0

/-- The column sums of a contribution of entry `e` under plane `pl` (R159, R264, R276), and whether an addition saturated. -/
def colSums (fmt kr nc modulus : Nat) (e : Vec) (pl : Plane) : List Num × Bool :=
  let rows := (List.range kr).map fun i => NMap.getD pl.rows i 0
  if fmt = 5 then
    ((List.range nc).map fun c =>
      if modulus = 0 then .fin false 0 0
      else .fin false (((List.range kr).foldl (fun s i => s + residue e i % modulus * (residue (rows.getD i 0) c % modulus)) 0) % modulus) 0,
     false)
  else if fmt = 3 then
    ((List.range nc).map fun c =>
      numOfInt ((List.range kr).foldl (fun s i => s + (planeNum 3 e i).toInt * (planeNum 3 (rows.getD i 0) c).toInt) 0), false)
  else
    let cols := (List.range nc).map fun c =>
      dot48 ((List.range kr).map fun i => Num.mul (planeNum fmt e i) (planeNum fmt (rows.getD i 0) c))
    (cols.map (·.1), cols.any (·.2))

/-- The prediction of the checksum column (R272). -/
def rowPredict (fmt kr : Nat) (e : Vec) (pl : Plane) : Num :=
  (dot48 ((List.range kr).map fun i => Num.mul (planeNum fmt e i) (decodeBin 23 (NMap.getD pl.rs i 0)))).1

/-- Latency of a contribution (R270). -/
def contribLat (fmt kr nc : Nat) : Nat := if fmt = 5 then 8 + 4 * kr + nc else 6 + kr + nc

/-- One contribution asked of the array (R264). -/
def State.contribute (s : State) (row : Nat) (shift : Bool) (e : Vec) : State :=
  let q := s.curPos
  let m := q.mode
  let fmt := mFmt m
  let (sums, ofl) := colSums fmt (mKr m) (mNc m) q.mod e q.act
  let cks := if mCk m && s.iss.c then some (rowPredict fmt (mKr m) e q.act) else none
  s.arrLater (contribLat fmt (mKr m) (mNc m)) (.contrib s.curP row shift fmt (mNc m) q.mod sums ofl cks q.act.tag)

/-- Two entries a beat (R265). -/
def twoMacs (fmt : Nat) : Bool := decide (fmt = 2 ∨ fmt = 3)
/-- The A entries that a stream action pops. -/
def State.beatNeeds (s : State) : Nat := if twoMacs (mFmt s.curPos.mode) then 2 else 1
/-- The rows a beat names. -/
def State.beatRows (s : State) (st : BitVec 2) (r : Code) : List Nat :=
  if st = 0 then [] else if st ≠ 3 && twoMacs (mFmt s.curPos.mode) then [r.toNat, r.toNat + 1] else [r.toNat]

/-- A drain of a row (R267, R272, R294); of a held bundle it issues in the last cycle of the hold, and its result lands from there (log 61).
DEDUCED (log 92): a row's sticky OF is reported as OF and a saturation of its INT8 sums as SAT at every drain, also one under another format. -/
def State.drainRow (s : State) (r ty : Nat) (d : Code) : State :=
  let a := s.curArr
  let q := s.curPos
  let m := q.mode
  let fmt := mFmt m
  let nc := mNc m
  let row := a.row r
  let md := q.mod
  let outs := (List.range nc).map fun c => encodeTy ty (s.rm 0) s.ftz (accNum fmt (rowEl row c))
  let sticky := causeIf (a.of_.getLsbD r) cOF ||| causeIf (a.sat_.getLsbD r) cSAT
  let causes := if fmt = 5 then sticky ||| causeIf (decide (md = 0)) cBADMOD else outs.foldl (fun c o => c ||| o.causes) sticky
  let v := if fmt = 5 then ofResidues fun c => if c < nc ∧ md ≠ 0 then rowEl row c % md else 0
    else ofLanesN fun c => (outs.getD c ⟨0, 0, 0⟩).bits
  let s1 := (((s.putV (4 + s.heldFor) causes d v).arrLater 4 (.busy s.curP)).arrLater 1 (.ldc s.curP (NMap.getD a.coord r 0)))
  if mCk m && s.iss.c && decide (fmt ≠ 3) then
    let x := sum48 ((List.range nc).map fun c => fp48 (rowEl row c))
    let p := fp48 (NMap.getD a.rpred r 0)
    if sumFails (decodeBin 23 (mTau m)) x p then s1.arrLater 4 (.rowFail s.curP r (rnd48 (Num.add 0 x p.neg)).1) else s1
  else s1

/-- The weight action of a beat (R263, R269). -/
def State.pushWeight (s : State) (w : BitVec 2) (base : Nat) : State :=
  let q := s.curPos
  let m := q.mode
  let put := fun (s : State) (v : Vec) (tag : Nat) =>
    s.arrLater 1 (.shadow s.curP q.srp v (rowSum32 (mFmt m) v (mNc m)) tag (mKr m))
  if w = 1 then (s.arrLater 1 (.popB s.curP)) |> fun s => put s (s.issuePos.fb.q.headD (0, 0)).2 0
  else if w = 2 then put s (s.curArr.routed (mFmt m) q.sel base q.srp) q.sel
  else s

/-- XBEAT (R262 to R269). -/
def execXbeat (g : Guard) (st w : BitVec 2) (p : BitVec 1) (r : Code) (o : BitVec 12) (x : Ext) (s : State) : Out3 :=
  let close := decide (st ≠ 0) && (match s.curPos.lastRes with | some t => decide (s.curArr.clk < t + 4) | none => false)
  let op : Instr := .xbeat g st w p r o x
  xop op close false (s.beatRows st r) s fun s =>
    let fmt := mFmt s.curPos.mode
    let q := s.issuePos
    let acc := st = 1 ∨ st = 2
    let ty := bits x.byte.toNat 2 0
    let d : Code := o.extractLsb' 0 6
    if acc ∧ twoMacs fmt = true ∧ r.toNat % 2 = 1 then s.range 0 (r.setWidth 64)
    else if st = 3 ∧ ((fmt = 5) ≠ (ty = 5)) then s.range 0 (BitVec.ofNat 64 ty)
    else if acc ∧ q.fa.q.length < s.beatNeeds then s.raise fTIMING 0 0
    else if w = 1 ∧ q.fb.q.length < 1 then s.raise fTIMING 0x100 0
    else
      let s1 := if acc then
          let s1 := (List.range s.beatNeeds).foldl (fun t j => t.contribute (r.toNat + j) (decide (st = 1)) (q.fa.q.getD j (0, 0)).2) s
          let s2 := s1.arrLater 1 (.popA s.curP s.beatNeeds)
          if fmt = 5 then s2.modCurArr fun a => a.modPos s.curP fun q => { q with lastRes := some a.clk } else s2
        else if st = 3 then s.drainRow r.toNat ty d
        else s
      let s2 := s1.pushWeight w (if st = 3 then (o.toNat / 64) else o.toNat)
      .next (if p = 1 then s2.arrLater 1 (.swap s.curP) else s2)

-- ## The other X instructions

/-- A tolerance that R261 and R273 refuse. -/
def tauBad (t : Nat) : Bool :=
  match decodeBin 23 t with
  | .fin s m _ => s && decide (m ≠ 0)
  | _ => true

/-- The field of a mode word that breaks R261 (R356), the first that does. -/
def modeBad (m : Word) : Option Nat :=
  let f := mFmt m
  let cap := if f = 0 then 64 else if f = 5 then 32 else 128
  if m &&& 0xFE8080F8 ≠ 0 then some (m &&& 0xFE8080F8).toNat
  else if f = 4 ∨ f = 6 ∨ f = 7 then some f
  else if cap < mKr m then some (mKr m - 1)
  else if cap < mNc m then some (mNc m - 1)
  else if mCk m && decide (f = 3 ∨ f = 5) then some 1
  else if mCk m && tauBad (mTau m) then some (mTau m)
  else none

/-- XMODE (R260, R261). -/
def execXmode (g : Guard) (a : Code) (s : State) : Out3 :=
  let i := Instr.xmode g a
  xop i (s.curArr.inFlight s.curP) (s.guardOn i && !s.hasRes && decide (mFmt (s.rdS a) = 5)) [] s fun s =>
    match modeBad (s.rdS a) with
    | some v => s.range 0 (BitVec.ofNat 64 v)
    | none => .next (s.arrLater 1 (.xmode s.curP (s.rdS a)))

/-- XZERO (R271). -/
def execXzero (g : Guard) (r : Code) (s : State) : Out3 :=
  xop (.xzero g r) false false [r.toNat] s fun s => .next (s.arrLater 1 (.xzero r.toNat))

/-- The block that XCKS and XFIX name (R273): first row and number, where it is legal. -/
def blockOf (a : Word) : Nat × Nat := (bits a.toNat 5 0, bits a.toNat 13 8 + 1)
/-- The field of it that is not legal (R356): the first row, where the block runs past row 63, else the bits that must be zero. -/
def blockBad (a : Word) : Option Word :=
  if 64 < (blockOf a).1 + (blockOf a).2 then some (BitVec.ofNat 64 (blockOf a).1)
  else if a &&& 0xFFFFFFFFFFFFC0C0 ≠ 0 then some (a &&& 0xFFFFFFFFFFFFC0C0)
  else none
def blockRows (a : Word) : List Nat := (List.range (blockOf a).2).map fun i => (blockOf a).1 + i

/-- XCKS (R273): status word and verdict land in one cycle, also those of a held bundle (log 61). -/
def execXcks (g : Guard) (d a b : Code) (s : State) : Out3 :=
  xop (.xcks g d a b) false false [] s fun s =>
    let v := s.rdS a
    let t := (s.rdS b).toNat % 2 ^ 32
    let q := s.curPos
    let r := s.curArr
    let p := s.curP
    if let some x := blockBad v then s.range 0 x
    else if tauBad t then s.range 0 (BitVec.ofNat 64 t)
    else if !mCk q.mode then s.range 0 0
    else if !(blockRows v).all fun k => r.owns p k then s.windowMiss
    else
      let tau := decodeBin 23 t
      let nc := mNc q.mode
      let rows := blockRows v
      let el := fun k c => fp48 (rowEl (r.row k) c)
      let allck := rows.all fun k => q.checked.getLsbD k
      let rs := rows.map fun k =>
        let x := sum48 ((List.range nc).map fun c => el k c)
        let y := fp48 (NMap.getD r.rpred k 0)
        (k, sumFails tau x y || !q.checked.getLsbD k, (rnd48 (Num.add 0 x y.neg)).1)
      let cs := (List.range nc).map fun c =>
        let x := sum48 (rows.map fun k => el k c)
        let y := fp48 (NMap.getD q.cpred c 0)
        (c, sumFails tau x y || !allck, (rnd48 (Num.add 0 x y.neg)).1)
      let set := fun (l : List (Nat × Bool × Nat)) => (l.filter fun e => e.2.1).foldl (fun n e => n + 2 ^ e.1) 0
      let cnt := fun (l : List (Nat × Bool × Nat)) => (l.filter fun e => e.2.1).length
      let any := decide (cnt rs + cnt cs ≠ 0)
      let st := cnt rs + cnt cs * 2 ^ 8 + (if allck then 0 else 2 ^ 61) + (if any then 2 ^ 63 else 0)
      let s1 := s.modCurArr fun a => a.modPos p fun q => { q with cpred := [], checked := 0 }
      let s2 := (s1.arrLater 10 (.busy p)).arrLater 10
        (.verdict p (BitVec.ofNat 64 (set rs)) (BitVec.ofNat 128 (set cs)) (rs.map fun e => (e.1, e.2.2)) (cs.map fun e => (e.1, e.2.2)) (!allck))
      .next (s2.putS (10 + s.heldFor) 0 d (BitVec.ofNat 64 st))

/-- Places of the set bits of a mask. -/
def setBits (w : Nat) (n : Nat) : List Nat := (List.range w).filter fun i => n.testBit i

/-- XFIX (R274): correction and status word land in one cycle (log 61). -/
def execXfix (g : Guard) (d a : Code) (s : State) : Out3 :=
  xop (.xfix g d a) false false [] s fun s =>
    let v := s.rdS a
    let q := s.curPos
    let r := s.curArr
    let p := s.curP
    if let some x := blockBad v then s.range 0 x
    else if !mCk q.mode then s.range 0 0
    else if !(blockRows v).all fun k => r.owns p k then s.windowMiss
    else
      let fr := (blockRows v).filter fun k => q.fr.getLsbD k
      let fc := setBits 128 q.fc.toNat
      let n := fr.length + fc.length * 2 ^ 8
      if q.ux || decide (2 ≤ fr.length * fc.length) then s.raise fCHECKSUM (BitVec.ofNat 64 n) 0
      else
        let s1 := s.arrLater 10 (.busy p)
        match fr, fc with
        | [], [] => .next (s1.putS (10 + s.heldFor) 0 d 0)
        | [k], [c] =>
          .next ((s1.arrLater 10 (.fix p (some { row := k, col := c, pre := rowEl (r.row k) c }))).putS (10 + s.heldFor) 0 d (BitVec.ofNat 64 (c * 2 ^ 8 + k + 2 ^ 63)))
        | _, _ => .next ((s1.arrLater 10 (.fix p none)).putS (10 + s.heldFor) 0 d (BitVec.ofNat 64 (n + 2 ^ 62)))

/-- XRES (R275). -/
def execXres (g : Guard) (k : Code) (s : State) : Out3 :=
  xop (.xres g k) false (!s.hasRes) [] s fun s => .next (s.arrLater 1 (.xres s.curP (NMap.getD s.cur.md k.toNat 0)))

/-- XWIN (R259): not bound to a window itself. -/
def execXwin (g : Guard) (a : Code) (s : State) : Out3 :=
  sop (.xwin g a) false (isSupervisor s.iss.core) s fun s =>
    let k := (s.rdS a).toNat % 16
    let r := s.curArr
    if !r.holds s.curP then s.windowMiss
    else if (r.mode = 2 ∧ 2 * r.w ≤ k) ∨ (r.mode ≠ 2 ∧ k ≠ 0) then s.range 0 (BitVec.ofNat 64 k)
    else .next (s.await (.win k))

/-- XINJ (R277). -/
def execXinj (g : Guard) (r a b : Code) (s : State) : Out3 :=
  sop (.xinj g r a b) false (isSupervisor s.iss.core) s fun s =>
    let v := s.rdS a
    if !(s.cur.proc || s.dbg) then s.perm 1
    else if !s.windowOk [] then s.windowMiss
    else if v &&& 0xFFFFFFFFFFFFFF00 ≠ 0 then s.range 0 (v &&& 0xFFFFFFFFFFFFFF00)
    else .next (s.arrLater 1 (.flip r.toNat (bits v.toNat 6 0) (v.getLsbD 7) ((s.rdS b).setWidth 48)))

-- ## Landings (R264, R268, R270)

/-- A new value of an accumulator element (R159, R264, R276): the contribution alone, or added. -/
def accAdd (fmt modulus : Nat) (shift : Bool) (old : Nat) (x : Num) : Nat × Bool :=
  if fmt = 5 then
    let v := x.toInt.toNat
    (if shift then v else if modulus = 0 then 0 else (old + v) % modulus, false)
  else if fmt = 3 then clamp48 ((if shift then 0 else s48 old) + x.toInt)
  else if shift then rnd48 x else add48 (fp48 old) x

/-- An addition to a row has overflowed: its sticky OF is set, or an INT8 sum's saturation is noted (R159, R267). -/
def Arr.stick (a : Arr) (fmt row : Nat) (sat : Bool) : Arr :=
  let b : BitVec 64 := BitVec.ofNat 64 (2 ^ row)
  if !sat then a else if fmt = 3 then { a with sat_ := a.sat_ ||| b } else { a with of_ := a.of_ ||| b }

/-- A contribution is added to an element (R264). -/
def Late.addTo (k : Late) (old : Nat) : Nat := (accAdd k.fmt k.modulus k.shift old k.sum).1
/-- What an XFIX whose element a contribution reaches knows of it: one that lands in the correction's own cycle was issued before and
applies first (R268), any other lands before the correction does (R274). -/
def FixAt.note (x : FixAt) (same : Bool) (k : Late) : FixAt :=
  if same then { x with pre := k.addTo x.pre, late := if k.shift then [] else x.late } else { x with late := x.late ++ [k] }
/-- The contributions that an XFIX finds in its way, each on its own as R7 has it: with it, or not at all (R274). -/
def FixAt.kept (x : FixAt) (newer : Nat → Bool) : List Late :=
  (x.late.zipIdx.filter fun k => newer k.2).map (·.1)

/-- What an XFIX in flight on an element of `row` knows of it, as another effect lands in the row (R274). -/
def Arr.touch (a : Arr) (row : Nat) (g : FixAt → FixAt) : Arr :=
  { a with flight := a.flight.map fun f => match f.eff with
      | .fix q (some x) => if x.row = row then { f with eff := .fix q (some (g x)) } else f
      | _ => f }

/-- The XFIXes in flight on a row note a contribution to its first `nc` elements (R268, R274). -/
def Arr.noteFix (a : Arr) (row nc : Nat) (k : Nat → Late) : Arr :=
  { a with flight := a.flight.map fun f => match f.eff with
      | .fix q (some x) => if x.row = row ∧ x.col < nc then { f with eff := .fix q (some (x.note (decide (f.due ≤ a.clk)) (k x.col))) } else f
      | _ => f }

/-- A contribution lands (R264, R269, R272, R273); an XFIX in flight on its row notes it (R268, R274). -/
def Arr.landContrib (a : Arr) (p row : Nat) (shift : Bool) (fmt nc modulus : Nat) (sums : List Num) (ofl : Bool) (cks : Option Num)
    (coord : Nat) : Arr :=
  let old := a.row row
  let new := fun c => accAdd fmt modulus shift (rowEl old c) (sums.getD c (.fin false 0 0))
  let sat := ofl || (List.range nc).any fun c => (new c).2
  let a1 := { (a.noteFix row nc (fun c => ⟨fmt, modulus, shift, sums.getD c (.fin false 0 0)⟩)).stick fmt row sat with
    rows := NMap.set a.rows row (mapRow old (fun c => (new c).1) nc)
    coord := if shift then NMap.set a.coord row coord else a.coord }
  match cks with
  | none => a1.modPos p fun q => { q with checked := q.checked &&& ~~~BitVec.ofNat 64 (2 ^ row) }
  | some q =>
    let pr := if shift then (rnd48 q).1 else (add48 (fp48 (NMap.getD a1.rpred row 0)) q).1
    { a1 with rpred := NMap.set a1.rpred row pr }.modPos p fun t =>
      { t with
        checked := if shift then t.checked ||| BitVec.ofNat 64 (2 ^ row) else t.checked
        cpred := (List.range nc).foldl (fun m c =>
          NMap.set m c (add48 (fp48 (NMap.getD m c 0)) (sums.getD c (.fin false 0 0))).1) t.cpred }

/-- An emptied FIFO (R207, R261). DESIGN CHOICE (log 105): the entries are gone, and FLEV's counts of pushes and pops stand. -/
def emptyFifo (f : Fifo) : Fifo := { f with q := [] }
def Pos.emptyFifos (q : Pos) : Pos := { q with fa := emptyFifo q.fa, fb := emptyFifo q.fb }

/-- XMODE takes effect (R261, R274, R293). -/
def Pos.landMode (q : Pos) (w : Word) : Pos :=
  let q1 := { q with mode := w, srp := 0, cpred := [], ux := false, checked := 0 }
  let q2 := if mFmt q.mode ≠ mFmt w then q1.emptyFifos else q1
  if mFmt q.mode ≠ mFmt w ∨ mKr q.mode ≠ mKr w then { q2 with sel := 0 } else q2

/-- GORB's additions land (R296). -/
def Arr.landOrb (a : Arr) (b nc fmt : Nat) (terms : List (Nat × Num × List Num)) : Arr :=
  terms.foldl (fun a t =>
    let row := b + t.1
    let old := a.row row
    let new := fun c => accAdd fmt 0 false (rowEl old c) (Num.mul t.2.1 (t.2.2.getD c (.fin false 0 0)))
    let sat := (List.range nc).any fun c => (new c).2
    let fix := fun (x : FixAt) =>
      if x.col < nc then { x with pre := (accAdd fmt 0 false x.pre (Num.mul t.2.1 (t.2.2.getD x.col (.fin false 0 0)))).1 } else x
    { (a.touch row fix).stick fmt row sat with
      rows := NMap.set a.rows row (mapRow old (fun c => (new c).1) nc)
      coord := NMap.erase a.coord row }) a

/-- XFIX's correction lands (R274): the element less its residue, with or without each contribution that has landed since. -/
def Arr.landFix (a : Arr) (newer : Nat → Bool) (p : Nat) (x : FixAt) : Arr :=
  let v := (rnd48 (Num.add 0 (fp48 x.pre) (fp48 (NMap.getD (a.pos p).cres x.col 0)).neg)).1
  let y := (x.kept newer).foldl (fun v k => k.addTo v) v
  { a.touch x.row fun z => if z.col = x.col then { z with pre := y, late := [] } else z with
    rows := NMap.set a.rows x.row (setRowEl (a.row x.row) x.col y) }

/-- The six low bits of each of 64 bytes: an element index of the Cayley table (R282). -/
def sixBits : BitVec 512 := BitVec.ofNat 512 ((2 ^ 512 - 1) / 255 * 63)

/-- An array effect's landing; `newer` says of each of several contributions which of two permitted results stands (R274). That XZERO leaves
a row `checked` is read from R271 and R273: R271 lists what it clears, and only a contribution ends that state (log 89). -/
def Arr.land (a : Arr) (newer : Nat → Bool) (e : AEff) : Arr :=
  match e with
  | .contrib p row sh fmt nc m sums ofl cks coord => a.landContrib p row sh fmt nc m sums ofl cks coord
  | .ldc p v => a.modPos p fun q => { q with ldc := v }
  | .arrmode w => { a with mode := bits w.toNat 1 0, wsz := bits w.toNat 3 2, base := a.clk,
                           p0 := { a.p0.emptyFifos with srp := 0 }, p1 := { a.p1.emptyFifos with srp := 0 } }
  | .xzero r =>
    let off := ~~~BitVec.ofNat 64 (2 ^ r)
    let clr := fun (q : Pos) => { q with fr := q.fr &&& off }
    let a0 := a.touch r fun x => { x with pre := 0, late := [] }
    let a1 := { a0 with rows := NMap.erase a.rows r, of_ := a.of_ &&& off, sat_ := a.sat_ &&& off, rpred := NMap.erase a.rpred r,
                        coord := NMap.erase a.coord r }
    if a.mode = 2 then a1.modPos (r / 32) clr else a1.modPos a.mode clr
  | .xmode p w => a.modPos p fun q => q.landMode w
  | .xres p m => a.modPos p fun q => { q with modulus := m }
  | .verdict p fr fc rr cr ux => a.modPos p fun q =>
    { q with fr := fr, fc := fc, ux := ux, rres := rr.foldl (fun m e => NMap.set m e.1 e.2) q.rres,
             cres := cr.foldl (fun m e => NMap.set m e.1 e.2) q.cres }
  | .rowFail p r v => a.modPos p fun q => { q with fr := q.fr ||| BitVec.ofNat 64 (2 ^ r), rres := NMap.set q.rres r v }
  | .fix p hit =>
    let a1 := a.modPos p fun q => { q with fr := 0, fc := 0 }
    match hit with
    | none => a1
    | some x => a1.landFix newer p x
  | .flip r el pred v =>
    if pred then { a with rpred := NMap.set a.rpred r (NMap.getD a.rpred r 0 ^^^ v.toNat) }
    else
      let flip := fun (x : FixAt) => if x.col = el then { x with pre := x.pre ^^^ v.toNat } else x
      { a.touch r flip with rows := NMap.set a.rows r (setRowEl (a.row r) el (rowEl (a.row r) el ^^^ v.toNat)) }
  | .popA p n => a.modPos p fun q => { q with fa := { q.fa with q := q.fa.q.drop n, pops := q.fa.pops + n } }
  | .popB p => a.modPos p fun q => { q with fb := { q.fb with q := q.fb.q.drop 1, pops := q.fb.pops + 1 } }
  | .push p b fmt e => a.modPos p fun q => q.setFifo b ((q.fifo b).push fmt e)
  | .shadow p row v rs tag kr => a.modPos p fun q =>
    { q with shadow := { rows := NMap.set q.shadow.rows row v, rs := NMap.set q.shadow.rs row rs, tag := tag },
             srp := if row + 1 = kr then 0 else row + 1 }
  | .swap p => a.modPos p fun q => { q with act := q.shadow, shadow := q.act, srp := 0 }
  | .busy _ => a
  | .gsel p w => a.modPos p fun q => { q with sel := w }
  | .gloadStart => { a with chk := 0, p0 := { a.p0 with sel := 0 }, p1 := { a.p1 with sel := 0 } }
  | .gtables n kind inex =>
    let t := (List.range n).foldl (fun m g => NMap.set m g (a.gunits.getD g 0)) a.tables
    let cay := if kind = 0 then (List.range n).foldl (fun m g =>
        NMap.set m g (BitVec.extractLsb' (512 * (g % 8)) 512 (a.gunits.getD (n + g / 8) 0) &&& sixBits)) a.cayley
      else a.cayley
    { a with tables := t, cayley := cay, gn := n, kind := kind, inex := inex, krc := 0, dev := 0 }
  | .gfilter u n => { a with filt := (List.range n).foldl (fun m k => NMap.set m (u + k) (a.gunits.getD k 0)) a.filt }
  | .gchkStart => { a with chk := 3 }
  | .gchkEnd krc dev st _ _ _ _ _ => if st.getLsbD 0 then { a with chk := 1, krc := krc, dev := dev } else { a with chk := 2, dev := 0 }
  | .gorb b nc fmt terms => a.landOrb b nc fmt terms
  | .gread _ _ => a

/-- Is the effect a push or a pop of position `p`'s FIFOs? -/
def isFifo (p : Nat) : AEff → Bool
  | .popA q _ => decide (q = p)
  | .popB q => decide (q = p)
  | .push q _ _ _ => decide (q = p)
  | _ => false
/-- What a bundle asked of its position's FIFOs is committed at its check point (R208, R263). -/
def Arr.commit (a : Arr) (p : Nat) : Arr :=
  (a.flight.filter fun f => isFifo p f.eff).foldl (fun a f => a.land (fun _ => false) f.eff) { a with flight := a.flight.filter fun f => !isFifo p f.eff }

/-- The bundle of core `c` is past its check point: what it asked of its FIFOs stands. -/
def State.commitFifos (s : State) (c : Nat) : State :=
  if (s.arr (pairOf c)).flight.any fun f => isFifo (c % 2) f.eff then s.modArr (pairOf c) fun a => a.commit (c % 2) else s

/-- The first effect of an array that is due and of the kind asked for (R268: in issue order). -/
def Arr.dueOf (a : Arr) (p : AEff → Bool) : Option AFlight := a.flight.find? fun f => decide (f.due ≤ a.clk) && p f.eff

/-- One landed effect taken out of the list. -/
def Arr.without (a : Arr) (f : AFlight) : Arr := { a with flight := a.flight.erase f }

def isContrib : AEff → Bool | .contrib _ _ _ _ _ _ _ _ _ _ => true | _ => false
def isOrb : AEff → Bool | .gorb _ _ _ _ => true | _ => false
def isGroupLoad : AEff → Bool
  | .gloadStart => true
  | .gtables _ _ _ => true
  | .gfilter _ _ => true
  | _ => false
def isVerdict : AEff → Bool | .gchkStart => true | .gchkEnd _ _ _ _ _ _ _ _ => true | _ => false
def isRead : AEff → Bool | .gread _ _ => true | _ => false
def isOther (e : AEff) : Bool := !(isContrib e || isOrb e || isGroupLoad e || isVerdict e || isRead e)

/-- The first due effect of a kind lands; each contribution that an XFIX finds in its way is an occasion of its own (R7, R274; log 2). -/
def State.landArr (s : State) (pair : Nat) (p : AEff → Bool) : State :=
  match (s.arr pair).dueOf p with
  | none => s
  | some f =>
    let p := match f.eff with | .fix p _ => p | _ => 0
    s.modArr pair fun a => (a.without f).land (fun k => newerAt (s.occ s.cyc) 5 (f.iss * 256 + k) (2 * pair + p)) f.eff

/-- CONTRIBUTION_LANDING (R264). -/
def execContributionLanding (pair : Nat) (s : State) : Out3 := .next (s.landArr pair isContrib)
/-- A write of a mode, which takes effect at issue + 1 (R257, R261): what its bundle did at its check point stands before it. -/
def isMode : AEff → Bool | .xmode _ _ => true | .arrmode _ => true | _ => false
/-- ARRAY_EFFECT_LANDING (R268). -/
def execArrayEffectLanding (pair : Nat) (s : State) : Out3 :=
  let plain := fun (e : AEff) => isOther e && !isMode e
  .next (s.landArr pair (if ((s.arr pair).dueOf plain).isSome then plain else isOther))

end Sys2Proof.Machine
end

