-- ==== Sys2Proof/Machine/Global.lean ====
section
/-! DEFINITION. The M instructions: global loads, stores, AMO, CAS, fences and prefetch, and their performance (R305 to R326). -/

namespace Sys2Proof.Machine

-- ## Slots and program order (R305, R323)

/-- How many accesses of a context satisfy `p`; the parts of one LDV or STV count once. -/
def Core.outstanding (k : Core) (x : Nat) (g : BitVec 16) (p : Access → Bool) : Nat :=
  ((k.access.filter fun a => a.of x g && p a).map (·.id)).dedup.length
/-- Has the context in issue a free load slot, a free store slot (R305)? -/
def State.loadRoom (s : State) : Bool :=
  decide (s.curCore.outstanding s.iss.ctx s.cur.gen Access.landing < Config.maxLoads)
def State.storeRoom (s : State) : Bool :=
  decide (s.curCore.outstanding s.iss.ctx s.cur.gen (fun a => decide (a.kind = 1) && !a.done) < Config.maxStores)

/-- An access of the operation in issue, before its kind is known. -/
def State.accessFrame (s : State) (e : TlbEntry) (va len : Nat) : Access :=
  { id := s.curCore.nextAccess, ctx := s.iss.ctx, gen := s.cur.gen, launch := s.cur.launch, kind := 0, pa := e.phys va, wtag := e.wtag,
    len := len, at_ := s.cyc }
/-- A fill of `line` asked for, unless one is under way (R307); `c` is the core whose L1 takes it. -/
def State.askFill (s : State) (c line cls : Nat) : State :=
  s.modCore c fun q => if q.fills.any fun f => decide (f.line = line) then q else { q with fills := q.fills ++ [⟨line, s.cyc, cls⟩] }

-- ## Loads and stores (R316)

/-- LD and LDV (R315, R316). -/
def loadOp (i : Instr) (d a o : Code) (x : Ext) (z : Nat) (vec : Bool) (s : State) : Out3 :=
  sop i false false s fun s =>
    let va := s.memEA a o z
    if va % z ≠ 0 then s.raiseWalk 0 va 0 0 0 3
    else s.translate va 0 0 fun e s =>
      match s.badLine e.wtag (e.phys va) z with
      | some l => s.raiseWalk 0 va 0 l 0 4
      | none => s.heldUntil s.loadRoom fun s =>
        let dest := if vec then (s.dstV d).map fun n => (true, n) else (s.dstS d).map fun n => (false, n)
        .next (s.enter { s.accessFrame e va z with dest := dest, fresh := x.byte.getLsbD 3, last := x.byte.getLsbD 4 } vec)

/-- ST and STV (R315, R316). -/
def storeOp (i : Instr) (a o : Code) (z : Nat) (val : State → Vec) (s : State) : Out3 :=
  sop i false false s fun s =>
    let va := s.memEA a o z
    if va % z ≠ 0 then s.raiseWalk 0 va 1 0 0 3
    else s.translate va 1 0 fun e s => s.heldUntil s.storeRoom fun s =>
      let acc := { s.accessFrame e va z with kind := 1, value := val s }
      .next ((s.enter acc (decide (z = 512) && !isWindow acc.pa)).dropL1 s.iss.core acc.pa z)

def scalarVal (v : Code) (s : State) : Vec := (s.rdS v).setWidth 4096

/-- LD.w8 (R316). -/
def execLdW8 (g : Guard) (d a o : Code) (x : Ext) (s : State) : Out3 := loadOp (.ldW8 g d a o x) d a o x 1 false s
/-- LD.w16 (R316). -/
def execLdW16 (g : Guard) (d a o : Code) (x : Ext) (s : State) : Out3 := loadOp (.ldW16 g d a o x) d a o x 2 false s
/-- LD.w32 (R316). -/
def execLdW32 (g : Guard) (d a o : Code) (x : Ext) (s : State) : Out3 := loadOp (.ldW32 g d a o x) d a o x 4 false s
/-- LD.w64 (R316). -/
def execLdW64 (g : Guard) (d a o : Code) (x : Ext) (s : State) : Out3 := loadOp (.ldW64 g d a o x) d a o x 8 false s
/-- LDV (R316). -/
def execLdv (g : Guard) (d a o : Code) (x : Ext) (s : State) : Out3 := loadOp (.ldv g d a o x) d a o x 512 true s
/-- ST.w8 (R316). -/
def execStW8 (g : Guard) (v a o : Code) (x : Ext) (s : State) : Out3 := storeOp (.stW8 g v a o x) a o 1 (scalarVal v) s
/-- ST.w16 (R316). -/
def execStW16 (g : Guard) (v a o : Code) (x : Ext) (s : State) : Out3 := storeOp (.stW16 g v a o x) a o 2 (scalarVal v) s
/-- ST.w32 (R316). -/
def execStW32 (g : Guard) (v a o : Code) (x : Ext) (s : State) : Out3 := storeOp (.stW32 g v a o x) a o 4 (scalarVal v) s
/-- ST.w64 (R316). -/
def execStW64 (g : Guard) (v a o : Code) (x : Ext) (s : State) : Out3 := storeOp (.stW64 g v a o x) a o 8 (scalarVal v) s
/-- STV (R316). -/
def execStv (g : Guard) (v a o : Code) (x : Ext) (s : State) : Out3 := storeOp (.stv g v a o x) a o 512 (fun s => s.rdV v) s

-- ## Performance (R307, R309, R315, R323)

/-- The parts of access `id` of a core changed where they start at `pa`. -/
def Core.modAccess (k : Core) (id pa : Nat) (f : Access → Access) : Core :=
  { k with access := k.access.map fun a => if a.id = id ∧ a.pa = pa then f a else a }

/-- A die merges the vector clock of a home die's answer (R319). -/
def State.hear (s : State) (c : Nat) (vc : List Nat) : State :=
  if vc = [] then s
  else s.modDie (dieOf c) fun k =>
    { k with dep := (List.range vc.length).foldl (fun m o => NMap.set m o (max (vc.getD o 0) (NMap.getD m o 0))) k.dep }

/-- A load's value is fixed (R309, R323): from the L1, where it may be, or from the die's view. A `.last` load performs with its last
part, and marks its lines then. -/
def State.fixLoad (s : State) (c : Nat) (a : Access) : State :=
  let d := dieOf c
  let hit := if a.fresh || decide (s.sealer (a.pa / 128) ≠ a.wtag) then none else NMap.get? (s.core (s.l1Core c)).l1 (a.pa / 16)
  let fromL1 := hit.isSome && decide (Config.pick s.picks % 2 = 0)
  let s0 := if hit.isSome then { s with picks := s.picks + 1 } else s
  let fix := fun (t : State) (v : Nat) =>
    let t1 := t.modCore c fun k => k.modAccess a.id a.pa fun b => { b with done := true, value := BitVec.ofNat 4096 v }
    let all_ := (t1.core c).access.filter fun b => decide (b.id = a.id ∧ b.ctx = a.ctx)
    if a.last && !isRegPage a.pa && all_.all fun b => b.done then
      t1.markLast d ((all_.head?.map (·.pa)).getD a.pa) (a.len * all_.length)
    else t1
  if !s.ownClear c a.ctx a.gen a.id a.pa a.len [d] then s
  else if isRegPage a.pa then fix s (leNat (s.regRead (a.pa % 2 ^ 32) a.len))
  else if fromL1 then fix s0 (bits (hit.getD 0).toNat (8 * (a.pa % 16 + a.len) - 1) (8 * (a.pa % 16)))
  else if !s.lineClear d a.pa a.len c a.id a.at_ then s
  else
    let t := fix s0 (leNat (s.viewRead d a.wtag a.pa a.len))
    if a.fresh || hit.isSome then t else t.askFill (s.l1Core c) (a.pa / 128) 2

/-- The data of load, AMO or CAS `id` reach their register (R315); the answer of a home die brings its clock (R319). -/
def State.landLoad (s : State) (c x : Nat) (mine : List Access) : State :=
  match mine with
  | [] => s
  | a :: _ =>
    let v : Vec := mine.foldl (fun (v : Vec) (b : Access) => v ||| (b.value <<< (8 * (b.pa - a.pa)))) 0
    let s1 := match if a.void then none else a.dest with
      | some (true, n) => s.modCtx c x fun k => { k with vreg := NMap.set k.vreg n v }
      | some (false, n) => s.modCtx c x fun k => { k with sreg := NMap.set k.sreg n (v.setWidth 64) }
      | none => s
    let land := fun (b : Access) => if b.id = a.id then (if b.kind = 0 then none else some { b with dest := none, heard := [] }) else some b
    (s1.hear c a.heard).modCore c fun k => { k with access := k.access.filterMap land }

/-- GLOBAL_LOAD_LANDING (R315): the next part of the load performs, and the data land once every part has. -/
def execGlobalLoadLanding (core ctx id : Nat) (s : State) : Out3 :=
  let mine := (s.core core).access.filter fun a => decide (a.id = id ∧ a.ctx = ctx) && a.landing
  match mine.find? fun a => !a.done with
  | some a => .next (if a.kind = 0 then s.fixLoad core a else s)
  | none => .next (s.landLoad core ctx mine)

/-- The die at whose L2 a write of an access performs (R317, R323, R349). -/
def Access.site (a : Access) (c : Nat) : Nat :=
  if a.kind = 1 then dieOf c else if a.kind = 4 then homeDie a.pa else amoDie c a.scope a.pa

/-- May the write perform now (R317, R321, R323, R376)? -/
def State.canPerform (s : State) (c : Nat) (a : Access) : Bool :=
  s.fencesOpen c a.ctx a.gen a.id &&
  (if isWindow a.pa then
    (s.core c).access.all fun b => !(b.of a.ctx a.gen && decide (b.id < a.id) && decide (winOf b.pa = winOf a.pa) && isWindow b.pa) || b.done
  else
    s.ownClear c a.ctx a.gen a.id a.pa a.len [dieOf c, a.site c] &&
    (isRegPage a.pa || s.lineClear (a.site c) a.pa a.len c a.id a.at_))

/-- A 64-bit word updated at a die's L2, or in a register page: the old word, the state, and the write's place in the die's
order. -/
def State.update (s : State) (d w pa : Nat) (f : Word → Option Word) : Word × State × Option (Nat × Nat) :=
  let old := s.wordAt d w pa
  match f old with
  | none => (old, s, none)
  | some v =>
    if isRegPage pa then (old, s.regWrite (pa % 2 ^ 32) (leBytes 8 v.toNat), none)
    else let (t, st) := s.writeView d w pa (leBytes 8 v.toNat)
         (old, t, some st)

/-- A write performs (R317, R318, R323, R349, R375). -/
def State.performWrite (s : State) (c : Nat) (a : Access) : State :=
  let v : Word := a.value.setWidth 64
  let finish := fun (t : State) (value : Vec) (st : Option (Nat × Nat)) (unacked : Bool) =>
    let d := a.site c
    let heard := if (a.kind = 2 ∨ a.kind = 3) ∧ d ≠ dieOf c ∧ isRegPage a.pa = false then t.clockOf d (t.die d).out else []
    t.modCore c fun k =>
      k.modAccess a.id a.pa fun b => { b with done := true, value := value, stamp := st, unacked := unacked, heard := heard }
  let data := leBytes a.len a.value.toNat
  if a.kind = 1 then
    if isWindow a.pa then finish (s.windowSend (dieOf c) a.pa data c a.id none a.ctx) a.value none true
    else if isRegPage a.pa then finish (s.regWrite (a.pa % 2 ^ 32) data) a.value none false
    else let (t, st) := s.writeView (dieOf c) a.wtag a.pa data
         finish t a.value (some st) false
  else
    let f := fun (old : Word) =>
      if a.kind = 3 then (if old = a.cmp then some v else none) else some (if a.kind = 4 then old + v else amoVal a.amo old v)
    let (old, t, st) := s.update (a.site c) a.wtag a.pa f
    finish (if a.kind = 4 then t.counterHit a.pa else t) (old.setWidth 4096) st false

/-- WRITE_PERFORM (R323). -/
def execWritePerform (core ctx id : Nat) (s : State) : Out3 :=
  let waits := fun (a : Access) => decide (a.id = id ∧ a.ctx = ctx) && !a.done && decide (1 ≤ a.kind ∧ a.kind ≤ 4)
  match (s.core core).access.find? waits with
  | none => .next s
  | some a => .next (if s.canPerform core a then s.performWrite core a else s)

/-- BUFFERED_AMO_MERGE (R317). -/
def execBufferedAmoMerge (core pa : Nat) (s : State) : Out3 := .next (s.mergeAmo core pa)
/-- BUFFERED_AMO_TIMEOUT (R317): 65,536 cycles after the update entered, its merge is due. -/
def execBufferedAmoTimeout (core pa : Nat) (s : State) : Out3 :=
  match (s.core core).amo.find? fun b => decide (b.pa = pa) with
  | none => .next s
  | some b => .next (if b.since + 65536 ≤ s.cyc then s.askMerges core fun c => decide (c.pa = pa) else s)

/-- Does a write of a core that reads through L1 `c1` to the sector still have to reach die `d`'s view (R307)? -/
def State.sectorPending (s : State) (c1 d sector : Nat) : Bool :=
  s.cores.any fun (c, k) => decide (s.l1Core c = c1) &&
    ((k.access.any fun a => decide (1 ≤ a.kind ∧ a.kind ≤ 4) && !s.inView a d && overlap a.pa a.len (16 * sector) 16) ||
     k.amo.any fun b => decide (b.pa / 16 = sector))

/-- A full L1 gives up a line other than `line`, which one the device chooses (R7, R11, R16). -/
def State.evictL1 (s : State) (core line : Nat) : State :=
  let lines := ((s.core core).l1.map fun q => q.1 / 8).dedup
  let room := Config.l1Lines * (if (s.cluster (clusterOf core)).fused.isSome then 4 else 1)
  if lines.length ≤ room then s
  else
    let others := lines.filter fun l => decide (l ≠ line)
    let out := others.getD (Config.pick s.picks % others.length) 0
    { s.modCore core fun k => { k with l1 := k.l1.filter fun q => decide (q.1 / 8 ≠ out) } with picks := s.picks + 1 }

/-- L1_FILL (R307): the line is installed as the die's view holds it, but for sectors with writes still to perform; a class 3 fill
gives way to every class 2 fill of its die (R25). -/
def execL1Fill (core line : Nat) (s : State) : Out3 :=
  let d := dieOf core
  match (s.core core).fills.find? fun f => decide (f.line = line) with
  | none => .next s
  | some f =>
    let ahead := decide (f.cls = 3) && s.cores.any fun (c, k) => decide (dieOf c = d) && k.fills.any fun h => decide (h.cls = 2)
    if ahead || !s.lineClear d (128 * line) 128 core 0 (s.cyc + 1) then .next s
    else
      let secs := ((List.range 8).map (8 * line + ·)).filter fun x => !s.sectorPending core d x
      let t := s.modCore core fun k =>
        { k with fills := k.fills.filter (fun h => decide (h.line ≠ line))
                 l1 := secs.foldl (fun m x => NMap.set m x (BitVec.ofNat 128 (leNat (Memory.readN (s.die d).view (16 * x) 16)))) k.l1 }
      .next (t.evictL1 core line)

/-- Answers that no register waits for any more still bring their clocks (R319). -/
def State.hearAll (s : State) : State :=
  let lost := s.cores.flatMap fun (c, k) => (k.access.filter fun a => !a.landing && decide (a.heard ≠ [])).map fun a => (c, a.heard)
  if lost = [] then s
  else
    let t := lost.foldl (fun t q => t.hear q.1 q.2) s
    { t with cores := t.cores.map fun q => (q.1, { q.2 with access := q.2.access.map fun a => if a.landing then a else { a with heard := [] } }) }

/-- Accesses of which nothing more can be asked leave their core's list. -/
def State.gcAccess (s : State) : State :=
  let t := s.hearAll
  let keep := fun (c : Nat) (a : Access) =>
    a.landing || (if a.kind = 5 then !t.settledBy c a.ctx a.gen a.scope a.id else !t.performed a 0)
  let f := fun (q : Nat × Core) => (q.1, { q.2 with access := q.2.access.filter (keep q.1) })
  { t with cores := t.cores.map f }

-- ## AMO and CAS (R317 to R319)

/-- Is a fence of the context among the accesses after number `n` (R317, R321)? -/
def Core.fenceAfter (k : Core) (x : Nat) (g : BitVec 16) (n : Nat) : Bool :=
  k.access.any fun a => decide (a.kind = 5) && a.of x g && decide (n < a.id)

/-- Has the context an access of its own to the word among those after number `n`: a later update then may not join an earlier one (R323)? -/
def Core.ownAfter (k : Core) (x : Nat) (g : BitVec 16) (n pa : Nat) : Bool :=
  k.access.any fun a => decide (a.kind ≠ 5) && a.of x g && decide (n < a.id) && overlap a.pa a.len pa 8

/-- A buffered update enters its line, combined with the last of the same operation on the word where the two are alike; one of
another operation asks for the merges of the earlier ones (R317). -/
def State.buffer (s : State) (e : TlbEntry) (va op scope : Nat) (v : Word) : State :=
  let pa := e.phys va
  let x := s.iss.ctx
  let other := s.curCore.amo.any fun b => decide (b.pa = pa ∧ b.op ≠ op)
  (if other then s.askMerges s.iss.core fun b => decide (b.pa = pa) else s).modCurCore fun q =>
    let n := q.nextAccess
    let b : AmoBuf := { pa := pa, op := op, value := v, scope := scope, since := s.cyc, ctx := x, launch := s.cur.launch, gen := s.cur.gen,
                        seq := n, wtag := e.wtag }
    match (q.amo.filter fun c => decide (c.pa = pa)).getLast? with
    | some c =>
      if c.op = op ∧ c.scope = scope ∧ c.ctx = x ∧ c.gen = s.cur.gen ∧ q.fenceAfter x s.cur.gen c.seq = false ∧ q.ownAfter x s.cur.gen c.seq pa = false then
        { q with amo := q.amo.map fun d => if d.seq = c.seq then { d with value := amoVal op d.value v } else d, nextAccess := n + 1 }
      else { q with amo := q.amo ++ [b], nextAccess := n + 1 }
    | none => { q with amo := q.amo ++ [b], nextAccess := n + 1 }

/-- AMO (R317): executed at an L2, or buffered where it returns nothing. -/
def amoInstr (i : Instr) (op : Nat) (d a b : Code) (x : Ext) (s : State) : Out3 :=
  sop i false false s fun s =>
    let va := (s.rdS a).toNat
    let scope := bits x.byte.toNat 2 0
    if va % 8 ≠ 0 then s.raiseWalk 0 va 2 0 0 3
    else s.translate va 2 0 fun e s =>
      if d.toNat = 63 ∧ isRegPage (e.phys va) = false then
        .next ((s.buffer e va op scope (s.rdS b)).dropL1 s.iss.core (e.phys va) 8)
      else s.heldUntil s.loadRoom fun s =>
        let acc := { s.accessFrame e va 8 with kind := 2, amo := op, value := (s.rdS b).setWidth 4096, scope := scope,
                                               dest := (s.dstS d).map fun n => (false, n) }
        .next ((s.enter acc false).dropL1 s.iss.core acc.pa 8)

/-- AMO.add (R317). -/
def execAmoAdd (g : Guard) (d a b : Code) (x : Ext) (s : State) : Out3 := amoInstr (.amoAdd g d a b x) 0 d a b x s
/-- AMO.min (R317). -/
def execAmoMin (g : Guard) (d a b : Code) (x : Ext) (s : State) : Out3 := amoInstr (.amoMin g d a b x) 1 d a b x s
/-- AMO.max (R317). -/
def execAmoMax (g : Guard) (d a b : Code) (x : Ext) (s : State) : Out3 := amoInstr (.amoMax g d a b x) 2 d a b x s
/-- AMO.and (R317). -/
def execAmoAnd (g : Guard) (d a b : Code) (x : Ext) (s : State) : Out3 := amoInstr (.amoAnd g d a b x) 3 d a b x s
/-- AMO.or (R317). -/
def execAmoOr (g : Guard) (d a b : Code) (x : Ext) (s : State) : Out3 := amoInstr (.amoOr g d a b x) 4 d a b x s
/-- AMO.xor (R317). -/
def execAmoXor (g : Guard) (d a b : Code) (x : Ext) (s : State) : Out3 := amoInstr (.amoXor g d a b x) 5 d a b x s

/-- CAS (R318): s_d is the expected value, and receives the old one. -/
def execCas (g : Guard) (d a b : Code) (x : Ext) (s : State) : Out3 :=
  sop (.cas g d a b x) false false s fun s =>
    let va := (s.rdS a).toNat
    if va % 8 ≠ 0 then s.raiseWalk 0 va 2 0 0 3
    else s.translate va 2 0 fun e s => s.heldUntil s.loadRoom fun s =>
      let acc := { s.accessFrame e va 8 with kind := 3, value := (s.rdS b).setWidth 4096, cmp := s.rdS d, scope := bits x.byte.toNat 2 0,
                                             dest := (s.dstS d).map fun n => (false, n) }
      .next ((s.enter acc false).dropL1 s.iss.core acc.pa 8)

-- ## Fences and prefetch (R320, R321)

/-- A wait after the bundle that gives no issue slot away (R321). -/
def State.awaitFence (s : State) (kind scope : Nat) : State := s.modIss fun i => { i with wait := i.wait ++ [.fence kind scope] }

/-- FENCE.acq (R321). -/
def execFenceAcq (g : Guard) (x : Ext) (s : State) : Out3 :=
  sop (.fenceAcq g x) false false s fun s => .next (s.awaitFence 0 (bits x.byte.toNat 2 0))
/-- FENCE.rel (R321): it stands among the accesses that it orders; the merges of the core's buffered updates are asked for
(R317). -/
def execFenceRel (g : Guard) (x : Ext) (s : State) : Out3 :=
  sop (.fenceRel g x) false false s fun s =>
    let t := s.askMerges s.iss.core fun _ => true
    .next (t.enter { id := t.curCore.nextAccess, ctx := s.iss.ctx, gen := s.cur.gen, launch := s.cur.launch, kind := 5,
                     scope := bits x.byte.toNat 2 0, at_ := s.cyc } false)
/-- FENCE.full (R321); the merges of the core's buffered updates are asked for (R317). -/
def execFenceFull (g : Guard) (x : Ext) (s : State) : Out3 :=
  sop (.fenceFull g x) false false s fun s =>
    .next ((s.askMerges s.iss.core fun _ => true).awaitFence 2 (bits x.byte.toNat 2 0))

/-- Has the wait after a FENCE ended (R321)? Buffered AMOs of the whole core count for FENCE.full: each has merged and performed. -/
def State.fenceOver (s : State) (core ctx : Nat) (w : Wait) : Bool :=
  match w with
  | .fence 0 _ => !s.loadsOut core ctx
  | .fence _ scope => s.settledAll core ctx scope && (s.core core).amo.isEmpty &&
    (s.core core).access.all fun a => !a.merged || s.performed a scope
  | _ => false
/-- FENCE_WAIT_END (R321). -/
def execFenceWaitEnd (core ctx : Nat) (s : State) : Out3 := .next (s.endWait core ctx (s.fenceOver core ctx))

/-- May the line of a PREF be fetched under the translation (R311, R320, R401)? -/
def State.prefOk (s : State) (e : TlbEntry) (va w : Nat) (mgmt : Bool) : Bool :=
  (s.judge e va 3 w mgmt).isNone && (s.badLine e.wtag (e.phys va) 128).isNone
/-- The log of a PREF that is dropped because its line does not verify (R401). -/
def State.logPref (s : State) (c x : Nat) (e : TlbEntry) (va w : Nat) (mgmt : Bool) : State :=
  match s.judge e va 3 w mgmt, s.badLine e.wtag (e.phys va) 128 with
  | none, some l => s.logLine ⟨some c, some x, some w⟩ 4 l
  | _, _ => s

/-- PREF (R320): with its translation in the buffer, a fill or a drop at once; else it takes a walk slot, or is dropped where none is
free. It holds no bundle. -/
def execPref (g : Guard) (a o : Code) (x : Ext) (s : State) : Out3 :=
  sop (.pref g a o x) false false s fun s =>
    let c := s.iss.core
    let w := s.worldOf c s.iss.ctx
    let va := s.memEA a o 128 / 128 * 128
    let mgmt := s.isMgmt c s.iss.ctx
    let fresh := x.byte.getLsbD 3
    match s.tlbFind c va w with
    | some e =>
      .next (if !s.prefOk e va w mgmt then (s.logPref c s.iss.ctx e va w mgmt).note cPREFDROP else if fresh then s else s.askFill (s.l1Core c) (e.phys va / 128) 3)
    | none =>
      let p : PrefWalk := { va := va, world := w, mgmt := mgmt, fresh := fresh, pos := s.iss.pos, addr := s.iss.addr, ctx := s.iss.ctx,
                            gen := s.cur.gen, launch := s.cur.launch, iss := s.cur.clk }
      .next (if s.walkSlot (dieOf c) then s.modCurCore fun q => { q with prefs := q.prefs ++ [p] } else s.note cPREFDROP)

/-- The line of a PREF whose walk has ended: its fill, or the record that it was dropped (R320). -/
def State.prefLine (s : State) (core : Nat) (p : PrefWalk) (tr : Tr) : State :=
  match tr with
  | .bad _ _ _ => s.lateRecord core p.ctx p.gen p.launch p.pos p.addr p.iss cPREFDROP
  | .ok e =>
    if !s.prefOk e p.va p.world p.mgmt then (s.logPref core p.ctx e p.va p.world p.mgmt).lateRecord core p.ctx p.gen p.launch p.pos p.addr p.iss cPREFDROP
    else if p.fresh then s
    else s.askFill (s.l1Core core) (e.phys p.va / 128) 3

/-- TRANSLATION_WALK (R312): the walk of the held bundle ends with an entry or with a failure, or else the oldest PREF's. -/
def execTranslationWalk (core : Nat) (s : State) : Out3 :=
  let k := s.core core
  match k.walk, k.run, k.prefs with
  | some ⟨va, kind⟩, some x, _ =>
    let w := s.worldOf core x
    if !s.walkClear (dieOf core) w va then .next s
    else match s.walk (dieOf core) w va kind (s.isMgmt core x) with
      | .ok e => .next (s.modCore core fun k => { k with walk := none, tlb := tlbInsert k.tlb { e with fresh := true } })
      | .bad l g c => .next (s.modCore core fun k => { k with walk := none, failed := k.failed ++ [⟨va, kind, l, g, c⟩] })
  | _, _, p :: ps =>
    if !s.walkClear (dieOf core) p.world p.va then .next s
    else .next ((s.modCore core fun k => { k with prefs := ps }).prefLine core p (s.walk1 (dieOf core) p.world p.va))
  | _, _, _ => .next s

/-- The number by which ARBITER_AGING knows a class 3 request: a PREF fill by core and line, a write-back by die and sector. -/
def agingId : Instr → Nat
  | .l1Fill c line => c * 2 ^ 45 + line
  | .dirtySectorWriteBack d a => 2 ^ 56 + d * 2 ^ 50 + a
  | _ => 0
/-- A class 3 request that has waited 8,192 cycles is granted as class 2 (R26). -/
def Req.age (r : Req) (id cyc : Nat) : Req := if r.cls = 3 ∧ agingId r.what = id ∧ r.since + 8192 ≤ cyc then { r with cls := 2 } else r

/-- ARBITER_AGING (R26): the class 3 request `id` has waited 8,192 cycles and is served as class 2. -/
def execArbiterAging (id : Nat) (s : State) : Out3 :=
  let up := fun (f : Fill) => if f.line = id % 2 ^ 45 ∧ f.since + 8192 ≤ s.cyc then { f with cls := 2 } else f
  .next ({ s with paths := s.paths.map fun (p : Nat × List Req) => (p.1, p.2.map fun (r : Req) => Req.age r id s.cyc) }.modCore (id / 2 ^ 45) fun q =>
    { q with fills := q.fills.map up })

end Sys2Proof.Machine
end

