-- ==== Sys2Proof/Machine/Copy.lean ====
section
/-! DEFINITION. The C instructions, timed and tracked copies (R221 to R249). -/

namespace Sys2Proof.Machine

-- ## Records (R222, R225, R231, R366)

/-- The checks of R225 but the second, with the register code of word 0 where registers hold the record (R251). DESIGN CHOICE (log 88): where a
copy command checks a slot, LAYOUT_RESERVED's detail has 0 for the register. -/
def State.checkRec (s : State) (r : CRec) (reg : Option Nat) (k : State → Out3) : Out3 :=
  match recBadWord r with
  | some w =>
    s.raise fLAYRES (BitVec.ofNat 64 (w * 64 + (match reg with | some a => a + w | none => 0))) (r.getD w 0 &&& recReserved r w)
  | none =>
    if recWtag r ≠ s.worldOf s.iss.core s.iss.ctx then s.raise fWORLD 0 0
    else match recRange r with
      | some v => s.range 4 (BitVec.ofNat 64 v)
      | none => k s

/-- Twelve consecutive scalar registers. -/
def State.run12 (s : State) (a : Nat) : CRec := (List.range 12).map fun n => s.readSlotS (s.slotS (a + n))

/-- LREC (R225, R231). -/
def execLrec (g : Guard) (k a : Code) (s : State) : Out3 :=
  let i := Instr.lrec g k a
  sop i false (s.guardOn i && !s.hasCmp && recCt (s.run12 a.toNat)) s fun s =>
    let r := s.run12 a.toNat
    s.checkRec r (some a.toNat) fun s => .next (s.later 1 0 (.lrec k.toNat ⟨false, r⟩))

/-- The twelve words of a slot's record. -/
def LRec.rec_ (l : LRec) : CRec := (List.range 12).map fun i => l.words.getD i 0
/-- Has FRPUT patched a record of the part's absent compress units into the slot (R248, R366)? -/
def State.slotGone (s : State) (n : Nat) : Bool :=
  let l := NMap.getD s.cur.lrec n {}
  l.unchecked && recCt l.rec_ && !s.hasCmp
/-- The record in a slot; one that FRPUT has patched is checked first (R222, R366). -/
def State.slotRec (s : State) (n : Nat) (k : CRec → State → Out3) : Out3 :=
  let l := NMap.getD s.cur.lrec n {}
  if l.unchecked then s.checkRec l.rec_ none fun s => k l.rec_ (s.later 1 0 (.lrec n ⟨false, l.rec_⟩))
  else k l.rec_ s

-- ## Checks at a copy command (R224, R228 to R234, R399)

/-- Elements of a packet (R234). -/
def perPacket (a b : CRec) : Nat := 512 / max (recW a) (recW b)
def packetsOf (a b : CRec) : Nat := (recN a + perPacket a b - 1) / perPacket a b

/-- Does core `p` hold operand FIFOs (R207)? -/
def State.holdsFifo (s : State) (p : Nat) : Bool := !isSupervisor p && (s.arr (pairOf p)).holds (p % 2)

/-- The SPACE at fault where `spacesOk` fails: the source's where no such copy may read it (R224, R233, R242), else the destination's. -/
def badSpace (timed : Bool) (sa sb : Nat) : Nat :=
  if (if timed then decide (1 ≤ sa ∧ sa ≤ 3) else decide (sa ≤ 2)) then sb else sa
/-- Are the two spaces permitted for a timed copy, for a tracked one (R224, R233, R242)? -/
def spacesOk (timed : Bool) (sa sb : Nat) : Bool :=
  if timed then decide (1 ≤ sa ∧ sa ≤ 3) && decide (1 ≤ sb ∧ sb ≤ 5) && !decide (sa = 3 ∧ sb = 3)
  else decide (sa ≤ 2) && decide (sb ≤ 5 ∧ sb ≠ 3) && decide (sa = 0 ∨ sb = 0)

/-- The first check of R232 that fails: code and detail. DEDUCED (log 42): a supervisor core has no XMODE, so no format is compared for a
FIFO destination there, and WINDOW_MISS follows as R430 says. DESIGN CHOICE (log 90): where two records fail together, the destination's
field is the offending one. DESIGN CHOICE (log 99): that WINDOW_MISS shows ACYC and ARRMODE as of an array, which a supervisor core has not.
DESIGN CHOICE (log 87): TAGEN is examined in the destination record only. -/
def State.copyBad (s : State) (timed x : Bool) (a b : CRec) : Option (Nat × Word × Word) :=
  let c := s.iss.core
  let lr := fun (v : Nat) => some (fLAYRANGE, (0 : Word), BitVec.ofNat 64 v)
  let sa := recSpace a
  let sb := recSpace b
  let fa := recFmt a
  let fb := recFmt b
  let dst := recPeer b c
  let bankBad := fun (r : CRec) => if spadSpace (recSpace r) then
      ((recAddrs r).map (recBank r)).find? fun k =>
        decide (s.bankFmt (recPeer r c) (k % 16) ≠ recFmt r) || decide (s.bankCmp (recPeer r c) (k % 16) ≠ recCt r)
    else none
  let regionBad := fun (r : CRec) => if recSpace r = 3 then
      (recAddrs r).find? fun p => decide (p < 0) || decide ((s.regionMiB * 2 ^ 20 : Int) < p + recW r)
    else none
  if recN a ≠ recN b then lr (recN b)
  else if !spacesOk timed sa sb then lr (badSpace timed sa sb)
  else if recTagen b && !spadSpace sb then lr 1
  else if recCt b then lr 1
  else if recCt a && !s.bankCmp (recPeer a c) (bits (recBase a) 21 18) then lr (bits (recBase a) 21 18)
  else if x && decide (fa = 5) then lr fa
  else if x && decide (recRank a = 1) then lr 0
  else if x && decide (recWext b 0 ≠ recWext a 1) then lr (recWext b 0)
  else if x && decide (recWext b 1 ≠ recWext a 0) then lr (recWext b 1)
  else if x && decide (recWext a 0 % granule fa ≠ 0) then lr (recWext a 0)
  else if x && decide (recWext a 1 % granule fa ≠ 0) then lr (recWext a 1)
  else if !movePairOk fa fb then lr fb
  else if fifoSpace sb && decide (recN b % 128 ≠ 0) then lr (recN b)
  else if fifoSpace sb && !isSupervisor dst && decide (mFmt ((s.arr (pairOf dst)).pos (dst % 2)).mode ≠ fb) then lr fb
  else if fifoSpace sb && decide (recXlen b ≠ 0) then lr (recXlen b)
  else if timed && decide (512 < packetsOf a b) then lr (packetsOf a b)
  else match bankBad a, bankBad b with
    | some k, _ => lr k
    | none, some k => lr k
    | none, none => match regionBad a, regionBad b with
      | some p, _ => lr (BitVec.ofInt 64 p).toNat
      | none, some p => lr (BitVec.ofInt 64 p).toNat
      | none, none =>
        if fifoSpace sb && !s.holdsFifo dst then
          some (fWINDOW, BitVec.ofNat 64 (s.arr (pairOf dst)).acyc, (s.arr (pairOf dst)).modeWord)
        else if recWtag a ≠ recWtag b ∨ (s.core (recPeer a c)).world ≠ (s.core c).world ∨ (s.core dst).world ≠ (s.core c).world then
          some (fWORLD, 0, 0)
        else none

/-- The common part of CPY, CPYX and CPYT. ABSENT_UNIT, of a patched record, comes before every check of step 3 and after (R248). -/
def copyOp (i : Instr) (l m : Code) (timed x : Bool) (s : State) (k : CRec → CRec → State → Out3) : Out3 :=
  sop i false (s.guardOn i && (s.slotGone l.toNat || s.slotGone m.toNat)) s fun s => s.slotRec l.toNat fun a s => s.slotRec m.toNat fun b s =>
    match s.copyBad timed x a b with
    | some (code, d0, d1) => s.raise code d0 d1
    | none => k a b s

-- ## Elements (R226 to R229)

/-- An element of a local source record, as bits: FILL where it is out of range or its tile is absent. -/
def State.localElem (s : State) (c : Nat) (r : CRec) (e : Bool × Int) : Nat :=
  let fill := recFill r % 2 ^ tyBits (recFmt r)
  if !e.1 then fill
  else
    let p := (recAddr r e.2).toNat
    let peer := recPeer r c
    if recCt r then
      let m := (s.core peer).spad
      let bank := p / 2 ^ 18
      let off := p % 2 ^ 18
      let ent := tileEntry m bank (off / 4096)
      if !tilePresent ent then fill
      else match expandTile m bank ent with
        | some bs => leNat ((bs.drop (off % 4096)).take (recW r))
        | none => 0
    else leNat (s.localRead (recSpace r) peer p (recW r))

/-- An element stored through a local destination record. -/
def State.storeElem (s : State) (c : Nat) (r : CRec) (e : Bool × Int) (v : Nat) : State :=
  if e.1 then s.localWrite (recSpace r) (recPeer r c) (recAddr r e.2).toNat (leBytes (recW r) v) else s

/-- The tiles in which some elements of a window are written (R230). -/
def recTiles (r : CRec) (js : List Nat) : List Nat :=
  (js.filterMap fun j => let e := recElem r j; if e.1 then some ((recAddr r e.2).toNat / 4096) else none).dedup
def State.putTag (s : State) (c : Nat) (r : CRec) (tile : Nat) : State :=
  s.localWrite (recSpace r) (recPeer r c) (4096 * tile) (leBytes 2 (recTag r))

/-- A FIFO entry of 128 elements (R207, R276): a residue entry shows its first 64. -/
def fifoEntry (fmt : Nat) (vs : List Nat) : Vec :=
  if fmt = 5 then ofResidues fun i => vs.getD i 0 else ofLanesN fun i => vs.getD i 0 % 2 ^ tyBits fmt
/-- The number of a copy among the occasions of free values (log 32): its cluster, channel and identifier, and whether it is tracked. -/
def copyNo (cl ch id : Nat) (tracked : Bool) : Nat := ((id * 4 + ch) * 2 ^ 16 + cl) * 2 + b2n tracked 1
/-- The elements as a FIFO takes them; a lane whose element is out of range holds a free value (log 32). -/
def State.fifoElem (s : State) (who : Nat) (r : CRec) (j v : Nat) : Nat := if (recElem r j).1 then v else (freeAt (s.occ s.cyc) 0 who j).toNat
def State.pushFifo (s : State) (p : Nat) (b : Bool) (fmt : Nat) (e : Vec) : State :=
  s.modArr (pairOf p) fun a => a.modPos (p % 2) fun q => q.setFifo b ((q.fifo b).push fmt e)
/-- Free entries of a core's FIFO; none where it holds none. -/
def State.fifoRoom (s : State) (p : Nat) (b : Bool) : Option Nat :=
  let a := s.arr (pairOf p)
  if s.holdsFifo p then some (a.cap - ((a.pos (p % 2)).fifo b).q.length) else none

-- ## Timed copies (R233 to R237)

/-- The elements of packet `p`. -/
def Timed.elems (t : Timed) (p : Nat) : List Nat :=
  (List.range (min ((p + 1) * t.per) (recN t.dst) - p * t.per)).map (p * t.per + ·)

/-- The banks whose crossbar ports the writes of a record's exception list in scratchpad take (R173). -/
def recListPorts (r : CRec) (c : Nat) : List Nat :=
  if spadSpace (recSpace r) then (blocks (2 ^ 16) (recXbase r) (recXlen r)).map fun b => 100 + 16 * recPeer r c + b % 16 else []
/-- A copy's claims (R235): CYC and what is claimed: 0 to 3 the channel's engine, 10 and 11 the region's lanes, above them the bank
ports. The ports of the exception list are claimed in every packet's write cycle (log 36). -/
def Timed.claims (t : Timed) (ch : Nat) : List (Nat × Nat) :=
  let ports := fun (r : CRec) (js : List Nat) (lane : Nat) =>
    if recSpace r = 3 then [lane]
    else if spadSpace (recSpace r) then
      (js.filterMap fun j => let e := recElem r j
                             if e.1 then some (100 + 16 * recPeer r t.core + recBank r (recAddr r e.2) % 16) else none).dedup
    else []
  (List.range t.packets).flatMap fun p =>
    let js := t.elems p
    [(t.t + p, ch)] ++ (ports t.src js 11).map (fun k => (t.t + p, k)) ++ (ports t.dst js 10 ++ recListPorts t.dst t.core).map (fun k => (t.t + p + t.dly, k))

/-- Does a timed copy of the cluster claim one of these (R236)? -/
def State.collides (s : State) (cl : Nat) (cs : List (Nat × Nat)) : Bool :=
  (List.range 4).any fun n => (s.chan cl n).timed.any fun t => (t.claims n).any fun k => cs.contains k

/-- CPYT (R233, R236): admitted, or TIMING_MISS. DESIGN CHOICE (log 107): a copy of no packets, N = 0, is admitted and takes no entry. -/
def execCpyt (g : Guard) (a l m : Code) (x : Ext) (s : State) : Out3 :=
  copyOp (.cpyt g a l m x) l m true false s fun src dst s =>
    let c := s.iss.core
    let cl := clusterOf c
    let ch := bits x.byte.toNat 1 0
    let t := (s.rdS a).toNat
    let tm : Timed :=
      { id := (s.chan cl ch).nextTimed, core := c, ctx := s.iss.ctx, gen := s.cur.gen, launch := s.cur.launch, addr := s.iss.addr, t := t,
        packets := packetsOf src dst, per := perPacket src dst,
        dly := if recSpace dst = 3 then 104 else if recSpace src = 3 then 112 else 72, src := src, dst := dst }
    if t < s.cyc + 8 ∨ s.cyc + 2 ^ 20 < t ∨ 32 ≤ (s.chan cl ch).tlev ∨ s.collides cl (tm.claims ch) = true then
      s.raise fTIMING 2 0
    else if tm.packets = 0 then .next s
    else .next (s.modChan cl ch fun h => { h with timed := h.timed ++ [tm], nextTimed := h.nextTimed + 1 })

def State.modTimed (s : State) (cl ch id : Nat) (f : Timed → Timed) : State :=
  s.modChan cl ch fun h => { h with timed := h.timed.map fun t => if t.id = id then f t else t }

/-- TIMED_PACKET_READ (R234): the next packet is read, and converted. -/
def execTimedPacketRead (cl ch id : Nat) (s : State) : Out3 :=
  match (s.chan cl ch).timed.find? fun t => decide (t.id = id) with
  | none => .next s
  | some t =>
    if t.packets ≤ t.read ∨ s.cyc < t.t + t.read then .next s
    else
      let el := fun (j : Nat) =>
        let e := recElem t.src j
        let o := moveElem (recFmt t.src) (recFmt t.dst) (s.localElem t.core t.src e)
        (o.bits, o.entry, off48 e.2)
      let row := (t.read, (t.elems t.read).map el)
      .next (s.modTimed cl ch id fun t => { t with read := t.read + 1, data := t.data ++ [row] })

/-- The packet's exception-list entries (R172, R234). -/
def State.timedList (s : State) (t : Timed) (row : List (Nat × Nat × Nat)) : State × Option Nat :=
  let es := row.filterMap fun v => if v.2.1 = 0 then none else some (v.2.1, v.2.2)
  if recXlen t.dst = 0 ∨ es = [] then (s, t.ridx)
  else
    let c := recPeer t.dst t.core
    let by_ := plainTr c t.ctx 0
    let ridx := t.ridx.getD (s.listRead by_ (recSpace t.dst) c 0 (recXbase t.dst + 8))
    ((s.listAddAll by_ (recSpace t.dst) c 0 (recXbase t.dst) (recXlen t.dst) ridx es 0).1, some ridx)

/-- TIMED_PACKET_WRITE (R230, R234, R237). -/
def execTimedPacketWrite (cl ch id : Nat) (s : State) : Out3 :=
  match (s.chan cl ch).timed.find? fun t => decide (t.id = id) with
  | none => .next s
  | some t =>
    let p := t.wrote
    if t.read ≤ p ∨ s.cyc < t.t + p + t.dly then .next s
    else
      let rowOf := fun (q : Nat) => ((t.data.find? fun r => decide (r.1 = q)).map (·.2)).getD []
      let row := rowOf p
      let js := t.elems p
      let advance := fun (u : State) (f : Timed → Timed) =>
        let u1 := u.modTimed cl ch id fun t => f { t with wrote := p + 1, data := t.data.filter fun r => decide (p ≤ r.1) }
        if t.packets ≤ p + 1 then u1.modChan cl ch fun h => { h with timed := h.timed.filter fun t => decide (t.id ≠ id) } else u1
      if t.lost then .next (advance s fun t => t)
      else if fifoSpace (recSpace t.dst) then
        let fmt := recFmt t.dst
        let dst := recPeer t.dst t.core
        let b := recFifo t.dst
        let elem := fun (j : Nat) => s.fifoElem (copyNo cl ch id false) t.dst j ((rowOf (j / t.per)).getD (j % t.per) (0, 0, 0)).1
        -- an entry is pushed with the packet that holds its last element
        let ends := (List.range (recN t.dst / 128)).filter fun k => decide (p * t.per < 128 * (k + 1) ∧ 128 * (k + 1) ≤ (p + 1) * t.per)
        let es := ends.map fun k => fifoEntry fmt ((List.range 128).map fun i => elem (128 * k + i))
        match s.fifoRoom dst b with
        | some n =>
          if es.length ≤ n then .next (advance (es.foldl (fun u e => u.pushFifo dst b fmt e) s) fun t => t)
          else .next (advance (s.defer t.core t.ctx t.gen.toNat t.launch fTIMING (BitVec.ofNat 64 (3 + (if b then 256 else 0)))
            (BitVec.ofNat 64 t.addr) t.addr) fun t => { t with lost := true })
        | none => .next (advance (s.defer t.core t.ctx t.gen.toNat t.launch fTIMING (BitVec.ofNat 64 (3 + (if b then 256 else 0)))
            (BitVec.ofNat 64 t.addr) t.addr) fun t => { t with lost := true })
      else
        let put := fun (u : State) (i : Nat) => u.storeElem t.core t.dst (recElem t.dst (js.getD i 0)) (row.getD i (0, 0, 0)).1
        let s1 := (List.range row.length).foldl put s
        let (s2, ridx) := s1.timedList t row
        let sofar := recTiles t.dst ((List.range (p + 1)).flatMap fun q => t.elems q)
        let later := recTiles t.dst ((List.range (t.packets - (p + 1))).flatMap fun q => t.elems (p + 1 + q))
        let head := fun (u : State) (k : Nat) => u.localRead (recSpace t.dst) (recPeer t.dst t.core) (4096 * k) 2
        -- the tag prevails over the copy's own data and list writes, in a tile whose data are complete
        let tags := sofar.filter fun k => !later.contains k && ((recTiles t.dst js).contains k || decide (head s2 k ≠ head s1 k))
        let s3 := if recTagen t.dst then tags.foldl (fun u k => u.putTag t.core t.dst k) s2 else s2
        .next (advance s3 fun t => { t with ridx := ridx })

-- ## Tracked copies (R238 to R243)

/-- A command enters a channel's queue (R242). -/
def State.queueCopy (s : State) (ch : Nat) (x : Bool) (a b : CRec) : State :=
  let c := s.iss.core
  let cl := clusterOf c
  let w := s.worldOf c s.iss.ctx
  let h := s.chan cl ch
  let t := s.mapped h.map { id := h.next, core := c, ctx := s.iss.ctx, gen := s.cur.gen, launch := s.cur.launch, world := w, x := x, src := a, dst := b,
                            seq := s.curCore.nextAccess, sclk := s.cur.clk }
  s.modChan cl ch fun h =>
    { h with next := (h.next + 1) % 2 ^ 32, queue := h.queue ++ [t], map := h.map ++ t.map.filter fun e => !h.map.contains e }

/-- CPY and CPYX (R242): 2^63 where the queue is full; they never hold their bundle. -/
def trackedOp (i : Instr) (d l m : Code) (e : Ext) (x : Bool) (s : State) : Out3 :=
  copyOp i l m false x s fun a b s =>
    let ch := bits e.byte.toNat 1 0
    let h := s.chan (clusterOf s.iss.core) ch
    if 64 ≤ h.qlev then .next (s.putS 1 0 d (BitVec.ofNat 64 (2 ^ 63)))
    else .next ((s.queueCopy ch x a b).putS 1 0 d (BitVec.ofNat 64 h.next))
/-- CPY (R242). -/
def execCpy (g : Guard) (d l m : Code) (x : Ext) (s : State) : Out3 := trackedOp (.cpy g d l m x) d l m x false s
/-- CPYX (R229, R242). -/
def execCpyx (g : Guard) (d l m : Code) (x : Ext) (s : State) : Out3 := trackedOp (.cpyx g d l m x) d l m x true s

/-- Have the scratchpad stores and the accesses that stand before a copy performed (R240, R321)? -/
def State.copyReady (s : State) (t : Tracked) : Bool :=
  let k := s.ctx t.core t.ctx
  let store := fun (f : Flight) => match f.eff with | .store _ _ _ => decide (f.iss ≤ t.sclk) | _ => false
  let write := fun (f : UFlight) => match f.eff with | .write _ _ => true | .writeT1 _ _ => true | _ => false
  (if k.gen = t.gen ∧ k.st ≠ .free then !k.flight.any store else !(s.core t.core).flight.any write) &&
  s.settledBy t.core t.ctx t.gen 4 t.seq && s.fencesOpen t.core t.ctx t.gen t.seq

/-- TRACKED_COPY_START (R240, R245): a marker at the head is passed; a copy at the head starts, the channel being free. -/
def execTrackedCopyStart (cl ch : Nat) (s : State) : Out3 :=
  let h := s.chan cl ch
  match h.queue, h.run with
  | t :: rest, none =>
    if t.marker.isSome then .next (s.modChan cl ch fun h => { h with queue := rest })
    else .next (s.modChan cl ch fun h => { h with queue := rest, run := some { t with started := true } })
  | _, _ => .next s

/-- A flag-file entry, or the orphan entry that takes its place (R240, R247). -/
def State.addFlag (s : State) (cl ch : Nat) (t : Tracked) (cause index va : Nat) : State :=
  let f : Flag := { id := t.id, cause := cause, index := index, va := va, core := t.core, ctx := t.ctx, gen := t.gen }
  let k := s.ctx t.core t.ctx
  if k.gen = t.gen ∧ k.st ≠ .free ∧ (s.chan cl ch).flags.length < 16 then s.modChan cl ch fun h => { h with flags := h.flags ++ [f] }
  else s.orphanFlag t.launch ch f

/-- What stops or delays an element: a fault code and address, or nothing yet. -/
abbrev Stop := Option (Nat × Nat)

/-- May a copy translate the address now: by its mapping, or by a walk that no buffered update keeps waiting (R245, R311)? -/
def State.copyWalks (s : State) (t : Tracked) (va : Nat) : Bool :=
  (t.map.any fun e => e.covers t.world va) || s.walkClear (dieOf t.core) t.world va
/-- A global address of a copy, `q` its channel's queue: its translation, or the stop (R240, R245, R311). -/
def State.copyTr (s : State) (q : List Tracked) (t : Tracked) (va kind : Nat) : Except Stop TlbEntry :=
  if !s.copyWalks t va then .error none
  else match t.tr q s va with
  | .bad _ _ c => .error (some (causeFault c, va % 2 ^ 57))
  | .ok e => match s.judge e va kind t.world (isSupervisor t.core && decide (t.world = 0)) with
    | some (_, _, c) => .error (some (causeFault c, va % 2 ^ 57))
    | none => .ok e

/-- The source element of a tracked copy. -/
def State.copyRead (s : State) (q : List Tracked) (t : Tracked) (e : Bool × Int) : Except Stop Nat :=
  if recSpace t.src ≠ 0 ∨ e.1 = false then .ok (s.localElem t.core t.src e)
  else
    let d := dieOf t.core
    let va := (BitVec.ofInt 64 (recAddr t.src e.2)).toNat
    let w := recW t.src
    match s.copyTr q t va 0 with
    | .error e => .error e
    | .ok tr =>
      let pa := tr.phys va
      if isRegPage pa then .ok (leNat (s.regRead (pa % 2 ^ 32) w))
      else if (s.badLine tr.wtag pa w).isSome then .error (some (fWORLD, va % 2 ^ 57))
      else if !s.lineClear d pa w 1024 0 s.cyc then .error none
      else .ok (leNat (s.viewRead d tr.wtag pa w))

/-- The destination element of a tracked copy, written. -/
def State.copyWrite (s : State) (cl ch : Nat) (t : Tracked) (e : Bool × Int) (v : Nat) : Except Stop State :=
  if recSpace t.dst ≠ 0 then .ok (s.storeElem t.core t.dst e v)
  else if !e.1 then .ok s
  else
    let d := dieOf t.core
    let va := (BitVec.ofInt 64 (recAddr t.dst e.2)).toNat
    let data := leBytes (recW t.dst) v
    match s.copyTr (s.chan cl ch).queue t va 1 with
    | .error e => .error e
    | .ok tr =>
      let pa := tr.phys va
      if isRegPage pa then .ok (s.regWrite (pa % 2 ^ 32) data)
      else if isWindow pa then .ok (s.windowSend d pa data t.core 0 (some (cl, ch, t.id)) t.ctx)
      else if !s.lineClear d pa (recW t.dst) 1024 0 s.cyc then .error none
      else .ok (s.writeOnly d tr.wtag pa data)

def State.modRun (s : State) (cl ch : Nat) (f : Tracked → Tracked) : State := s.modChan cl ch fun h => { h with run := h.run.map f }

/-- The tags of every tile written so far (R230). -/
def State.copyTags (s : State) (t : Tracked) (n : Nat) : State :=
  if recTagen t.dst then (recTiles t.dst (List.range n)).foldl (fun u k => u.putTag t.core t.dst k) s else s

/-- The copy stops at an element (R240). -/
def State.stopCopy (s : State) (cl ch : Nat) (t : Tracked) (cause index va : Nat) : State :=
  ((s.copyTags t index).addFlag cl ch t cause index va).modRun cl ch fun t => { t with stopped := true }

/-- A tracked copy as the writer of its exception list; its packets into fabric windows are the copy's (R240, R376). -/
def Tracked.by_ (t : Tracked) (cl ch : Nat) (q : List Tracked) : ListBy :=
  let d := dieOf t.core
  ⟨t.tr q, fun s a n => s.copyWalks t a && (match t.tr q s a with | .ok e => s.lineClear d (e.phys a) n 1024 0 (s.cyc + 1) | .bad _ _ _ => true),
   t.core, t.ctx, some (cl, ch, t.id)⟩

/-- An element's entry in the destination's exception list; a failing list write is flagged once (R172, R173). -/
def State.copyList (s : State) (cl ch : Nat) (t : Tracked) (cause off : Nat) : State :=
  if cause = 0 ∨ recXlen t.dst = 0 ∨ t.listDead = true then s
  else
    let c := recPeer t.dst t.core
    let sp := recSpace t.dst
    let tr := t.by_ cl ch (s.chan cl ch).queue
    let ridx := t.ridx.getD (s.listRead tr sp c t.world (recXbase t.dst + 8))
    match s.listAdd tr sp c t.world (recXbase t.dst) (recXlen t.dst) ridx cause off with
    | (s1, none) => s1.modRun cl ch fun t => { t with ridx := some ridx }
    | (s1, some (_, _, q, a)) => (s1.modRun cl ch fun t => { t with listDead := true }).addFlag cl ch t (causeFault q) t.pos (a % 2 ^ 57)

/-- The FIFO entry of a copy that stops inside it, at element `j` (R240): the lanes from there on hold free values (log 32). -/
def State.partEntry (s : State) (who fmt j : Nat) (vs : List Nat) : Vec :=
  fifoEntry fmt (vs ++ (List.range (128 - vs.length)).map fun i => (freeAt (s.occ s.cyc) 0 who (j + i)).toNat)

/-- The log of a copy that stops at element `e` because its line does not verify (R401). -/
def State.logCopy (s : State) (q : List Tracked) (t : Tracked) (e : Bool × Int) : State :=
  let va := (BitVec.ofInt 64 (recAddr t.src e.2)).toNat
  match s.copyTr q t va 0 with
  | .ok tr => match s.badLine tr.wtag (tr.phys va) (recW t.src) with | some l => s.logLine ⟨some t.core, some t.ctx, some t.world⟩ 4 l | none => s
  | .error _ => s

/-- One element of a tracked copy (R227, R240). -/
def State.stepCopy (s : State) (cl ch : Nat) (t : Tracked) : State :=
  let j := t.pos
  let e := srcElem t.x t.src t.dst j
  match s.copyRead (s.chan cl ch).queue t e with
  | .error none => s
  | .error (some (c, va)) =>
    let u := s.logCopy (s.chan cl ch).queue t e
    if t.acc.isEmpty then u.stopCopy cl ch t c j va
    else match s.fifoRoom (recPeer t.dst t.core) (recFifo t.dst) with
      | none => s.stopCopy cl ch t fWINDOW (j - t.acc.length) 0
      | some 0 => s
      | some _ =>
        let e := s.partEntry (copyNo cl ch t.id true) (recFmt t.dst) j t.acc
        (u.pushFifo (recPeer t.dst t.core) (recFifo t.dst) (recFmt t.dst) e).stopCopy cl ch t c j va
  | .ok x =>
    let o := moveElem (recFmt t.src) (recFmt t.dst) x
    let lists := decide (o.entry ≠ 0 ∧ recXlen t.dst ≠ 0) && !t.listDead
    let next := fun (u : State) (acc : List Nat) =>
      let u1 := (u.copyList cl ch t o.entry (off48 e.2)).modRun cl ch fun t => { t with pos := j + 1, acc := acc }
      if recN t.dst ≤ j + 1 then u1.copyTags t (j + 1) else u1
    if lists && !s.listClear (t.by_ cl ch (s.chan cl ch).queue) (recSpace t.dst) (recPeer t.dst t.core) t.world (recXbase t.dst) (recXlen t.dst) 1 then s
    else if fifoSpace (recSpace t.dst) then
      let acc := t.acc ++ [s.fifoElem (copyNo cl ch t.id true) t.dst j o.bits]
      if acc.length < 128 then next s acc
      else
        let p := recPeer t.dst t.core
        match s.fifoRoom p (recFifo t.dst) with
        | none => s.stopCopy cl ch t fWINDOW (j - 127) 0
        | some 0 => s
        | some _ => next (s.pushFifo p (recFifo t.dst) (recFmt t.dst) (fifoEntry (recFmt t.dst) acc)) []
    else match s.copyWrite cl ch t (recElem t.dst j) o.bits with
      | .error none => s
      | .error (some (c, va)) => s.stopCopy cl ch t c j va
      | .ok u => next u []

/-- TRACKED_COPY_ELEMENT (R240): a copy that has started reads once what it follows has performed. -/
def execTrackedCopyElement (cl ch : Nat) (s : State) : Out3 :=
  match (s.chan cl ch).run with
  | none => .next s
  | some t => .next (if t.stopped || decide (recN t.dst ≤ t.pos) || !s.copyReady t then s else s.stepCopy cl ch t)

/-- TRACKED_COPY_COMPLETE (R238, R240, R376). -/
def execTrackedCopyComplete (cl ch : Nat) (s : State) : Out3 :=
  match (s.chan cl ch).run with
  | none => .next s
  | some t =>
    if !(t.stopped || decide (recN t.dst ≤ t.pos)) || (s.packets.any fun p => !p.lost && decide (p.copy = some (cl, ch, t.id))) then .next s
    else
      let d := dieOf t.core
      let s1 := s.modChan cl ch fun h => { h.complete t with run := none }
      -- the launch waits for the copy's global writes in every view (R347)
      let a := fun (n : Nat) => ({ id := n, ctx := 8, gen := 0, launch := t.launch, kind := 1, done := true, stamp := some (d, (s.die d).out) } : Access)
      .next (if recSpace t.dst = 0 then
        s1.modCore t.core fun k => { k with access := k.access ++ [a k.nextAccess], nextAccess := k.nextAccess + 1 } else s1)

-- ## Identifiers (R238, R243)

/-- Does an identifier precede DONE (R238)? -/
def Channel.precedes (h : Channel) (id : Nat) : Bool :=
  let n := (h.done_ + 2 ^ 32 - id) % 2 ^ 32
  decide (0 < n) && decide (n ≤ 2 ^ 31)
/-- The commands pushed again after a pre-emption that have not completed (R244). -/
def Channel.repushed (h : Channel) : List Tracked := (h.queue ++ h.run.toList).filter fun t => t.repush
def Channel.covered (h : Channel) (id : Nat) : Bool := h.precedes id && !h.repushed.any fun t => decide (t.id = id)

/-- The oldest flag-file entry that a CIDW on `id` finds (R243). -/
def Channel.flagFor (h : Channel) (c x : Nat) (g : BitVec 16) (id : Nat) : Option Flag :=
  h.flags.find? fun f => f.of c x g && decide ((id + 2 ^ 32 - f.id) % 2 ^ 32 < 2 ^ 31)

/-- Detail word 1 of a copy flag (R356). -/
def Flag.detail (f : Flag) (ch : Nat) : Word := src 1 (f.id + ch * 2 ^ 32 + f.index % 2 ^ 26 * 2 ^ 34)

/-- CIDW (R243): a flag-file entry faults; else the context waits until the identifier is covered. -/
def execCidw (g : Guard) (a : Code) (x : Ext) (s : State) : Out3 :=
  sop (.cidw g a x) false false s fun s =>
    let ch := bits x.byte.toNat 1 0
    let h := s.chan (clusterOf s.iss.core) ch
    let id := (s.rdS a).toNat % 2 ^ 32
    match h.flagFor s.iss.core s.iss.ctx s.cur.gen id with
    | some f => s.raise f.cause (BitVec.ofNat 64 f.va) (f.detail ch)
    | none => .next (if h.covered id then s.modIss fun i => { i with yield := true } else s.await (.cid ch id))

/-- The flag-file entry that a CIDW's fault carries leaves the file, though its bundle has no other effect (R243). -/
def State.dropFlagged (s : State) (f : Nat × Nat × Word × Word) : State :=
  let d1 := f.2.2.2.toNat
  let ch := bits d1 33 32
  let mine := fun (q : Flag) => q.of s.iss.core s.iss.ctx s.cur.gen && decide (q.id = d1 % 2 ^ 32) && decide (q.cause = f.2.1)
  if bits d1 63 60 = 1 ∧ (f.2.1 = fPAGE ∨ f.2.1 = fPERM ∨ f.2.1 = fWORLD ∨ f.2.1 = fWINDOW) then
    s.modChan (clusterOf s.iss.core) ch fun h =>
      match h.flags.find? mine with
      | some q => { h with flags := h.flags.erase q }
      | none => h
  else s

/-- CIDW_WAKE (R243). -/
def execCidwWake (core ctx : Nat) (s : State) : Out3 :=
  .next (s.endWait core ctx fun w => match w with | .cid ch id => (s.chan (clusterOf core) ch).covered id | _ => false)

/-- CIDR (R243). -/
def execCidr (g : Guard) (d : Code) (x : Ext) (s : State) : Out3 :=
  sop (.cidr g d x) false false s fun s =>
    let h := s.chan (clusterOf s.iss.core) (bits x.byte.toNat 1 0)
    let again := h.repushed.any fun t => t.of s.iss.core s.iss.ctx s.cur.gen
    let flag := h.flags.any fun f => f.of s.iss.core s.iss.ctx s.cur.gen
    .next (s.putS 1 0 d (BitVec.ofNat 64 (h.done_ + b2n again (2 ^ 62) + b2n flag (2 ^ 63))))

/-- CINV (R245, R313): the tenant-level page's translations go from the die's buffers, and a marker enters the queue. -/
def execCinv (g : Guard) (a : Code) (x : Ext) (s : State) : Out3 :=
  sop (.cinv g a x) false false s fun s =>
    let c := s.iss.core
    let w := s.worldOf c s.iss.ctx
    let va := (s.rdS a).toNat
    let p := fun (e : TlbEntry) => decide (e.world = w) && decide (e.va / 2 ^ lvlShift e.tlvl = va / 2 ^ lvlShift e.tlvl)
    .next ((s.invalidate (dieOf c) p).markChan (clusterOf c) (bits x.byte.toNat 1 0) w (va / 65536))

/-- CHALT (R246). -/
def execChalt (g : Guard) (x : Ext) (s : State) : Out3 :=
  sop (.chalt g x) false false s fun s =>
    .next (s.modChan (clusterOf s.iss.core) (bits x.byte.toNat 1 0) fun h => h.halt s.iss.core s.iss.ctx s.cur.gen)

end Sys2Proof.Machine
end

