-- ==== Sys2Proof/Machine/Fabric.lean ====
section
/-! DEFINITION. Messages and handlers, window writes, loss and repair, the roll call, collectives (R372 to R394). -/

namespace Sys2Proof.Machine

-- ## Links (R372)

/-- Links present (R80). -/
def State.nLinks (s : State) : Nat := bits s.caps.toNat 10 5
/-- Is a link trained? Every link is at reset (R426). -/
def State.linkUp (s : State) : Bool := (List.range s.nLinks).any fun l => NMap.getD s.links l true
/-- LINK_FLIT_RETRY (R372): invisible to programs. -/
def execLinkFlitRetry (_link : Nat) (s : State) : Out3 := .next s
/-- CREBY_LINK_LOST (R372). -/
def execCrebyLinkLost (link : Nat) (s : State) : Out3 := .next { s with links := NMap.set s.links link false }
/-- CREBY_LINK_TRAINED (R372). -/
def execCrebyLinkTrained (link : Nat) (s : State) : Out3 := .next { s with links := NMap.erase s.links link }

-- ## Messages and handlers (R381 to R384)

/-- The job of the task in issue, or PERM with reason 5 (R373). -/
def State.needJob (s : State) (k : Nat → Out3) : Out3 :=
  match s.jobOf s.iss.core s.iss.ctx with
  | none => s.perm 5
  | some j => k j

/-- MSEND (R381). -/
def execMsend (g : Guard) (a b : Code) (s : State) : Out3 :=
  sop (.msend g a b) false false s fun s => s.needJob fun job =>
    let c := s.iss.core
    let v := (s.rdS a).toNat
    let len := bits v 38 32
    let resv := s.rdS a &&& 0xFF00FF80C0000000
    if resv ≠ 0 then s.range 0 resv
    else if 56 ≤ clusterNo (bits v 29 20) then s.range 0 (BitVec.ofNat 64 (bits v 29 20))
    else s.heldUntil (decide (s.curCore.sendq.length < 16)) fun s =>
      let m : Msg := { node := bits v 19 0, core := bits v 29 20, tag := bits v 55 48, len := len,
                       payload := s.rdV b &&& BitVec.ofNat 4096 (2 ^ (32 * (len + 1)) - 1), job := job, srcNode := s.node, srcCore := c,
                       ctx := s.iss.ctx, gen := s.cur.gen, seq := s.curCore.nextAccess }
      .next ((s.modCurCore fun k => { k with sendq := k.sendq ++ [m] }).addInj (dieOf c) job)

/-- A handler's s0 (R383), the header that travels with a message. -/
def Msg.header (m : Msg) : Word := BitVec.ofNat 64 (m.srcNode + m.srcCore * 2 ^ 20 + m.tag * 2 ^ 32 + m.len * 2 ^ 48)

/-- MESSAGE_TRANSMIT (R381): the oldest entry is handed to a link, once the fences before it let it perform (R321). -/
def execMessageTransmit (core : Nat) (s : State) : Out3 :=
  match (s.core core).sendq with
  | [] => .next s
  | m :: rest =>
    if s.linkUp && s.fencesOpen core m.ctx m.gen m.seq then
      let p : Packet := { id := s.nextPacket, kind := 1, die := dieOf core, job := m.job, node := m.node, core := core, access := 0,
                          copy := none, pa := m.core, data := leBytes 8 m.header.toNat ++ leBytes (4 * (m.len + 1)) m.payload.toNat, tries := 0,
                          ctx := m.ctx }
      .next { s.modCore core fun k => { k with sendq := rest } with packets := s.packets ++ [p], nextPacket := s.nextPacket + 1 }
    else .next s

/-- MHND (R382). -/
def execMhnd (g : Guard) (a : Code) (s : State) : Out3 :=
  sop (.mhnd g a) false false s fun s =>
    let v := s.rdS a
    let x := s.iss.ctx
    if v = 0 then
      .next (s.modCurCore fun k => { k with handlers := k.handlers.filter fun h => !decide (h.ctx = x ∧ h.gen = s.cur.gen) })
    else s.needJob fun job =>
      if v.toNat % 16 ≠ 0 then s.align3 v
      else if 2 ^ 57 ≤ v.toNat then s.range 0 v
      else
        let h : Handler := { job := job, entry := v.toNat, launch := s.cur.launch, prio := s.cur.prio, world := s.worldOf s.iss.core x,
                             depth := s.cur.depth, ctx := x, gen := s.cur.gen }
        .next (s.modCurCore fun k => { k with handlers := (k.handlers.filter fun h => decide (h.job ≠ job)) ++ [h] })

/-- A message to `core` discarded: counted CONS and logged (R383, R429). -/
def State.dropMsg (s : State) (die core job node : Nat) : State :=
  (s.addCons die job).logAt 0x22 core (s.freeLog 1 % 8) (s.freeLog 2 % 64) (BitVec.ofNat 64 job) (BitVec.ofNat 64 node)

/-- A packet that comes in again has no further effect (R385): `src` numbers its stream, `id` the packet in it. -/
def State.fresh (s : State) (src id : Nat) : Bool := !s.seen.contains (src, id)
def State.see (s : State) (src id : Nat) : State := { s with seen := s.seen ++ [(src, id)] }

/-- MESSAGE_ARRIVAL (R374, R383): refused where the job table is full; `hdr` is the header of R383. -/
def execMessageArrival (core : Nat) (from_ : Origin) (hdr : BitVec 64) (payload : Vec) (s : State) : Out3 :=
  let job := from_.job
  match if s.fresh from_.src from_.id then s.withJob job else none with
  | none => .next s
  | some s0 =>
    let s1 := s0.see from_.src from_.id
    let h := hdr.toNat
    if s.nDies ≤ dieOf core then .next (s1.dropMsg 0 core job (bits h 19 0))
    else if 32 ≤ (s.core core).inq.length then .next s
    else
      let m : Msg := { node := s.node, core := core, tag := bits h 39 32, len := bits h 54 48, payload := payload, job := job,
                       srcNode := bits h 19 0, srcCore := bits h 29 20 }
      .next (s1.modCore core fun k => { k with inq := k.inq ++ [m] })

/-- The handler task of a message, in context `x` (R383). -/
def State.startHandler (s : State) (core x : Nat) (h : Handler) (m : Msg) : State :=
  let l := NMap.get? s.launches h.launch
  let ceiling := match l with | some v => lrPrio v.rec_ | none => h.prio
  let new : Ctx :=
    { allocS := 16, allocV := 4, sreg := NMap.set [(0, m.header)] 1 (BitVec.ofNat 64 m.job),
      vreg := [(0, m.payload &&& BitVec.ofNat 4096 (2 ^ (32 * (m.len + 1)) - 1))], pc := h.entry, launch := h.launch,
      slot := (l.map (·.slot)).getD 0, world := h.world, depth := h.depth, prio := h.prio, ceiling := ceiling, handler := some m.job }
  (s.start core x new).modLaunch h.launch fun v => v.placedOn core

/-- HANDLER_PLACEMENT (R383): the message at the head of the queue is discarded, or starts its handler, or waits. -/
def execHandlerPlacement (core : Nat) (s : State) : Out3 :=
  let k := s.core core
  match k.inq with
  | [] => .next s
  | m :: rest =>
    let s1 := s.modCore core fun q => { q with inq := rest }
    match k.handlers.find? fun h => decide (h.job = m.job) with
    | none => .next (s1.dropMsg (dieOf core) core m.job m.srcNode)
    | some h =>
      match (List.range 8).find? fun x => decide ((k.ctx x).st = .free) with
      | none => .next s
      | some x => .next (if 16 ≤ k.freeS ∧ 4 ≤ k.freeV ∧ k.world = h.world then s1.startHandler core x h m else s)

-- ## Window writes, acknowledgements, loss (R374 to R376, R385)

/-- Does a window write's destination lie in memory that is there (R376)? -/
def State.windowLands (s : State) (pa size : Nat) : Bool := decide (pa + size ≤ s.hbmSize)

/-- Are the lines of a window write free of buffered updates, or is it not to be performed (R317)? -/
def State.windowClear (s : State) (pa size : Nat) : Bool := !s.windowLands pa size || s.lineClear (homeDie pa) pa size 1024 0 s.cyc
/-- Have the earlier window writes of the stream reached the view in which this one would perform (R376)? -/
def State.inTurn (s : State) (src pa : Nat) : Bool :=
  let d := homeDie pa
  s.arrivals.all fun q => decide (q.src ≠ src) || decide (q.die = d) || decide (q.num ≤ NMap.getD (s.die d).applied q.die 0)
/-- Does the device take this input now? A message waits for room in its queue, a window write for the lines it writes and for the
earlier writes of its stream, and what has the arbiter, the Registrar or a gateway reach memory for the buffered updates of its lines (R317,
R376, R383). -/
def State.accepts (s : State) : Instr → Bool
  | .messageArrival core q _ _ => decide (s.nDies ≤ dieOf core) || decide ((s.core core).inq.length < 32) || !s.fresh q.src q.id
  | .windowWriteArrival q _ pa size _ => (s.windowClear pa size && s.inTurn q.src pa) || !s.fresh q.src q.id
  | .launchClaim tdi slot => s.arbClear (s.hostWorld tdi) (lw (s.slotAt slot).rec_ 0xC0) 256
  | .launchWindowWrite tdi slot off _ => decide (off / 8 ≠ 31) || s.arbClear (s.hostWorld tdi) (lw (s.slotAt slot).rec_ 0xC0) 256
  | .keyEval session va _ blob => s.arbClear (s.session session).world va blob.length
  | _ => true

/-- WINDOW_WRITE_ARRIVAL (R374, R376): performed at the home die, or discarded, counted CONS and logged. A performed write is counted
CONS once it is applied in every view. -/
def execWindowWriteArrival (from_ : Origin) (wtag pa size : Nat) (val : Vec) (s : State) : Out3 :=
  let job := from_.job
  match if s.fresh from_.src from_.id then s.withJob job else none with
  | none => .next s
  | some s0 =>
    let s1 := s0.see from_.src from_.id
    let ok := match s1.jobEntry job with | some (_, e) => e.v && decide (e.wtag = wtag) | none => false
    if !ok || !s.windowLands pa size then
      .next ((s1.addCons (homeDie pa % max s.nDies 1) job).log 0x23 (BitVec.ofNat 64 pa) (BitVec.ofNat 64 job))
    else if !s.windowClear pa size || !s.inTurn from_.src pa then .next s
    else
      let (s2, st) := s1.writeView (homeDie pa) wtag pa (leBytes size val.toNat)
      .next { s2 with arrivals := s2.arrivals ++ [⟨st.1, st.2, job, from_.src⟩] }

/-- Window writes that every view has applied are counted CONS (R374). -/
def State.settleArrivals (s : State) : State :=
  let there := fun (q : Arrival) => s.appliedAll (q.die, q.num)
  (s.arrivals.filter there).foldl (fun t q => t.addCons q.die q.job) { s with arrivals := s.arrivals.filter fun q => !there q }

/-- The access whose window write a packet carries has its acknowledgement (R376). -/
def State.ackAccess (s : State) (p : Packet) : State :=
  if p.kind = 0 ∧ p.copy = none then
    s.modCore p.core fun k =>
      { k with access := k.access.map fun a => if a.id = p.access ∧ isWindow a.pa = true then { a with unacked := false } else a }
  else s

/-- PACKET_ACKNOWLEDGE (R376, R385). -/
def execPacketAcknowledge (id : Nat) (s : State) : Out3 :=
  match s.packets.find? fun p => decide (p.id = id) && !p.lost with
  | none => .next s
  | some p => .next { s.ackAccess p with packets := s.packets.filter fun q => decide (q.id ≠ id) }

def State.mapDies (s : State) (f : Nat → Die → Die) : State := (List.range s.nDies).foldl (fun t d => t.modDie d (f d)) s
/-- The waves so far found the packet of `job` that is lost open: none of them may end in QUIET (R385). -/
def State.barQuiet (s : State) (job : Nat) : State :=
  s.mapDies fun _ k => { k with rep := k.rep.map fun p => (p.1, job :: p.2) }

/-- END_TO_END_RETRANSMIT (R385): sent again, or declared lost, which counts as its acknowledgement (R376). A packet that is known to
have arrived is not declared lost. -/
def execEndToEndRetransmit (id : Nat) (lost0 : Bool) (s : State) : Out3 :=
  match s.packets.find? fun p => decide (p.id = id) && !p.lost with
  | none => .next s
  | some p =>
    let lost := lost0 && !p.arrived
    let f := fun (q : Packet) => if q.id = id then { q with tries := q.tries + 1, lost := lost } else q
    let s1 := { s with packets := s.packets.map f }
    .next (if lost then ((s1.ackAccess p).barQuiet p.job).modJob p.job fun e => { e with loss := true } else s1)

/-- REPAIR_NOTICE_APPLY (R385): the source's INJ goes down by one for a lost packet. -/
def execRepairNoticeApply (die job : Nat) (s : State) : Out3 :=
  match s.packets.find? fun p => p.lost && decide (p.die = die ∧ p.job = job) with
  | none => .next s
  | some p => .next ({ s with packets := s.packets.filter fun q => decide (q.id ≠ p.id) }.subInj die job)

-- ## The roll call (R377 to R380)

/-- A die's counts of the jobs it holds. -/
def State.counts (s : State) (d : Nat) : NMap (Nat × Nat) :=
  s.jobs.foldl (fun m p => NMap.set m p.2.job (NMap.getD p.2.inj d 0, NMap.getD p.2.cons d 0)) []

/-- ROLL_CALL_WAVE (R377): pass 1 snapshots the counts of every interface. The places of the last 65,536 waves are kept. -/
def execRollCallWave (wave : Nat) (s : State) : Out3 :=
  .next (s.mapDies fun d k =>
    { k with waves := k.waves + 1, snap := NMap.set k.snap wave (s.counts d)
             began := NMap.set (k.began.filter fun p => decide (k.waves < p.2 + 2 ^ 16)) wave (k.waves + 1) })
/-- The place of wave `wave` among those that have begun at the die; waves start in ascending order (R377). -/
def Die.place (k : Die) (wave : Nat) : Nat := NMap.getD k.began wave 0

/-- The jobs that have a counted packet of which this package knows that it is not consumed, or a repair notice to apply: ΣI₂ stands above
ΣC₂ (R378, R384, R385). -/
def State.openJobs (s : State) : List Nat :=
  ((s.packets.filter fun p => p.lost || (decide (p.node = s.node) && !p.arrived)).map (·.job) ++ s.arrivals.map (·.job) ++
   s.consWait.map (fun q => q.2.2.2) ++ (s.cores.flatMap fun q => (q.2.sendq ++ q.2.inq).map (·.job)) ++
   (s.allCtxs.filterMap fun q => q.2.2.handler) ++
   ((s.gates.filter fun q => !q.2.pending.isEmpty || q.2.chunks.any fun c => c.2.owed).map fun q => q.2.job)).dedup

/-- ROLL_CALL_PASS2 (R377): each interface finds the jobs whose counts differ from its snapshot, and those with an open packet (R378);
the last 256 reports are kept. -/
def execRollCallPass2 (wave : Nat) (s : State) : Out3 :=
  .next (s.mapDies fun d k =>
    match NMap.get? k.snap wave with
    | none => k
    | some old =>
      let changed := ((s.counts d).filter fun p => decide (NMap.getD old p.1 (0, 0) ≠ p.2)).map (·.1) ++ s.openJobs
      { k with snap := NMap.erase k.snap wave,
               rep := NMap.set (k.rep.filter fun p => decide (k.place wave < k.place p.1 + 256)) wave changed })

/-- ROLL_CALL_VERDICT (R377, R379): the verdict reaches an interface that holds the job, after the earlier ones; contexts whose WQUIET
it answers become ready and acquire. A QUIET verdict never follows a change that this package reported, nor a packet that it knew to be
open. `found.loss`: some package has declared a packet of the job lost (R380, R385). -/
def execRollCallVerdict (die wave job : Nat) (found : Finding) (sumi : Nat) (s : State) : Out3 :=
  let quiet := found.quiet
  let k := s.die die
  let clean := (List.range s.nDies).all fun d => match NMap.get? (s.die d).rep wave with
    | some js => !js.contains job
    | none => false
  let later := match NMap.get? k.verdicts job with | some v => decide (v.ord < k.place wave) | none => true
  if (s.jobEntry job).isNone || !later || (NMap.get? k.rep wave).isNone || (quiet && !clean) then .next s
  else
    let s1 := (s.modDie die fun k => { k with verdicts := NMap.set k.verdicts job ⟨quiet, wave, sumi % 2 ^ 48, k.place wave⟩ }).modJob job fun e =>
      { e with loss := e.loss || found.loss }
    let answers := fun (w : Wait) => match w with | .quiet j (some n) => decide (j = job) && decide (n < k.place wave) | _ => false
    let wake := fun (t : State) (q : Nat × Nat × Ctx) =>
      if dieOf q.1 = die ∧ q.2.2.waits.any answers = true then t.endWaitAcq q.1 q.2.1 answers else t
    .next (if quiet then s1.allCtxs.foldl wake s1 else s1)

/-- GANG_INCOMPLETE of the task in issue, if its gang is known incomplete (R388). -/
def State.myGinc (s : State) : Option (Nat × Nat) :=
  if s.cur.handler.isNone && !s.cur.proc && s.multi s.cur.launch then s.ginc s.cur.launch else none

/-- WQUIET (R379, R388). -/
def execWquiet (g : Guard) (s : State) : Out3 :=
  sop (.wquiet g) false false s fun s => s.needJob fun job =>
    match s.myGinc with
    | some (d0, d1) => s.raise fGANG (BitVec.ofNat 64 d0) (BitVec.ofNat 64 d1)
    | none => .next (s.await (.quiet job none))

/-- RCSTAT (R380). -/
def execRcstat (g : Guard) (d : Code) (s : State) : Out3 :=
  sop (.rcstat g d) false false s fun s => s.needJob fun job =>
    let loss := match s.jobEntry job with | some (_, e) => e.loss | none => false
    let v := match NMap.get? (s.die (dieOf s.iss.core)).verdicts job with
      | some v => 2 ^ 63 + b2n v.quiet (2 ^ 62) + v.wave % 2 ^ 12 * 2 ^ 48 + v.sumi
      | none => 0
    .next (s.putS 1 0 d (BitVec.ofNat 64 (v + b2n s.myGinc.isSome (2 ^ 61) + b2n loss (2 ^ 60))))

-- ## Arithmetic of collectives (R390, R391)

/-- The FP32 sum, RNE, saturating: its bits, and whether it overflowed (R390, R392). -/
def addFp32 (a b : BitVec 32) : BitVec 32 × Bool :=
  let o := encodeBin 23 0 false (Num.add 0 (decodeBin 23 a.toNat) (decodeBin 23 b.toNat))
  (BitVec.ofNat 32 o.bits, decide (o.causes &&& cOF ≠ 0))
def addLists (a b : List (BitVec 32)) : List (BitVec 32) × Bool :=
  let r := List.zipWith addFp32 a b
  (r.map (·.1), r.any (·.2))
def isNaN32 (x : BitVec 32) : Bool := isNaN (decodeBin 23 x.toNat)

/-- A value scaled by a power of two. -/
def Num.scale (x : Num) (n : Int) : Num := match x with | .fin s m e => .fin s m (e + n) | y => y

/-- The block exponent (R391). -/
def blockExp (xs : List (BitVec 32)) : Nat :=
  xs.foldl (fun m x => let e := bits x.toNat 30 23; if e < 255 ∧ m < e then e else m) 0
/-- A block compressed: its exponent, then its values as BF16 (R391). -/
def compressBlock (xs : List (BitVec 32)) : List (BitVec 32) :=
  let e := blockExp xs
  BitVec.ofNat 32 e :: xs.map fun x => BitVec.ofNat 32 (encodeBin 7 0 false ((decodeBin 23 x.toNat).scale (127 - e))).bits
/-- A block expanded, and whether a value saturated (R391). -/
def ringBlock (ws : List (BitVec 32)) : List (BitVec 32) × Bool :=
  let e := (ws.headD 0).toNat
  let r := ws.tail.map fun v => encodeBin 23 0 false ((decodeBin 7 v.toNat).scale ((e : Int) - 127))
  (r.map fun o => BitVec.ofNat 32 o.bits, r.any fun o => decide (o.causes &&& cOF ≠ 0))
def compress (xs : List (BitVec 32)) : List (BitVec 32) :=
  (List.range (xs.length / 32)).flatMap fun i => compressBlock ((xs.drop (32 * i)).take 32)
def expand (ws : List (BitVec 32)) : List (BitVec 32) × Bool :=
  let r := (List.range (ws.length / 33)).map fun i => ringBlock ((ws.drop (33 * i)).take 33)
  (r.flatMap (·.1), r.any (·.2))

-- ## Gateways (R389, R390)

def Part.size (p : Part) : Nat := p.list.length
/-- Elements of a chunk (R392). -/
def Part.chunkLen (p : Part) : Nat := if p.kind = 3 then p.n else p.n / max p.size 1
/-- Entries of the status array (R392). -/
def Part.entries (p : Part) : List Nat := if p.kind = 0 ∨ p.kind = 2 then List.range p.size else [0]
/-- Do two participants differ in what must agree (R390)? -/
def Part.differs (p q : Part) : Bool := !decide (p.kind = q.kind ∧ p.n = q.n ∧ p.ppart = q.ppart ∧ p.root = q.root ∧ p.list = q.list)

def noPart : Part := ⟨0, 0, 0, 0, 0, [], 0, 0, 0, 0, 0, 0, 0, 0, false⟩
/-- What the participants of a collective must agree in, as one number (R390). -/
def Part.desc (p : Part) : Nat := p.list.foldl (fun a n => a * 2 ^ 20 + n) (p.kind + p.n * 2 ^ 2 + p.ppart * 2 ^ 34 + p.root * 2 ^ 44 + 2 ^ 56)
def Gateway.lead (g : Gateway) : Part := g.parts.headD noPart
def Gateway.size (g : Gateway) : Nat := g.lead.size
def Gateway.chunk (g : Gateway) (k : Nat) : Chunk := NMap.getD g.chunks k {}
/-- Every chunk of the collective. -/
def Gateway.allChunks (g : Gateway) : List Nat := if g.lead.kind = 3 then [0] else List.range g.size
/-- The chunks this package writes. -/
def Gateway.wanted (g : Gateway) : List Nat := if g.lead.kind = 1 then [g.self_] else g.allChunks
/-- The contributors that make chunk `k` complete. -/
def Gateway.full (g : Gateway) (k : Nat) : Nat :=
  if g.lead.kind ≤ 1 then 2 ^ g.size - 1 else if g.lead.kind = 2 then 2 ^ k else 2 ^ g.lead.root
/-- Has every participant joined? -/
def Gateway.joined (g : Gateway) : Bool := decide (g.lead.ppart ≤ g.parts.length)
def State.modGate (s : State) (n : Nat) (f : Gateway → Gateway) : State :=
  match NMap.get? s.gates n with
  | some g => { s with gates := NMap.set s.gates n (f g) }
  | none => s
def State.modChunk (s : State) (n k : Nat) (f : Chunk → Chunk) : State :=
  s.modGate n fun g => { g with chunks := NMap.set g.chunks k (f (g.chunk k)) }

/-- The first value of a descriptor that breaks R389, but for the package list. -/
def collBad (ws : List Word) : Option Nat :=
  let w := fun i => (ws.getD i 0).toNat
  let above := fun (i n : Nat) => w i / 2 ^ n * 2 ^ n
  let bad := fun (i z : Nat) => if 2 ^ 57 ≤ w i then above i 57 else if w i % z ≠ 0 then w i else 0
  if bits (w 2) 31 0 = 0 then some 0
  else firstOf [bad 0 128, bad 1 128, (ws.getD 2 0 &&& 0xF000FC0000000000).toNat, if 896 ≤ bits (w 2) 41 32 then bits (w 2) 41 32 else 0,
    above 3 32, bad 4 8, bad 5 8, bad 6 8, w 7]

/-- A participant joins the gateway slot of (job, TAG), or opens one (R389); a slot whose participants have all joined takes no more. One that
joins after the package has dropped out contributes nothing any more, and is served late (R390). -/
def State.joinGate (s : State) (job tag self_ : Nat) (p : Part) (d : Code) : State :=
  let open_ := s.gates.find? fun q => decide (q.2.job = job ∧ q.2.tag = tag) && !q.2.counted && !q.2.joined
  match open_ with
  | some (n, g) => (s.modGate n fun g => { g with parts := g.parts ++ [{ p with late := g.begun.isSome }] }).putS 1 0 d (BitVec.ofNat 64 (2 ^ 63 + g.seq % 2 ^ 63))
  | none =>
    match (List.range 64).find? fun i => (NMap.get? s.gates i).isNone with
    | none => s.putS 1 0 d 0
    | some n =>
      let g : Gateway := { seq := s.nextGate, job := job, tag := tag, since := s.cyc, parts := [p], self_ := self_ }
      { s with gates := NMap.set s.gates n g, nextGate := s.nextGate + 1 }.putS 1 0 d (BitVec.ofNat 64 (2 ^ 63 + g.seq % 2 ^ 63))

/-- COLL.ar, COLL.rs, COLL.ag, COLL.bc, kinds 0 to 3 (R389): it releases as FENCE.rel.pkg does, so the merges of the core's buffered updates
are asked for first (R317). -/
def collOp (i : Instr) (kind : Nat) (d a : Code) (s : State) : Out3 :=
  sop i false false s fun s => s.needJob fun job =>
    let va := (s.rdS a).toNat
    if va % 64 ≠ 0 then s.raiseWalk 0 va 0 0 0 3
    else s.freshRead va 64 fun bs s =>
      let ws := words8 8 bs
      let w := fun i => (ws.getD i 0).toNat
      let n := bits (w 2) 31 0
      let root := bits (w 2) 59 48
      match collBad ws with
      | some v => s.range 0 (BitVec.ofNat 64 v)
      | none => s.heldUntil (s.listWordsClear (w 4)) fun s => match s.readList (w 4) with
        | .error (l, st, q, at_) => s.raiseWalk 0 at_ 0 l st q
        | .ok ls => match pkgList ls 0 1 s.node with
          | .error v => s.range 0 (BitVec.ofNat 64 v)
          | .ok (j, nodes, _) =>
            if j ≠ job then s.range 0 (BitVec.ofNat 64 j)
            else if nodes.length ≤ root then s.range 0 (BitVec.ofNat 64 root)
            else if kind ≠ 3 ∧ n % (32 * nodes.length) ≠ 0 then s.range 0 (BitVec.ofNat 64 n)
            else
              let x := s.iss.ctx
              let c := s.iss.core
              let s0 := s.askMerges c fun _ => true
              let s1 := s0.enter { id := s0.curCore.nextAccess, ctx := x, gen := s.cur.gen, launch := s.cur.launch, kind := 5, scope := 5,
                                   at_ := s.cyc } false
              let p : Part := { core := c, kind := kind, n := n, ppart := bits (w 2) 41 32 + 1, root := root, list := nodes, src := w 0, dst := w 1,
                                stat := w 5, ctr := w 6, world := s.worldOf c x, ctx := x, gen := s.cur.gen, at_ := s1.curCore.nextAccess }
              .next (s1.joinGate job (w 3) (nodes.findIdx fun n => decide (n = s.node)) p d)

/-- COLL.ar (R389). -/
def execCollAr (g : Guard) (d a : Code) (s : State) : Out3 := collOp (.collAr g d a) 0 d a s
/-- COLL.rs (R389). -/
def execCollRs (g : Guard) (d a : Code) (s : State) : Out3 := collOp (.collRs g d a) 1 d a s
/-- COLL.ag (R389). -/
def execCollAg (g : Guard) (d a : Code) (s : State) : Out3 := collOp (.collAg g d a) 2 d a s
/-- COLL.bc (R389). -/
def execCollBc (g : Guard) (d a : Code) (s : State) : Out3 := collOp (.collBc g d a) 3 d a s

-- ## Reading and writing for participants (R390, R392)

/-- A translation fault of a collective is logged, on no context (R392). -/
def State.collFault (s : State) (p : Part) (va code : Nat) : State :=
  s.logWho ⟨some p.core, some p.ctx, some p.world⟩ 0x27 (BitVec.ofNat 64 va) (BitVec.ofNat 64 code)

def fp32Words : Nat → List Byte → List (BitVec 32)
  | 0, _ => []
  | n + 1, bs => BitVec.ofNat 32 (leNat (bs.take 4)) :: fp32Words n (bs.drop 4)

/-- Does a management context take part, which may reach register pages (R422)? -/
def Part.mgmt (p : Part) : Bool := isSupervisor p.core && decide (p.world = 0)
/-- Elements `off` on of a participant's source. -/
def State.readSrc (s : State) (p : Part) (off n : Nat) : State × Option (List (BitVec 32)) :=
  match s.readAs p.mgmt (dieOf p.core) p.world (p.src + 4 * off) (4 * n) with
  | .ok bs => (s, some (fp32Words n bs))
  | .error (l, _, q, va) => ((s.logLine ⟨some p.core, some p.ctx, some p.world⟩ q l).collFault p va (causeFault q), none)

/-- The package's contribution to chunk `k`, from participants in ascending core number: values if there are any, and the entry's
flags (R390). -/
def State.ownChunk (s : State) (g : Gateway) (k : Nat) : State × Option (List (BitVec 32)) × Nat :=
  let ps := g.parts.insertionSort fun p q => p.core ≤ q.core
  let n := g.lead.chunkLen
  let off := if g.lead.kind = 3 then 0 else k * n
  if g.lead.kind = 2 ∧ k ≠ g.self_ ∨ g.lead.kind = 3 ∧ g.lead.root ≠ g.self_ then (s, none, 0)
  else
    let use := if g.lead.kind ≤ 1 then ps else ps.take 1
    let add := fun (acc : State × Option (List (BitVec 32)) × Nat × Bool) (p : Part) =>
      let (t, v) := acc.1.readSrc p off n
      match v with
      | none => (t, none, acc.2.2.1 ||| 33, true)
      | some xs => match acc.2.1 with
        | some ys => let (zs, o) := addLists ys xs
                     (t, some zs, acc.2.2.1 ||| b2n o 2, acc.2.2.2)
        | none => (t, if acc.2.2.2 then none else some xs, acc.2.2.1, acc.2.2.2)
    let r := use.foldl add (s, none, 0, false)
    (r.1, r.2.1, r.2.2.1)

/-- Bytes written for a participant, page by page at their home dies: the places of the writes, and whether a page faulted. -/
def State.putPages (s : State) (p : Part) (va : Nat) (data : List Byte) : State × List (Nat × Nat) × Bool :=
  (blocks 65536 va data.length).foldl (fun (acc : State × List (Nat × Nat) × Bool) b =>
    let lo := max va (b * 65536)
    let hi := min (va + data.length) (b * 65536 + 65536)
    let part := (data.drop (lo - va)).take (hi - lo)
    let t := acc.1
    match t.walk (dieOf p.core) p.world lo 1 p.mgmt with
    | .bad _ _ c => (t.collFault p lo (causeFault c), acc.2.1, true)
    | .ok e =>
      let pa := e.phys lo
      if isWindow pa then (t.windowSend (dieOf p.core) pa part 1024 0 none, acc.2.1, acc.2.2)
      else if isRegPage pa then (t.regWrite (pa % 2 ^ 32) part, acc.2.1, acc.2.2)
      else let (u, st) := t.writeView (homeDie pa) p.world pa part
           (u, acc.2.1 ++ [st], acc.2.2)) (s, [], false)

/-- A status entry (R392). -/
def statEntry (flags bitmap size : Nat) : List Byte :=
  let n := ((List.range size).filter fun i => bitmap.testBit i).length
  leBytes 8 (flags % 64 + n * 2 ^ 48) ++ leBytes (8 * ((size + 63) / 64)) bitmap

/-- Which of a participant's status entries, and which part of its buffer, chunk `k` has (R392). -/
def Part.entryOf (p : Part) (k : Nat) : Nat := if p.kind = 0 ∨ p.kind = 2 then k else 0
/-- Where the data are all written, the status entry follows (R392). -/
def Deliv.ready (d : Deliv) : Deliv :=
  if d.status || !d.data.isEmpty then d
  else
    let es := statEntry d.flags d.bitmap d.part.size
    { d with va := d.part.stat + es.length * d.part.entryOf d.chunk, data := es, status := true }
/-- Chunk `k` and its status entry are to be written for one participant; no data where there are none. -/
def State.deliverTo (s : State) (n : Nat) (p : Part) (k bitmap flags : Nat) (data : Option (List (BitVec 32))) : State :=
  let xs := data.getD []
  let d : Deliv := { part := p, chunk := k, va := p.dst + 4 * (p.entryOf k * p.chunkLen), data := xs.flatMap fun x => leBytes 4 x.toNat, bitmap := bitmap,
                     flags := flags ||| b2n (xs.any isNaN32) 8 }
  s.modGate n fun g => { g with todo := g.todo ++ [d.ready] }

/-- A chunk that has come by a transfer is all written, or is not to be: the transfer counts CONS (R374). -/
def State.settleChunk (s : State) (n k : Nat) : State :=
  match NMap.get? s.gates n with
  | none => s
  | some g => if (g.chunk k).owed && !g.todo.any fun d => decide (d.chunk = k) then (s.addCons 0 g.job).modChunk n k fun c => { c with owed := false } else s
/-- One packet of at most 256 bytes, the first that a gateway has to write, goes into memory; a page that faults is passed over, and its entry
says so (R25, R392). -/
def State.deliverNext (s : State) (n : Nat) (d : Deliv) (rest : List Deliv) : State :=
  let m := min d.data.length (256 - d.va % 256)
  let (s1, st, bad) := s.putPages d.part d.va (d.data.take m)
  let d1 := { d with va := d.va + m, data := d.data.drop m, flags := d.flags ||| b2n bad 33 }
  let left := if d.status && d1.data.isEmpty then [] else [d1.ready]
  (s1.modGate n fun g => { g with todo := left ++ rest, stamps := g.stamps ++ st }).settleChunk n d.chunk
/-- The dies whose paths a gateway's next packet into memory takes (R25). -/
def State.gateDies (s : State) (n : Nat) : List Nat :=
  match (NMap.get? s.gates n).bind fun g => g.todo.head? with
  | none => []
  | some d => match s.walk (dieOf d.part.core) d.part.world d.va 1 d.part.mgmt with
    | .bad _ _ _ => []
    | .ok e => if isWindow (e.phys d.va) || isRegPage (e.phys d.va) then [] else [homeDie (e.phys d.va)]

/-- Chunk `k` delivered to every participant that has joined in time (R392, R393). -/
def State.deliverChunk (s : State) (n k bitmap flags : Nat) (data : Option (List (BitVec 32))) : State :=
  match NMap.get? s.gates n with
  | none => s
  | some g =>
    let fl := flags ||| b2n (decide (bitmap ≠ g.full k)) 1
    (((g.parts.filter fun p => !p.late).foldl (fun t p => t.deliverTo n p k bitmap fl data) s).modChunk n k fun c =>
      { c with final := true, held := none, out := some (bitmap, fl, data) }).settleChunk n k

/-- A final chunk of an .ag or .bc: written once the participants of all the packages are known to agree, since a collective whose packages
differ writes no data (R390; log 51). -/
def State.offerChunk (s : State) (n k bitmap flags : Nat) (data : Option (List (BitVec 32))) : State :=
  match NMap.get? s.gates n with
  | none => s
  | some g =>
    if g.agreed || decide (g.size ≤ 1) then s.deliverChunk n k bitmap flags data
    else s.modChunk n k fun c => { c with held := some (bitmap, flags, data) }
/-- The packages are known to agree: what was held back is written (R390). -/
def State.agree (s : State) (n : Nat) : State :=
  match NMap.get? s.gates n with
  | none => s
  | some g => g.chunks.foldl (fun t c => match c.2.held with | some (bm, fl, data) => t.deliverChunk n c.1 bm fl data | none => t)
      (s.modGate n fun g => { g with agreed := true })

/-- A counted transfer to the next package of the ring (R374, R392). -/
def State.ringSend (s : State) (g : Gateway) (r : Ring) : State :=
  let p : Packet := { id := s.nextPacket, kind := 2, die := 0, job := g.job, node := g.lead.list.getD ((g.self_ + 1) % max g.size 1) 0, core := 1024,
                      access := 0, copy := none, pa := g.tag,
                      data := leBytes (8 + 3 * g.size) r.desc ++ leBytes 8 (r.chunk + r.phase * 2 ^ 32) ++ leBytes 8 r.flags ++ leBytes (8 * ((g.size + 63) / 64)) r.bitmap ++
                        r.data.flatMap (fun x => leBytes 4 x.toNat), tries := 0 }
  { s.addInj 0 g.job with packets := s.packets ++ [p], nextPacket := s.nextPacket + 1 }

/-- The collective is mismatched: no more data, MISMATCH in every entry, those already written too, and the next package is told (R390). -/
def State.mismatchGate (s : State) (n : Nat) : State :=
  match NMap.get? s.gates n with
  | none => s
  | some g =>
    if g.mismatch then s
    else
      let s0 := g.allChunks.foldl (fun t k => t.settleChunk n k) (s.modGate n fun g => { g with todo := [] })
      let s1 := (g.parts.filter fun p => !p.late).foldl (fun t p => p.entries.foldl (fun u k => u.deliverTo n p k 0 17 none) t) s0
      let s2 := s1.modGate n fun g => { g with mismatch := true }
      if 1 < g.size then s2.ringSend g ⟨0, 0, 0, 16, [], g.lead.desc⟩ else s2

/-- A participant that joined late is served: it gets what has been written so far, as the others did (R390), or MISMATCH. -/
def State.serveLate (s : State) (n : Nat) (g : Gateway) (p : Part) : State :=
  let t := s.modGate n fun g => { g with parts := g.parts.map fun q => if q = p then { q with late := false } else q }
  if g.mismatch then p.entries.foldl (fun u k => u.deliverTo n p k 0 17 none) t
  else if g.lead.differs p then t.mismatchGate n
  else g.chunks.foldl (fun u c => match c.2.out with | some (bm, fl, data) => u.deliverTo n p c.1 bm fl data | none => u) t

-- ## The ring (R392, R393)

/-- A partial that has reached this package, or none of it, combined with the contribution: final here, or sent on (R392). -/
def State.combineChunk (s : State) (n : Nat) (g : Gateway) (k bitmap flags : Nat) (data : List (BitVec 32)) : State :=
  let c := g.chunk k
  let (xs, sat) := expand data
  let (acc, o) := match data, c.own with
    | [], v => (v, false)
    | _, none => (some xs, false)
    | _, some ys => let (zs, o) := addLists xs ys
                    (some zs, o)
  let fl := flags ||| c.flags ||| b2n sat 4 ||| b2n o 2
  let bm := if c.own.isSome then bitmap ||| 2 ^ g.self_ else bitmap
  let s1 := s.modChunk n k fun c => { c with passed := true, since := s.cyc }
  let out := (acc.map compress).getD []
  if k ≠ g.self_ then s1.ringSend g ⟨k, 0, bm, fl, out, g.lead.desc⟩
  else if g.lead.kind = 1 then s1.deliverChunk n k bm fl acc
  else
    let (ys, sat2) := expand out
    let fl2 := fl ||| b2n sat2 4
    (s1.deliverChunk n k bm fl2 (acc.map fun _ => ys)).ringSend g ⟨k, 1, bm, fl, out, g.lead.desc⟩

/-- A final chunk that has reached this package: written, and sent on unless the next package began it (R392). Each hop compares the
packages it joins. So a reduction's partial has compared them all when it is final; an .ag knows it when the next package's chunk has come
round; a .bc's data come back to ROOT, which then lets them be written by a transfer of phase 2 (R390; log 51). -/
def State.finalChunk (s : State) (n : Nat) (g : Gateway) (r : Ring) : State :=
  let (xs, sat) := if g.lead.kind = 0 then expand r.data else (r.data, false)
  let data := if r.data.isEmpty then none else some xs
  let next := (g.self_ + 1) % max g.size 1
  if g.lead.kind = 0 then
    let s1 := s.deliverChunk n r.chunk r.bitmap (r.flags ||| b2n sat 4) data
    if next = r.chunk then s1 else s1.ringSend g r
  else if g.lead.kind = 2 then
    let s1 := s.offerChunk n r.chunk r.bitmap r.flags data
    let s2 := if r.chunk = next then s1.agree n else s1
    if next = r.chunk then s2 else s2.ringSend g r
  else if g.self_ = g.lead.root then (s.agree n).ringSend g { r with phase := 2, data := [] }
  else (s.offerChunk n r.chunk r.bitmap r.flags data).ringSend g r

/-- A ring transfer taken by the gateway, and counted CONS, but for one whose chunk must wait to be written (R374, R392). -/
def State.ringIn (s : State) (n : Nat) (r : Ring) : State :=
  match NMap.get? s.gates n with
  | none => s
  | some g =>
    if g.begun.isNone then s.modGate n fun g => { g with pending := g.pending ++ [r] }
    else
      let s1 := s.addCons 0 g.job
      let c := g.chunk r.chunk
      if g.mismatch || !g.allChunks.contains r.chunk then s1
      else if r.flags.testBit 4 || decide (r.desc ≠ g.lead.desc) then s1.mismatchGate n
      else if r.phase = 2 then
        (if g.agreed then s1 else if (g.self_ + 1) % max g.size 1 = g.lead.root then s1.agree n else (s1.agree n).ringSend g r)
      else if r.phase = 0 then (if c.passed || decide (2 ≤ g.lead.kind) then s1 else s1.combineChunk n g r.chunk r.bitmap r.flags r.data)
      else if c.final || decide (g.lead.kind = 1) then s1
      else if c.owed || decide (g.lead.kind = 3 ∧ g.self_ = g.lead.root) then s1.finalChunk n g r
      else (s.modChunk n r.chunk fun c => { c with owed := true }).finalChunk n g r

/-- Is gateway slot `slot` the one of the collective that a transfer belongs to? -/
def State.gateFor (s : State) (slot : Nat) (data : RingData) : Bool :=
  match NMap.get? s.gates slot with | some g => decide (g.job = data.from_.job ∧ g.tag = data.tag) | none => false
/-- COLL_RING_STEP (R374, R385, R390, R392): `phase` 0 a partial, 1 a final chunk, 2 the word that the packages of a .bc agree; reductions
travel compressed; `data.desc` is what the sender's participants agree in. A table that holds no entry for the job makes one, or refuses the
transfer where it is full. One that comes in again has no further effect; one whose collective has no slot here is not consumed. -/
def execCollRingStep (slot chunk phase bitmap flags : Nat) (data : RingData) (s : State) : Out3 :=
  match if s.fresh data.from_.src data.from_.id then s.withJob data.from_.job else none with
  | none => .next s
  | some s1 =>
    .next (if s.gateFor slot data then
      (s1.see data.from_.src data.from_.id).ringIn slot ⟨chunk, phase, bitmap, flags, data.words, data.desc⟩ else s1)

/-- The transfers that came early are taken. -/
def State.takePending (s : State) (n : Nat) : State :=
  match NMap.get? s.gates n with
  | none => s
  | some g => g.pending.foldl (fun t r => t.ringIn n r) (s.modGate n fun g => { g with pending := [] })

/-- The contribution is formed and the package's part of the ring begins (R390, R392). -/
def State.beginGate (s : State) (n : Nat) (g : Gateway) : State :=
  let p := g.size
  let start := fun (t : State) (k : Nat) =>
    let (u, own, fl) := t.ownChunk g k
    let first := decide (2 ≤ g.lead.kind) || decide (k = (g.self_ + p - 1) % max p 1)
    u.modChunk n k fun _ => { own := own, flags := fl, passed := first, since := s.cyc }
  let s0 := s.modGate n fun g => { g with begun := some s.cyc }
  if g.parts.any g.lead.differs then (s0.mismatchGate n).takePending n
  else
    let s1 := g.allChunks.foldl start s0
    match NMap.get? s1.gates n with
    | none => s1
    | some g1 =>
      let me := if g.lead.kind = 3 then 0 else g.self_
      let c := g1.chunk me
      let bm := fun (c : Chunk) => b2n c.own.isSome (2 ^ g.self_)
      let s2 := if g.lead.kind ≤ 1 then
          (if p ≤ 1 then s1.deliverChunk n 0 (bm (g1.chunk 0)) (g1.chunk 0).flags (g1.chunk 0).own
           else
             let k := (g.self_ + p - 1) % p
             let c := g1.chunk k
             s1.ringSend g1 ⟨k, 0, bm c, c.flags, (c.own.map compress).getD [], g.lead.desc⟩)
        else if g.lead.kind = 3 ∧ g.lead.root ≠ g.self_ then s1
        else
          let t := s1.offerChunk n me (bm c) c.flags c.own
          if p ≤ 1 then t else t.ringSend g1 ⟨me, 1, bm c, c.flags, c.own.getD [], g.lead.desc⟩
      s2.takePending n

/-- May the gateway reach its participants' buffers, STAT arrays and counters now (R309, R311, R317)? -/
def State.gateClear (s : State) (slot : Nat) : Bool :=
  match NMap.get? s.gates slot with
  | none => true
  | some g => s.cores.all (fun q => q.2.amo.isEmpty) || g.parts.all fun p =>
    let n := 4 * (p.chunkLen * (if p.kind = 3 then 1 else p.size))
    s.rangeClear (dieOf p.core) p.world p.src n (fun _ => dieOf p.core) && s.rangeClear (dieOf p.core) p.world p.dst n homeDie &&
      s.rangeClear (dieOf p.core) p.world p.stat ((8 + 8 * ((p.size + 63) / 64)) * p.entries.length) homeDie && s.rangeClear 0 p.world p.ctr 8 homeDie

/-- COLL_JOIN_TIMEOUT (R390): the package drops out; it still writes the final chunks that reach it. -/
def execCollJoinTimeout (slot : Nat) (s : State) : Out3 :=
  match NMap.get? s.gates slot with
  | none => .next s
  | some g =>
    if g.begun.isNone && !g.joined && decide (g.since + 2 ^ 22 ≤ s.cyc) then
      let s1 := s.modGate slot fun g => { g with begun := some s.cyc, dropped := true }
      let s2 := g.allChunks.foldl (fun t k => t.modChunk slot k fun _ => { passed := true, since := s.cyc }) s1
      .next (if g.parts.any g.lead.differs then s2.mismatchGate slot else s2.takePending slot)
    else .next s

/-- COLL_RING_TIMEOUT (R393): a partial restarts from the package's own contribution; a final chunk that is missing is not written. -/
def execCollRingTimeout (slot chunk : Nat) (s : State) : Out3 :=
  match NMap.get? s.gates slot with
  | none => .next s
  | some g =>
    let c := g.chunk chunk
    if g.begun.isNone || g.mismatch || decide (s.cyc < c.since + 2 ^ 22) || !g.allChunks.contains chunk then .next s
    else if !c.passed then .next (s.combineChunk slot g chunk 0 0 [])
    else if g.wanted.contains chunk && !c.final then
      .next (match c.held with | some (bm, fl, data) => s.deliverChunk slot chunk bm fl data | none => s.deliverChunk slot chunk 0 0 none)
    else .next s

/-- COLL_COMPLETE (R390, R392): what the gateway does next by itself: it writes the next packet of what it has to write; it begins once every
participant has joined and what precedes their COLL has performed; it serves those that join late; it increases every DONECTR once the writes
have performed at .pkg; it frees the slot. -/
def execCollComplete (slot : Nat) (s : State) : Out3 :=
  match NMap.get? s.gates slot with
  | none => .next s
  | some g =>
    let written := g.mismatch || g.wanted.all fun k => (g.chunk k).final
    if !s.gateClear slot then .next s
    else if let d :: rest := g.todo then .next (s.deliverNext slot d rest)
    else if g.begun.isNone then
      .next (if g.joined && g.parts.all fun p => s.settledBy p.core p.ctx p.gen 5 p.at_ then s.beginGate slot g else s)
    else if !g.counted then
      if let some p := g.parts.find? fun p => p.late && s.settledBy p.core p.ctx p.gen 5 p.at_ then .next (s.serveLate slot g p)
      else if written && g.stamps.all s.appliedAll && !(g.parts.any fun p => p.late) then
        let inc := fun (t : State) (p : Part) => match t.doneCtr p.world p.ctr with
          | .ok u => u
          | .error code => (t.logCounter p.world p.ctr 2).collFault p p.ctr code
        let t := g.parts.foldl inc s
        .next (if g.dropped then { t with gates := NMap.erase t.gates slot } else t.modGate slot fun g => { g with counted := true })
      else .next s
    else .next (if g.mismatch || g.allChunks.all fun k => (g.chunk k).passed then { s with gates := NMap.erase s.gates slot } else s)

end Sys2Proof.Machine
end

