-- ==== Sys2Proof/Machine/Proctor.lean ====
section
/-! DEFINITION. The proctor instructions and the items of a frozen context (R250 to R252, R354 to R371). -/

namespace Sys2Proof.Machine

-- ## Items (R365, R366)

/-- Is the item moved through a vector register (R365)? -/
def selVec (q : Nat) : Bool :=
  decide (0x60 ≤ q ∧ q < 0x68) || decide (0x80 ≤ q ∧ q < 0xB0) || decide (0x110 ≤ q ∧ q < 0x150) || decide (q = 0x300) || decide (q = 0x301)

/-- May FRPUT write the item (R365)? -/
def selPut (q : Nat) : Bool :=
  decide (q < 0x30) || decide (0x31 ≤ q ∧ q < 0x4C) || decide (0x50 ≤ q ∧ q < 0x54) || decide (0x58 ≤ q ∧ q < 0x5E) ||
  decide (0x61 ≤ q ∧ q < 0x68) || decide (0x80 ≤ q ∧ q < 0xB0) || decide (0x110 ≤ q ∧ q < 0x190) ||
  (decide (0x200 ≤ q ∧ q < 0x300) && decide (q % 16 < 12)) || decide (q = 0x300) || decide (q = 0x301)
/-- Does the selector name an item (R365)? DEDUCED (log 85): R365 gives accumulator elements no selector, though R158 and R255 say that
FRGET shows them. -/
def selOk (q : Nat) : Bool :=
  selPut q || decide (q = 0x30) || decide (0x54 ≤ q ∧ q < 0x58) || decide (q = 0x5E) || decide (q = 0x60) || decide (0x68 ≤ q ∧ q < 0x6C) ||
  decide (0xC0 ≤ q ∧ q < 0xCC) || decide (0x100 ≤ q ∧ q < 0x106) || decide (0x108 ≤ q ∧ q < 0x10C) || decide (q = 0x302) || decide (q = 0x303)

/-- Does the selector name a register beyond the context's allotment, or a FIFO of a core that holds none (R368)? -/
def State.selBeyond (s : State) (c x q : Nat) : Bool :=
  let k := s.ctx c x
  (decide (q < 0x30) && decide (k.allocS ≤ q)) || (decide (0x80 ≤ q ∧ q < 0xB0) && decide (k.allocV ≤ q - 0x80)) ||
  (decide (0x300 ≤ q) && !s.holdsFifo c)

/-- Does a result in flight stand in the snapshot (R50)? -/
def Flight.snap (f : Flight) : Bool :=
  match f.eff with
  | .sreg _ _ => true
  | .vreg _ _ => true
  | .vplain _ _ => true
  | .mask _ _ => true
  | .store _ _ _ => true
  | .gone => true
  | _ => false
/-- Snapshot entries 0 to 47: results in flight, in order of issue. Entries 48 to 63 are the latch entries by their codes. -/
def Ctx.snapAt (x : Ctx) (e : Nat) : Option Flight := (x.flight.filter Flight.snap)[e]?

def vecOfWord (w : Nat) : Vec := BitVec.ofNat 4096 w

/-- The value of a snapshot entry. -/
def Ctx.snapVal (x : Ctx) (e : Nat) : Vec :=
  if 48 ≤ e then
    match x.latchAt e with
    | some (.s v) => v.setWidth 4096
    | some (.v v) => v
    | none => 0
  else match x.snapAt e with
    | none => 0
    | some f => match f.eff with
      | .sreg _ v => v.setWidth 4096
      | .vreg _ v => v
      | .vplain _ v => v
      | .mask _ v => v.setWidth 4096
      | .store _ _ d => vecOfBytes d
      | _ => 0

/-- The descriptor of a snapshot entry: register slot or latch entry 4p + a, kind, remaining count or age, address, mask, valid. -/
def Ctx.snapDesc (x : Ctx) (e : Nat) : Word := BitVec.ofNat 64 (
  if 48 ≤ e then (if (x.latchAt e).isSome then (e - 48) + 3 * 2 ^ 6 + (e - 48) % 4 * 2 ^ 8 + 2 ^ 63 else 0)
  else match x.snapAt e with
    | none => 0
    | some f =>
      let w := fun (slot kind addr : Nat) => slot + kind * 2 ^ 6 + (f.due - x.clk) % 2 ^ 8 * 2 ^ 8 + addr % 2 ^ 20 * 2 ^ 16 + 2 ^ 63
      match f.eff with
      | .sreg d _ => w (d.getD 63) 0 0
      | .vreg d _ => w (d.getD 63) 1 0
      | .vplain d _ => w d 1 0
      | .mask m _ => w m 1 0 + 2 ^ 36
      | .store _ a _ => w 0 2 a
      | _ => 0)

/-- A loop level's words (R365). -/
def Level.word (l : Level) (k : Nat) : Nat :=
  if k = 0 then bits l.first 56 4 * 16 + l.kind * 2 + 1
  else if k = 1 then (l.last - l.first) / 16 + 1 + l.left % 2 ^ 33 * 2 ^ 20
  else l.n % 2 ^ 32 + l.it % 2 ^ 32 * 2 ^ 32

/-- The faulting bundle record's word 0 (R250). -/
def FaultRec.head (f : FaultRec) : Nat := f.primary + (f.codes.findIdx fun c => decide (c ≠ 0)) % 4 * 2 ^ 8
/-- Item 0x104 (R365). -/
def FaultRec.slotCodes (f : FaultRec) : Nat :=
  f.codes.getD 0 0 + f.codes.getD 1 0 * 2 ^ 8 + f.codes.getD 2 0 * 2 ^ 16 + f.codes.getD 3 0 * 2 ^ 24 +
    b2n f.deferred (2 ^ 32) + b2n f.waitFault (2 ^ 33)

/-- A scalar item of context `x` of core `c` (R365); registers go by the rotation in force at the freeze (R250). -/
def State.itemS (s : State) (c x q : Nat) : Word :=
  let k := s.ctx c x
  let a := s.arr (pairOf c)
  if q < 0x30 then k.sAt (regSlot k.allocS k.frec.rrbS q)
  else if q < 0x40 then BitVec.ofNat 64 (b2n (k.guardAt (q - 0x30)) 1)
  else if q < 0x4C then
    BitVec.ofNat 64 (k.targetAt (q - 0x40) + b2n (k.condAt (q - 0x40)) 8 + (NMap.getD k.cond (q - 0x40) (false, 0)).2.toNat)
  else if q < 0x54 then NMap.getD k.md (q - 0x50) 0
  else if q < 0x58 then NMap.getD k.mdrcp (q - 0x54) 0
  else if q < 0x5C then (NMap.getD k.cards (q - 0x58) {}).word
  else if q = 0x5C then k.rnd
  else if q = 0x5D then BitVec.ofNat 64 (k.rrbS + k.rrbV * 2 ^ 8)
  else if q = 0x5E then k.stat c x
  else if 0x68 ≤ q ∧ q < 0x6C then (NMap.getD k.cards (q - 0x68) {}).hi
  else if 0xC0 ≤ q ∧ q < 0xCC then
    match k.loops[(q - 0xC0) / 3]? with
    | some l => BitVec.ofNat 64 (l.word ((q - 0xC0) % 3))
    | none => 0
  else if q = 0x100 then BitVec.ofNat 64 k.frec.head
  else if q = 0x101 then BitVec.ofNat 64 k.pc
  else if q = 0x102 then k.frec.d0
  else if q = 0x103 then k.frec.d1
  else if q = 0x104 then BitVec.ofNat 64 k.frec.slotCodes
  else if q = 0x105 then BitVec.ofNat 64 k.frec.cyc
  else if 0x108 ≤ q ∧ q < 0x10C then (k.frec.words.getD (q - 0x108) 0).setWidth 64
  else if 0x150 ≤ q ∧ q < 0x190 then k.snapDesc (q - 0x150)
  else if 0x200 ≤ q ∧ q < 0x300 then (NMap.getD k.lrec ((q - 0x200) / 16) {}).words.getD (q % 16) 0
  else if q = 0x302 ∨ q = 0x303 then ((a.pos (c % 2)).fifo (decide (q = 0x303))).level
  else 0

/-- A vector item (R365); the head of an empty FIFO is a free value (log 33). -/
def State.itemV (s : State) (c x q : Nat) : Vec :=
  let k := s.ctx c x
  if 0x60 ≤ q ∧ q < 0x68 then (k.maskHeld (q - 0x60)).setWidth 4096
  else if 0x80 ≤ q ∧ q < 0xB0 then k.vAt (regSlot k.allocV k.frec.rrbV (q - 0x80))
  else if 0x110 ≤ q ∧ q < 0x150 then k.snapVal (q - 0x110)
  else match (((s.arr (pairOf c)).pos (c % 2)).fifo (decide (q = 0x301))).q with
    | e :: _ => e.2
    | [] => ofLanesN fun i => (freeAt (s.occ s.cyc) 1 ((c * 8 + x) * 2 + b2n (decide (q = 0x301)) 1) i).toNat % 2 ^ 32

/-- The value of a snapshot entry patched in place (R366). -/
def Eff.patch (e : Eff) (v : Vec) : Eff :=
  match e with
  | .sreg d _ => .sreg d (v.setWidth 64)
  | .vreg d _ => .vreg d v
  | .vplain d _ => .vplain d v
  | .mask m _ => .mask m (v.setWidth 128)
  | .store p a d => .store p a ((bytesOfVec v).take d.length)
  | e => e

/-- Snapshot entry `e` of the results in flight changed. -/
def Ctx.modSnap (x : Ctx) (e : Nat) (g : Flight → Flight) : Ctx :=
  let step := fun (acc : Nat × List Flight) (f : Flight) =>
    if f.snap then (acc.1 + 1, acc.2 ++ [if acc.1 = e then g f else f]) else (acc.1, acc.2 ++ [f])
  { x with flight := (x.flight.foldl step (0, [])).2 }
/-- Latch entry `e`, by its code. -/
def Ctx.modLatch (x : Ctx) (e : Nat) (g : Latch → Option Latch) : Ctx :=
  let at_ := fun (l : Latch) => decide (l.pos = (e - 48) / 4) && decide (l.at_ + (e - 48) % 4 = x.clk)
  { x with latch := x.latch.filterMap fun l => if at_ l then g l else some l }
def LatchVal.patch (l : LatchVal) (v : Vec) : LatchVal := match l with | .s _ => .s (v.setWidth 64) | .v _ => .v v

/-- A scalar item written (R365, R366). -/
def Ctx.putItemS (k : Ctx) (q : Nat) (w : Word) : Ctx :=
  if q < 0x30 then { k with sreg := NMap.set k.sreg (regSlot k.allocS k.frec.rrbS q) w }
  else if q < 0x40 then
    let b : BitVec 16 := BitVec.ofNat 16 (2 ^ (q - 0x30))
    { k with q := if w.getLsbD 0 then k.q ||| b else k.q &&& ~~~b }
  else if q < 0x4C then
    { k with cond := NMap.set k.cond (q - 0x40) (w.getLsbD 3, w.setWidth 3), target := NMap.set k.target (q - 0x40) (bundleNo w.toNat) }
  else if q < 0x54 then
    { k with md := NMap.set k.md (q - 0x50) w, mdrcp := NMap.set k.mdrcp (q - 0x50) (BitVec.ofNat 64 (mdrcpOf w.toNat)) }
  else if q < 0x5C then { k with cards := NMap.erase k.cards (q - 0x58) }
  else if q = 0x5C then { k with rnd := rndOf w }
  else if q = 0x5D then { k with rrbS := bits w.toNat 3 0, rrbV := bits w.toNat 11 8 }
  else if 0x150 ≤ q ∧ q < 0x190 then
    if w.getLsbD 63 then k
    else if 48 ≤ q - 0x150 then k.modLatch (q - 0x150) fun _ => none
    else k.modSnap (q - 0x150) fun f => { f with eff := .gone, causes := 0 }
  else if 0x200 ≤ q ∧ q < 0x300 then
    let n := (q - 0x200) / 16
    let r := NMap.getD k.lrec n {}
    let ws := (List.range 12).map fun i => if i = q % 16 then w else r.words.getD i 0
    { k with lrec := NMap.set k.lrec n ⟨true, ws⟩ }
  else k
/-- A vector item of a context written. -/
def Ctx.putItemV (k : Ctx) (q : Nat) (v : Vec) : Ctx :=
  if 0x61 ≤ q ∧ q < 0x68 then { k with mask := NMap.set k.mask (q - 0x60) (v.setWidth 128) }
  else if 0x80 ≤ q ∧ q < 0xB0 then { k with vreg := NMap.set k.vreg (regSlot k.allocV k.frec.rrbV (q - 0x80)) v }
  else if 0x110 ≤ q ∧ q < 0x150 then
    if 48 ≤ q - 0x110 then k.modLatch (q - 0x110) fun l => some { l with val := l.val.patch v }
    else k.modSnap (q - 0x110) fun f => { f with eff := f.eff.patch v }
  else k
/-- The head of a FIFO replaced, or an entry pushed where it is empty (R366). -/
def State.putHead (s : State) (c : Nat) (b : Bool) (v : Vec) : State :=
  s.modArr (pairOf c) fun a => a.modPos (c % 2) fun p =>
    let f := mFmt p.mode
    p.setFifo b (match (p.fifo b).q with
      | [] => (p.fifo b).push f (entryOf f v)
      | _ :: es => { p.fifo b with q := (f, entryOf f v) :: es })

/-- An item written (R365, R366). A part without residue mode holds no modulus registers (R21). -/
def State.putItem (s : State) (c x q : Nat) (w : Word) (v : Vec) : State :=
  if q = 0x300 ∨ q = 0x301 then s.putHead c (decide (q = 0x301)) v
  else if !s.hasRes && decide (0x50 ≤ q ∧ q < 0x54) then s
  else s.modCtx c x fun k => if selVec q then k.putItemV q v else k.putItemS q w

/-- Does a global load to the register that a selector names still have to land (R366)? -/
def State.itemBusy (s : State) (c x q : Nat) : Bool :=
  let k := s.ctx c x
  let d := if q < 0x30 then some (false, regSlot k.allocS k.frec.rrbS q)
    else if 0x80 ≤ q ∧ q < 0xB0 then some (true, regSlot k.allocV k.frec.rrbV (q - 0x80)) else none
  d.isSome && ((s.core c).access.any fun a => a.of x k.gen && a.landing && decide (a.dest = d))

-- ## Checks (R367, R368)

/-- The live pass of the context in issue, if it is the given value (R362). -/
def State.livePass (s : State) (w : Word) : Option Pass :=
  match s.cur.pass with
  | some p => if p.live && decide (p.value = w) then some p else none
  | none => none

/-- The privilege checks of the six instructions that take a pass; `right` says whether the pass has the right (R368). -/
def frOp (i : Instr) (a : Code) (right : Pass → Bool) (s : State) (k : Pass → State → Out3) : Out3 :=
  sop i false false s fun s =>
    if !s.cur.proc then s.perm 1
    else match s.livePass (s.rdS a) with
      | none => s.perm 2
      | some p => if right p then k p s else s.perm 3

/-- The register that FRGET and FRPUT name in f1, vector by the item in s_b (R367): is it beyond the allotment? -/
def State.f1Over (s : State) (c b : Code) : Option (Nat × Bool) :=
  let vec := selVec (s.rdS b).toNat
  if c.toNat < 48 ∧ (if vec then s.iss.allocV else s.iss.allocS) ≤ c.toNat then some (c.toNat, vec) else none
/-- The check of that register, whatever the guard reads, after every condition of ILLEGAL_OP (R42, R48, R106, R371). -/
def f1Op (i : Instr) (c b : Code) (s : State) (k : State → Out3) : Out3 :=
  if !i.wf || s.iss.over i || (s.guardOn i && s.latchBad i) || (s.overAllot i).isSome then k s
  else match s.f1Over c b with
    | some (n, v) => s.raise fREGALLOT (BitVec.ofNat 64 (n + b2n v 64)) s.allotDetail
    | none => k s

/-- The spending of the pass (R362). -/
def State.spend (s : State) : State := s.modCur fun k => { k with pass := k.pass.map fun p => { p with live := false } }

-- ## The instructions (R369)

/-- FWAIT. -/
def execFwait (g : Guard) (d : Code) (s : State) : Out3 :=
  sop (.fwait g d) false false s fun s =>
    if !s.cur.proc then s.perm 1
    else if (s.cur.pass.map (·.live)).getD false then s.perm 2
    else .next (s.await (.fwait (s.slotS d.toNat)))

/-- FRGET. -/
def execFrget (g : Guard) (d a b : Code) (s : State) : Out3 :=
  f1Op (.frget g d a b) d b s fun s => frOp (.frget g d a b) a (fun _ => true) s fun p s =>
    let q := (s.rdS b).toNat
    if !selOk q || s.selBeyond p.core p.ctx q then s.range 4 (BitVec.ofNat 64 q)
    else .next (s.await (.frget (if selVec q then s.slotV d.toNat else s.slotS d.toNat) (selVec q) q))

/-- Does a latch that FRPUT reads hold a result of the other kind (R42)? -/
def State.f1Bad (s : State) (c b : Code) : Bool :=
  decide (48 ≤ c.toNat) && (match s.cur.latchAt c.toNat with
    | some (.s _) => selVec (s.rdS b).toNat
    | some (.v _) => !selVec (s.rdS b).toNat
    | none => false)

/-- FRPUT; a context of a core in teardown is no longer written (R411). -/
def execFrput (g : Guard) (c a b : Code) (s : State) : Out3 :=
  let i := Instr.frput g c a b
  if i.wf && s.guardOn i && !s.iss.over i && s.f1Bad c b then s.illegal
  else f1Op i c b s fun s => frOp i a (fun _ => true) s fun p s =>
    let q := (s.rdS b).toNat
    if !selPut q || s.selBeyond p.core p.ctx q then s.range 4 (BitVec.ofNat 64 q)
    else if s.shut p.core then s.raise fWORLD 0 0
    else
      let s1 := if 48 ≤ c.toNat ∧ s.cur.latchAt c.toNat = none then s.note cLATCH else s
      .next (s1.await (.frput q (if selVec q then 0 else s.rdS c) (if selVec q then s.rdV c else 0)))

/-- FRGET_FRPUT_COMPLETE (R252, R366): the item has moved, and the proctor is ready. DESIGN CHOICE (log 97): it enters no latch chain. -/
def execFrgetFrputComplete (core ctx : Nat) (s : State) : Out3 :=
  let find := (s.ctx core ctx).waits.findSome? fun w => match w with
    | .frget _ _ q => some (w, q)
    | .frput q _ _ => some (w, q)
    | _ => none
  match find, (s.ctx core ctx).pass with
  | some (w, q), some p =>
    if s.itemBusy p.core p.ctx q then .next s
    else
      let s1 := match w with
        | .frget d true q => s.modCtx core ctx fun k => { k with vreg := NMap.set k.vreg d (s.itemV p.core p.ctx q) }
        | .frget d false q => s.landWait core ctx (some d) (s.itemS p.core p.ctx q)
        | .frput q v u => s.putItem p.core p.ctx q v u
        | _ => s
      .next (s1.endWait core ctx fun u => decide (u = w))
  | _, _ => .next s

/-- A frozen context is ready again (R369): its steer registers count as freshly prepared (R132). -/
def Ctx.resumed (k : Ctx) (pc : Nat) : Ctx :=
  { k with st := if k.saved.contains .foreign then .wait [.foreign] else .ready, saved := [], pc := pc, prepAll := k.issued }

/-- FRRES of a wait fault (R388): the bundle's wait is performed again, and freezes the context again while its gang is incomplete. -/
def State.resumeWait (s : State) (c x : Nat) : State :=
  let s1 := s.modCtx c x fun k => { k with st := .wait k.saved, pc := k.resumePc, snapped := false, saved := [], prepAll := k.issued }
  match s.ginc (s.ctx c x).launch with
  | some (d0, d1) => s1.freezeWaiting c x fGANG (BitVec.ofNat 64 d0) (BitVec.ofNat 64 d1)
  | none => s1

/-- FRRES. -/
def execFrres (g : Guard) (a : Code) (s : State) : Out3 :=
  frOp (.frres g a) a (fun _ => true) s fun p s =>
    let k := s.ctx p.core p.ctx
    .next (if k.frec.waitFault then s.spend.resumeWait p.core p.ctx
      else s.spend.modCtx p.core p.ctx fun k => k.resumed k.pc)

/-- FRSKIP. -/
def execFrskip (g : Guard) (a : Code) (s : State) : Out3 :=
  frOp (.frskip g a) a (fun p => p.skip) s fun p s =>
    .next (s.spend.modCtx p.core p.ctx fun k =>
      let r := k.boundary k.pc k.loops
      r.1.resumed r.2)

/-- FRKILL. -/
def execFrkill (g : Guard) (a : Code) (s : State) : Out3 :=
  frOp (.frkill g a) a (fun _ => true) s fun p s => .next (s.spend.killTask p.core p.ctx)

/-- The context counts as arrived at a barrier's current phase (R351). -/
def State.excuse (s : State) (c x key : Nat) : State :=
  s.modLaunch (key / 2 ^ 64) fun l =>
    let b := l.bar (key % 2 ^ 64)
    { l with barriers := NMap.set l.barriers (key % 2 ^ 64) { b with excused := (b.excused ++ [c * 8 + x]).dedup } }

/-- FREXC: at each barrier that has an arrival in its phase and none from the context. -/
def execFrexc (g : Guard) (a : Code) (s : State) : Out3 :=
  frOp (.frexc g a) a (fun _ => true) s fun p s =>
    let k := s.ctx p.core p.ctx
    let due := s.barKeys.filter fun key => k.inBar p.core p.ctx key && !k.atBar p.core p.ctx key
    .next (due.foldl (fun t key => t.excuse p.core p.ctx key) s)

-- ## Deferred faults (R356)

/-- DEFERRED_FAULT_RAISE (R356): the oldest deferred fault is raised at the bundle in issue, alone, at its first operation word. -/
def execDeferredFaultRaise (core ctx : Nat) (s : State) : Out3 :=
  match (s.ctx core ctx).deferred with
  | [] => .next s
  | d :: rest =>
    let s1 := (s.modCtx core ctx fun k => { k with deferred := rest }).modIss fun i => { i with core := core, ctx := ctx }
    .next (s1.freeze [(s.iss.pos, d.code, d.d0, d.d1)] true false)

end Sys2Proof.Machine
end

