-- ==== Sys2Proof/Machine/Events.lean ====
section
/-! DEFINITION. What befalls contexts and bundles: landings, ends of waits, the nullifier, splitting, pre-emption
(R39 to R57, R145, R244, R259, R332 to R334). -/

namespace Sys2Proof.Machine

-- ## Landings (R39, R44, R45, R82, R103)

/-- A result enters the latch chain of its slot position at age 0 in the cycle in which it lands (R39); one of a bundle that was held lands
after the last issue cycle (R343). -/
def Ctx.latchIn (x : Ctx) (f : Flight) (v : LatchVal) : Ctx := { x with latch := x.latch ++ [⟨f.pos, x.clk, v⟩] }

/-- The slots that cards are cleared in come first: a record of the same cycle is kept (R82). -/
def Ctx.landClear (x : Ctx) (f : Flight) : Ctx :=
  match f.eff with
  | .clearCard n => { x with cards := NMap.erase x.cards n }
  | _ => x

/-- A result of a context at its landing (R44). Effects outside the context are `landOut`'s. -/
def Ctx.land (x : Ctx) (f : Flight) : Ctx :=
  match f.eff with
  | .sreg (some n) v => { x with sreg := NMap.set x.sreg n v }.latchIn f (.s v)
  | .sreg none v => x.latchIn f (.s v)
  | .vreg (some n) v => { x with vreg := NMap.set x.vreg n v }.latchIn f (.v v)
  | .vreg none v => x.latchIn f (.v v)
  | .vplain n v => { x with vreg := NMap.set x.vreg n v }
  | .mask m v => if m = 0 then x else { x with mask := NMap.set x.mask m v }
  | .guardReg n v =>
    let b : BitVec 16 := BitVec.ofNat 16 (2 ^ n)
    { x with q := if v then x.q ||| b else x.q &&& ~~~b }
  | .cond j c r => { x with cond := NMap.set x.cond j (c, r) }
  | .target j t a => { x with target := NMap.set x.target j t, prep := NMap.set x.prep j a }
  | .rndmode w => { x with rnd := w }
  | .modulus k m => { x with md := NMap.set x.md k m, mdrcp := NMap.set x.mdrcp k (BitVec.ofNat 64 (mdrcpOf m.toNat)) }
  | .lrec k r => { x with lrec := NMap.set x.lrec k r }
  | .remove p n =>
    let mine := (x.defer.filter fun q => decide (q.1 = p)).take n
    { x with defer := x.defer.filter fun q => !mine.contains q }
  | .cursor => { x with cursor := x.cursor + 1 }
  | .prio p => { x with prio := p }
  | _ => x

/-- What lands outside the context: a bank format, and DEFER's entries (R147, R199). -/
def State.landOut (s : State) (core ctx : Nat) (f : Flight) : State :=
  match f.eff with
  | .bankfmt b v => s.modCore core fun k => { k with bankfmt := NMap.set k.bankfmt b v }
  | .append p es => s.landAppend core ctx p es
  | _ => s

def Flight.isStore (f : Flight) : Bool := match f.eff with | .store _ _ _ => true | _ => false
/-- Is the result due? Scratchpad stores have an event of their own. -/
def Ctx.lands (x : Ctx) (f : Flight) : Bool := decide (f.due ≤ x.clk) && !f.isStore

/-- Results in order of landing, those of one cycle in order of issue (R45). -/
def byDue (f : Flight) : List Flight → List Flight
  | [] => [f]
  | g :: gs => if g.due ≤ f.due then g :: byDue f gs else f :: g :: gs

/-- Records that reach their cards in one core cycle, in the issue order of their bundles (R115). -/
def byIssue (f : Flight) : List Flight → List Flight
  | [] => [f]
  | g :: gs => if g.iss ≤ f.iss then g :: byIssue f gs else f :: g :: gs
/-- The records of a core cycle applied: those of results that land in it, and those that come by themselves (R115, R116). -/
def Ctx.recordAll (x : Ctx) (fs : List Flight) : Ctx :=
  (fs.foldl (fun l f => byIssue f l) []).foldl (fun y f => y.record f.pos f.addr f.causes) x

/-- RESULT_LANDING (R44, R45): every result of the context that is due lands, in order of landing and then of issue; the records of the
cycle are applied in order of issue, those too that a stop or a walk had parted from their results (R115, R116). -/
def execResultLanding (core ctx : Nat) (s : State) : Out3 :=
  let x := s.ctx core ctx
  let t := (s.core core).ccyc
  let due := (x.flight.filter x.lands).foldl (fun l f => byDue f l) []
  let recs := x.recs.filter fun f => decide (f.due ≤ t)
  let s1 := s.modCtx core ctx fun y => due.foldl Ctx.land ((due.foldl Ctx.landClear
    { y with flight := y.flight.filter fun f => !x.lands f, recs := y.recs.filter fun f => !decide (f.due ≤ t) }).recordAll (due ++ recs))
  .next (due.foldl (fun t f => t.landOut core ctx f) s1)

/-- Results in flight to registers that a release has taken never land (R103). DESIGN CHOICE (log 45): a result's exception record goes
with it. -/
def Ctx.cancel (x : Ctx) : Ctx :=
  let keep := fun (f : Flight) => match f.eff with
    | .sreg (some n) _ => decide (n < x.allocS)
    | .vreg (some n) _ => decide (n < x.allocV)
    | .vplain n _ => decide (n < x.allocV)
    | _ => true
  { x with flight := x.flight.filter keep }
/-- The data of loads in flight to released registers will be discarded; their scoreboard entries end as the loads complete (R103). -/
def Core.voidLoads (k : Core) (n : Nat) : Core :=
  let x := k.ctx n
  let void := fun (a : Access) => match a.dest with
    | some (v, r) => if a.of n x.gen && decide ((if v then x.allocV else x.allocS) ≤ r) then { a with void := true } else a
    | none => a
  { k with access := k.access.map void }

-- ## Ends of waits (R145, R259)

/-- WAITC_WAKE (R145). -/
def execWaitcWake (core ctx : Nat) (s : State) : Out3 :=
  .next (s.endWait core ctx fun w => match w with | .cyc t => decide (t ≤ s.cyc) | _ => false)

/-- Is this the array cycle that XWIN waits for (R259)? -/
def Arr.atWin (a : Arr) (k : Nat) : Bool := decide (a.mode ≠ 2) || decide (a.acyc % (2 * a.w) = k)
/-- XWIN_WAKE (R259). -/
def execXwinWake (core ctx : Nat) (s : State) : Out3 :=
  .next (s.endWait core ctx fun w => match w with | .win k => (s.arr (pairOf core)).atWin k | _ => false)

-- ## The nullifier (R53, R54)

/-- May the bundle at the context's pc be skipped now? -/
def Ctx.skips (x : Ctx) : Bool := x.null.contains x.pc && !x.loops.any fun l => decide (l.last = x.pc)
/-- NULLIFIER_SKIP (R53, R54): the bundle ahead is skipped at no cost. -/
def execNullifierSkip (core ctx : Nat) (s : State) : Out3 :=
  .next (if (s.ctx core ctx).skips then s.modCtx core ctx fun x => { x with null := x.null.erase x.pc, pc := x.pc + 16 } else s)

-- ## Splitting (R56 to R60)

/-- What the bundle in issue finds at its first issue cycle, kept while it is held or split (R46, R57). -/
def State.keepFirst (s : State) (core ctx : Nat) : State :=
  let k := s.core core
  let f : First := { cyc := s.cyc, spad := k.spad, ctx := k.ctx ctx, ccyc := k.ccyc, world := s.worldWord core ctx, ports := k.ports,
                     stat := (List.range 4).map fun n => s.cpstat (clusterOf core) n, arr := s.arr (pairOf core), words := s.iss.words }
  let s1 := s.modArr (pairOf core) fun a => a
  match k.first with
  | some _ => s1
  | none => s1.modCore core fun k => { k with first := some f }

/-- BUNDLE_SPLIT (R56, R57): each part after the first is a cycle in which no core cycle passes. -/
def execBundleSplit (core parts : Nat) (s : State) : Out3 :=
  match (s.core core).run with
  | none => .next s
  | some x => .next ((s.keepFirst core x).modCore core fun k => { k with hold := parts - 1 })

-- ## Pre-emption (R244, R332 to R334)

/-- Does a context hold the issue slots of its core: ready, or waiting after a FENCE (R321)? -/
def Ctx.holdsSlots (x : Ctx) : Bool :=
  match x.st with
  | .ready => true
  | .wait ws => ws.all fun w => match w with | .fence _ _ => true | _ => false
  | _ => false

/-- Is the running context `x` to be pre-empted at this boundary (R332, R424)? -/
def Core.preempts (k : Core) (x : Nat) : Bool :=
  (k.ctx x).holdsSlots && (k.ctx x).save.isSome && !(k.ctx x).spilled &&
  (decide (k.hostPre = some x) || (List.range 8).any fun y => decide (y ≠ x) && (k.ctx y).st.isReady && decide ((k.ctx x).prio < (k.ctx y).prio))

/-- A parked command's 208 bytes, and a parked flag's 32 (R334; the widths within them are log 34). -/
def Tracked.image (t : Tracked) (ch : Nat) : List Byte :=
  (t.src.flatMap fun w => leBytes 8 w.toNat) ++ (t.dst.flatMap fun w => leBytes 8 w.toNat) ++ leBytes 4 ch ++ leBytes 4 t.id ++ leBytes 8 (b2n t.x 1)
def Flag.image (f : Flag) (ch : Nat) : List Byte :=
  leBytes 4 f.id ++ leBytes 4 f.cause ++ leBytes 8 f.index ++ leBytes 8 f.va ++ leBytes 4 ch ++ leBytes 4 f.gen.toNat

/-- The 528 bytes of a snapshot entry in the save area (R334), and packet `i` of the 132 of 256 bytes that carry all 64 of them (R25). -/
def Ctx.snapBytes (x : Ctx) (e : Nat) : List Byte := bytesOfVec (x.snapVal e) ++ leBytes 8 (x.snapDesc e).toNat ++ leBytes 8 0
def Ctx.spillPacket (x : Ctx) (i : Nat) : List Byte :=
  let e := 256 * i / 528
  ((x.snapBytes e ++ x.snapBytes (e + 1)).drop (256 * i - 528 * e)).take 256
/-- The next packet of a snapshot reaches the save area (R334). -/
def State.spill (s : State) (core ctx base : Nat) : State :=
  let x := s.ctx core ctx
  let i := 132 - x.unspilled
  (s.modCore core fun k => { k with spad := spadWrite k.spad (base + 256 * i) (x.spillPacket i) }).modCtx core ctx fun y =>
    { y with unspilled := y.unspilled - 1 }

/-- The context's unstarted commands leave the queue, its flag entries leave the file, and both are saved (R244, R334). -/
def State.park (s : State) (core ctx base n : Nat) : State :=
  let g := (s.ctx core ctx).gen
  let h := s.chan (clusterOf core) n
  let gone := (h.queue.filter fun t => t.of core ctx g).mapIdx fun i t => { t with place := i }
  let fl := (h.flags.filter fun f => f.of core ctx g).mapIdx fun i f => { f with place := i }
  let h1 := { h with queue := h.queue.filter (fun t => !t.of core ctx g), flags := h.flags.filter (fun f => !f.of core ctx g),
                     parked := h.parked ++ gone, pflags := h.pflags ++ fl }
  let s1 := s.modChan (clusterOf core) n fun _ => gone.foldl (fun c t => c.complete t) h1
  let putT := fun (m : Memory) (i : Nat) => match gone[i]? with
    | some t => spadWrite m (base + 33792 + 13312 * n + 208 * i) (t.image n)
    | none => m
  let putF := fun (m : Memory) (i : Nat) => match fl[i]? with
    | some f => spadWrite m (base + 87040 + 512 * n + 32 * i) (f.image n)
    | none => m
  s1.modCore core fun k => { k with spad := (List.range fl.length).foldl putF ((List.range gone.length).foldl putT k.spad) }

/-- PREEMPTION (R333): the context leaves the issue slots at a bundle boundary, its copies parked. It becomes ready; a wait after a FENCE goes
on when it has the slots again (R321). Its snapshot follows into the save area in class 1 of the die's path (R25, R52), which delays no
context: that write, a packet at a time, is the second thing this event does. -/
def execPreemption (core ctx : Nat) (s : State) : Out3 :=
  match (s.ctx core ctx).save with
  | none => .next s
  | some base =>
    if (s.core core).run = some ctx ∧ (s.core core).preempts ctx = true then
      let s1 := (List.range 4).foldl (fun t n => t.park core ctx base n) s
      let s2 := s1.modCtx core ctx fun y =>
        { y.snap (s.core core).ccyc with spilled := true, unspilled := 132, refill := [], null := [], stall := 0, saved := y.waits, st := .ready }
      .next (s2.modCore core fun k => { k with hostPre := none }.reschedule ctx)
    else if 0 < (s.ctx core ctx).unspilled then .next (s.spill core ctx base)
    else .next s

/-- A result in flight as its value and descriptor in the save area now say (R196, R365): register slot, kind, remaining count, store address,
mask; `old`: what stood in the entry. DESIGN CHOICE (log 108): what a descriptor does not say is as it was, or in an entry that held nothing, a
result of slot position 0 without exceptions, or a store of 512 bytes by the T0 port. -/
def Ctx.refillResult (x : Ctx) (d : Nat) (bs : List Byte) (old : Option Flight) : Option Flight :=
  if !d.testBit 63 || decide (bits d 7 6 = 3) then none
  else
    let f : Flight := old.getD { due := x.clk + bits d 15 8, iss := x.clk, pos := 0, addr := x.pc, causes := 0, eff := .note }
    let v := vecOfBytes bs
    let slot := bits d 5 0
    let reg := if slot < 48 then some slot else none
    let eff := if bits d 7 6 = 0 then Eff.sreg reg (v.setWidth 64)
      else if bits d 7 6 = 2 then (match f.eff with
        | .store p _ b => .store p (bits d 35 16) (bs.take b.length)
        | _ => .store 0 (bits d 35 16) bs)
      else if d.testBit 36 then .mask (slot % 8) (v.setWidth 128)
      else match f.eff with
        | .vplain _ _ => .vplain (slot % 48) v
        | _ => .vreg reg v
    some { f with due := if (f.due - x.clk) % 2 ^ 8 = bits d 15 8 then f.due else x.clk + bits d 15 8, eff := eff }
/-- A latch entry likewise: its position from its code, its age; scalar where the entry held a scalar (log 108). -/
def Ctx.refillLatch (x : Ctx) (d : Nat) (bs : List Byte) (old : Option LatchVal) : Option Latch :=
  if !d.testBit 63 || decide (bits d 7 6 ≠ 3) then none
  else
    let v := vecOfBytes bs
    some ⟨bits d 3 2, x.clk - bits d 15 8, match old with | some (.s _) => .s (v.setWidth 64) | _ => .v v⟩
/-- A snapshot rebuilt from the bytes of the save area's 64 entries: those whose descriptor is not valid are gone, those that have become valid
are there (R196, R333, R334). Results that no entry shows go on as they were. -/
def Ctx.refilled (x : Ctx) (img : List Byte) : Ctx :=
  let val := fun (e : Nat) => (img.drop (528 * e)).take 512
  let desc := fun (e : Nat) => leNat ((img.drop (528 * e + 512)).take 8)
  let n := (x.flight.filter Flight.snap).length
  let step := fun (acc : Nat × List Flight) (f : Flight) =>
    if !f.snap then (acc.1, acc.2 ++ [f])
    else (acc.1 + 1, acc.2 ++ (if acc.1 < 48 then (x.refillResult (desc acc.1) (val acc.1) (some f)).toList else [f]))
  let old := (x.flight.foldl step (0, [])).2
  let new := ((List.range 64).filter fun e => decide (min n 48 ≤ e)).filterMap fun e => x.refillResult (desc e) (val e) none
  { x with flight := old ++ new
           latch := (List.range 64).filterMap fun e => x.refillLatch (desc e) (val e) (if e < 48 then none else x.latchAt e)
           refill := [] }

/-- A parked command and a parked flag as the save area holds them now (R196, R334; log 34). -/
def Tracked.saved (t : Tracked) (m : Memory) (a : Nat) : Tracked :=
  let rec_ := fun (o : Nat) => (List.range 12).map fun i => BitVec.ofNat 64 (leNat (spadRead m (a + o + 8 * i) 8))
  { t with src := rec_ 0, dst := rec_ 96, id := leNat (spadRead m (a + 196) 4), x := (leNat (spadRead m (a + 200) 8)).testBit 0 }
def Flag.saved (f : Flag) (m : Memory) (a : Nat) : Flag :=
  let at_ := fun (o n : Nat) => leNat (spadRead m (a + o) n)
  { f with id := at_ 0 4, cause := at_ 4 4, index := at_ 8 8, va := at_ 16 8, gen := BitVec.ofNat 16 (at_ 28 4) }

/-- The parked commands enter the queue's tail again, as many as it has room for, and translate anew; the flags enter the flag file, as
far as it has room (R239, R240, R244, R245). -/
def State.unpark (s : State) (core ctx base n : Nat) : State :=
  let g := (s.ctx core ctx).gen
  let h := s.chan (clusterOf core) n
  let m := (s.core core).spad
  let again := fun (t : Tracked) => s.mapped h.map { t.saved m (base + 33792 + 13312 * n + 208 * t.place) with repush := true }
  let mine := (h.parked.filter fun t => t.of core ctx g).take (64 - h.qlev)
  let fl := (h.pflags.filter fun f => f.of core ctx g).take (16 - h.flags.length)
  let back := mine.map again
  s.modChan (clusterOf core) n fun h =>
    { h with queue := h.queue ++ back, parked := h.parked.filter (fun t => !mine.contains t),
             flags := h.flags ++ (fl.map fun f => f.saved m (base + 87040 + 512 * n + 32 * f.place)),
             pflags := h.pflags.filter (fun f => !fl.contains f),
             map := h.map ++ (back.flatMap fun t => t.map).filter fun e => !h.map.contains e }

/-- Is anything of the context still parked (R333)? -/
def State.hasParked (s : State) (core ctx : Nat) : Bool :=
  let g := (s.ctx core ctx).gen
  (List.range 4).any fun n =>
    let h := s.chan (clusterOf core) n
    (h.parked.any fun t => t.of core ctx g) || h.pflags.any fun f => f.of core ctx g

/-- PREEMPTED_RESUME (R25, R333): the snapshot is read from the save area, a packet at a time; then the parked copies are pushed again, and once
they all are, the context goes on with the snapshot that has been read, or waits on after its FENCE. -/
def execPreemptedResume (core ctx : Nat) (s : State) : Out3 :=
  match (s.core core).run, (s.ctx core ctx).save with
  | some x, some base =>
    let y := s.ctx core ctx
    if x ≠ ctx ∨ y.spilled = false ∨ 0 < y.unspilled then .next s
    else if y.refill.length < 33792 then
      .next (s.modCtx core ctx fun y => { y with refill := y.refill ++ spadRead (s.core core).spad (base + y.refill.length) 256 })
    else
      let s1 := (List.range 4).foldl (fun t n => t.unpark core ctx base n) s
      if s1.hasParked core ctx then .next s1
      else
        .next (s1.modCtx core ctx fun y =>
          { y.refilled y.refill with spilled := false, prepAll := y.issued, saved := [], st := if y.saved.isEmpty then y.st else .wait y.saved })
  | _, _ => .next s

end Sys2Proof.Machine
end

