-- ==== Sys2Proof/Machine/Group.lean ====
section
/-! DEFINITION. The group engine: GLOAD, GCHK, GSEL, GORB, GSTAT and their landings (R281 to R301). -/

namespace Sys2Proof.Machine

/-- Is the engine busy now, and from the issuing core (R298)? -/
def State.engineBusy (s : State) (own : Bool) : Bool :=
  match s.curArr.gbusy with
  | some b => decide (s.curArr.clk < b.until_) && (decide (b.core = s.iss.core) == own)
  | none => false

/-- Does a bundle that the pair's lower core is splitting issue a GLOAD or GCHK in this bundle's core cycle (R57, R298)? Whether that bundle
goes on to fault is not yet known (log 35). -/
def State.engineRival (s : State) : Bool :=
  decide (s.iss.core % 2 = 1) && decide (0 < (s.core (s.iss.core - 1)).hold) && s.curArr.holds 0 && (match (s.core (s.iss.core - 1)).first with
    | none => false
    | some f =>
      let w := fun n => f.words.getD n 0
      let b := decodeBundle (w 0) (w 1) (w 2) (w 3)
      decide (f.arr.clk = s.curArr.clk) && (List.range 4).any fun p => match b.word p with
        | some (.gload g _ _) => f.ctx.guardAt g.toNat
        | some (.gchk g _) => f.ctx.guardAt g.toNat
        | _ => false)

/-- The common frame of a G word (R298, R430). -/
def gop (i : Instr) (bad : Bool) (s : State) (k : State → Out3) : Out3 := sop i bad (isSupervisor s.iss.core) s k

def State.engineTake (s : State) (lat : Nat) : State :=
  s.modCurArr fun a => { a with gbusy := some ⟨s.iss.core, a.clk, a.clk + lat⟩ }

/-- GLOAD (R284, R285): unit 0 is read at issue, unit k in the k-th cycle after. A bundle held for a translation issues it in its last
issue cycle (log 61). -/
def execGload (g : Guard) (a n : Code) (s : State) : Out3 :=
  gop (.gload g a n) (s.engineBusy true) s fun s =>
    let v := s.rdS a
    let w := v.toNat
    let n := n.toNat + 1
    let addr := bits w 19 0
    let kind := bits w 21 20
    let inex := bits w 22 22
    let unit := bits w 40 32
    let u := if kind = 0 then n + (n + 7) / 8 else n
    if !s.curArr.holds s.curP || s.engineBusy false || s.engineRival then s.windowMiss
    else if v &&& 0xFFFFFE00FF800000 ≠ 0 then s.range 0 (v &&& 0xFFFFFE00FF800000)
    else if kind = 3 then s.range 0 (BitVec.ofNat 64 kind)
    else if inex = 1 ∧ kind ≠ 0 then s.range 0 (BitVec.ofNat 64 inex)
    else if (kind ≠ 2 ∧ unit ≠ 0) ∨ (kind = 2 ∧ 512 < unit + n) then s.range 0 (BitVec.ofNat 64 unit)
    else if addr % 512 ≠ 0 then s.align3 (BitVec.ofNat 64 addr)
    else if 65536 < addr % 65536 + 512 * u then s.range 0 (BitVec.ofNat 64 addr)
    else
      let now := if s.heldFor = 0 then s.issueSpad else s.curCore.spad
      let s1 := (s.engineTake (8 + u)).modCurArr fun r => { r with gunits := [vecOfBytes (spadRead now addr 512)] }
      let s2 := s1.modCurCore fun k => { k with busy := NMap.set k.busy 9 (k.ccyc + s.heldFor + u) }
      let s3 := (List.range (u - 1)).foldl (fun t k => t.arrLater (k + 1) (.gread s.iss.core (addr + 512 * (k + 1)))) s2
      .next (if kind = 2 then s3.arrLater (8 + u) (.gfilter unit n)
        else (s3.arrLater 1 .gloadStart).arrLater (8 + u) (.gtables n kind inex))

-- ## GCHK (R288 to R291)

def Arr.cay (a : Arr) (g h : Nat) : Nat := ((NMap.getD a.cayley g 0).extractLsb' (8 * h) 6).toNat

/-- A failure's place: element, second element, site. -/
abbrev GFail := Nat × Nat × Nat

/-- The pairs and triples a check looks at, in ascending order. -/
def pairsOf (n m : Nat) : List (Nat × Nat) := (List.range n).flatMap fun g => (List.range m).map fun h => (g, h)

/-- The entries of table `g` that stand before site `t`. -/
def Arr.repeats (a : Arr) (g t : Nat) : Bool := (List.range t).any fun j => decide (entA (a.entry g j) = entA (a.entry g t))

/-- The first failure of each check (R288): ID, SITES, CAYLEY, INV, COMP. -/
def Arr.chkId (a : Arr) (kr : Nat) : Option GFail :=
  let ok := fun (t : Nat) => let e := a.entry 0 t
    decide (entA e = t ∧ entB e = 0 ∧ entW e = 0)
  ((List.range kr).find? fun t => !ok t).map fun t => (0, 0, t)
def Arr.chkSites (a : Arr) (kr : Nat) : Option GFail :=
  let inex := decide (a.inex = 1)
  let bad := fun (p : Nat × Nat) =>
    let e := a.entry p.1 p.2
    decide (bits e 31 24 + bits e 15 15 + bits e 7 7 ≠ 0) || decide (kr ≤ entA e) ||
    (if inex then decide (kr ≤ entB e) else decide (entB e + entW e ≠ 0)) ||
    ((!inex || decide (a.kind = 1)) && a.repeats p.1 p.2)
  ((pairsOf a.gn kr).find? bad).map fun p => (p.1, 0, p.2)
def Arr.chkCayley (a : Arr) : Option GFail :=
  if a.kind = 0 then
    ((pairsOf a.gn a.gn).find? fun p => let v := a.cay p.1 p.2
      decide (a.gn ≤ v) || (decide (p.1 = 0) && decide (v ≠ p.2)) || (decide (p.2 = 0) && decide (v ≠ p.1))).map fun p => (p.1, p.2, 0)
  else none
def Arr.chkInv (a : Arr) : Option GFail :=
  if a.kind = 0 then
    ((List.range a.gn).find? fun g => !(List.range a.gn).any fun h => decide (a.cay g h = 0 ∧ a.cay h g = 0)).map fun g => (g, 0, 0)
  else none
def Arr.chkComp (a : Arr) (kr : Nat) : Option GFail :=
  ((pairsOf a.gn a.gn).flatMap fun p => (List.range kr).map fun t => (p.1, p.2, t)).find? fun q =>
    decide (entA (a.entry (a.cay q.1 q.2.1) q.2.2) ≠ entA (a.entry q.2.1 (entA (a.entry q.1 q.2.2))))

/-- Row `t` of M_g in units of 1/256 (R291). -/
def Arr.mRow (a : Arr) (g t : Nat) : List (Nat × Nat) :=
  if g = 0 then [(t, 256)] else let e := a.entry g t; [(entA e, 256 - entW e), (entB e, entW e)]
def mAt (row : List (Nat × Nat)) (i : Nat) : Nat := (row.filter fun p => decide (p.1 = i)).foldl (fun s p => s + p.2) 0

/-- DEV of an inexact group (R291). -/
def Arr.deviation (a : Arr) (kr : Nat) : Nat :=
  let one := fun (g h t i : Nat) =>
    let l : Int := 256 * mAt (a.mRow (a.cay g h) t) i
    let r : Int := (a.mRow g t).foldl (fun s p => s + p.2 * mAt (a.mRow h p.1) i) 0
    (l - r).natAbs
  let d := (pairsOf a.gn a.gn).foldl (fun m p => (pairsOf kr kr).foldl (fun m q => max m (one p.1 p.2 q.1 q.2)) m) 0
  min 65535 d

/-- The status word and DEV of a GCHK (R288, R289). -/
def Arr.check (a : Arr) (kr : Nat) : Nat × Nat :=
  let f1 := a.chkId kr
  let f2 := a.chkSites kr
  let f3 := a.chkCayley
  let f4 := a.chkInv
  let ok := f1.isNone && f2.isNone && f3.isNone && f4.isNone
  let f5 := if ok && decide (a.kind = 0) && decide (a.inex = 0) then a.chkComp kr else none
  let dev := if ok && decide (a.kind = 0) && decide (a.inex = 1) then a.deviation kr else 0
  let fails := [f1, f2, f3, f4, f5]
  let causes := (List.range 5).foldl (fun s i => if (fails.getD i none).isSome then s + 2 ^ (i + 1) else s) 0
  let first := match fails.findSome? id with
    | some (g, h, t) => g * 2 ^ 8 + h * 2 ^ 16 + t * 2 ^ 24
    | none => 0
  (dev * 2 ^ 32 + first + a.inex * 2 ^ 6 + causes + (if causes = 0 then 1 else 0), dev)

/-- GCHK (R288, R290): status word and verdict land in one cycle, also those of a held bundle, which issues it in its last cycle (log 61). -/
def execGchk (g : Guard) (d : Code) (s : State) : Out3 :=
  gop (.gchk g d) (s.engineBusy true) s fun s =>
    if !s.curArr.holds s.curP || s.engineBusy false || s.engineRival then s.windowMiss
    else
      let a := s.curArr
      let kr := mKr s.curPos.mode
      let blk := (kr + 15) / 16
      let lat := if a.kind = 0 then a.gn * a.gn * blk else a.gn * blk
      let (st, dev) := a.check kr
      let w := BitVec.ofNat 64 st
      let s1 := ((s.engineTake lat).arrLater 1 .gchkStart).arrLater lat
        (.gchkEnd (kr - 1) dev w s.iss.core s.iss.ctx s.cur.gen s.cur.launch s.iss.addr)
      .next (s1.putS (lat + s.heldFor) 0 d w)

/-- Does the loaded group fail the comparison that GSEL and GORB make (R292, R293)? -/
def State.groupUnfit (s : State) (g : Nat) : Bool :=
  decide (g ≠ 0) && (decide (s.curArr.chk ≠ 1) || decide (s.curArr.krc ≠ mKr s.curPos.mode - 1))

/-- GSTAT as the issuing core reads it (R297). -/
def State.gstatWord (s : State) : Word := s.curArr.gstat s.curP s.iss.core

/-- GSEL (R292). -/
def execGsel (g : Guard) (a : Code) (s : State) : Out3 :=
  gop (.gsel g a) false s fun s =>
    let v := s.rdS a
    let e := bits v.toNat 5 0
    if !s.curArr.holds s.curP then s.windowMiss
    else if bits v.toNat 63 6 ≠ 0 then s.range 0 (v &&& 0xFFFFFFFFFFFFFFC0)
    else if s.curArr.gn ≤ e ∨ (e ≠ 0 ∧ s.curArr.inex = 1 ∧ mFmt s.curPos.mode = 5) then s.range 0 (BitVec.ofNat 64 e)
    else if s.groupUnfit e then s.raise fGROUP s.gstatWord 0
    else .next (s.arrLater 1 (.gsel s.curP e))

/-- The terms of a GORB (R296): destination row within the block, factor, source elements. -/
def Arr.orbTerms (a : Arr) (fmt nc g t0 m row : Nat) : List (Nat × Num × List Num) :=
  (List.range m).flatMap fun j =>
    let tt := t0 + j
    let x := (List.range nc).map fun c => accNum fmt (rowEl (a.row (row + j)) c)
    let e := a.entry g tt
    if g = 0 then [(tt, .fin false 1 0, x)]
    else if a.inex = 0 then [(entA e, .fin false 1 0, x)]
    else [(entA e, .fin false (256 - entW e) (-8), x)] ++ (if entW e = 0 then [] else [(entB e, .fin false (entW e) (-8), x)])

/-- GORB (R295, R296): not bound to windows. -/
def execGorb (g : Guard) (r a : Code) (s : State) : Out3 :=
  gop (.gorb g r a) false s fun s =>
    let v := s.rdS a
    let w := v.toNat
    let e := bits w 5 0
    let b := bits w 13 8
    let t0 := bits w 22 16
    let m := bits w 30 24 + 1
    let row := r.toNat
    let q := s.curPos
    let kr := mKr q.mode
    let f := mFmt q.mode
    let x := s.curArr
    let lap := decide (row < b + kr ∧ b < row + m)
    if !x.holds s.curP then s.windowMiss
    else if v &&& 0xFFFFFFFF8080C0C0 ≠ 0 then s.range 0 (v &&& 0xFFFFFFFF8080C0C0)
    else if x.gn ≤ e ∨ x.kind = 1 ∨ f = 5 ∨ (f = 3 ∧ x.inex = 1) then s.range 0 (BitVec.ofNat 64 e)
    else if kr < t0 + m then s.range 0 (BitVec.ofNat 64 t0)
    else if 64 < row + m then s.range 0 (BitVec.ofNat 64 row)
    else if 64 < b + kr ∨ lap = true then s.range 0 (BitVec.ofNat 64 b)
    else if s.groupUnfit e then s.raise fGROUP s.gstatWord 0
    else if !((List.range m).all fun j => x.owns s.curP (row + j)) || !((List.range kr).all fun j => x.owns s.curP (b + j)) then
      s.windowMiss
    else .next (s.arrLater (6 + m) (.gorb b (mNc q.mode) f (x.orbTerms f (mNc q.mode) e t0 m row)))

/-- GSTAT (R297). -/
def execGstat (g : Guard) (d : Code) (s : State) : Out3 :=
  gop (.gstat g d) false s fun s => .next (s.putS 1 0 d s.gstatWord)

-- ## Landings

/-- GROUP_LOAD_LANDING (R285): the first due effect of a GLOAD lands; where none is, the units due are read from the scratchpad. -/
def execGroupLoadLanding (pair : Nat) (s : State) : Out3 :=
  if ((s.arr pair).dueOf isGroupLoad).isSome then .next (s.landArr pair isGroupLoad)
  else
    let a := s.arr pair
    let due := a.flight.filter fun f => decide (f.due ≤ a.clk) && isRead f.eff
    let units := due.filterMap fun f => match f.eff with
      | .gread c p => some (vecOfBytes (spadRead (s.core c).spad p 512))
      | _ => none
    .next (s.modArr pair fun a => { a with gunits := a.gunits ++ units,
                                           flight := a.flight.filter fun f => !(decide (f.due ≤ a.clk) && isRead f.eff) })

/-- GCHK_VERDICT (R290): CHK, and where the group fails a deferred GROUP_CHECK for the context that asked. -/
def execGchkVerdict (pair : Nat) (s : State) : Out3 :=
  match (s.arr pair).dueOf isVerdict with
  | none => .next s
  | some f =>
    let s1 := s.landArr pair isVerdict
    match f.eff with
    | .gchkEnd _ _ st core ctx gen launch addr =>
      if st.getLsbD 0 then .next s1
      else .next (s1.defer core ctx gen.toNat launch fGROUP st (BitVec.ofNat 64 addr) addr)
    | _ => .next s1

/-- GORB_LANDING (R296). -/
def execGorbLanding (pair : Nat) (s : State) : Out3 := .next (s.landArr pair isOrb)

end Sys2Proof.Machine
end

