-- ==== Sys2Proof/Machine/Vector.lean ====
section
/-! DEFINITION. The vector instructions (R174 to R191). -/

namespace Sys2Proof.Machine

/-- The frame of an operation that writes a vector register under a mask (R177): each selected lane takes its result and gives
its causes; another lane keeps what the destination held at issue. -/
def vframe (old : Vec) (m : Mask) (f : Nat → Nat × Causes) : Vec × Causes :=
  let rs := (List.range 128).map fun i => if m.getLsbD i then f i else ((old.lane i).toNat, 0)
  (BitVec.ofNat 4096 (rs.foldr (fun r acc => r.1 % 2 ^ 32 + 2 ^ 32 * acc) 0), rs.foldl (fun c r => c ||| r.2) 0)

/-- The destination as it stands at issue, zero for `nul` (R177). -/
def State.oldV (s : State) (d : Code) : Vec := if d.toNat < 48 then s.rdV d else 0

/-- An element-wise operation on lanes under mask `vxM x` (R177). -/
def vlanes (i : Instr) (lat : Nat) (d : Code) (x : Ext) (s : State) (f : State → Nat → Nat × Causes) : Out3 :=
  sop i false false s fun s =>
    let r := vframe (s.oldV d) (s.maskAt (vxM x)) (f s)
    .next (s.putV lat r.2 d r.1)

/-- An operation that writes every lane and records nothing. -/
def vall (i : Instr) (lat : Nat) (d : Code) (s : State) (f : State → Nat → Nat) : Out3 :=
  sop i false false s fun s => .next (s.putV lat 0 d (ofLanesN (f s)))

/-- The output of an arithmetic operation of type `ty` (R166, R167), with NV where NaN is new. -/
def arith (s : State) (ty rm : Nat) (r : Num) (ops : List Num) : Nat × Causes :=
  let o := encodeTy ty rm s.ftz r
  (o.bits, o.causes ||| nvIf r ops)

/-- A two- or three-operand arithmetic operation (R179). -/
def varith (i : Instr) (lat : Nat) (d a b : Code) (x : Ext) (s : State) (f : Nat → Num → Num → Num → Num) (three : Bool) : Out3 :=
  vlanes i lat d x s fun s l =>
    let ty := vxT x
    let rm := s.rm (vxR x)
    let u := decodeTy ty (elem ty (s.rdV a) l)
    let v := decodeTy ty (elem ty (s.rdV b) l)
    let w := decodeTy ty (elem ty (s.oldV d) l)
    arith s ty rm (f rm w u v) (if three then [w, u, v] else [u, v])

/-- Minimum or maximum of two elements (R179): canonical NaN where either is NaN, else one operand's bits. -/
def pickMinMax (mx : Bool) (ty p q : Nat) : Nat :=
  let u := decodeTy ty p
  let v := decodeTy ty q
  if isNaN u || isNaN v then canonNaN ty
  else if Num.lt true u v then (if mx then q else p) else (if mx then p else q)

def vminmax (i : Instr) (mx : Bool) (d a b : Code) (x : Ext) (s : State) : Out3 :=
  vlanes i 4 d x s fun s l => (pickMinMax mx (vxT x) (elem (vxT x) (s.rdV a) l) (elem (vxT x) (s.rdV b) l), 0)

/-- VABS and VNEG of one element (R180). -/
def signOp (neg : Bool) (ty p : Nat) : Nat × Causes :=
  if ty < 2 then
    if isNaN (decodeTy ty p) then (canonNaN ty, 0)
    else
      let top := 2 ^ (tyBits ty - 1)
      if neg then (if p < top then p + top else p - top, 0) else (p % top, 0)
  else if ty = 2 then
    if p % 128 = 0 then (p, 0) else if neg then (if p < 128 then p + 128 else p - 128, 0) else (p % 128, 0)
  else
    let z := if ty = 3 then (BitVec.ofNat 8 p).toInt else (BitVec.ofNat 32 p).toInt
    let o := encodeInt (tyBits ty) 0 (numOfInt (if neg || decide (z < 0) then -z else z))
    (o.bits, o.causes)

/-- A one-operand function with the special operands of R180: an infinite result from a finite operand is written under DZ. -/
def special (s : State) (ty rm : Nat) (v r : Num) (dz : Bool) : Nat × Causes :=
  let o := encodeTy ty rm s.ftz r
  (o.bits, o.causes ||| nvIf r [v] ||| causeIf dz cDZ)

def rcpFn : Num → Num × Bool
  | .nan => (.nan, false)
  | .inf t => (.fin t 0 0, false)
  | .fin t m e => if m = 0 then (.inf t, true) else (rcpNum t m e, false)
def rsqFn : Num → Num × Bool
  | .nan => (.nan, false)
  | .inf t => (if t then .nan else .fin false 0 0, false)
  | .fin t m e => if m = 0 then (.inf t, true) else if t then (.nan, false) else (rsqNum m e, false)
def exp2Fn : Num → Num × Bool
  | .nan => (.nan, false)
  | .inf t => (if t then .fin false 0 0 else .inf false, false)
  | .fin t m e => (exp2Num t m e, false)
def log2Fn : Num → Num × Bool
  | .nan => (.nan, false)
  | .inf t => (if t then .nan else .inf false, false)
  | .fin t m e => if m = 0 then (.inf true, true) else if t then (.nan, false) else (log2Num m e, false)

def vfunc (i : Instr) (d a : Code) (x : Ext) (s : State) (f : Num → Num × Bool) : Out3 :=
  vlanes i 9 d x s fun s l =>
    let ty := vxT x
    let v := decodeTy ty (elem ty (s.rdV a) l)
    let r := f v
    special s ty (s.rm (vxR x)) v r.1 r.2

/-- A bitwise or shift operation on 32-bit lanes (R181). -/
def vbits (i : Instr) (d : Code) (x : Ext) (s : State) (f : State → Nat → BitVec 32) : Out3 :=
  vlanes i 4 d x s fun s l => ((f s l).toNat, 0)

/-- A relation of two elements (R182). -/
def relation (cc ty p q : Nat) : Bool :=
  let u := decodeTy ty p
  let v := decodeTy ty q
  if isNaN u || isNaN v then decide (cc = 1 ∨ cc = 6)
  else
    let lt := Num.lt false u v
    let gt := Num.lt false v u
    if cc = 0 then !lt && !gt else if cc = 1 then lt || gt else if cc = 2 then lt
    else if cc = 3 then !gt else if cc = 4 then gt else if cc = 5 then !lt else false

/-- The mask whose bit i is `f i`. -/
def maskOf (f : Nat → Bool) : Mask := BitVec.ofNat 128 (packNat 1 (fun i => if f i then 1 else 0) 128)

/-- VCMP (R182): unselected lanes give 0. -/
def vcmp (i : Instr) (cc : Nat) (m a b : Code) (x : Ext) (s : State) : Out3 :=
  sop i false false s fun s =>
    let ty := vxT x
    let va := s.rdV a
    let vb := s.rdV b
    let k := s.maskAt (vxM x)
    .next (s.later 4 0 (.mask m.toNat (maskOf fun l => k.getLsbD l && relation cc ty (elem ty va l) (elem ty vb l))))

/-- A mask operation (R184). -/
def vmaskOp (i : Instr) (m : Code) (s : State) (f : State → Mask) : Out3 :=
  sop i false false s fun s => .next (s.later 4 0 (.mask m.toNat (f s)))

/-- The source lane of VSHUF (R186). -/
def shufSrc (p i : Nat) : Nat :=
  let kind := p / 8
  let k := p % 8
  let g := 2 ^ k
  let b := 128 / g
  let j := i / g
  let r := i % g
  if kind = 0 then (if k = 7 then i ^^^ 127 else i ^^^ g)
  else if kind = 1 then (i + g) % 128
  else if kind = 2 then (i + 128 - g) % 128
  else if kind = 3 then (if k = 7 then 0 else i - r)
  else if kind = 4 then (if k = 7 then i else if j < b / 2 then (2 * j) * g + r else (2 * (j - b / 2) + 1) * g + r)
  else if kind = 5 then (if k = 7 then i else if j % 2 = 0 then (j / 2) * g + r else (b / 2 + (j - 1) / 2) * g + r)
  else if kind = 6 then
    if k = 7 then i
    else
      let n := k + 1
      let lo := i % 2 ^ n
      i - lo + (List.range n).foldl (fun acc t => acc + (if lo.testBit t then 2 ^ (n - 1 - t) else 0)) 0
  else (if k = 7 then i else i % g)

/-- One level of the pairwise FP48 tree of VRED.add (R160). -/
def treeLevel : List (Nat × Bool) → List (Nat × Bool)
  | a :: b :: rest =>
    let r := add48 (fp48 a.1) (fp48 b.1)
    (r.1, a.2 || b.2 || r.2) :: treeLevel rest
  | l => l
def treeSum (l : List (Nat × Bool)) : List (Nat × Bool) :=
  treeLevel (treeLevel (treeLevel (treeLevel (treeLevel (treeLevel (treeLevel l))))))

/-- NV raised inside the tree: NaN from operands of which none is NaN (R167). -/
def redNv (vals : List Num) (r : Num) : Causes := nvIf r vals

/-- Write a reduction's number to a scalar (R188): floating elements zero-extended, integers sign-extended. -/
def redWord (ty bits_ : Nat) : Word :=
  if ty = 3 then (BitVec.ofNat 8 bits_).signExtend 64 else if ty = 4 then (BitVec.ofNat 32 bits_).signExtend 64
  else BitVec.ofNat 64 bits_

/-- The selected elements of a vector, as numbers' bits. -/
def selected (ty : Nat) (v : Vec) (m : Mask) : List Nat :=
  ((List.range 128).filter fun l => m.getLsbD l).map fun l => elem ty v l

/-- VRED.max and VRED.min (R188). -/
def redMinMax (mx : Bool) (ty : Nat) (es : List Nat) : Nat :=
  match es with
  | [] =>
    if ty = 0 then (if mx then 0xFF800000 else 0x7F800000) else if ty = 1 then (if mx then 0xFF80 else 0x7F80)
    else if ty = 2 then (if mx then 0xFF else 0x7F)
    else if ty = 3 then (if mx then 0x80 else 0x7F) else (if mx then 0x80000000 else 0x7FFFFFFF)
  | e :: rest =>
    if (e :: rest).any fun p => isNaN (decodeTy ty p) then canonNaN ty else rest.foldl (pickMinMax mx ty) e

/-- NX and UF of a result against its exact value (R167): the written result differs from it. -/
def offExact (ty : Nat) (x : Num) (bits_ : Nat) : Causes :=
  match x, decodeTy ty bits_ with
  | .fin _ m e, .fin t n f =>
    let low : Int := if ty = 2 then -12 else -126
    let off := !Num.eqv x (.fin t n f)
    causeIf off cNX ||| causeIf (off && decide (m ≠ 0) && magLt m e 1 low) cUF
  | _, _ => 0

/-- VRED.add (R160, R167, R188). -/
def redAdd (s : State) (ty rm : Nat) (v : Vec) (m : Mask) : Word × Causes :=
  if ty < 3 then
    let nums := (List.range 128).map fun l => if m.getLsbD l then decodeTy ty (elem ty v l) else Num.fin false 0 0
    let t := (treeSum (nums.map fun n => ((rnd48 n).1, false))).headD (0, false)
    let r := fp48 t.1
    let o := encodeTy ty rm s.ftz r
    let exact := nums.foldl (Num.add rm) (.fin false 0 0)
    (redWord ty o.bits, o.causes ||| causeIf t.2 (cOF ||| cNX) ||| redNv nums r ||| offExact ty exact o.bits)
  else
    let z := (selected ty v m).foldl (fun acc p => acc + (if ty = 3 then (BitVec.ofNat 8 p).toInt else (BitVec.ofNat 32 p).toInt)) (0 : Int)
    (BitVec.ofInt 64 z, 0)

def vredMM (i : Instr) (mx : Bool) (d a : Code) (x : Ext) (s : State) : Out3 :=
  sop i false false s fun s =>
    let ty := vxT x
    .next (s.putS 9 0 d (redWord ty (redMinMax mx ty (selected ty (s.rdV a) (s.maskAt (vxM x))))))

/-- A residue operation (R189): absent without residue mode (R21); an invalid modulus writes 0 and
records BADMOD, whichever lanes are selected (R111; log 40). -/
def vresidue (i : Instr) (lat : Nat) (d a b : Code) (x : Ext) (s : State) (f : Nat → Nat → Nat → Nat) : Out3 :=
  sop i false (!s.hasRes) s fun s =>
    let m := (NMap.getD s.cur.md (vxR x) 0).toNat
    let k := s.maskAt (vxM x)
    let old := s.oldV d
    let va := s.rdV a
    let vb := s.rdV b
    let ok := modValid m
    .next (s.putV lat (causeIf (!ok) cBADMOD) d (ofResidues fun j =>
      if k.getLsbD (2 * j) then (if ok then f m (residue va j % m) (residue vb j % m) else 0) else residue old j))

/-- A butterfly operation (R190): `f` gives both results from x, y and the twiddle. -/
def vbutterfly (i : Instr) (d a b : Code) (x : Ext) (s : State) (f : Nat → Nat → Nat → Nat → Nat × Nat) : Out3 :=
  sop i false (!s.hasRes) s fun s =>
    let m := (NMap.getD s.cur.md (vxR x) 0).toNat
    let k := s.maskAt (vxM x)
    let old := s.oldV d
    let va := s.rdV a
    let vb := s.rdV b
    let ok := modValid m
    .next (s.putV 9 (causeIf (!ok) cBADMOD) d (ofResidues fun j =>
      let p := j / 2
      if k.getLsbD (4 * p) then
        if ok then
          let r := f m (residue va (2 * p) % m) (residue va (2 * p + 1) % m) (residue vb (2 * p) % m)
          if j % 2 = 0 then r.1 else r.2
        else 0
      else residue old j))

/-- Conversion of one element (R187): equal types copy, a NaN becomes canonical. -/
def cvtElem (s : State) (src dst rm p : Nat) : Nat × Causes :=
  if src = dst then (if src < 3 && isNaN (decodeTy src p) then canonNaN src else p, 0)
  else
    let o := encodeTy dst rm s.ftz (decodeTy src p)
    (o.bits, o.causes)

/-- VMOV (R185). -/
def execVmov (g : Guard) (d a : Code) (x : Ext) (s : State) : Out3 :=
  vlanes (.vmov g d a x) 4 d x s fun s l => ((s.rdV a).lane l |>.toNat, 0)

/-- VADD (R179). -/
def execVadd (g : Guard) (d a b : Code) (x : Ext) (s : State) : Out3 :=
  varith (.vadd g d a b x) 4 d a b x s (fun rm _ u v => Num.add rm u v) false

/-- VSUB (R179). -/
def execVsub (g : Guard) (d a b : Code) (x : Ext) (s : State) : Out3 :=
  varith (.vsub g d a b x) 4 d a b x s (fun rm _ u v => Num.add rm u v.neg) false

/-- VMUL (R179). -/
def execVmul (g : Guard) (d a b : Code) (x : Ext) (s : State) : Out3 :=
  varith (.vmul g d a b x) 6 d a b x s (fun _ _ u v => Num.mul u v) false

/-- VFMA (R179): one rounding. -/
def execVfma (g : Guard) (d a b : Code) (x : Ext) (s : State) : Out3 :=
  varith (.vfma g d a b x) 6 d a b x s (fun rm w u v => Num.add rm w (Num.mul u v)) true

/-- VFMS (R179): one rounding. -/
def execVfms (g : Guard) (d a b : Code) (x : Ext) (s : State) : Out3 :=
  varith (.vfms g d a b x) 6 d a b x s (fun rm w u v => Num.add rm w (Num.mul u v).neg) true

/-- VMIN (R179). -/
def execVmin (g : Guard) (d a b : Code) (x : Ext) (s : State) : Out3 :=
  vminmax (.vmin g d a b x) false d a b x s

/-- VMAX (R179). -/
def execVmax (g : Guard) (d a b : Code) (x : Ext) (s : State) : Out3 :=
  vminmax (.vmax g d a b x) true d a b x s

/-- VABS (R180). -/
def execVabs (g : Guard) (d a : Code) (x : Ext) (s : State) : Out3 :=
  vlanes (.vabs g d a x) 4 d x s fun s l => signOp false (vxT x) (elem (vxT x) (s.rdV a) l)

/-- VNEG (R180). -/
def execVneg (g : Guard) (d a : Code) (x : Ext) (s : State) : Out3 :=
  vlanes (.vneg g d a x) 4 d x s fun s l => signOp true (vxT x) (elem (vxT x) (s.rdV a) l)

/-- VRCP (R180). -/
def execVrcp (g : Guard) (d a : Code) (x : Ext) (s : State) : Out3 :=
  vfunc (.vrcp g d a x) d a x s rcpFn

/-- VRSQ (R180). -/
def execVrsq (g : Guard) (d a : Code) (x : Ext) (s : State) : Out3 :=
  vfunc (.vrsq g d a x) d a x s rsqFn

/-- VEXP2 (R180). -/
def execVexp2 (g : Guard) (d a : Code) (x : Ext) (s : State) : Out3 :=
  vfunc (.vexp2 g d a x) d a x s exp2Fn

/-- VLOG2 (R180). -/
def execVlog2 (g : Guard) (d a : Code) (x : Ext) (s : State) : Out3 :=
  vfunc (.vlog2 g d a x) d a x s log2Fn

/-- VAND (R181). -/
def execVand (g : Guard) (d a b : Code) (x : Ext) (s : State) : Out3 :=
  vbits (.vand g d a b x) d x s fun s l => (s.rdV a).lane l &&& (s.rdV b).lane l

/-- VOR (R181). -/
def execVor (g : Guard) (d a b : Code) (x : Ext) (s : State) : Out3 :=
  vbits (.vor g d a b x) d x s fun s l => (s.rdV a).lane l ||| (s.rdV b).lane l

/-- VXOR (R181). -/
def execVxor (g : Guard) (d a b : Code) (x : Ext) (s : State) : Out3 :=
  vbits (.vxor g d a b x) d x s fun s l => (s.rdV a).lane l ^^^ (s.rdV b).lane l

/-- VSHL (R181). -/
def execVshl (g : Guard) (d a b : Code) (x : Ext) (s : State) : Out3 :=
  vbits (.vshl g d a b x) d x s fun s l => (s.rdV a).lane l <<< (((s.rdV b).lane l).toNat % 32)

/-- VSHR (R181). -/
def execVshr (g : Guard) (d a b : Code) (x : Ext) (s : State) : Out3 :=
  vbits (.vshr g d a b x) d x s fun s l => (s.rdV a).lane l >>> (((s.rdV b).lane l).toNat % 32)

/-- VSAR (R181). -/
def execVsar (g : Guard) (d a b : Code) (x : Ext) (s : State) : Out3 :=
  vbits (.vsar g d a b x) d x s fun s l => ((s.rdV a).lane l).sshiftRight (((s.rdV b).lane l).toNat % 32)

/-- VCMP.eq (R182). -/
def execVcmpEq (g : Guard) (m a b : Code) (x : Ext) (s : State) : Out3 :=
  vcmp (.vcmpEq g m a b x) 0 m a b x s

/-- VCMP.ne (R182). -/
def execVcmpNe (g : Guard) (m a b : Code) (x : Ext) (s : State) : Out3 :=
  vcmp (.vcmpNe g m a b x) 1 m a b x s

/-- VCMP.lt (R182). -/
def execVcmpLt (g : Guard) (m a b : Code) (x : Ext) (s : State) : Out3 :=
  vcmp (.vcmpLt g m a b x) 2 m a b x s

/-- VCMP.le (R182). -/
def execVcmpLe (g : Guard) (m a b : Code) (x : Ext) (s : State) : Out3 :=
  vcmp (.vcmpLe g m a b x) 3 m a b x s

/-- VCMP.gt (R182). -/
def execVcmpGt (g : Guard) (m a b : Code) (x : Ext) (s : State) : Out3 :=
  vcmp (.vcmpGt g m a b x) 4 m a b x s

/-- VCMP.ge (R182). -/
def execVcmpGe (g : Guard) (m a b : Code) (x : Ext) (s : State) : Out3 :=
  vcmp (.vcmpGe g m a b x) 5 m a b x s

/-- VCMP.un (R182). -/
def execVcmpUn (g : Guard) (m a b : Code) (x : Ext) (s : State) : Out3 :=
  vcmp (.vcmpUn g m a b x) 6 m a b x s

/-- VSEL (R183): the mask selects, and no lane keeps the old value. -/
def execVsel (g : Guard) (d a b : Code) (x : Ext) (s : State) : Out3 :=
  vall (.vsel g d a b x) 4 d s fun s l => if (s.maskAt (vxM x)).getLsbD l then ((s.rdV a).lane l).toNat else ((s.rdV b).lane l).toNat

/-- VBCAST (R185). -/
def execVbcast (g : Guard) (d a : Code) (x : Ext) (s : State) : Out3 :=
  vlanes (.vbcast g d a x) 4 d x s fun s _ => ((s.rdS a).toNat % 2 ^ 32, 0)

/-- VRED.add (R160, R188). -/
def execVredAdd (g : Guard) (d a : Code) (x : Ext) (s : State) : Out3 :=
  sop (.vredAdd g d a x) false false s fun s =>
    let r := redAdd s (vxT x) (s.rm (vxR x)) (s.rdV a) (s.maskAt (vxM x))
    .next (s.putS 9 r.2 d r.1)

/-- VRED.max (R188). -/
def execVredMax (g : Guard) (d a : Code) (x : Ext) (s : State) : Out3 :=
  vredMM (.vredMax g d a x) true d a x s

/-- VRED.min (R188). -/
def execVredMin (g : Guard) (d a : Code) (x : Ext) (s : State) : Out3 :=
  vredMM (.vredMin g d a x) false d a x s

/-- VPERM (R185). -/
def execVperm (g : Guard) (d a b : Code) (x : Ext) (s : State) : Out3 :=
  vlanes (.vperm g d a b x) 5 d x s fun s l => ((s.rdV a).lane (((s.rdV b).lane l).toNat % 128) |>.toNat, 0)

/-- VSHUF (R186). -/
def execVshuf (g : Guard) (d a p : Code) (x : Ext) (s : State) : Out3 :=
  vlanes (.vshuf g d a p x) 5 d x s fun s l => ((s.rdV a).lane (shufSrc p.toNat l) |>.toNat, 0)

/-- VMODADD (R189). -/
def execVmodadd (g : Guard) (d a b : Code) (x : Ext) (s : State) : Out3 :=
  vresidue (.vmodadd g d a b x) 4 d a b x s fun m u v => (u + v) % m

/-- VMODSUB (R189). -/
def execVmodsub (g : Guard) (d a b : Code) (x : Ext) (s : State) : Out3 :=
  vresidue (.vmodsub g d a b x) 4 d a b x s fun m u v => (u + m - v) % m

/-- VMODMUL (R189). -/
def execVmodmul (g : Guard) (d a b : Code) (x : Ext) (s : State) : Out3 :=
  vresidue (.vmodmul g d a b x) 8 d a b x s fun m u v => (u * v) % m

/-- VBFLY (R190). -/
def execVbfly (g : Guard) (d a b : Code) (x : Ext) (s : State) : Out3 :=
  vbutterfly (.vbfly g d a b x) d a b x s fun m u v w => ((u + w * v) % m, (u + m - w * v % m) % m)

/-- VIBFLY (R190). -/
def execVibfly (g : Guard) (d a b : Code) (x : Ext) (s : State) : Out3 :=
  vbutterfly (.vibfly g d a b x) d a b x s fun m u v w => ((u + v) % m, ((u + m - v) * w) % m)

/-- VMASK.and (R184). -/
def execVmaskAnd (g : Guard) (m y z : Code) (s : State) : Out3 :=
  vmaskOp (.vmaskAnd g m y z) m s fun s =>
    let p := s.maskAt y.toNat
    let q := s.maskAt z.toNat
    p &&& q

/-- VMASK.or (R184). -/
def execVmaskOr (g : Guard) (m y z : Code) (s : State) : Out3 :=
  vmaskOp (.vmaskOr g m y z) m s fun s =>
    let p := s.maskAt y.toNat
    let q := s.maskAt z.toNat
    p ||| q

/-- VMASK.xor (R184). -/
def execVmaskXor (g : Guard) (m y z : Code) (s : State) : Out3 :=
  vmaskOp (.vmaskXor g m y z) m s fun s =>
    let p := s.maskAt y.toNat
    let q := s.maskAt z.toNat
    p ^^^ q

/-- VMASK.andn (R184). -/
def execVmaskAndn (g : Guard) (m y z : Code) (s : State) : Out3 :=
  vmaskOp (.vmaskAndn g m y z) m s fun s =>
    let p := s.maskAt y.toNat
    let q := s.maskAt z.toNat
    p &&& ~~~q

/-- VMASK.not (R184). -/
def execVmaskNot (g : Guard) (m y : Code) (s : State) : Out3 :=
  vmaskOp (.vmaskNot g m y) m s fun s => ~~~(s.maskAt y.toNat)

/-- VLANE (R185). -/
def execVlane (g : Guard) (d : Code) (x : Ext) (s : State) : Out3 :=
  vlanes (.vlane g d x) 4 d x s fun _ l => (l, 0)

/-- VCVT (R187): every lane, no mask. -/
def execVcvt (g : Guard) (r : BitVec 3) (d a : Code) (x : Ext) (s : State) : Out3 :=
  sop (.vcvt g r d a x) false false s fun s =>
    let src := vxT x
    let dst := vxM x
    let v := vframe 0 (BitVec.allOnes 128) fun l => cvtElem s src dst (s.rm3 r.toNat) (elem src (s.rdV a) l)
    .next (s.putV 3 v.2 d v.1)

/-- VBCAST.i (R185): every lane. -/
def execVbcastI (g : Guard) (d : Code) (i : BitVec 12) (x : Ext) (s : State) : Out3 :=
  vall (.vbcastI g d i x) 4 d s fun _ _ => ((immS20 x i).toNat % 2 ^ 32)

/-- VSHL.i (R181). -/
def execVshlI (g : Guard) (d a n : Code) (x : Ext) (s : State) : Out3 :=
  vbits (.vshlI g d a n x) d x s fun s l => (s.rdV a).lane l <<< n.toNat

/-- VSHR.i (R181). -/
def execVshrI (g : Guard) (d a n : Code) (x : Ext) (s : State) : Out3 :=
  vbits (.vshrI g d a n x) d x s fun s l => (s.rdV a).lane l >>> n.toNat

/-- VSAR.i (R181). -/
def execVsarI (g : Guard) (d a n : Code) (x : Ext) (s : State) : Out3 :=
  vbits (.vsarI g d a n x) d x s fun s l => ((s.rdV a).lane l).sshiftRight n.toNat

end Sys2Proof.Machine
end

