-- ==== Sys2Proof/Machine/Dispatch.lean ====
section
/-! DEFINITION. The dispatch of an instruction to its meaning. -/

namespace Sys2Proof.Machine

/-- What instruction `i` does in state `s`. -/
def exec (i : Instr) (s : State) : Host.Outcome State Fault Refusal :=
  match i with
  | .nop => Sys2Proof.Machine.execNop s
  | .prep g j imm x => Sys2Proof.Machine.execPrep g j imm x s
  | .prepr g j a => Sys2Proof.Machine.execPrepr g j a s
  | .br g j => Sys2Proof.Machine.execBr g j s
  | .brl g j d => Sys2Proof.Machine.execBrl g j d s
  | .ret g a => Sys2Proof.Machine.execRet g a s
  | .loop g a l x => Sys2Proof.Machine.execLoop g a l x s
  | .loopi g l n x => Sys2Proof.Machine.execLoopi g l n x s
  | .loopr g a l x => Sys2Proof.Machine.execLoopr g a l x s
  | .lbrk g => Sys2Proof.Machine.execLbrk g s
  | .yield g => Sys2Proof.Machine.execYield g s
  | .done g => Sys2Proof.Machine.execDone g s
  | .trap g imm => Sys2Proof.Machine.execTrap g imm s
  | .waitc g a => Sys2Proof.Machine.execWaitc g a s
  | .waitcWake core ctx => Sys2Proof.Machine.execWaitcWake core ctx s
  | .defer g a k n p => Sys2Proof.Machine.execDefer g a k n p s
  | .defdr g d n p => Sys2Proof.Machine.execDefdr g d n p s
  | .defct g d p => Sys2Proof.Machine.execDefct g d p s
  | .tcur g d => Sys2Proof.Machine.execTcur g d s
  | .ctxid g d => Sys2Proof.Machine.execCtxid g d s
  | .prio g p => Sys2Proof.Machine.execPrio g p s
  | .bkpt g => Sys2Proof.Machine.execBkpt g s
  | .mov g d a => Sys2Proof.Machine.execMov g d a s
  | .add g d a b => Sys2Proof.Machine.execAdd g d a b s
  | .sub g d a b => Sys2Proof.Machine.execSub g d a b s
  | .mul g d a b => Sys2Proof.Machine.execMul g d a b s
  | .mulh g d a b => Sys2Proof.Machine.execMulh g d a b s
  | .mulhu g d a b => Sys2Proof.Machine.execMulhu g d a b s
  | .divs g d a b => Sys2Proof.Machine.execDivs g d a b s
  | .divu g d a b => Sys2Proof.Machine.execDivu g d a b s
  | .and g d a b => Sys2Proof.Machine.execAnd g d a b s
  | .or g d a b => Sys2Proof.Machine.execOr g d a b s
  | .xor g d a b => Sys2Proof.Machine.execXor g d a b s
  | .andn g d a b => Sys2Proof.Machine.execAndn g d a b s
  | .shl g d a b => Sys2Proof.Machine.execShl g d a b s
  | .shr g d a b => Sys2Proof.Machine.execShr g d a b s
  | .sar g d a b => Sys2Proof.Machine.execSar g d a b s
  | .rotl g d a b => Sys2Proof.Machine.execRotl g d a b s
  | .clz g d a => Sys2Proof.Machine.execClz g d a s
  | .popc g d a => Sys2Proof.Machine.execPopc g d a s
  | .min g d a b => Sys2Proof.Machine.execMin g d a b s
  | .max g d a b => Sys2Proof.Machine.execMax g d a b s
  | .minu g d a b => Sys2Proof.Machine.execMinu g d a b s
  | .maxu g d a b => Sys2Proof.Machine.execMaxu g d a b s
  | .sel g d a b x => Sys2Proof.Machine.execSel g d a b x s
  | .extb g d a p x => Sys2Proof.Machine.execExtb g d a p x s
  | .insb g d a p x => Sys2Proof.Machine.execInsb g d a p x s
  | .lea g d a b x => Sys2Proof.Machine.execLea g d a b x s
  | .ceq g c a b => Sys2Proof.Machine.execCeq g c a b s
  | .cne g c a b => Sys2Proof.Machine.execCne g c a b s
  | .clt g c a b => Sys2Proof.Machine.execClt g c a b s
  | .cltu g c a b => Sys2Proof.Machine.execCltu g c a b s
  | .cle g c a b => Sys2Proof.Machine.execCle g c a b s
  | .cleu g c a b => Sys2Proof.Machine.execCleu g c a b s
  | .qset g c a => Sys2Proof.Machine.execQset g c a s
  | .qand g c y z => Sys2Proof.Machine.execQand g c y z s
  | .qor g c y z => Sys2Proof.Machine.execQor g c y z s
  | .qnot g c y => Sys2Proof.Machine.execQnot g c y s
  | .crd g d r => Sys2Proof.Machine.execCrd g d r s
  | .cwr g a r => Sys2Proof.Machine.execCwr g a r s
  | .cwrArrmode g a => Sys2Proof.Machine.execCwrArrmode g a s
  | .cwrModulus g a k => Sys2Proof.Machine.execCwrModulus g a k s
  | .cwrRptcard g a n => Sys2Proof.Machine.execCwrRptcard g a n s
  | .allot g m n => Sys2Proof.Machine.execAllot g m n s
  | .shrink g m n => Sys2Proof.Machine.execShrink g m n s
  | .movi g d imm x => Sys2Proof.Machine.execMovi g d imm x s
  | .movhi g d imm x => Sys2Proof.Machine.execMovhi g d imm x s
  | .addi g d a imm x => Sys2Proof.Machine.execAddi g d a imm x s
  | .ceqi g c a imm x => Sys2Proof.Machine.execCeqi g c a imm x s
  | .clti g c a imm x => Sys2Proof.Machine.execClti g c a imm x s
  | .ldW8 g d a o x => Sys2Proof.Machine.execLdW8 g d a o x s
  | .ldW16 g d a o x => Sys2Proof.Machine.execLdW16 g d a o x s
  | .ldW32 g d a o x => Sys2Proof.Machine.execLdW32 g d a o x s
  | .ldW64 g d a o x => Sys2Proof.Machine.execLdW64 g d a o x s
  | .stW8 g v a o x => Sys2Proof.Machine.execStW8 g v a o x s
  | .stW16 g v a o x => Sys2Proof.Machine.execStW16 g v a o x s
  | .stW32 g v a o x => Sys2Proof.Machine.execStW32 g v a o x s
  | .stW64 g v a o x => Sys2Proof.Machine.execStW64 g v a o x s
  | .ldv g d a o x => Sys2Proof.Machine.execLdv g d a o x s
  | .stv g v a o x => Sys2Proof.Machine.execStv g v a o x s
  | .amoAdd g d a b x => Sys2Proof.Machine.execAmoAdd g d a b x s
  | .amoMin g d a b x => Sys2Proof.Machine.execAmoMin g d a b x s
  | .amoMax g d a b x => Sys2Proof.Machine.execAmoMax g d a b x s
  | .amoAnd g d a b x => Sys2Proof.Machine.execAmoAnd g d a b x s
  | .amoOr g d a b x => Sys2Proof.Machine.execAmoOr g d a b x s
  | .amoXor g d a b x => Sys2Proof.Machine.execAmoXor g d a b x s
  | .cas g d a b x => Sys2Proof.Machine.execCas g d a b x s
  | .fenceAcq g x => Sys2Proof.Machine.execFenceAcq g x s
  | .fenceRel g x => Sys2Proof.Machine.execFenceRel g x s
  | .fenceFull g x => Sys2Proof.Machine.execFenceFull g x s
  | .fenceWaitEnd core ctx => Sys2Proof.Machine.execFenceWaitEnd core ctx s
  | .pref g a o x => Sys2Proof.Machine.execPref g a o x s
  | .vmov g d a x => Sys2Proof.Machine.execVmov g d a x s
  | .vadd g d a b x => Sys2Proof.Machine.execVadd g d a b x s
  | .vsub g d a b x => Sys2Proof.Machine.execVsub g d a b x s
  | .vmul g d a b x => Sys2Proof.Machine.execVmul g d a b x s
  | .vfma g d a b x => Sys2Proof.Machine.execVfma g d a b x s
  | .vfms g d a b x => Sys2Proof.Machine.execVfms g d a b x s
  | .vmin g d a b x => Sys2Proof.Machine.execVmin g d a b x s
  | .vmax g d a b x => Sys2Proof.Machine.execVmax g d a b x s
  | .vabs g d a x => Sys2Proof.Machine.execVabs g d a x s
  | .vneg g d a x => Sys2Proof.Machine.execVneg g d a x s
  | .vrcp g d a x => Sys2Proof.Machine.execVrcp g d a x s
  | .vrsq g d a x => Sys2Proof.Machine.execVrsq g d a x s
  | .vexp2 g d a x => Sys2Proof.Machine.execVexp2 g d a x s
  | .vlog2 g d a x => Sys2Proof.Machine.execVlog2 g d a x s
  | .vand g d a b x => Sys2Proof.Machine.execVand g d a b x s
  | .vor g d a b x => Sys2Proof.Machine.execVor g d a b x s
  | .vxor g d a b x => Sys2Proof.Machine.execVxor g d a b x s
  | .vshl g d a b x => Sys2Proof.Machine.execVshl g d a b x s
  | .vshr g d a b x => Sys2Proof.Machine.execVshr g d a b x s
  | .vsar g d a b x => Sys2Proof.Machine.execVsar g d a b x s
  | .vcmpEq g m a b x => Sys2Proof.Machine.execVcmpEq g m a b x s
  | .vcmpNe g m a b x => Sys2Proof.Machine.execVcmpNe g m a b x s
  | .vcmpLt g m a b x => Sys2Proof.Machine.execVcmpLt g m a b x s
  | .vcmpLe g m a b x => Sys2Proof.Machine.execVcmpLe g m a b x s
  | .vcmpGt g m a b x => Sys2Proof.Machine.execVcmpGt g m a b x s
  | .vcmpGe g m a b x => Sys2Proof.Machine.execVcmpGe g m a b x s
  | .vcmpUn g m a b x => Sys2Proof.Machine.execVcmpUn g m a b x s
  | .vsel g d a b x => Sys2Proof.Machine.execVsel g d a b x s
  | .vbcast g d a x => Sys2Proof.Machine.execVbcast g d a x s
  | .vredAdd g d a x => Sys2Proof.Machine.execVredAdd g d a x s
  | .vredMax g d a x => Sys2Proof.Machine.execVredMax g d a x s
  | .vredMin g d a x => Sys2Proof.Machine.execVredMin g d a x s
  | .vperm g d a b x => Sys2Proof.Machine.execVperm g d a b x s
  | .vshuf g d a p x => Sys2Proof.Machine.execVshuf g d a p x s
  | .vmodadd g d a b x => Sys2Proof.Machine.execVmodadd g d a b x s
  | .vmodsub g d a b x => Sys2Proof.Machine.execVmodsub g d a b x s
  | .vmodmul g d a b x => Sys2Proof.Machine.execVmodmul g d a b x s
  | .vbfly g d a b x => Sys2Proof.Machine.execVbfly g d a b x s
  | .vibfly g d a b x => Sys2Proof.Machine.execVibfly g d a b x s
  | .vmaskAnd g m y z => Sys2Proof.Machine.execVmaskAnd g m y z s
  | .vmaskOr g m y z => Sys2Proof.Machine.execVmaskOr g m y z s
  | .vmaskXor g m y z => Sys2Proof.Machine.execVmaskXor g m y z s
  | .vmaskAndn g m y z => Sys2Proof.Machine.execVmaskAndn g m y z s
  | .vmaskNot g m y => Sys2Proof.Machine.execVmaskNot g m y s
  | .vlane g d x => Sys2Proof.Machine.execVlane g d x s
  | .vcvt g r d a x => Sys2Proof.Machine.execVcvt g r d a x s
  | .vbcastI g d imm x => Sys2Proof.Machine.execVbcastI g d imm x s
  | .vshlI g d a n x => Sys2Proof.Machine.execVshlI g d a n x s
  | .vshrI g d a n x => Sys2Proof.Machine.execVshrI g d a n x s
  | .vsarI g d a n x => Sys2Proof.Machine.execVsarI g d a n x s
  | .xbeat g sx w p r o x => Sys2Proof.Machine.execXbeat g sx w p r o x s
  | .xmode g a => Sys2Proof.Machine.execXmode g a s
  | .xzero g r => Sys2Proof.Machine.execXzero g r s
  | .xcks g d a b => Sys2Proof.Machine.execXcks g d a b s
  | .xfix g d a => Sys2Proof.Machine.execXfix g d a s
  | .xres g k => Sys2Proof.Machine.execXres g k s
  | .xwin g a => Sys2Proof.Machine.execXwin g a s
  | .xwinWake core ctx => Sys2Proof.Machine.execXwinWake core ctx s
  | .xinj g r a b => Sys2Proof.Machine.execXinj g r a b s
  | .lds g d a o x => Sys2Proof.Machine.execLds g d a o x s
  | .ldsTag g d a t => Sys2Proof.Machine.execLdsTag g d a t s
  | .sts g v a o x => Sys2Proof.Machine.execSts g v a o x s
  | .ldss g d a o x => Sys2Proof.Machine.execLdss g d a o x s
  | .stss g v a o x => Sys2Proof.Machine.execStss g v a o x s
  | .scratchpadStorePerform core ctx => Sys2Proof.Machine.execScratchpadStorePerform core ctx s
  | .bfmt g k a => Sys2Proof.Machine.execBfmt g k a s
  | .mv g d sx x => Sys2Proof.Machine.execMv g d sx x s
  | .mvi g d imm x => Sys2Proof.Machine.execMvi g d imm x s
  | .unitResultLanding core => Sys2Proof.Machine.execUnitResultLanding core s
  | .fpeek g d f => Sys2Proof.Machine.execFpeek g d f s
  | .flev g d f => Sys2Proof.Machine.execFlev g d f s
  | .lrec g k a => Sys2Proof.Machine.execLrec g k a s
  | .cpy g d l m x => Sys2Proof.Machine.execCpy g d l m x s
  | .cpyx g d l m x => Sys2Proof.Machine.execCpyx g d l m x s
  | .cpyt g a l m x => Sys2Proof.Machine.execCpyt g a l m x s
  | .timedPacketRead cl ch id => Sys2Proof.Machine.execTimedPacketRead cl ch id s
  | .timedPacketWrite cl ch id => Sys2Proof.Machine.execTimedPacketWrite cl ch id s
  | .trackedCopyStart cl ch => Sys2Proof.Machine.execTrackedCopyStart cl ch s
  | .trackedCopyElement cl ch => Sys2Proof.Machine.execTrackedCopyElement cl ch s
  | .trackedCopyComplete cl ch => Sys2Proof.Machine.execTrackedCopyComplete cl ch s
  | .cidw g a x => Sys2Proof.Machine.execCidw g a x s
  | .cidwWake core ctx => Sys2Proof.Machine.execCidwWake core ctx s
  | .cidr g d x => Sys2Proof.Machine.execCidr g d x s
  | .cinv g a x => Sys2Proof.Machine.execCinv g a x s
  | .chalt g x => Sys2Proof.Machine.execChalt g x s
  | .gload g a n => Sys2Proof.Machine.execGload g a n s
  | .groupLoadLanding pair => Sys2Proof.Machine.execGroupLoadLanding pair s
  | .gchk g d => Sys2Proof.Machine.execGchk g d s
  | .gchkVerdict pair => Sys2Proof.Machine.execGchkVerdict pair s
  | .gsel g a => Sys2Proof.Machine.execGsel g a s
  | .gorb g r a => Sys2Proof.Machine.execGorb g r a s
  | .gstat g d => Sys2Proof.Machine.execGstat g d s
  | .resultLanding core ctx => Sys2Proof.Machine.execResultLanding core ctx s
  | .contributionLanding pair => Sys2Proof.Machine.execContributionLanding pair s
  | .arrayEffectLanding pair => Sys2Proof.Machine.execArrayEffectLanding pair s
  | .gorbLanding pair => Sys2Proof.Machine.execGorbLanding pair s
  | .msend g a b => Sys2Proof.Machine.execMsend g a b s
  | .mhnd g a => Sys2Proof.Machine.execMhnd g a s
  | .wquiet g => Sys2Proof.Machine.execWquiet g s
  | .rcstat g d => Sys2Proof.Machine.execRcstat g d s
  | .collAr g d a => Sys2Proof.Machine.execCollAr g d a s
  | .collRs g d a => Sys2Proof.Machine.execCollRs g d a s
  | .collAg g d a => Sys2Proof.Machine.execCollAg g d a s
  | .collBc g d a => Sys2Proof.Machine.execCollBc g d a s
  | .bar g n => Sys2Proof.Machine.execBar g n s
  | .gbar g n => Sys2Proof.Machine.execGbar g n s
  | .barrierRelease key => Sys2Proof.Machine.execBarrierRelease key s
  | .ctrinc g a b => Sys2Proof.Machine.execCtrinc g a b s
  | .ctrwait g a b => Sys2Proof.Machine.execCtrwait g a b s
  | .counterWaitWake core ctx => Sys2Proof.Machine.execCounterWaitWake core ctx s
  | .launch g d a => Sys2Proof.Machine.execLaunch g d a s
  | .launchn g d a => Sys2Proof.Machine.execLaunchn g d a s
  | .glaunch g d a => Sys2Proof.Machine.execGlaunch g d a s
  | .launchWaitSlot core ctx => Sys2Proof.Machine.execLaunchWaitSlot core ctx s
  | .fwait g d => Sys2Proof.Machine.execFwait g d s
  | .frget g d a b => Sys2Proof.Machine.execFrget g d a b s
  | .frput g c a b => Sys2Proof.Machine.execFrput g c a b s
  | .frres g a => Sys2Proof.Machine.execFrres g a s
  | .frskip g a => Sys2Proof.Machine.execFrskip g a s
  | .frkill g a => Sys2Proof.Machine.execFrkill g a s
  | .frexc g a => Sys2Proof.Machine.execFrexc g a s
  | .wload g a => Sys2Proof.Machine.execWload g a s
  | .wloadService => Sys2Proof.Machine.execWloadService s
  | .kwipe g a => Sys2Proof.Machine.execKwipe g a s
  | .fuserd g d a => Sys2Proof.Machine.execFuserd g d a s
  | .mext g a b => Sys2Proof.Machine.execMext g a b s
  | .dbgopen g a => Sys2Proof.Machine.execDbgopen g a s
  | .nullifierSkip core ctx => Sys2Proof.Machine.execNullifierSkip core ctx s
  | .bundleSplit core parts => Sys2Proof.Machine.execBundleSplit core parts s
  | .deferredFaultRaise core ctx => Sys2Proof.Machine.execDeferredFaultRaise core ctx s
  | .preemption core ctx => Sys2Proof.Machine.execPreemption core ctx s
  | .preemptedResume core ctx => Sys2Proof.Machine.execPreemptedResume core ctx s
  | .translationWalk core => Sys2Proof.Machine.execTranslationWalk core s
  | .globalLoadLanding core ctx id => Sys2Proof.Machine.execGlobalLoadLanding core ctx id s
  | .l1Fill core line => Sys2Proof.Machine.execL1Fill core line s
  | .sealedLineFill die line ok => Sys2Proof.Machine.execSealedLineFill die line ok s
  | .bufferedAmoMerge core pa => Sys2Proof.Machine.execBufferedAmoMerge core pa s
  | .bufferedAmoTimeout core pa => Sys2Proof.Machine.execBufferedAmoTimeout core pa s
  | .crossDieWriteApply die id => Sys2Proof.Machine.execCrossDieWriteApply die id s
  | .arbiterAging id => Sys2Proof.Machine.execArbiterAging id s
  | .launchPlacement slot => Sys2Proof.Machine.execLaunchPlacement slot s
  | .completionTreeReport launch level node => Sys2Proof.Machine.execCompletionTreeReport launch level node s
  | .launchComplete launch => Sys2Proof.Machine.execLaunchComplete launch s
  | .messageTransmit core => Sys2Proof.Machine.execMessageTransmit core s
  | .linkFlitRetry link => Sys2Proof.Machine.execLinkFlitRetry link s
  | .messageArrival core job hdr payload => Sys2Proof.Machine.execMessageArrival core job hdr payload s
  | .handlerPlacement core => Sys2Proof.Machine.execHandlerPlacement core s
  | .windowWriteArrival job wtag pa size val => Sys2Proof.Machine.execWindowWriteArrival job wtag pa size val s
  | .packetAcknowledge id => Sys2Proof.Machine.execPacketAcknowledge id s
  | .endToEndRetransmit id lost => Sys2Proof.Machine.execEndToEndRetransmit id lost s
  | .repairNoticeApply die job => Sys2Proof.Machine.execRepairNoticeApply die job s
  | .rollCallWave wave => Sys2Proof.Machine.execRollCallWave wave s
  | .rollCallPass2 wave => Sys2Proof.Machine.execRollCallPass2 wave s
  | .rollCallVerdict die wave job quiet sumi => Sys2Proof.Machine.execRollCallVerdict die wave job quiet sumi s
  | .gangArm src wtag depth rec job npkg index => Sys2Proof.Machine.execGangArm src wtag depth rec job npkg index s
  | .gangArmAck slot index ok => Sys2Proof.Machine.execGangArmAck slot index ok s
  | .gangArmTimeout slot => Sys2Proof.Machine.execGangArmTimeout slot s
  | .gangGo src job => Sys2Proof.Machine.execGangGo src job s
  | .gangGoAck slot index => Sys2Proof.Machine.execGangGoAck slot index s
  | .gangGoTimeout slot => Sys2Proof.Machine.execGangGoTimeout slot s
  | .gangIncompleteNotice job index count slot => Sys2Proof.Machine.execGangIncompleteNotice job index count slot s
  | .collRingStep slot chunk phase bitmap flags data => Sys2Proof.Machine.execCollRingStep slot chunk phase bitmap flags data s
  | .collJoinTimeout slot => Sys2Proof.Machine.execCollJoinTimeout slot s
  | .collRingTimeout slot chunk => Sys2Proof.Machine.execCollRingTimeout slot chunk s
  | .collComplete slot => Sys2Proof.Machine.execCollComplete slot s
  | .hostRegisterWrite tdi off val => Sys2Proof.Machine.execHostRegisterWrite tdi off val s
  | .launchWindowWrite tdi slot off val => Sys2Proof.Machine.execLaunchWindowWrite tdi slot off val s
  | .launchClaim tdi slot => Sys2Proof.Machine.execLaunchClaim tdi slot s
  | .hinv tdi page val => Sys2Proof.Machine.execHinv tdi page val s
  | .preempt tdi page val => Sys2Proof.Machine.execPreempt tdi page val s
  | .svstartGo tdi page die k val => Sys2Proof.Machine.execSvstartGo tdi page die k val s
  | .svstartStop tdi page die k => Sys2Proof.Machine.execSvstartStop tdi page die k s
  | .jobEntryWrite tdi index val => Sys2Proof.Machine.execJobEntryWrite tdi index val s
  | .windowEntryWrite tdi index val => Sys2Proof.Machine.execWindowEntryWrite tdi index val s
  | .pcapWrite val => Sys2Proof.Machine.execPcapWrite val s
  | .powerWindowEnd draw tj => Sys2Proof.Machine.execPowerWindowEnd draw tj s
  | .getVersion session data => Sys2Proof.Machine.execGetVersion session data s
  | .getCapabilities session data => Sys2Proof.Machine.execGetCapabilities session data s
  | .negotiateAlgorithms session data => Sys2Proof.Machine.execNegotiateAlgorithms session data s
  | .getDigests session data => Sys2Proof.Machine.execGetDigests session data s
  | .getCertificate session data => Sys2Proof.Machine.execGetCertificate session data s
  | .challenge session data => Sys2Proof.Machine.execChallenge session data s
  | .getMeasurements session data => Sys2Proof.Machine.execGetMeasurements session data s
  | .keyExchange session data => Sys2Proof.Machine.execKeyExchange session data s
  | .finish session => Sys2Proof.Machine.execFinish session s
  | .endSession session => Sys2Proof.Machine.execEndSession session s
  | .bind session w => Sys2Proof.Machine.execBind session w s
  | .keyImage session key => Sys2Proof.Machine.execKeyImage session key s
  | .keyEval session va expect blob => Sys2Proof.Machine.execKeyEval session va expect blob s
  | .lockInterfaceRequest session w => Sys2Proof.Machine.execLockInterfaceRequest session w s
  | .startInterfaceRequest session w => Sys2Proof.Machine.execStartInterfaceRequest session w s
  | .stopInterfaceRequest session w => Sys2Proof.Machine.execStopInterfaceRequest session w s
  | .tdispOtherRequest session w => Sys2Proof.Machine.execTdispOtherRequest session w s
  | .worldTeardown w => Sys2Proof.Machine.execWorldTeardown w s
  | .coldReset fwOk => Sys2Proof.Machine.execColdReset fwOk s
  | .hotReset => Sys2Proof.Machine.execHotReset s
  | .linkDown => Sys2Proof.Machine.execLinkDown s
  | .illegalEncoding => Sys2Proof.Machine.execIllegalEncoding s
  | .writePerform core ctx id => Sys2Proof.Machine.execWritePerform core ctx id s
  | .dirtySectorWriteBack die sector => Sys2Proof.Machine.execDirtySectorWriteBack die sector s
  | .frgetFrputComplete core ctx => Sys2Proof.Machine.execFrgetFrputComplete core ctx s
  | .registrarAnswer core => Sys2Proof.Machine.execRegistrarAnswer core s
  | .hostRegisterRead tdi off => Sys2Proof.Machine.execHostRegisterRead tdi off s
  | .crebyLinkLost link => Sys2Proof.Machine.execCrebyLinkLost link s
  | .crebyLinkTrained link => Sys2Proof.Machine.execCrebyLinkTrained link s

end Sys2Proof.Machine
end

