-- ==== Sys2Proof/Machine/Cycle.lean ====
section
/-! DEFINITION. How the machine runs: the fetch of a bundle, its operations in slot order, its fault check point, the issue turn of a
core, and the CYC cycle (R15, R36, R45 to R60, R135, R140 to R145, R256, R332, R355). -/

namespace Sys2Proof.Machine

-- ## Fetch (R29, R131, R402)

/-- The four words at `pc` as a context fetches them, or the fault that the fetch meets with its detail (R131, R356). -/
def State.fetch (s : State) (c x pc : Nat) : Except (Nat × Word × Word) (List (BitVec 32)) :=
  let w := s.worldOf c x
  let bad := fun (l g q : Nat) => (causeFault q, BitVec.ofNat 64 (pc % 2 ^ 57), src 4 (walkDetail l g 0 q))
  match (match s.tlbFetch c x pc w with | some e => Tr.ok e | none => s.walk1 (dieOf c) w pc) with
  | .bad l g q => .error (bad l g q)
  | .ok e =>
    match s.judge e pc 4 w (s.isMgmt c x) with
    | some (l, g, q) => .error (bad l g q)
    | none =>
      let pa := e.phys pc
      match s.badLine e.wtag pa 16 with
      | some l => .error (fWORLD, BitVec.ofNat 64 (pc % 2 ^ 57), lineDetail l)
      | none =>
        let bs := if isRegPage pa then s.regRead (pa % 2 ^ 32) 16 else s.viewRead (dieOf c) w pa 16
        .ok ((List.range 4).map fun i => BitVec.ofNat 32 (leNat ((bs.drop (4 * i)).take 4)))

/-- May the fetch of the bundle at `pc` read now? As a .fresh load, its walk waits for the buffered updates of the entries' lines, and its
read at the die's L2 for those of the bundle's own line (R311, R317). -/
def State.fetchClear (s : State) (c x pc : Nat) : Bool :=
  let w := s.worldOf c x
  let line := fun (e : TlbEntry) => s.lineClear (dieOf c) (e.phys pc) 16 1024 0 (s.cyc + 1)
  s.cores.all (fun q => q.2.amo.isEmpty) ||
  (match s.tlbFetch c x pc w with
    | some e => line e
    | none => s.walkClear (dieOf c) w pc && (match s.walk1 (dieOf c) w pc with | .ok e => line e | .bad _ _ _ => true))

def bundleOf (ws : List (BitVec 32)) : Bundle := decodeBundle (ws.getD 0 0) (ws.getD 1 0) (ws.getD 2 0) (ws.getD 3 0)

-- ## What a bundle waits for before it issues (R46, R315), and its parts (R56)

/-- Has the register a global load, AMO or CAS to land (R315)? -/
def State.pending (s : State) (vec : Bool) (slot : Nat) : Bool :=
  s.curCore.access.any fun a => a.of s.iss.ctx s.cur.gen && a.landing && decide (a.dest = some (vec, slot))
/-- The register that FRGET and FRPUT name in f1, vector by the item in s_b (R367). -/
def State.f1Reg (s : State) : Instr → Option (Bool × Nat)
  | .frget _ d _ b => some (selVec (s.rdS b).toNat, d.toNat)
  | .frput _ c _ b => some (selVec (s.rdS b).toNat, c.toNat)
  | _ => none
/-- Does the operation read or name a register whose load has still to land? -/
def State.opWaits (s : State) (i : Instr) : Bool :=
  let sPend := fun (r : Nat) => decide (r < 48) && s.pending false (s.slotS r)
  let vPend := fun (r : Nat) => decide (r < 48) && s.pending true (s.slotV r)
  s.guardOn i && (i.sregs.any sPend || i.vregs.any vPend || (match s.f1Reg i with
    | some (v, r) => if v then vPend r else sPend r
    | none => false))

/-- Does an operation of the bundle? -/
def State.bundleWaits (s : State) (b : Bundle) : Bool := b.slots.any fun q => (s.modIss fun i => { i with pos := q.1 }).opWaits q.2

/-- Does the class keep both its instances on a core with this SEATMAP (R81)? -/
def seated (seat cl : Nat) : Bool :=
  if cl = 2 then decide (bits seat 1 0 = 3) else if cl = 5 then decide (bits seat 3 2 = 3) else if cl = 8 then decide (bits seat 5 4 = 3) else true
/-- In how many parts a bundle issues (R56). DESIGN CHOICE (log 100): a word that is no instruction has no class of its own and begins no part. -/
def partsOf (seat : Nat) (ops : List Instr) : Nat :=
  let add := fun (acc : List Nat × Nat) (i : Instr) =>
    let cl := classOf i.cls
    if !seated seat cl && acc.1.contains cl then ([cl], acc.2 + 1) else (cl :: acc.1, acc.2)
  (ops.foldl add ([], 1)).2

-- ## The bundle in issue (R45, R46, R57)

/-- Is the word an operation word: neither a NOP nor a header word (R35, R36)? -/
def isOpWord (w : BitVec 32) : Bool := decide (w ≠ 0) && !isHeader w
/-- The slot positions of a bundle's operation words (R36). -/
def opPlaces (ws : List (BitVec 32)) : List Nat := (bundleOf ws).places.filter fun p => isOpWord (ws.getD p 0)

/-- The bundle with these words is in issue. -/
def State.begin (s : State) (c x addr : Nat) (ws : List (BitVec 32)) : State :=
  let b := bundleOf ws
  { s with iss := { core := c, ctx := x, addr := addr, words := ws, hdr := b.hdr.isSome, c := (b.hdr.map (·.c)).getD false,
                    pos := (opPlaces ws).headD b.firstOp, acc := (s.core c).nextAccess, allocS := (s.ctx c x).allocS, allocV := (s.ctx c x).allocV } }

/-- The state as a held or split bundle reads it: registers, ports and cycle counts of its first issue cycle (R46, R57). The array's FIFOs
and ARRMODE of that cycle are `issueArr`; the rest of the array is met as it stands, in the last issue cycle (log 61). -/
def State.viewOf (s : State) (c x : Nat) : State :=
  match (s.core c).first with
  | none => s
  | some f =>
    let live := s.ctx c x
    s.modCore c fun k =>
      { k with ccyc := f.ccyc, ports := f.ports }.modCtx x fun _ => { f.ctx with flight := live.flight, pass := live.pass }

/-- What a held or split bundle did, upon the state as it stands now: `pre` before it. -/
def State.merge (pre t : State) (c x : Nat) : State :=
  match (pre.core c).first with
  | none => t
  | some _ =>
    let live := pre.ctx c x
    let out := fun (a : Nat) => (List.range 48).filter fun r => decide (a ≤ r)
    let joined := fun (y : Ctx) =>
      { live with flight := y.flight, allocS := y.allocS, allocV := y.allocV, pass := y.pass,
                  sreg := if t.iss.allot then (out t.iss.allocS).foldl NMap.erase live.sreg else live.sreg,
                  vreg := if t.iss.allot then (out t.iss.allocV).foldl NMap.erase live.vreg else live.vreg }
    t.modCore c fun k => { k with ccyc := (pre.core c).ccyc, ports := (pre.core c).ports }.modCtx x joined

/-- The operations in slot order; none after one that the core holds at the check point. -/
def runOps : List (Nat × Instr) → State → Out3
  | [], s => .next s
  | (p, i) :: rest, s =>
    match exec i (s.modIss fun j => { j with pos := p }) with
    | .next t =>
      let u := t.modIss fun j => { j with ops := j.ops ++ [i] }
      if u.iss.held then .next u else runOps rest u
    | o => o

-- ## The fault check point (R48, R49, R140, R143)

/-- The core's bundle is no longer held. -/
def State.release (s : State) (c : Nat) : State :=
  { s.modCore c fun k => { k with first := none, walk := none, failed := [] } with
    asks := s.asks.filter fun a => decide (a.core ≠ c), regq := s.regq.filter fun r => decide (r ≠ .dbgopen c) }

/-- A bundle that is held: nothing of it takes effect, and what it asked for stays asked (R46, R414), as do the merges that a release of its own
waits for (R317, R343). -/
def State.hold (before t : State) (c x : Nat) : State :=
  let pre := if t.iss.rel then before.askMerges c fun _ => true else before
  let asks := if pre.asks.any fun a => decide (a.core = c) then pre.asks else t.asks
  let regq := if t.regq.contains (.dbgopen c) && !pre.regq.contains (.dbgopen c) then pre.regq ++ [.dbgopen c] else pre.regq
  ({ pre with picks := t.picks, asks := asks, regq := regq, iss := t.iss }.keepFirst c x).modCore c fun k => { k with walk := (t.core c).walk }

/-- A context that was held stands again as at its bundle's first issue cycle, whose core cycle is F (R50, R51): `f` is what it was then.
What landed in the hold lands again on resume; stores that have performed, exception records and the data of loads stay. -/
def Ctx.backTo (y f : Ctx) (t : Nat) : Ctx :=
  let z := y.snap t
  let again := f.flight.filter fun g => decide (g.eff ≠ .note) && !((match g.eff with | .store _ _ _ => true | _ => false) && decide (g.due ≤ y.clk))
  let sLands := fun (n : Nat) => f.flight.any fun g => match g.eff with | .sreg (some m) _ => decide (m = n) | _ => false
  let vLands := fun (n : Nat) => f.flight.any fun g => match g.eff with
    | .vreg (some m) _ => decide (m = n)
    | .vplain m _ => decide (m = n)
    | _ => false
  { z with
    clk := f.clk, latch := f.latch, flight := again.map fun g => { g with causes := 0 }
    sreg := (List.range 48).foldl (fun m n => if sLands n then NMap.set m n (f.sAt n) else m) y.sreg
    vreg := (List.range 48).foldl (fun m n => if vLands n then NMap.set m n (f.vAt n) else m) y.vreg
    q := f.q, mask := f.mask, cond := f.cond, target := f.target, prep := f.prep, md := f.md, mdrcp := f.mdrcp, rnd := f.rnd
    lrec := f.lrec, defer := f.defer, cursor := f.cursor, prio := f.prio }

/-- Has a DBGOPEN of the bundle been refused by one of its six checks, which replaces the nonce (R419)? -/
def refusedToken (fs : List (Nat × Nat × Word × Word)) : Bool := fs.any fun f => decide (f.2.1 = fPERM) && decide (f.2.2.2 = src 2 6)
/-- A bundle that faults (R49, R355): nothing of it takes effect but its faults, a refused token's new nonce among them; the translations made for
it are gone (R312). -/
def State.take (pre t : State) (c x : Nat) : State :=
  let fs := t.iss.faults
  let back := match (pre.core c).first with
    | some f => pre.modCtx c x fun y => y.backTo f.ctx (pre.core c).ccyc
    | none => pre
  let s1 := { back with picks := t.picks, nonce := if refusedToken fs then t.nonce else pre.nonce, draws := t.draws, iss := t.iss }.release c
  let s2 := s1.modCore c fun k => { k with tlb := k.tlb.filter fun e => !e.fresh }
  let s3 := fs.foldl (fun u f => (u.dropFlagged f).logBad ⟨some c, some x, some (pre.worldOf c x)⟩ f.2.1 f.2.2.2) s2
  (s3.freeze fs false false).modCtx c x fun y => { y with null := [] }

/-- A fault that the fetch of the bundle at `pc` meets (R131). DESIGN CHOICE (log 83): its code stands at slot position 0, and the record holds
no words. -/
def State.fetchFault (s : State) (c x pc : Nat) (f : Nat × Word × Word) : State :=
  let t := { s with iss := { core := c, ctx := x, addr := pc, allocS := (s.ctx c x).allocS, allocV := (s.ctx c x).allocV } }
  t.take { t with iss := { t.iss with faults := [(0, f.1, f.2.1, f.2.2)] } } c x

/-- The levels that a taken BR to `target` pops are gone (R135). -/
def Ctx.popFor (x : Ctx) (target : Nat) : Ctx :=
  let holds := fun (l : Level) => decide (l.first ≤ target) && decide (target ≤ l.last)
  match x.loops with
  | [] => x
  | l :: ls =>
    if holds l then x
    else
      let keep := ls.filter holds
      let rot := (l :: ls).any fun m => m.rot && !keep.contains m
      { x with loops := keep, q := if rot then x.q &&& 0x00FF else x.q }

/-- LBRK's pop, and the next address (R142). -/
def Ctx.breakLoop (x : Ctx) (a : Nat) : Ctx × Nat :=
  match x.loops with
  | [] => (x, a + 16)
  | l :: ls => ({ x with loops := ls, q := if l.rot then x.q &&& 0x00FF else x.q }, l.last + 16)

/-- A level begun (R139). -/
def Ctx.enter (x : Ctx) (l : Level) : Ctx :=
  if l.rot then { x with loops := l :: x.loops, rrbS := 0, rrbV := 0, q := (x.q &&& 0x00FF) ||| 0x0100 } else { x with loops := l :: x.loops }

/-- Where the context goes after a bundle, with its loop levels (R135, R136, R139, R140, R142). -/
def Ctx.route (x : Ctx) (i : Iss) : Ctx × Nat :=
  if i.lbrk then x.breakLoop i.addr
  else match i.push with
    | some l => (x.enter l, i.addr + 16)
    | none =>
      let r := x.boundary i.addr x.loops
      match i.xfer with
      | none => r
      | some t => (if t.pops then r.1.popFor t.target else r.1, t.target)

/-- The guards an operation writes (R53, R124, R125, R139). -/
def guardsOf (i : Instr) : List Nat :=
  let c := fun (c : Code) => if c.toNat < 16 then [] else [c.toNat - 16]
  match i with
  | .ceq _ d _ _ => c d
  | .cne _ d _ _ => c d
  | .clt _ d _ _ => c d
  | .cltu _ d _ _ => c d
  | .cle _ d _ _ => c d
  | .cleu _ d _ _ => c d
  | .ceqi _ d _ _ _ => c d
  | .clti _ d _ _ _ => c d
  | .qset _ d _ => c d
  | .qand _ d _ _ => c d
  | .qor _ d _ _ => c d
  | .qnot _ d _ => c d
  | .loopr _ _ _ _ => [8, 9, 10, 11, 12, 13, 14, 15]
  | _ => []

/-- Does fetch decide, as the bundle `b2` at `addr` issues, to skip the bundle two ahead (R53)? `x` is the context at that issue. A bundle
that fetch cannot read yet it has not seen. -/
def State.skipAhead (s : State) (c n : Nat) (x : Ctx) (addr : Nat) (b2 : Bundle) (push : Option Level) : Bool :=
  let levels := push.toList ++ x.loops
  if levels.any fun l => decide (l.last = addr ∨ l.last = addr + 16 ∨ l.last = addr + 32) then false
  else if !(s.fetchClear c n (addr + 32) && s.fetchClear c n (addr + 16)) then false
  else match s.fetch c n (addr + 32), s.fetch c n (addr + 16) with
    | .ok w, .ok w1 =>
      let b := bundleOf w
      -- a word that is no instruction has its guard field all the same
      let gs := (opPlaces w).map fun p => ((w.getD p 0).extractLsb' 24 4).toNat
      let near := b2.ops ++ (if x.null.contains (addr + 16) then [] else (bundleOf w1).ops)
      let flying := fun (g : Nat) => x.flight.any fun f => match f.eff with | .guardReg q _ => decide (q = g) | _ => false
      (match b.hdr with | some h => h.e && !h.y | none => false) && !gs.isEmpty &&
        gs.all fun g => decide (g ≠ 0) && !x.guardAt g && !flying g && !near.any fun i => (guardsOf i).contains g
    | _, _ => false

/-- The context begins the waits that its bundle asked for; those that hold already end at once (R145, R321, R349). -/
def State.beginWaits (s : State) (c x : Nat) (ws : List Wait) : State :=
  if ws = [] then s
  else
    let s1 := s.modCtx c x fun y => { y with st := .wait ws }
    let s2 := s1.endWait c x fun w => match w with | .cyc t => decide (t ≤ s1.cyc) | w => s1.fenceOver c x w
    let hit := fun (w : Wait) => match w with | .ctr _ _ _ h => h | _ => false
    if (s2.ctx c x).waits.any hit then s2.endWaitAcq c x hit else s2

/-- The check point of a bundle that does not fault: `s` holds its effects, and `old` the context at its issue (R48, R140, R143). DESIGN CHOICE
(log 104): the bubbles of a transfer that a yield bundle takes run down while other contexts issue (R132, R143). -/
def State.checkPoint (s : State) (c x : Nat) (b : Bundle) (old : Ctx) : State :=
  let i := s.iss
  let s0 := (s.release c).modCore c fun k => { k with tlb := k.tlb.map fun e => { e with fresh := false } }
  let s1 := s0.commitFifos c
  if i.done then s1.finishTask c x
  else
    let y := s1.ctx c x
    let r := y.route i
    let yields := i.yield || (match b.hdr with | some h => h.y | none => false)
    let ended := i.push.isNone && y.loops.any fun l => decide (l.last = i.addr)
    let broken := yields || i.xfer.isSome || i.lbrk || ended
    let skip := !broken && s1.skipAhead c x old i.addr b i.push
    let y1 : Ctx := { r.1 with
      pc := r.2
      issued := y.issued + 1
      stall := match i.xfer with | some t => t.bubbles + 1 | none => 0
      null := if broken then [] else y.null ++ (if skip then [i.addr + 32] else [])
      latch := if yields then [] else y.latch
      yielded := if yields then some y.clk else y.yielded
      wb := if i.wait = [] then y.wb else (i.addr, i.words) }
    let s2 := s1.modCtx c x fun _ => if i.allot then y1.cancel else y1
    let s3 := if i.allot then s2.modCore c fun k => k.voidLoads x else s2
    let s4 := s3.beginWaits c x i.wait
    if yields then s4.modCore c fun k => k.reschedule x else s4

/-- The end of a bundle's issue: held, faulting, or past its check point. -/
def State.close (pre t : State) (c x : Nat) (b : Bundle) : State :=
  if t.iss.held then pre.hold t c x
  else if t.iss.faults ≠ [] then pre.take t c x
  else (pre.merge t c x).checkPoint c x b ((pre.viewOf c x).ctx c x)

-- ## The issue turn of a core (R46, R53, R58, R143, R332, R356)

def thenNext (o : Out3) (f : State → State) : Out3 :=
  match o with
  | .next s => .next (f s)
  | .fault r => .fault r
  | .refused r => .refused r

/-- The bundle with words `ws` of context `x` issues, or its next part does, or it is held on. -/
def State.issueWords (s : State) (c x addr : Nat) (ws : List (BitVec 32)) : Out3 :=
  let b := bundleOf ws
  let fresh := (s.core c).first.isNone
  let v := (s.viewOf c x).begin c x addr ws
  let n := partsOf (s.core c).seat.toNat b.ops
  if fresh && v.bundleWaits b then .next s
  else
    let pre := if fresh then s.modCtx c x fun y => { y with snapped := false } else s
    let u := (pre.viewOf c x).begin c x addr ws
    if fresh && decide (1 < n) then exec (.bundleSplit c n) { pre with iss := u.iss }
    else if u.cur.deferred ≠ [] then
      thenNext (exec (.deferredFaultRaise c x) { (pre.release c) with iss := u.iss }) fun t => t.modCtx c x fun y => { y with null := [] }
    else thenNext (runOps b.slots u) fun t => pre.close t c x b

/-- The next bundle of context `x`: fetched, or the one that is held. A fetch waits for buffered updates of the table entries and of the line
that it reads (R311, R317). -/
def State.issueNext (s : State) (c x : Nat) : Out3 :=
  let pc := (s.ctx c x).pc
  match (s.core c).first with
  | some f => s.issueWords c x pc f.words
  | none =>
    if !s.fetchClear c x pc then .next s
    else match s.fetch c x pc with
      | .ok ws => s.issueWords c x pc ws
      | .error f => .next (s.fetchFault c x pc f)

/-- The other core of a pair. -/
def partner (c : Nat) : Nat := if c % 2 = 0 then c + 1 else c - 1
/-- Does the core hold for its partner's split in this cycle (R58)? -/
def State.partnerHolds (s : State) (c : Nat) : Bool :=
  !isSupervisor c && decide ((s.arr (pairOf c)).mode = 2) && (s.core (partner c)).held
/-- Does no core cycle pass on the core in this CYC cycle (R57, R58)? -/
def State.stopped (s : State) (c : Nat) : Bool := (s.core c).held || s.partnerHolds c

/-- The core gives its slots to a ready context, where the one that has them does not hold them. DESIGN CHOICE (log 103): of several that have
become ready in one cycle the priority decides, then the order after the last holder (R143). -/
def State.settleRun (s : State) (c : Nat) : State :=
  match (s.core c).run with
  | some x => if ((s.core c).ctx x).holdsSlots then s else s.modCore c fun k => k.reschedule x
  | none => s.modCore c fun k => k.reschedule k.lastRun

/-- Another look at the core's issue in the same cycle. -/
def State.again (s : State) (c : Nat) : State := { s with turn := .issue c :: s.turn }

/-- What core `c` does with its issue slots in this CYC cycle. Its own split goes on whatever its partner does; else its partner's holds it
(R58). A core of a world in teardown issues nothing (R410). -/
def State.issueTurn (s : State) (c : Nat) : Out3 :=
  let k := s.core c
  if s.shut c || k.held && decide (0 < k.hold) || !k.held && s.partnerHolds c then .next s
  else match k.run with
    | none => .next s
    | some x =>
      let y := k.ctx x
      if k.first.isNone && k.preempts x then thenNext (exec (.preemption c x) s) fun t => t.again c
      else if !y.st.isReady || decide (0 < y.stall) || y.spilled then .next s
      else if k.first.isNone && y.skips then thenNext (exec (.nullifierSkip c x) s) fun t => t.again c
      else s.issueNext c x

-- ## The CYC cycle (R15, R57, R58, R198, R256)

/-- A core cycle of a context: the clock of a stopped one stands (R51). -/
def Ctx.advance (x : Ctx) : Ctx :=
  if x.snapped then x
  else { x with clk := x.clk + 1, stall := x.stall - 1, latch := x.latch.filter fun l => decide (x.clk + 1 ≤ l.at_ + 3) }
def Core.advance (k : Core) : Core :=
  let f := fun (q : Nat × Ctx) => (q.1, q.2.advance)
  { k with ccyc := k.ccyc + 1, ctxs := k.ctxs.map f }
/-- The split cycles of a core go on. -/
def Core.splitOn (k : Core) : Core := { k with held := decide (0 < k.hold), hold := k.hold - 1 }

/-- Is the pair held in this CYC cycle (R256)? In single-owner mode the owner's split cycles hold the array. -/
def State.arrHeld (s : State) (p : Nat) : Bool :=
  let a := s.arr p
  if a.mode = 2 then (s.core (2 * p)).held || (s.core (2 * p + 1)).held else (s.core (2 * p + a.mode)).held

/-- The clocks of the next CYC cycle. -/
def State.clocks (s : State) : State :=
  let split := fun (q : Nat × Core) => (q.1, q.2.splitOn)
  let s1 := { s with cyc := s.cyc + 1, cores := s.cores.map split }
  let go := fun (q : Nat × Core) => (q.1, if s1.stopped q.1 then q.2 else q.2.advance)
  let turn := fun (q : Nat × Arr) => (q.1, if s1.arrHeld q.1 then q.2 else { q.2 with clk := q.2.clk + 1 })
  { s1 with cores := s1.cores.map go, arrs := s1.arrs.map turn }

/-- The landing of an array effect. -/
def landingOf (p : Nat) (e : AEff) : Instr :=
  if isContrib e then .contributionLanding p
  else if isOrb e then .gorbLanding p
  else if isGroupLoad e then .groupLoadLanding p
  else if isVerdict e then .gchkVerdict p
  else .arrayEffectLanding p

def State.allTimed (s : State) : List (Nat × Nat × Timed) :=
  s.clusters.flatMap fun (cl, k) => k.ch.flatMap fun (n, h) => h.timed.map fun t => (cl, n, t)
def State.everyCtx (s : State) : List (Nat × Nat × Ctx) := s.cores.flatMap fun (c, k) => k.ctxs.map fun p => (c, p.1, p.2)

/-- What lands and is written in the cycle: arrays, timed copies' writes, results, units, stores (R198, R234, R268). -/
def State.landings (s : State) : List Instr :=
  (s.arrs.flatMap fun (p, a) =>
    (a.flight.filter fun f => decide (f.due ≤ a.clk) && !isRead f.eff).map fun f => landingOf p f.eff) ++
  (s.allTimed.filterMap fun (cl, n, t) =>
    if t.wrote < t.read ∧ t.t + t.wrote + t.dly ≤ s.cyc then some (.timedPacketWrite cl n t.id) else none) ++
  (s.everyCtx.filterMap fun (c, x, k) =>
    if k.flight.any k.lands || k.recs.any fun f => decide (f.due ≤ (s.core c).ccyc) then some (.resultLanding c x) else none) ++
  ([0, 1].flatMap fun p =>
    (s.cores.filterMap fun (c, k) => if k.flight.any (k.unitDue (decide (p = 1))) then some (.unitResultLanding c) else none) ++
    (s.everyCtx.filterMap fun (c, x, k) => if k.flight.any (k.storeDue p) then some (.scratchpadStorePerform c x) else none))

/-- What reads in the cycle, after its writes (R198, R234, R285). -/
def State.cycleReads (s : State) : List Instr :=
  (s.arrs.filterMap fun (p, a) =>
    if a.flight.any fun f => decide (f.due ≤ a.clk) && isRead f.eff then some (.groupLoadLanding p) else none) ++
  (s.allTimed.filterMap fun (cl, n, t) =>
    if t.read < t.packets ∧ t.t + t.read ≤ s.cyc then some (.timedPacketRead cl n t.id) else none)

/-- Waits and time limits of the cycle (R26, R145, R243, R259, R317). -/
def State.cycleWakes (s : State) : List Instr :=
  (s.everyCtx.flatMap fun (c, x, k) => k.waits.filterMap fun w => match w with
    | .cyc t => if t ≤ s.cyc then some (.waitcWake c x) else none
    | .win n => if (s.arr (pairOf c)).atWin n && !s.arrHeld (pairOf c) then some (.xwinWake c x) else none
    | .cid ch id => if (s.chan (clusterOf c) ch).covered id then some (.cidwWake c x) else none
    | _ => none) ++
  (s.cores.flatMap fun (c, k) =>
    ((k.amo.filter fun b => decide (b.since + 65536 ≤ s.cyc)).map fun b => .bufferedAmoTimeout c b.pa) ++
    ((k.fills.filter fun f => decide (f.cls = 3 ∧ f.since + 8192 ≤ s.cyc)).map fun f => .arbiterAging (agingId (.l1Fill c f.line)))) ++
  (s.paths.flatMap fun p => (p.2.filter fun r => decide (r.cls = 3 ∧ r.since + 8192 ≤ s.cyc)).map fun r => .arbiterAging (agingId r.what))

/-- Barriers whose release has come (R350): what they release may issue in this cycle. -/
def State.releases (s : State) : List Instr :=
  s.launches.flatMap fun (l, v) => v.barriers.filterMap fun (j, b) =>
    match b.release with
    | some t => if t ≤ s.cyc then some (.barrierRelease (l * 2 ^ 64 + j)) else none
    | none => none

/-- The cores that have something to issue. -/
def State.busyCores (s : State) : List Nat :=
  (s.cores.filter fun q => q.2.ctxs.any fun p => decide (p.2.st ≠ .free)).map (·.1)

/-- The package's clock takes the first step that a window has decided, at a bundle boundary of every core (R19); the window after it logs the
step (R429). One window holds one step: of two that no such edge came between, the second waits for the next window (R428; log 12). -/
def State.reclock (s : State) : State :=
  match s.clkSteps with
  | [] => s
  | (clk, draw) :: rest =>
    if s.stepped.isSome || s.cores.any fun q => q.2.first.isSome then s
    else { s with clk := clk, clkSteps := rest, stepped := some (clk, draw) }

/-- The next CYC cycle begins: the clocks advance, and what the cycle does is laid out. Idle cores choose before any core issues: a
context that another core makes ready in this cycle issues in the next one (R143). -/
def State.tick (s : State) : State :=
  let t := s.offerAll.reclock.clocks.gcAccess
  { t with turn := (t.landings ++ t.cycleReads ++ t.cycleWakes ++ t.releases).map .ev ++ t.busyCores.map .settle ++ t.busyCores.map .issue }

-- ## What may happen between cycles (R7)

/-- What may end the waits of a context. -/
def State.wakesOf (s : State) (c x : Nat) (w : Wait) : List Instr :=
  match w with
  | .fence k n => if s.fenceOver c x (.fence k n) then [.fenceWaitEnd c x] else []
  | .ctr _ _ _ true => [.counterWaitWake c x]
  | .ctrRead _ _ _ _ => [.counterWaitWake c x]
  | .slot _ _ _ _ => [.launchWaitSlot c x]
  | .frget _ _ _ => [.frgetFrputComplete c x]
  | .frput _ _ _ => [.frgetFrputComplete c x]
  | _ => []

/-- A core's own events: walks, accesses, buffered AMOs, lists, fills, messages, waits. -/
def State.coreEvents (s : State) (c : Nat) (k : Core) : List Instr :=
  (match k.walk with | some _ => [.translationWalk c] | none => if k.prefs.isEmpty then [] else [.translationWalk c]) ++
  (k.access.flatMap fun a =>
    (if a.landing then [.globalLoadLanding c a.ctx a.id] else []) ++
    (if !a.done && decide (1 ≤ a.kind ∧ a.kind ≤ 4) then [.writePerform c a.ctx a.id] else [])) ++
  k.amo.map (fun b => .bufferedAmoMerge c b.pa) ++ (if k.lists.isEmpty then [] else [.unitResultLanding c]) ++ k.fills.map (fun f => .l1Fill c f.line) ++
  (if k.sendq.isEmpty then [] else [.messageTransmit c]) ++ (if k.inq.isEmpty then [] else [.handlerPlacement c]) ++
  (k.ctxs.flatMap fun (x, y) => y.waits.flatMap fun w => s.wakesOf c x w) ++
  ((k.ctxs.filter fun p => decide (0 < p.2.unspilled)).map fun p => .preemption c p.1) ++
  (match k.run with | some x => if (k.ctx x).spilled then [.preemptedResume c x] else [] | none => [])

/-- The events of a die's memory: another die's writes, and sectors that leave the L2. -/
def dieEvents (d : Nat) (k : Die) : List Instr :=
  (k.inq.map fun w => .crossDieWriteApply d w.id) ++
  (((k.view.map fun (q : Host.Cell) => q.1 / 16) ++ k.marks.map fun q => q.1).dedup.map fun a => .dirtySectorWriteBack d a)

/-- The events of a channel's tracked copies. -/
def chanEvents (cl n : Nat) (h : Channel) : List Instr :=
  (if h.queue.isEmpty then [] else [.trackedCopyStart cl n]) ++
  (if h.run.isSome then [.trackedCopyElement cl n, .trackedCopyComplete cl n] else [])

/-- A launch's own events. -/
def launchEvents (l : Nat) (v : Launch) : List Instr :=
  ((v.coreCnt.filter fun q => decide (q.2 = 0)).map fun q => .completionTreeReport l 0 q.1) ++
  ((v.clCnt.filter fun q => decide (q.2 = 0)).map fun q => .completionTreeReport l 1 q.1) ++
  ((v.dieCnt.filter fun q => decide (q.2 = 0)).map fun q => .completionTreeReport l 2 q.1) ++ [.launchComplete l]

-- ## What the interface does of its own about a packet (R372, R376, R381, R385)

/-- Must packet `p` arrive before packet `q` (R376, R381)? -/
def Packet.before (p q : Packet) : Bool :=
  decide (p.id < q.id ∧ p.kind = q.kind ∧ p.node = q.node ∧ p.stream = q.stream) && !(p.lost || p.arrived) &&
    (decide (p.kind = 0) || decide (p.pa = q.pa))

/-- The number of the fabric interface, and of the launch arbiter, among the sources of a path (R25; log 11). -/
def fabricSrc : Nat := 2 ^ 17
def arbiterSrc : Nat := 3072

/-- Has the package itself room for a packet that it sent to itself (R317, R383)? -/
def State.roomFor (s : State) (p : Packet) : Bool :=
  if p.kind = 1 then decide (s.nDies ≤ dieOf p.pa) || decide ((s.core p.pa).inq.length < 32)
  else s.windowClear p.pa p.data.length && s.inTurn p.stream p.pa && s.pathTurn (homeDie p.pa) 2 fabricSrc

/-- May the interface act on a packet now: the repair notice of a lost one, the acknowledgement of one that has arrived in the package
itself and is applied in every view, the arrival of one that the package sent to itself, or its loss where the job table refuses it? -/
def State.packetMoves (s : State) (p : Packet) : Bool :=
  p.lost || (decide (p.node = s.node) &&
    (if p.arrived then s.appliedAll p.place
     else !(s.packets.any fun q => decide (q.node = s.node) && q.before p) && ((s.withJob p.job).isNone || s.roomFor p)))

/-- A packet arrives in the package that sent it (R374, R376, R383). -/
def State.arrivePacket (s : State) (p : Packet) : Out3 :=
  let o := if p.kind = 1 then execMessageArrival p.pa ⟨p.stream, p.id, p.job⟩ (BitVec.ofNat 64 (leNat (p.data.take 8))) (vecOfBytes (p.data.drop 8)) s
    else execWindowWriteArrival ⟨p.stream, p.id, p.job⟩ p.wtag p.pa p.data.length (vecOfBytes p.data) s
  thenNext o fun u =>
    let t := if p.kind = 1 then u else u.served (homeDie p.pa) 2 fabricSrc
    let place := if s.arrivals.length < t.arrivals.length then (t.arrivals.getLast?.map fun q => (q.die, q.num)).getD (0, 0) else (0, 0)
    { t with packets := t.packets.map fun q => if q.id = p.id then { q with arrived := true, place := place } else q }

def State.movePacket (s : State) (p : Packet) : Out3 :=
  if p.lost then execRepairNoticeApply p.die p.job s
  else if p.arrived then execPacketAcknowledge p.id s
  else if (s.withJob p.job).isNone then execEndToEndRetransmit p.id true s
  else s.arrivePacket p

/-- The events that the device's own units may bring about now. -/
def State.ownEvents (s : State) : List Instr :=
  (s.cores.flatMap fun (c, k) => s.coreEvents c k) ++ (s.dies.flatMap fun (d, k) => dieEvents d k) ++
  (s.clusters.flatMap fun (cl, k) => k.ch.flatMap fun (n, h) => chanEvents cl n h) ++
  ((s.pool.filter fun p => p.2.claim).map fun p => .launchPlacement p.1) ++ (s.launches.flatMap fun (l, v) => launchEvents l v) ++
  ((s.asks.filter fun a => !a.answered).map fun a => .registrarAnswer a.core) ++
  (match s.regq with
    | .kwipe w :: _ => [.worldTeardown w]
    | .dbgopen _ :: _ => []
    | [] => []
    | _ :: _ => [.wloadService]) ++
  (s.gangs.flatMap fun g => [.gangArmTimeout g.no, .gangGoTimeout g.no]) ++
  (s.gates.flatMap fun (n, g) => [.collComplete n, .collJoinTimeout n] ++ g.allChunks.map fun k => .collRingTimeout n k)

/-- Is this what the surroundings do to the device (log 1)? -/
def isInput : Instr → Bool
  | .sealedLineFill _ _ _ => true
  | .linkFlitRetry _ => true
  | .messageArrival _ _ _ _ => true
  | .windowWriteArrival _ _ _ _ _ => true
  | .packetAcknowledge _ => true
  | .endToEndRetransmit _ _ => true
  | .rollCallWave _ => true
  | .rollCallPass2 _ => true
  | .rollCallVerdict _ _ _ _ _ => true
  | .gangArm _ _ _ _ _ _ _ => true
  | .gangArmTimeout _ => true
  | .barrierRelease _ => true
  | .gangArmAck _ _ _ => true
  | .gangGo _ _ => true
  | .gangGoAck _ _ => true
  | .gangIncompleteNotice _ _ _ _ => true
  | .collRingStep _ _ _ _ _ _ => true
  | .hostRegisterWrite _ _ _ => true
  | .hostRegisterRead _ _ => true
  | .launchWindowWrite _ _ _ _ => true
  | .launchClaim _ _ => true
  | .hinv _ _ _ => true
  | .preempt _ _ _ => true
  | .svstartGo _ _ _ _ _ => true
  | .svstartStop _ _ _ _ => true
  | .jobEntryWrite _ _ _ => true
  | .windowEntryWrite _ _ _ => true
  | .pcapWrite _ => true
  | .powerWindowEnd _ _ => true
  | .getVersion _ _ => true
  | .getCapabilities _ _ => true
  | .negotiateAlgorithms _ _ => true
  | .getDigests _ _ => true
  | .getCertificate _ _ => true
  | .challenge _ _ => true
  | .getMeasurements _ _ => true
  | .keyExchange _ _ => true
  | .finish _ => true
  | .endSession _ => true
  | .bind _ _ => true
  | .keyImage _ _ => true
  | .keyEval _ _ _ _ => true
  | .lockInterfaceRequest _ _ => true
  | .startInterfaceRequest _ _ => true
  | .stopInterfaceRequest _ _ => true
  | .tdispOtherRequest _ _ => true
  | .coldReset _ => true
  | .hotReset => true
  | .linkDown => true
  | .crebyLinkLost _ => true
  | .crebyLinkTrained _ => true
  | _ => false

-- ## The shared paths (R25, R26)

/-- The traffic of an event on the shared path of a die (R25): die, class, source; none where it takes no such path. Class 0, the timed
copies, never waits: its packets move in their own cycles. DESIGN CHOICE (log 11): the launch arbiter's reads, placements and completion blocks
take die 0's path, and a deferral queue makes no request there, since no rule has it spill anything (R147 gives DEFER a port of its own). -/
def State.traffic (s : State) : Instr → Option (Nat × Nat × Nat)
  | .frgetFrputComplete c _ => some (dieOf c, 1, c + 1)
  | .preemption c _ => some (dieOf c, 1, c + 1)
  | .preemptedResume c _ => some (dieOf c, 1, c + 1)
  | .launchPlacement _ => some (0, 1, arbiterSrc)
  | .launchComplete _ => some (0, 1, arbiterSrc)
  | .completionTreeReport _ l n => some (if l = 0 then dieOf n else if l = 1 then n / 64 else n, 1, 2048 + n)
  | .globalLoadLanding c _ _ => some (dieOf c, 2, c + 1)
  | .writePerform c _ _ => some (dieOf c, 2, c + 1)
  | .bufferedAmoMerge c _ => some (dieOf c, 2, c + 1)
  | .unitResultLanding c => some (dieOf c, 2, c + 1)
  | .trackedCopyElement cl n => some (cl / 64, 2, 4096 + 4 * cl + n)
  | .crossDieWriteApply d id => some (d, 2, 2 ^ 15 + (((s.die d).inq.find? fun w => decide (w.id = id)).map (·.origin)).getD 0)
  | .l1Fill c line =>
    some (dieOf c, (((s.core c).fills.find? fun f => decide (f.line = line)).map (·.cls)).getD 2, c + 1)
  | .dirtySectorWriteBack d _ => some (d, 3, 2 ^ 16)
  | _ => none

/-- The traffic of an event that brings bytes from outside a path's own queue, a packet at a time: deliveries from the fabric into memory, class 2,
and the completion block of a record that the arbiter rejects, class 1 (R25, R348). It comes only when its turn has come. -/
def State.carries (s : State) : Instr → List (Nat × Nat × Nat)
  | .windowWriteArrival _ _ pa _ _ => [(homeDie pa, 2, fabricSrc)]
  | .collComplete n => (s.gateDies n).map fun d => (d, 2, fabricSrc)
  | .launchClaim _ _ => [(0, 1, arbiterSrc)]
  | .launchWindowWrite _ _ off _ => if off / 8 = 31 then [(0, 1, arbiterSrc)] else []
  | _ => []
def State.mayCarry (s : State) (i : Instr) : Bool := (s.carries i).all fun q => s.pathTurn q.1 q.2.1 q.2.2
/-- The event happens, and the paths that it takes have served it. -/
def State.carry (s : State) (i : Instr) : Out3 := exec i ((s.carries i).foldl (fun t q => t.served q.1 q.2.1 q.2.2) s)

/-- Would the event do anything now? -/
def State.stirs (s : State) (i : Instr) : Bool := match exec i s with | .next t => decide (t ≠ s) | _ => false
/-- May the event's request come to its path now: it has something to do, and does not wait there already? -/
def State.comes (s : State) (i : Instr) : Bool :=
  match s.traffic i with
  | some (d, _, _) => !((s.path d).any fun r => decide (r.what = i)) && s.stirs i
  | none => false
/-- How many packets of 256 bytes an event moves before the one with which it takes effect: a vector item is of two (R25, R365). What is longer
is so many events. -/
def State.before (s : State) : Instr → Nat
  | .frgetFrputComplete c x => b2n ((s.ctx c x).waits.any fun w => match w with | .frget _ v _ => v | .frput q _ _ => selVec q | _ => false) 1
  | _ => 0
/-- The request comes to its path. -/
def State.arriveAt (s : State) (i : Instr) : State :=
  match s.traffic i with
  | some (d, c, n) => s.request d c n (s.before i) i
  | none => s

/-- The first request of the lowest source. -/
def firstReq (rs : List Req) : Option Req :=
  rs.foldl (fun b r => match b with | some q => if r.src < q.src then some r else some q | none => some r) none
/-- The request that a die's path grants next: strictly by class, and within a class in turn among the sources (R25). -/
def State.nextReq (s : State) (d : Nat) : Option Req :=
  let c := (s.path d).foldl (fun m r => min m r.cls) 3
  let mine := (s.path d).filter fun r => decide (r.cls = c)
  match firstReq (mine.filter fun r => decide (NMap.getD s.granted (4 * d + c) 0 < r.src)) with
  | some r => some r
  | none => firstReq mine
/-- Has what a request asked for gone meanwhile? A context that has retired has no snapshot to spill. -/
def State.stale (s : State) : Instr → Bool
  | .preemption c x => decide ((s.ctx c x).unspilled = 0)
  | _ => false
/-- A grant: one packet moves, and the source is served. With the last packet of what was asked for the event takes effect; before it, the request
waits for its next turn (R25). -/
def State.grant (s : State) (d : Nat) : Out3 :=
  match s.nextReq d with
  | none => .next s
  | some r =>
    let t := { s with paths := NMap.set s.paths d ((s.path d).erase r) }.served d r.cls r.src
    if t.stale r.what then .next t
    else if 0 < r.left then .next (t.request d r.cls r.src (r.left - 1) r.what)
    else exec r.what t
/-- Has a class 1 request waited its 512 cycles (R25)? No cycle passes before it is granted. -/
def State.overdue (s : State) : Bool := s.paths.any fun p => p.2.any fun r => decide (r.cls = 1 ∧ r.since + 512 ≤ s.cyc)

/-- The head of the inbox, if the device takes it now. -/
def State.nextInput (s : State) : List Instr :=
  match s.inbox with
  | i :: _ => if s.accepts i && s.mayCarry i then [i] else []
  | [] => []
def State.takeInput (s : State) (i : Instr) : Out3 :=
  let t := { s with inbox := s.inbox.tail }
  if isInput i then t.carry i else .next t

/-- What may come next between two CYC cycles. -/
inductive Choice where
  /-- an event of the device's own that takes no shared path -/
  | own (i : Instr)
  /-- a request comes to its path -/
  | come (i : Instr)
  /-- a die's path grants a request -/
  | grant (die : Nat)
  /-- a packet moves -/
  | move (p : Packet)
  /-- the surroundings do something -/
  | input (i : Instr)
  /-- the next cycle -/
  | tick
  deriving DecidableEq, Repr

def State.choices (s : State) : List Choice :=
  let own := s.ownEvents
  ((own.filter fun i => (s.traffic i).isNone && s.mayCarry i).map .own) ++ ((own.filter s.comes).map .come) ++
  ((s.paths.filter fun p => !p.2.isEmpty).map fun p => .grant p.1) ++ ((s.packets.filter s.packetMoves).map .move) ++
  (s.nextInput.map .input) ++ (if s.overdue then [] else [.tick])

def State.follow (s : State) : Choice → Out3
  | .own i => s.carry i
  | .come i => .next (s.arriveAt i)
  | .grant d => s.grant d
  | .move p => s.movePacket p
  | .input i => s.takeInput i
  | .tick => .next s.tick

/-- Between two CYC cycles: an event of the device's own or of its surroundings, or the next cycle, as the device chooses (R7, log 2); on
the shared paths the arbiters' rules bind it (R25). -/
def State.between (s : State) : Out3 :=
  match s.pickOf s.choices with
  | (some c, t) => t.follow c
  | (none, t) => .next t.tick

/-- A device in bring-up (R426), or without power (R428): the host may read BOOT, but for a device that is held at step 1 with its link in
reset; other accesses have no effect, and a cold reset begins anew. Bring-up goes on as the device chooses (log 2), but not past step 1 with firmware that the boot ROM refuses. -/
def State.down (s : State) : Out3 :=
  let on := s.power && !s.refusedFw
  let input := !on || decide (Config.pick s.picks % 2 = 0)
  match s.inbox with
  | i :: rest =>
    let t := { s with inbox := rest, picks := s.picks + 1 }
    if !input then .next { s with picks := s.picks + 1 }.bootNext
    else match i with
      | .coldReset ok => exec (.coldReset ok) t
      | .hostRegisterRead tdi off => if on then exec (.hostRegisterRead tdi off) t else .next t
      | _ => .next t
  | [] => if on then .next s.bootNext else .fault (if s.power then .heldAtBoot else .unpowered)

/-- What follows every step at once. -/
def State.settled (s : State) : State := s.settle.settleGangs.settleArrivals

/-- One step: what is still to do in this cycle, or what comes between cycles. -/
def State.run (s : State) : Out3 :=
  if !s.power || !s.ready then s.down
  else thenNext (match s.turn with
    | .ev i :: rest => exec i { s with turn := rest }
    | .settle c :: rest => .next ({ s with turn := rest }.settleRun c)
    | .issue c :: rest => { s with turn := rest }.issueTurn c
    | [] => s.between) State.settled

end Sys2Proof.Machine
end

