-- ==== Sys2Proof/Machine/Step.lean ====
section
/-! DEFINITION. The step, and the placing of one instruction where the next step fetches. -/

namespace Sys2Proof.Machine

/-- One step of the machine. -/
def step (s : State) : Host.Outcome State Fault Refusal := s.run

/-- The state with the instruction of `nbits` bits `w` in a bundle of its own at the pc of context 0 of core 0, and that context about
to issue it: placed with 48 scalar and 48 vector registers, at the issue turn of its core, its page translated (log 7). -/
def State.withFetchWord (s : State) (nbits w : Nat) : State :=
  let pc := (s.ctx 0 0).pc
  let page := pc / 65536 * 65536
  let world := s.worldOf 0 0
  let e : TlbEntry := { va := page, size := 65536, pa := page, tperm := 7, tlvl := 4, hperm := 7, hlvl := 4, wtag := world, via := [(page, 65536)], world := world }
  let s1 := s.modCore 0 fun k =>
    { k with run := some 0, first := none, held := false, hold := 0, walk := none, failed := [], hostPre := none, tlb := [e] }.modCtx 0 fun x =>
      { x with st := .ready, allocS := 48, allocV := 48, stall := 0, spilled := false, deferred := [], null := [] }
  let s2 := s1.modDie 0 fun d => { d with view := Memory.writeN d.view pc (leBytes 16 (w % 2 ^ nbits)) }
  -- a tenant's line verifies, its world is not in teardown, and no split of the partner holds the core
  let s3 := { s2 with sealed := if world = 0 then NMap.erase s2.sealed (pc / 128) else NMap.set s2.sealed (pc / 128) world
                      badTag := NMap.erase s2.badTag (pc / 16) }
  let s4 := if s3.shut 0 then { s3 with worlds := NMap.set s3.worlds world { NMap.getD s3.worlds world {} with closing := false } } else s3
  let s5 := if (s4.core 1).held then s4.modCore 1 fun k => { k with held := false, hold := 0 } else s4
  { s5 with turn := [.issue 0], inbox := [], power := true, ready := true }

end Sys2Proof.Machine
end

