-- ==== Sys2Proof/Safety.lean ====
section
/-! DEFINITION. What claims speak of: an operation that takes effect, the state it works on, canonical memories, the turn of a core. -/

namespace Sys2Proof.Machine

/-- The operation takes effect in the bundle in issue: its encoding keeps its limits (R62), its class has room (R36), no source
reads a latch of the other kind (R42), no register code is at or above the allotment (R106), and its guard reads true (R37). -/
def State.runs (s : State) (i : Instr) : Bool :=
  i.wf && !s.iss.over i && !s.latchBad i && (s.overAllot i).isNone && s.guardOn i

/-- The state on which an operation works: a source that names an empty latch entry is recorded as LATCH (R42). -/
def State.entered (s : State) (i : Instr) : State := if s.latchStale i then s.note cLATCH else s

/-- The operation is met with its guard false: nothing else keeps it from its effect (R37). -/
def State.guardOff (s : State) (i : Instr) : Bool := i.wf && !s.iss.over i && (s.overAllot i).isNone && !s.guardOn i

/-- Wherever `i` may take effect, it completes, and its effect is the scalar result `v`, `lat` core cycles on, without an exception. -/
def CompletesS (i : Instr) (lat : Nat) (d : Code) (v : State → Word) : Prop :=
  ∀ s, s.runs i = true → exec i s = .next ((s.entered i).putS lat 0 d (v (s.entered i)))

/-- Wherever `i` may take effect, its condition `v` with compare record `r` goes to the condition target `c`: a steer register's
condition half, or a guard; a guard that may not be written is GUARD_WRITE (R108, R109, R124). -/
def CompletesC (i : Instr) (c : Code) (v : State → Bool) (r : State → BitVec 3) : Prop :=
  ∀ s, s.runs i = true →
    let u := s.entered i
    (c.toNat < 12 → exec i s = .next (u.later 1 0 (.cond c.toNat (v u) (r u)))) ∧
    (16 < c.toNat → ¬(24 ≤ c.toNat ∧ u.cur.inLoopr = true) → exec i s = .next (u.later 1 0 (.guardReg (c.toNat - 16) (v u)))) ∧
    (c.toNat = 16 ∨ (24 ≤ c.toNat ∧ u.cur.inLoopr = true) → exec i s = u.raise fGUARD (BitVec.ofNat 64 c.toNat) 0)

/-- Wherever `i` may take effect, it completes with a vector result: each lane that the mask of the extension byte selects holds `f`'s
value, each other lane what the destination held at issue, and the record is the union of the selected lanes' causes (R177). -/
def CompletesV (i : Instr) (lat : Nat) (d : Code) (x : Ext) (f : State → Nat → Nat × Causes) : Prop :=
  ∀ s, s.runs i = true →
    let u := s.entered i
    ∃ (v : Vec) (c : Causes), exec i s = .next (u.putV lat c d v) ∧
      (∀ l, l < 128 → v.lane l = if (u.maskAt (vxM x)).getLsbD l then BitVec.ofNat 32 (f u l).1 else (u.oldV d).lane l) ∧
      ∀ k, c.getLsbD k = true ↔ ∃ l, l < 128 ∧ (u.maskAt (vxM x)).getLsbD l = true ∧ (f u l).2.getLsbD k = true

/-- The translation `e` of `va` stands in the buffer of the core in issue and lets an access of the given kind and length go ahead at
once: nothing holds it, no permission is missing, and the lines of an access other than a store verify (R311, R312, R401). -/
def State.reaches (s : State) (va kind len : Nat) (e : TlbEntry) : Bool :=
  let c := s.iss.core
  let w := s.worldOf c s.iss.ctx
  (s.curCore.failed.all fun f => !decide (f.va = va ∧ f.kind = kind)) && decide (s.tlbFind c va w = some e) && (s.judge e va kind w (s.isMgmt c s.iss.ctx)).isNone &&
  (decide (kind = 1) || (s.badLine e.wtag (e.phys va) len).isNone)

/-- The `n` bytes at `va` can be read as LD.fresh reads them, without a hold: the translation `e` stands in the buffer and permits the
load, and the context's accesses before its bundle and the buffered updates of those lines have performed (R46, R48, R317, R323, R343). -/
def State.readsFresh (s : State) (va n : Nat) (e : TlbEntry) : Bool :=
  let c := s.iss.core
  let m := s.iss.acc
  s.reaches va 0 n e && s.ownClear c s.iss.ctx s.cur.gen m (e.phys va) n [dieOf c] && s.lineClear (dieOf c) (e.phys va) n c m s.cyc

/-- The bytes that such a read finds: a register page's registers (R422), else the die's view. -/
def State.freshBytes (s : State) (va n : Nat) (e : TlbEntry) : List Byte :=
  if isRegPage (e.phys va) then s.regRead (e.phys va % 2 ^ 32) n
  else s.viewRead (dieOf s.iss.core) (s.worldOf s.iss.core s.iss.ctx) (e.phys va) n

/-- The state in which the bundle in issue is to be held at its check point (R46). -/
def State.heldState (s : State) : State := { s with iss := { s.iss with held := true } }
/-- The state in which the bundle in issue has asked for a wait, which makes it a yield bundle (R143, R352). -/
def State.waitState (s : State) (w : Wait) : State := { s with iss := { s.iss with wait := s.iss.wait ++ [w], yield := true } }

/-- What an operation on which the Registrar must answer does at `s`: it asks and is held, it is held while it waits, or it completes with
`v`, its question gone (R414, R419). -/
def Asks (i : Instr) (u : State) (least : Nat) (s : State) (v : State → State) : Prop :=
  let q := u.asks.find? fun a => decide (a.core = u.iss.core)
  (q = none → exec i s = .next { u.heldState with asks := u.asks ++ [⟨u.iss.core, false, u.cyc, least⟩] }) ∧
  (∀ a, q = some a → a.answered = false → exec i s = .next u.heldState) ∧
  (∀ a, q = some a → a.answered = true → exec i s = .next (v { u with asks := u.asks.filter fun b => decide (b.core ≠ u.iss.core) }))

/-- Every memory of the core in its canonical form: the scratchpad, and what a held bundle saw of it. -/
def Core.canon (k : Core) : Bool := k.spad.wf && (match k.first with | none => true | some f => f.spad.wf)
/-- The die's view and its L2 reserved region in canonical form. -/
def Die.canon (d : Die) : Bool := d.view.wf && d.l2.wf

/-- Every memory of the machine is in canonical form: addresses strictly rising, no listed byte that reads as an unlisted one. -/
def State.canon (s : State) : Bool :=
  s.hbm.wf && (s.cores.all fun (q : Nat × Core) => q.2.canon) && s.dies.all fun (q : Nat × Die) => q.2.canon

/-- The first fault of a bundle is still to come. -/
def State.clean (s : State) : Bool := s.iss.faults.isEmpty

/-- It is the turn of core `c`, powered and up, whose context `x` has the issue slots and is able to issue a new bundle in this
cycle: nothing is held, no bubble is left, nothing pre-empts it, its world is not in teardown, and the bundle at its pc is not one to skip
(R46, R53, R132, R332, R410). -/
def State.atIssue (s : State) (c x : Nat) : Bool :=
  s.power && s.ready && decide (s.turn.head? = some (.issue c)) && !s.shut c && !s.partnerHolds c && !(s.core c).held &&
  decide ((s.core c).run = some x) && (s.core c).first.isNone && (s.ctx c x).holdsSlots && (s.ctx c x).st.isReady &&
  decide ((s.ctx c x).stall = 0) && !(s.ctx c x).spilled && !(s.core c).preempts x && !(s.ctx c x).skips &&
  decide ((s.ctx c x).deferred = [])

/-- The state in which the words `ws`, fetched at the pc of that context, are in issue (R45, R46). -/
def State.issued (s : State) (c x : Nat) (ws : List (BitVec 32)) : State :=
  ({ s with turn := s.turn.tail }.modCtx c x fun y => { y with snapped := false }).begin c x (s.ctx c x).pc ws

end Sys2Proof.Machine
end

