-- ==== Sys2Proof/Certificates/Slice0/Obligations.lean ====
section
/-! DEFINITION. The statements for the provers, from the numbered rules of the spec. -/

section
open Sys2Proof Sys2Proof.Machine

/-- R119: the results of the register-register operations; shifts and rotates use bits 5:0 of b. -/
def Obligations.ScalarLogic : Prop := ∀ (g : Guard) (d a b : Code),
  CompletesS (.mov g d a) 1 d (fun u => u.rdS a) ∧
  CompletesS (.add g d a b) 1 d (fun u => BitVec.ofNat 64 ((u.rdS a).toNat + (u.rdS b).toNat)) ∧
  CompletesS (.sub g d a b) 1 d (fun u => BitVec.ofInt 64 ((u.rdS a).toInt - (u.rdS b).toInt)) ∧
  CompletesS (.and g d a b) 1 d (fun u => u.rdS a &&& u.rdS b) ∧
  CompletesS (.or g d a b) 1 d (fun u => u.rdS a ||| u.rdS b) ∧
  CompletesS (.xor g d a b) 1 d (fun u => u.rdS a ^^^ u.rdS b) ∧
  CompletesS (.andn g d a b) 1 d (fun u => u.rdS a &&& ~~~u.rdS b) ∧
  CompletesS (.shl g d a b) 1 d (fun u => BitVec.ofNat 64 ((u.rdS a).toNat * 2 ^ ((u.rdS b).toNat % 64))) ∧
  CompletesS (.shr g d a b) 1 d (fun u => BitVec.ofNat 64 ((u.rdS a).toNat / 2 ^ ((u.rdS b).toNat % 64))) ∧
  CompletesS (.sar g d a b) 1 d (fun u => BitVec.ofInt 64 ((u.rdS a).toInt / 2 ^ ((u.rdS b).toNat % 64))) ∧
  CompletesS (.rotl g d a b) 1 d (fun u => (u.rdS a <<< ((u.rdS b).toNat % 64)) ||| (u.rdS a >>> (64 - (u.rdS b).toNat % 64))) ∧
  CompletesS (.clz g d a) 1 d
    (fun u => BitVec.ofNat 64 ((List.range 64).takeWhile fun i => !(u.rdS a).getLsbD (63 - i)).length) ∧
  CompletesS (.popc g d a) 1 d (fun u => BitVec.ofNat 64 ((List.range 64).map fun i => ((u.rdS a).getLsbD i).toNat).sum) ∧
  CompletesS (.min g d a b) 1 d (fun u => BitVec.ofInt 64 (min (u.rdS a).toInt (u.rdS b).toInt)) ∧
  CompletesS (.max g d a b) 1 d (fun u => BitVec.ofInt 64 (max (u.rdS a).toInt (u.rdS b).toInt)) ∧
  CompletesS (.minu g d a b) 1 d (fun u => BitVec.ofNat 64 (min (u.rdS a).toNat (u.rdS b).toNat)) ∧
  CompletesS (.maxu g d a b) 1 d (fun u => BitVec.ofNat 64 (max (u.rdS a).toNat (u.rdS b).toNat))

/-- R120: MUL, MULH and MULHU. -/
def Obligations.ScalarMultiply : Prop := ∀ (g : Guard) (d a b : Code),
  CompletesS (.mul g d a b) 3 d (fun u => BitVec.ofNat 64 ((u.rdS a).toNat * (u.rdS b).toNat)) ∧
  CompletesS (.mulh g d a b) 3 d (fun u => BitVec.ofInt 64 ((u.rdS a).toInt * (u.rdS b).toInt / 2 ^ 64)) ∧
  CompletesS (.mulhu g d a b) 3 d (fun u => BitVec.ofNat 64 ((u.rdS a).toNat * (u.rdS b).toNat / 2 ^ 64))

/-- R121: DIVS and DIVU. -/
def Obligations.ScalarDivide : Prop := ∀ (s : State) (g : Guard) (d a b : Code),
  (s.runs (.divs g d a b) = true → s.divBusy = false →
    let u := s.entered (.divs g d a b)
    let x := u.rdS a
    let y := u.rdS b
    let busy := u.modCurCore fun k => { k with divBusy := NMap.set k.divBusy u.alu (k.ccyc + 18) }
    (y = 0 → u.cur.rnd.getLsbD 4 = true → exec (.divs g d a b) s = u.raise fDIVZ x 0) ∧
    (y = 0 → u.cur.rnd.getLsbD 4 = false → exec (.divs g d a b) s = .next (busy.putS 18 cDZ d 0)) ∧
    (y ≠ 0 → exec (.divs g d a b) s =
      .next (busy.putS 18 (if x.toInt = -2 ^ 63 ∧ y.toInt = -1 then cDIVOVF else 0) d (BitVec.ofInt 64 (x.toInt.tdiv y.toInt))))) ∧
  (s.runs (.divu g d a b) = true → s.divBusy = false →
    let u := s.entered (.divu g d a b)
    let x := u.rdS a
    let y := u.rdS b
    let busy := u.modCurCore fun k => { k with divBusy := NMap.set k.divBusy u.alu (k.ccyc + 18) }
    (y = 0 → u.cur.rnd.getLsbD 4 = true → exec (.divu g d a b) s = u.raise fDIVZ x 0) ∧
    (y = 0 → u.cur.rnd.getLsbD 4 = false → exec (.divu g d a b) s = .next (busy.putS 18 cDZ d 0)) ∧
    (y ≠ 0 → exec (.divu g d a b) s = .next (busy.putS 18 0 d (BitVec.ofNat 64 (x.toNat / y.toNat))))) ∧
  (s.guardOff (.divs g d a b) = true → s.divBusy = false → exec (.divs g d a b) s = .next s) ∧
  (s.guardOff (.divu g d a b) = true → s.divBusy = false → exec (.divu g d a b) s = .next s) ∧
  (s.divBusy = true → exec (.divs g d a b) s = s.illegal ∧ exec (.divu g d a b) s = s.illegal)

/-- R122: SEL, EXTB, INSB, LEA; a word without a header has the extension fields zero. -/
def Obligations.ScalarFields : Prop := ∀ (s : State) (g : Guard) (d a b p : Code) (x : Ext),
  CompletesS (.sel g d a b x) 1 d (fun u => if u.cur.guardAt (x.byte.toNat % 16) then u.rdS a else u.rdS b) ∧
  CompletesS (.extb g d a p x) 1 d
    (fun u => BitVec.ofNat 64 ((u.rdS a).toNat / 2 ^ p.toNat % 2 ^ (x.byte.toNat % 64 + 1))) ∧
  (s.runs (.insb g d a p x) = true →
    let u := s.entered (.insb g d a p x)
    ∃ v : Word, exec (.insb g d a p x) s = .next (u.putS 1 0 d v) ∧
      ∀ i, i < 64 → v.getLsbD i =
        if p.toNat ≤ i ∧ i < p.toNat + (x.byte.toNat % 64 + 1) then (u.rdS a).getLsbD (i - p.toNat) else (u.rdS d).getLsbD i) ∧
  CompletesS (.lea g d a b x) 1 d (fun u => BitVec.ofNat 64 ((u.rdS a).toNat + (u.rdS b).toNat * 2 ^ (x.byte.toNat % 8))) ∧
  (64 < p.toNat + (x.byte.toNat % 64 + 1) → exec (.extb g d a p x) s = s.illegal ∧ exec (.insb g d a p x) s = s.illegal) ∧
  (d.toNat = 63 → exec (.insb g d a p x) s = s.illegal)

/-- R123: the immediate operations. -/
def Obligations.ScalarImmediates : Prop := ∀ (s : State) (g : Guard) (d a i : Code) (n : BitVec 12) (e : BitVec 8),
  CompletesS (.movi g d n none) 1 d (fun _ => n.signExtend 64) ∧
  CompletesS (.movi g d n (some e)) 1 d (fun _ => (e ++ n).signExtend 64) ∧
  CompletesS (.movhi g d n none) 1 d (fun u => BitVec.ofNat 64 ((u.rdS d).toNat * 2 ^ 20) ||| n.setWidth 64) ∧
  CompletesS (.movhi g d n (some e)) 1 d (fun u => BitVec.ofNat 64 ((u.rdS d).toNat * 2 ^ 20) ||| (e ++ n).setWidth 64) ∧
  CompletesS (.addi g d a i none) 1 d (fun u => BitVec.ofInt 64 ((u.rdS a).toInt + i.toInt)) ∧
  CompletesS (.addi g d a i (some e)) 1 d (fun u => BitVec.ofInt 64 ((u.rdS a).toInt + (e ++ i).toInt)) ∧
  (d.toNat = 63 → exec (.movhi g d n none) s = s.illegal ∧ exec (.movhi g d n (some e)) s = s.illegal)

/-- R124, with the record of R109 and the guards of R108. -/
def Obligations.ScalarCompare : Prop := ∀ (s : State) (g : Guard) (c a b i : Code) (x : Ext),
  let rec_ := fun (p q : Word) => BitVec.ofBool (decide (p.toNat < q.toNat)) ++ BitVec.ofBool (decide (p.toInt < q.toInt)) ++ BitVec.ofBool (decide (p = q))
  let imm : Word := match x with | none => i.signExtend 64 | some e => (e ++ i).signExtend 64
  CompletesC (.ceq g c a b) c (fun u => decide (u.rdS a = u.rdS b)) (fun u => rec_ (u.rdS a) (u.rdS b)) ∧
  CompletesC (.cne g c a b) c (fun u => decide (u.rdS a ≠ u.rdS b)) (fun u => rec_ (u.rdS a) (u.rdS b)) ∧
  CompletesC (.clt g c a b) c (fun u => decide ((u.rdS a).toInt < (u.rdS b).toInt)) (fun u => rec_ (u.rdS a) (u.rdS b)) ∧
  CompletesC (.cltu g c a b) c (fun u => decide ((u.rdS a).toNat < (u.rdS b).toNat)) (fun u => rec_ (u.rdS a) (u.rdS b)) ∧
  CompletesC (.cle g c a b) c (fun u => decide ((u.rdS a).toInt ≤ (u.rdS b).toInt)) (fun u => rec_ (u.rdS a) (u.rdS b)) ∧
  CompletesC (.cleu g c a b) c (fun u => decide ((u.rdS a).toNat ≤ (u.rdS b).toNat)) (fun u => rec_ (u.rdS a) (u.rdS b)) ∧
  CompletesC (.ceqi g c a i x) c (fun u => decide (u.rdS a = imm)) (fun u => rec_ (u.rdS a) imm) ∧
  CompletesC (.clti g c a i x) c (fun u => decide ((u.rdS a).toInt < imm.toInt)) (fun u => rec_ (u.rdS a) imm) ∧
  ((12 ≤ c.toNat ∧ c.toNat ≤ 15) ∨ 32 ≤ c.toNat →
    exec (.ceq g c a b) s = s.illegal ∧ exec (.cne g c a b) s = s.illegal ∧ exec (.clt g c a b) s = s.illegal ∧
    exec (.cltu g c a b) s = s.illegal ∧ exec (.cle g c a b) s = s.illegal ∧ exec (.cleu g c a b) s = s.illegal ∧
    exec (.ceqi g c a i x) s = s.illegal ∧ exec (.clti g c a i x) s = s.illegal)

/-- R125: the guard-logic operations. -/
def Obligations.GuardLogic : Prop := ∀ (g : Guard) (c a y z : Code),
  let read := fun (u : State) (k : Code) =>
    if k.toNat < 12 then (NMap.getD u.cur.cond k.toNat (false, 0)).1 else decide (k.toNat = 16) || u.cur.q.getLsbD (k.toNat - 16)
  CompletesC (.qset g c a) c (fun u => decide (u.rdS a ≠ 0)) (fun _ => 0) ∧
  (16 ≤ y.toNat ∨ y.toNat < 12 → 16 ≤ z.toNat ∨ z.toNat < 12 →
    CompletesC (.qand g c y z) c (fun u => read u y && read u z) (fun _ => 0) ∧
    CompletesC (.qor g c y z) c (fun u => read u y || read u z) (fun _ => 0)) ∧
  (16 ≤ y.toNat ∨ y.toNat < 12 → CompletesC (.qnot g c y) c (fun u => !read u y) (fun _ => 0))

/-- R126 with the register list of R79; the field maps are R80, R81, R162 and R199, the moduli R111, ABSENT_UNIT without residue mode R21.
What CRD reads: CAPS, SEATMAP, CYC at the first issue cycle (R82), RNDMODE, ARRMODE of a supervisor core (R430), BANKFMT,
the report cards, the moduli and their reciprocals. -/
def Obligations.ControlRegisterAccess : Prop := ∀ (s : State) (g : Guard) (d a : Code) (r : BitVec 12) (k n : BitVec 2),
  let crd := fun (low high : Nat) (v : State → Nat → Word) => low ≤ r.toNat → r.toNat ≤ high → CompletesS (.crd g d r) 1 d (fun u => v u (r.toNat - low))
  (crListed r.toNat = true → CompletesS (.crd g d r) 1 d (fun u => u.readCr r.toNat)) ∧
  crd 0 0 (fun u _ => u.caps) ∧ crd 1 1 (fun u _ => u.curCore.seat) ∧
  crd 2 2 (fun u _ => BitVec.ofNat 64 (match u.curCore.first with | some f => f.cyc | none => u.cyc)) ∧
  crd 8 8 (fun u _ => u.cur.rnd) ∧
  (isSupervisor s.iss.core = true → s.runs (.crd g d 9) = true → exec (.crd g d 9) s = .next (s.putS 1 0 d 0)) ∧
  crd 0x10 0x13 (fun u j => (NMap.getD u.cur.cards j {}).word) ∧ crd 0x14 0x17 (fun u j => (NMap.getD u.cur.cards j {}).hi) ∧
  crd 0x20 0x2F (fun u j => BitVec.ofNat 64 (NMap.getD u.curCore.bankfmt j 0)) ∧
  crd 0x30 0x33 (fun u j => if u.caps.getLsbD 3 then NMap.getD u.cur.md j 0 else 0) ∧
  crd 0x34 0x37 (fun u j => if u.caps.getLsbD 3 then NMap.getD u.cur.mdrcp j 0 else 0) ∧
  (s.runs (.cwr g a r) = true →
    let u := s.entered (.cwr g a r)
    let v := u.rdS a
    (r = 8 → exec (.cwr g a r) s = .next (u.later 1 0 (.rndmode
      ((v &&& 0x18) ||| (if (v &&& 7).toNat < 5 then v &&& 7 else 0))))) ∧
    (0x20 ≤ r.toNat ∧ r.toNat ≤ 0x2F → exec (.cwr g a r) s = .next (u.later 1 0 (.bankfmt (r.toNat - 0x20)
      ((if v.toNat % 8 < 6 then v.toNat % 8 else 0) + (if u.hasCmp && v.getLsbD 3 then 8 else 0))))) ∧
    (r.toNat ≤ 4 ∨ (0x14 ≤ r.toNat ∧ r.toNat ≤ 0x1B) ∨ 0x34 ≤ r.toNat → exec (.cwr g a r) s = .next u)) ∧
  (s.runs (.cwrModulus g a k) = true →
    let u := s.entered (.cwrModulus g a k)
    let m := u.rdS a
    (s.hasRes = true → exec (.cwrModulus g a k) s =
      .next (u.later 1 (if m.toNat % 2 = 1 ∧ 3 ≤ m.toNat then 0 else cBADMOD) (.modulus k.toNat m))) ∧
    (s.hasRes = false → exec (.cwrModulus g a k) s = s.absent)) ∧
  (s.runs (.cwrRptcard g a n) = true →
    exec (.cwrRptcard g a n) s = .next ((s.entered (.cwrRptcard g a n)).later 1 0 (.clearCard n.toNat))) ∧
  (crListed r.toNat = false → exec (.crd g d r) s = s.illegal ∧ exec (.cwr g a r) s = s.illegal)

/-- R257, R430: CWR to ARRMODE, and its landing. -/
def Obligations.ArrayModeWrite : Prop := ∀ (s : State) (g : Guard) (a : Code),
  (s.runs (.cwrArrmode g a) = true →
    let u := s.entered (.cwrArrmode g a)
    let v := u.rdS a
    let r := u.curArr
    let turned := (r.mode ≠ 2 ∧ r.mode ≠ s.iss.core % 2) ∨ r.inFlight 0 = true ∨ r.inFlight 1 = true
    (isSupervisor s.iss.core = true → exec (.cwrArrmode g a) s = s.absent) ∧
    (isSupervisor s.iss.core = false → v.toNat % 4 = 3 → exec (.cwrArrmode g a) s = u.range 0 3) ∧
    (isSupervisor s.iss.core = false → v.toNat % 4 ≠ 3 → turned →
      exec (.cwrArrmode g a) s = u.raise fWINDOW (BitVec.ofNat 64 r.acyc) r.modeWord) ∧
    (isSupervisor s.iss.core = false → v.toNat % 4 ≠ 3 → ¬turned → exec (.cwrArrmode g a) s = .next (u.arrLater 1 (.arrmode v)))) ∧
  (∀ (r : Arr) (n : Nat → Bool) (w : Word),
    let t := r.land n (.arrmode w)
    t.mode = w.toNat % 4 ∧ t.wsz = w.toNat / 4 % 4 ∧ t.acyc = 0 ∧
    t.p0.fa.q = [] ∧ t.p0.fb.q = [] ∧ t.p1.fa.q = [] ∧ t.p1.fb.q = [] ∧ t.p0.srp = 0 ∧ t.p1.srp = 0 ∧
    t.p0.act = r.p0.act ∧ t.p0.shadow = r.p0.shadow ∧ t.p1.act = r.p1.act ∧ t.p1.shadow = r.p1.shadow ∧ t.rows = r.rows ∧
    t.p0.mode = r.p0.mode ∧ t.p1.mode = r.p1.mode ∧ t.rpred = r.rpred ∧ t.p0.cpred = r.p0.cpred ∧ t.p1.cpred = r.p1.cpred)

/-- R104: ALLOT and SHRINK, and what the check point of their bundle does with what is released (R103): every result in flight to it is
cancelled, and the data of every load in flight to it are marked to be discarded. That the registers go by their slot numbers, at an allotment of
48 under a rotation too, is the model's choice (log 47). -/
def Obligations.AllotAndShrink : Prop := ∀ (s : State) (g : Guard) (m n : Code),
  let sets := fun (u t : State) (ns nv : Nat) =>
    t.cur.allocS = ns ∧ t.cur.allocV = nv ∧ t.iss = { u.iss with allot := true } ∧
    (∀ r, r < 48 → t.cur.sAt r = if r < s.iss.allocS then u.cur.sAt r else 0) ∧
    (∀ r, r < 48 → t.cur.vAt r = if r < s.iss.allocV then u.cur.vAt r else 0)
  (s.runs (.allot g m n) = true → s.allotBad = false →
    let u := s.entered (.allot g m n)
    let k := u.curCore
    (k.freeS < m.toNat - s.iss.allocS → ∃ w0 w1, exec (.allot g m n) s = u.raise fREGALLOT w0 w1) ∧
    (k.freeV < n.toNat - s.iss.allocV → ∃ w0 w1, exec (.allot g m n) s = u.raise fREGALLOT w0 w1) ∧
    (m.toNat - s.iss.allocS ≤ k.freeS → n.toNat - s.iss.allocV ≤ k.freeV →
      ∃ t, exec (.allot g m n) s = .next t ∧ sets u t m.toNat n.toNat)) ∧
  (s.runs (.shrink g m n) = true → s.allotBad = false →
    let u := s.entered (.shrink g m n)
    ∃ t, exec (.shrink g m n) s = .next t ∧ sets u t (min m.toNat s.iss.allocS) (min n.toNat s.iss.allocV)) ∧
  (∀ (t : State) (c x : Nat) (b : Bundle) (old : Ctx), t.iss.done = false → t.iss.allot = true →
    let y := t.ctx c x
    let u := t.checkPoint c x b old
    let stays := fun (f : Flight) => ∀ r, (∀ v, f.eff = .sreg (some r) v → r < y.allocS) ∧ (∀ v, f.eff = .vreg (some r) v → r < y.allocV) ∧
      (∀ v, f.eff = .vplain r v → r < y.allocV)
    (u.ctx c x).allocS = y.allocS ∧ (u.ctx c x).allocV = y.allocV ∧ (u.ctx c x).sreg = y.sreg ∧ (u.ctx c x).vreg = y.vreg ∧
    (∀ f, f ∈ (u.ctx c x).flight ↔ f ∈ y.flight ∧ stays f) ∧
    (u.core c).access.length = (t.core c).access.length ∧
    ∀ a ∈ (u.core c).access, ∀ v r, a.dest = some (v, r) → a.of x y.gen = true → (if v then y.allocV else y.allocS) ≤ r → a.void = true)

/-- R134, with R136 for the second transfer of a bundle, which has no effect at all, and the bubbles of R132: from the check point on they count down, one a core cycle, and until they are over the context issues
nothing. That the ILLEGAL_OP of R136 stands at this operation, the one in the higher slot position, is the model's choice (log 48), and so are the
bubbles of a transfer through a steer register that nothing has prepared (log 95). -/
def Obligations.Branches : Prop := ∀ (s : State) (g : Guard) (j d a : Code) (i : BitVec 12) (x : Ext),
  let asks := fun (u : State) (t : Xfer) => ({ u with iss := { u.iss with xfer := some t } } : State)
  let free := s.iss.xfer = none ∧ s.iss.lbrk = false
  let aligned := fun (w : Word) => w.toNat % 16 = 0
  let cost := fun (u : State) => 3 - (u.cur.issued - max (NMap.getD u.cur.prep j.toNat 0) u.cur.prepAll)
  let there := fun (u : State) => (NMap.getD u.cur.target j.toNat 0).toNat * 16
  (s.runs (.prep g j i x) = true →
    let u := s.entered (.prep g j i x)
    let off : BitVec 53 := match x with | none => i.signExtend 53 | some e => (e ++ i).signExtend 53
    exec (.prep g j i x) s = .next (u.later 1 0 (.target j.toNat (BitVec.ofNat 53 (s.iss.addr / 16) + off) u.cur.issued))) ∧
  (s.runs (.prepr g j a) = true →
    let u := s.entered (.prepr g j a)
    (aligned (u.rdS a) → exec (.prepr g j a) s = .next (u.later 1 0 (.target j.toNat ((u.rdS a).extractLsb' 4 53) u.cur.issued))) ∧
    (¬aligned (u.rdS a) → ∃ w0 w1, exec (.prepr g j a) s = u.raise fALIGN w0 w1)) ∧
  (s.runs (.br g j) = true → s.iss.xferBad = false → free →
    let u := s.entered (.br g j)
    ((NMap.getD u.cur.cond j.toNat (false, 0)).1 = true → exec (.br g j) s = .next (asks u ⟨there u, cost u, true⟩)) ∧
    ((NMap.getD u.cur.cond j.toNat (false, 0)).1 = false → exec (.br g j) s = .next u)) ∧
  (s.runs (.brl g j d) = true → s.iss.xferBad = false → free →
    let u := s.entered (.brl g j d)
    ((NMap.getD u.cur.cond j.toNat (false, 0)).1 = true →
      exec (.brl g j d) s = .next ((asks u ⟨there u, cost u, false⟩).putS 1 0 d (BitVec.ofNat 64 (s.iss.addr + 16)))) ∧
    ((NMap.getD u.cur.cond j.toNat (false, 0)).1 = false → exec (.brl g j d) s = .next u)) ∧
  (s.runs (.ret g a) = true → s.iss.xferBad = false → free →
    let u := s.entered (.ret g a)
    (aligned (u.rdS a) → exec (.ret g a) s = .next (asks u ⟨((u.rdS a).extractLsb' 4 53).toNat * 16, 3, false⟩)) ∧
    (¬aligned (u.rdS a) → ∃ w0 w1, exec (.ret g a) s = u.raise fALIGN w0 w1)) ∧
  (s.iss.xferBad = false → s.iss.xfer ≠ none ∨ s.iss.lbrk = true →
    (s.runs (.br g j) = true → exec (.br g j) s = .next (s.entered (.br g j))) ∧
    (s.runs (.brl g j d) = true → exec (.brl g j d) s = .next (s.entered (.brl g j d))) ∧
    (s.runs (.ret g a) = true → aligned ((s.entered (.ret g a)).rdS a) → exec (.ret g a) s = .next (s.entered (.ret g a)))) ∧
  (s.iss.xferBad = true →
    exec (.br g j) s = s.illegal ∧ exec (.brl g j d) s = s.illegal ∧ exec (.ret g a) s = s.illegal) ∧
  (∀ (y : Ctx) (k : Iss) (t : Xfer), k.lbrk = false → k.push = none → k.xfer = some t → (y.route k).2 = t.target) ∧
  (∀ (u : State) (c n : Nat) (b : Bundle) (old : Ctx), u.iss.done = false →
    (∀ t, u.iss.xfer = some t → ((u.checkPoint c n b old).ctx c n).stall = t.bubbles + 1) ∧
    (u.iss.xfer = none → ((u.checkPoint c n b old).ctx c n).stall = 0)) ∧
  (∀ y : Ctx, y.snapped = false → y.advance.stall = y.stall - 1) ∧
  (∀ c n, (s.core c).run = some n → (s.core c).preempts n = false → 0 < (s.ctx c n).stall → s.issueTurn c = .next s)

/-- R139 and R138; LOOPI's and LOOP's field widths are R137. That the ILLEGAL_OP of R136 and R139 stands at this operation, the one in the higher
slot position, is the model's choice (log 48). -/
def Obligations.LoopStart : Prop := ∀ (s : State) (g : Guard) (a l b : Code) (m n : BitVec 12) (x : Ext),
  let base := s.iss.addr
  let starts := fun (i : Instr) (len drain kind : Nat) (count : State → Nat) (rot : Bool) =>
    let u := s.entered i
    let bad := s.iss.ops.any (fun o => isLoopOp o || isTransferOp o) = true ∨ 4 ≤ s.cur.loops.length ∨
      (rot = true ∧ s.cur.inLoopr = true) ∨ ∃ v ∈ s.cur.loops.head?, v.last < base + 16 * len
    (s.runs i = true → ¬bad → s.iss.xfer = none → s.iss.lbrk = false → count u = 0 →
      exec i s = .next { u with iss := { u.iss with xfer := some ⟨base + 16 * (len + 1), 3, false⟩ } }) ∧
    (s.runs i = true → ¬bad → count u ≠ 0 →
      exec i s = .next { u with iss := { u.iss with push := some ⟨base + 16, base + 16 * len, count u + drain, kind, count u, 0⟩ } }) ∧
    (s.guardOff i = true → ¬bad → exec i s = .next s) ∧
    (bad ∨ len = 0 → exec i s = s.illegal)
  let wide := match x with | none => m.toNat | some e => e.toNat * 4096 + m.toNat
  starts (.loop g a m x) wide 0 0 (fun u => (u.rdS a).toNat % 2 ^ 32) false ∧
  starts (.loopi g l n x) (l.toNat + x.byte.toNat / 16 * 64) 0 1 (fun _ => n.toNat + x.byte.toNat % 16 * 4096) false ∧
  starts (.loopr g a m x) m.toNat (x.byte.toNat % 8) 2 (fun u => (u.rdS a).toNat % 2 ^ 32) true ∧
  (s.cur.inLoopr = true → exec (.allot g a b) s = s.illegal ∧ exec (.shrink g a b) s = s.illegal) ∧
  (s.cur.loops = [] → exec (.lbrk g) s = s.illegal) ∧
  (∀ (y : Ctx) (k : Iss) (v : Level), k.lbrk = false → k.push = some v →
    (y.route k).2 = k.addr + 16 ∧ (y.route k).1.loops = v :: y.loops ∧
    (v.kind = 2 → (y.route k).1.rrbS = 0 ∧ (y.route k).1.rrbV = 0 ∧
      ∀ q, q < 16 → (y.route k).1.q.getLsbD q = if q < 8 then y.q.getLsbD q else decide (q = 8)) ∧
    (v.kind ≠ 2 → (y.route k).1 = { y with loops := v :: y.loops }))

/-- R140; a taken BR pops by its target after the boundary's actions (R135), and where no level ends it pops alone. -/
def Obligations.LoopBoundary : Prop := ∀ (y : Ctx) (k : Iss), k.push = none → k.lbrk = false → k.xfer = none →
  ((∀ v ∈ y.loops, v.last ≠ k.addr) → y.route k = (y, k.addr + 16)) ∧
  (∀ t : Xfer, let z := y.route { k with xfer := some t }
    z.2 = t.target ∧ (t.pops = false → z.1 = (y.route k).1) ∧ (t.pops = true → z.1 = (y.route k).1.popFor t.target)) ∧
  ∀ (l : Level) (ls : List Level), y.loops = l :: ls → l.last = k.addr →
  let rot := l.kind = 2
  let r := (y.route k).1
  (1 < l.left → (y.route k).2 = l.first ∧ r.loops = { l with left := l.left - 1, it := if rot then l.it + 1 else l.it } :: ls ∧
    (¬rot → r.q = y.q ∧ r.rrbS = y.rrbS ∧ r.rrbV = y.rrbV) ∧
    (rot → (r.rrbS = if y.allocS = 48 then (y.rrbS + 15) % 16 else y.rrbS) ∧
      (r.rrbV = if y.allocV = 48 then (y.rrbV + 15) % 16 else y.rrbV) ∧
      ∀ q, q < 16 → r.q.getLsbD q =
        if q < 8 then y.q.getLsbD q else if q = 8 then decide (l.it + 1 < l.n) else y.q.getLsbD (q - 1))) ∧
  (l.left ≤ 1 → ∃ e : Ctx, e.loops = ls ∧
    (rot → (e.rrbS = if y.allocS = 48 then (y.rrbS + 15) % 16 else y.rrbS) ∧ (e.rrbV = if y.allocV = 48 then (y.rrbV + 15) % 16 else y.rrbV) ∧
      ∀ q, q < 16 → e.q.getLsbD q = (decide (q < 8) && y.q.getLsbD q)) ∧ (¬rot → e = { y with loops := ls }) ∧
    ((∃ o ∈ ls.head?, o.last = k.addr) → y.route k = e.route k) ∧
    ((∀ o ∈ ls.head?, o.last ≠ k.addr) → y.route k = (e, k.addr + 16)))

/-- R142; LBRK as a bundle's second transfer is R136. The pops of a taken BR are R135: `popFor`, which LoopBoundary shows in the route. -/
def Obligations.LoopLeave : Prop := ∀ (s : State) (g : Guard),
  (s.runs (.lbrk g) = true → s.iss.xferBad = false → s.cur.loops ≠ [] → s.iss.xfer = none → s.iss.lbrk = false →
    exec (.lbrk g) s = .next { s with iss := { s.iss with lbrk := true } }) ∧
  (s.runs (.lbrk g) = true → s.iss.xferBad = false → s.cur.loops ≠ [] → s.iss.xfer ≠ none ∨ s.iss.lbrk = true →
    exec (.lbrk g) s = .next s) ∧
  (∀ (y : Ctx) (k : Iss) (l : Level) (ls : List Level), y.loops = l :: ls → k.lbrk = true →
    (y.route k).2 = l.last + 16 ∧
    (l.kind ≠ 2 → (y.route k).1 = { y with loops := ls }) ∧
    (l.kind = 2 → ∃ q, (y.route k).1 = { y with loops := ls, q := q } ∧
      ∀ n, n < 16 → q.getLsbD n = (decide (n < 8) && y.q.getLsbD n))) ∧
  (∀ (y : Ctx) (t : Nat), (∀ l ∈ y.loops.head?, l.first ≤ t ∧ t ≤ l.last) → y.popFor t = y) ∧
  (∀ (y : Ctx) (l : Level) (ls : List Level) (t : Nat), y.loops = l :: ls → ¬(l.first ≤ t ∧ t ≤ l.last) →
    ∃ q, y.popFor t = { y with loops := ls.filter (fun v => decide (v.first ≤ t ∧ t ≤ v.last)), q := q } ∧
      let rot := ∃ v ∈ l :: ls, v.kind = 2 ∧ ¬(v.first ≤ t ∧ t ≤ v.last)
      (rot → ∀ n, n < 16 → q.getLsbD n = (decide (n < 8) && y.q.getLsbD n)) ∧ (¬rot → q = y.q))

/-- R143 to R145: what YIELD, DONE and WAITC ask for, and WAITC's end. -/
def Obligations.YieldAndWaits : Prop := ∀ (s : State) (g : Guard) (a : Code) (c x : Nat),
  (s.runs (.yield g) = true → exec (.yield g) s = .next { s with iss := { s.iss with yield := true } }) ∧
  (s.runs (.done g) = true → exec (.done g) s = .next { s with iss := { s.iss with done := true, yield := true } }) ∧
  (s.runs (.waitc g a) = true →
    let u := s.entered (.waitc g a)
    exec (.waitc g a) s = .next { u with iss := { u.iss with wait := u.iss.wait ++ [.cyc (u.rdS a).toNat], yield := true } }) ∧
  (s.guardOff (.yield g) = true → exec (.yield g) s = .next s) ∧
  (s.guardOff (.done g) = true → exec (.done g) s = .next s) ∧
  (s.guardOff (.waitc g a) = true → exec (.waitc g a) s = .next s) ∧
  (∀ n, (s.ctx c x).st = .wait [.cyc n] → n ≤ s.cyc →
    ∃ t, exec (.waitcWake c x) s = .next t ∧ (t.ctx c x).st = .ready ∧ (t.ctx c x).waits = []) ∧
  (∀ n, (s.ctx c x).st = .wait [.cyc n] → s.cyc < n → exec (.waitcWake c x) s = .next (s.modCtx c x id))

/-- R146, R62 with R355 and the record of R356, and the frame: results in flight keep their counts, their exception records go on by
themselves (R50, R116), every other part of the context stands, and no other context, core or memory changes. -/
def Obligations.SoftwareTraps : Prop := ∀ (s : State) (g : Guard) (i : BitVec 12),
  let frozen := fun (t : State) (code : Nat) (d0 : Word) =>
    let c := s.iss.core
    let y := s.cur
    let z := t.ctx c s.iss.ctx
    let moved := y.flight.filter fun f => decide (f.causes ≠ 0)
    z = { y with
      st := .frozen, fgen := y.fgen + 1, stall := 0, snapped := true
      flight := if y.snapped then y.flight else (y.flight.filter fun f => decide (f.eff ≠ .note)).map fun f => { f with causes := 0 }
      recs := if y.snapped then y.recs
        else y.recs ++ moved.map fun f => { f with due := s.curCore.ccyc + (f.due - y.clk), eff := .note }
      frec := { codes := (List.range 4).map fun p => if p = s.iss.pos then code else 0, deferred := false, waitFault := false, cyc := s.cyc,
                words := s.iss.words, d0 := d0, d1 := 0, rrbS := y.rrbS, rrbV := y.rrbV } } ∧
    (∀ n, n ≠ s.iss.ctx → t.ctx c n = { s.ctx c n with prepAll := (t.ctx c n).prepAll }) ∧
    t.curCore = { s.curCore with ctxs := t.curCore.ctxs, run := t.curCore.run, lastRun := t.curCore.lastRun, hostPre := t.curCore.hostPre } ∧
    (∀ n, n ≠ c → t.core n = s.core n) ∧
    { t with cores := s.cores } = { s with
      iss := { s.iss with faults := [(s.iss.pos, code, d0, 0)] }, offers := s.offers ++ [⟨c, s.iss.ctx, code⟩] }
  (s.runs (.trap g i) = true → s.clean = true → ∃ t, exec (.trap g i) s = .next t ∧ frozen t 0x06 (i.setWidth 64)) ∧
  (s.runs (.bkpt g) = true → s.clean = true → ∃ t, exec (.bkpt g) s = .next t ∧ frozen t 0x05 0) ∧
  (s.guardOff (.trap g i) = true → exec (.trap g i) s = .next s) ∧
  (s.guardOff (.bkpt g) = true → exec (.bkpt g) s = .next s)

/-- R149. -/
def Obligations.Deferral : Prop := ∀ (s : State) (g : Guard) (a d p : Code) (k n : BitVec 3),
  let one := s.iss.ops.any isDeferOp = false
  (s.runs (.defer g a k n p) = true → one →
    let u := s.entered (.defer g a k n p)
    let sel := (List.range 128).filter fun i => (u.maskAt k.toNat).getLsbD i
    let take := sel.take (u.cur.deferC - u.cur.defer.length)
    exec (.defer g a k n p) s = .next (u.later 1 (if take.length < sel.length then cDEFER else 0) (.append p.toNat
      (take.map fun i => defBytes i p.toNat n.toNat ((List.range n.toNat).map fun j => ((u.rdVn (a.toNat + j)).lane i).toNat))))) ∧
  (s.runs (.defdr g d n p) = true → one →
    let u := s.entered (.defdr g d n p)
    let e := ((u.cur.defer.filter fun q => q.1 = p.toNat).take 128).map fun q => u.defPlace q.2
    ∃ (t : State) (val : Nat → Vec), exec (.defdr g d n p) s = .next t ∧
      (∀ j l, j < n.toNat → l < 128 → ((val j).lane l).toNat =
        match e[l]? with
        | none => 0
        | some b => if j < leNat (b.take 4) / 2 ^ 13 % 8 then leNat ((b.drop (4 + 4 * j)).take 4) else 0) ∧
      (∀ j, j < n.toNat → ∃ f ∈ t.cur.flight, f.due = u.cur.clk + 1 ∧
        (f.eff = .vplain (u.slotV (d.toNat + j)) (val j) ∨ f.eff = .vreg (some (u.slotV (d.toNat + j))) (val j))) ∧
      ∃ f ∈ t.cur.flight, f.due = u.cur.clk + 1 ∧ f.eff = .remove p.toNat e.length) ∧
  (CompletesS (.defct g d p) 1 d fun u =>
    BitVec.ofNat 64 ((u.cur.deferC - u.cur.defer.length) * 2 ^ 32 + (u.cur.defer.filter fun q => q.1 = p.toNat).length))

/-- R330, R331 (with R328 for proctor and supervisor contexts), R346. -/
def Obligations.ContextOperations : Prop := ∀ (s : State) (g : Guard) (d p : Code),
  CompletesS (.ctxid g d) 1 d (fun u =>
    BitVec.ofNat 64 (u.cur.memb * 2 ^ 32 + u.cur.gen.toNat * 2 ^ 16 + u.iss.ctx * 2 ^ 10 + u.iss.core)) ∧
  (s.runs (.prio g p) = true → exec (.prio g p) s =
    .next (if s.cur.proc then s else s.later 1 0 (.prio (min p.toNat s.cur.ceiling)))) ∧
  (s.runs (.tcur g d) = true →
    let x := s.cur
    let e := if x.cursor ≤ 255 then x.ttab.getD x.cursor (BitVec.allOnes 64) else BitVec.allOnes 64
    (e ≠ BitVec.allOnes 64 → exec (.tcur g d) s = .next ((s.putS 1 0 d e).later 1 0 .cursor)) ∧
    (e = BitVec.allOnes 64 → exec (.tcur g d) s = .next (s.putS 1 0 d e))) ∧
  exec .nop s = .next s

/-- R179, under the frame of R177, with the latencies of R178 and the rounding of R162. -/
def Obligations.VectorArithmetic : Prop := ∀ (s : State) (g : Guard) (d a b : Code) (x : Ext),
  let ty := vxT x
  let val := fun (u : State) (c : Code) (l : Nat) => decodeTy ty (elem ty (u.rdV c) l)
  let once := fun (u : State) (r : Machine.Num) (ops : List Machine.Num) =>
    let o := encodeTy ty (u.rm (vxR x)) u.ftz r
    (o.bits, o.causes ||| (if isNaN r ∧ ∀ n ∈ ops, isNaN n = false then cNV else 0))
  let pick := fun (u : State) (largest : Bool) (l : Nat) =>
    let p := elem ty (u.rdV a) l
    let q := elem ty (u.rdV b) l
    let less := Machine.Num.lt true (decodeTy ty p) (decodeTy ty q)
    (if isNaN (decodeTy ty p) ∨ isNaN (decodeTy ty q) then canonNaN ty else if less = largest then q else p, (0 : Causes))
  CompletesV (.vadd g d a b x) 4 d x (fun u l => once u (Machine.Num.add (u.rm (vxR x)) (val u a l) (val u b l)) [val u a l, val u b l]) ∧
  CompletesV (.vsub g d a b x) 4 d x (fun u l => once u (Machine.Num.add (u.rm (vxR x)) (val u a l) (val u b l).neg) [val u a l, val u b l]) ∧
  CompletesV (.vmul g d a b x) 6 d x (fun u l => once u (Machine.Num.mul (val u a l) (val u b l)) [val u a l, val u b l]) ∧
  CompletesV (.vfma g d a b x) 6 d x (fun u l =>
    once u (Machine.Num.add (u.rm (vxR x)) (val u d l) (Machine.Num.mul (val u a l) (val u b l))) [val u d l, val u a l, val u b l]) ∧
  CompletesV (.vfms g d a b x) 6 d x (fun u l =>
    once u (Machine.Num.add (u.rm (vxR x)) (val u d l) (Machine.Num.mul (val u a l) (val u b l)).neg) [val u d l, val u a l, val u b l]) ∧
  CompletesV (.vmin g d a b x) 4 d x (fun u l => pick u false l) ∧
  CompletesV (.vmax g d a b x) 4 d x (fun u l => pick u true l) ∧
  (d = 63 → exec (.vfma g d a b x) s = s.illegal ∧ exec (.vfms g d a b x) s = s.illegal)

/-- R180, under the frame of R177. What is rounded to the type, once, is a number with one sticky bit below the working precision: for VRCP and
VRSQ it is the exact value where its last bit is 0, and lies strictly on the same side of every coarser number where that bit is 1; VEXP2 of an
integer and VLOG2 of a power of two are exact, and any other value of theirs lies strictly between the neighbouring powers or integers. -/
def Obligations.VectorFunctions : Prop := ∀ (g : Guard) (d a : Code) (x : Ext),
  let ty := vxT x
  let val := fun (u : State) (l : Nat) => decodeTy ty (elem ty (u.rdV a) l)
  let out := fun (u : State) (v : Machine.Num) (r : Machine.Num) (dz : Bool) =>
    let o := encodeTy ty (u.rm (vxR x)) u.ftz r
    (o.bits, o.causes ||| (if isNaN r ∧ isNaN v = false then cNV else 0) ||| (if dz then cDZ else 0))
  let top := 2 ^ (tyBits ty - 1)
  let sign := fun (u : State) (flip : Bool) (l : Nat) =>
    let p := elem ty (u.rdV a) l
    if ty = 3 ∨ ty = 4 then
      let z : Int := if top ≤ p then (p : Int) - 2 * top else p
      let w := if flip then -z else |z|
      if w = top then (top - 1, cSAT) else ((w % (2 * top)).toNat, (0 : Causes))
    else if ty = 2 ∧ p % 128 = 0 then (p, 0)
    else if ty < 2 ∧ isNaN (decodeTy ty p) then (canonNaN ty, 0)
    else if flip then (if p < top then p + top else p - top, 0) else (p % top, 0)
  CompletesV (.vabs g d a x) 4 d x (fun u l => sign u false l) ∧
  CompletesV (.vneg g d a x) 4 d x (fun u l => sign u true l) ∧
  CompletesV (.vrcp g d a x) 9 d x (fun u l => match val u l with
    | .nan => out u .nan .nan false
    | .inf t => out u (.inf t) (.fin t 0 0) false
    | .fin t m e => if m = 0 then out u (.fin t m e) (.inf t) true else out u (.fin t m e) (rcpNum t m e) false) ∧
  CompletesV (.vrsq g d a x) 9 d x (fun u l => match val u l with
    | .nan => out u .nan .nan false
    | .inf t => out u (.inf t) (if t then .nan else .fin false 0 0) false
    | .fin t m e => if m = 0 then out u (.fin t m e) (.inf t) true
      else if t then out u (.fin t m e) .nan false else out u (.fin t m e) (rsqNum m e) false) ∧
  CompletesV (.vexp2 g d a x) 9 d x (fun u l => match val u l with
    | .nan => out u .nan .nan false
    | .inf t => out u (.inf t) (if t then .fin false 0 0 else .inf false) false
    | .fin t m e => out u (.fin t m e) (exp2Num t m e) false) ∧
  CompletesV (.vlog2 g d a x) 9 d x (fun u l => match val u l with
    | .nan => out u .nan .nan false
    | .inf t => out u (.inf t) (if t then .nan else .inf false) false
    | .fin t m e => if m = 0 then out u (.fin t m e) (.inf true) true
      else if t then out u (.fin t m e) .nan false else out u (.fin t m e) (log2Num m e) false) ∧
  (∀ t m e, m ≠ 0 → ∃ w, rcpNum t m e = .fin t w (-257 - e) ∧ (w % 2 = 0 → w * m = 2 ^ 257) ∧
    (w % 2 = 1 → (w - 1) * m < 2 ^ 257 ∧ 2 ^ 257 < (w + 1) * m)) ∧
  (∀ m e, m ≠ 0 →
    let n := if e % 2 = 0 then m else 2 * m
    ∃ w k, rsqNum m e = .fin false w k ∧ 2 * k = -514 - (if e % 2 = 0 then e else e - 1) ∧ (w % 2 = 0 → w ^ 2 * n = 2 ^ 514) ∧
      (w % 2 = 1 → (w - 1) ^ 2 * n < 2 ^ 514 ∧ 2 ^ 514 < (w + 1) ^ 2 * n)) ∧
  (∀ t e, exp2Num t 0 e = .fin false 1 0) ∧
  (∀ t m e, m ≠ 0 → -300 ≤ e → magLt 4096 0 m e = false →
    let z : Int := (if t then -1 else 1) * (m * 2 ^ (e + 300).toNat : Nat)
    (z % 2 ^ 300 = 0 → exp2Num t m e = .fin false 1 (z / 2 ^ 300)) ∧
    (z % 2 ^ 300 ≠ 0 → ∃ w, exp2Num t m e = .fin false w (z / 2 ^ 300 - 401) ∧ 2 ^ 401 < w ∧ w < 2 ^ 402)) ∧
  (∀ (k : Nat) (e : Int), log2Num (2 ^ k) e = numOfInt (k + e)) ∧
  (∀ (m k : Nat) (e : Int), 2 ^ k < m → m < 2 ^ (k + 1) → k ≤ 600 → ∃ t w, log2Num m e = .fin t w (-201) ∧
    ((k : Int) + e) * 2 ^ 201 < (if t then -1 else 1) * (w : Int) ∧ (if t then -1 else 1) * (w : Int) < ((k : Int) + e + 1) * 2 ^ 201)

/-- R181, R183, R185, the patterns of R186, the latencies of R178. -/
def Obligations.VectorBitsAndMoves : Prop := ∀ (s : State) (g : Guard) (d a b n p : Code) (i : BitVec 12) (x : Ext),
  let L := fun (u : State) (c : Code) (l : Nat) => (u.rdV c).lane l
  let lanes := fun (op : Instr) (lat : Nat) (f : State → Nat → BitVec 32) => CompletesV op lat d x fun u l => ((f u l).toNat, 0)
  let whole := fun (op : Instr) (f : State → Nat → BitVec 32) => s.runs op = true →
    ∃ v : Vec, exec op s = .next ((s.entered op).putV 4 0 d v) ∧ ∀ l, l < 128 → v.lane l = f (s.entered op) l
  lanes (.vand g d a b x) 4 (fun u l => L u a l &&& L u b l) ∧
  lanes (.vor g d a b x) 4 (fun u l => L u a l ||| L u b l) ∧
  lanes (.vxor g d a b x) 4 (fun u l => L u a l ^^^ L u b l) ∧
  lanes (.vshl g d a b x) 4 (fun u l => L u a l <<< ((L u b l).toNat % 32)) ∧
  lanes (.vshr g d a b x) 4 (fun u l => L u a l >>> ((L u b l).toNat % 32)) ∧
  lanes (.vsar g d a b x) 4 (fun u l => (L u a l).sshiftRight ((L u b l).toNat % 32)) ∧
  lanes (.vshlI g d a n x) 4 (fun u l => L u a l <<< n.toNat) ∧
  lanes (.vshrI g d a n x) 4 (fun u l => L u a l >>> n.toNat) ∧
  lanes (.vsarI g d a n x) 4 (fun u l => (L u a l).sshiftRight n.toNat) ∧
  (31 < n.toNat → exec (.vshlI g d a n x) s = s.illegal ∧ exec (.vshrI g d a n x) s = s.illegal ∧ exec (.vsarI g d a n x) s = s.illegal) ∧
  whole (.vsel g d a b x) (fun u l => if (u.maskAt (vxM x)).getLsbD l then L u a l else L u b l) ∧
  lanes (.vmov g d a x) 4 (fun u l => L u a l) ∧
  lanes (.vbcast g d a x) 4 (fun u _ => (u.rdS a).setWidth 32) ∧
  (s.guardOn (.vbcast g d a x) = true → (∃ v, s.cur.latchAt a.toNat = some (.v v)) → 48 ≤ a.toNat →
    exec (.vbcast g d a x) s = s.illegal) ∧
  whole (.vbcastI g d i x) (fun _ _ => match x with | none => i.signExtend 32 | some e => (e ++ i).signExtend 32) ∧
  lanes (.vlane g d x) 4 (fun _ l => BitVec.ofNat 32 l) ∧
  lanes (.vperm g d a b x) 5 (fun u l => L u a ((L u b l).toNat % 128)) ∧
  lanes (.vshuf g d a p x) 5 (fun u l => L u a (shufSrc p.toNat l)) ∧
  (∀ k l, k < 7 → l < 128 → shufSrc k l = l ^^^ 2 ^ k ∧ shufSrc (8 + k) l = (l + 2 ^ k) % 128 ∧
    shufSrc (16 + k) l = (l + 128 - 2 ^ k) % 128 ∧ shufSrc (24 + k) l = l / 2 ^ k * 2 ^ k ∧ shufSrc (56 + k) l = l % 2 ^ k) ∧
  (∀ k j r, k < 7 → j < 128 / 2 ^ k → r < 2 ^ k →
    shufSrc (32 + k) (j * 2 ^ k + r) =
      (if j < 128 / 2 ^ k / 2 then 2 * j else 2 * (j - 128 / 2 ^ k / 2) + 1) * 2 ^ k + r ∧
    shufSrc (40 + k) (j * 2 ^ k + r) = (if j % 2 = 0 then j / 2 else 128 / 2 ^ k / 2 + (j - 1) / 2) * 2 ^ k + r) ∧
  (∀ k l t, k < 7 → l < 128 → (shufSrc (48 + k) l).testBit t = l.testBit (if t ≤ k then k - t else t)) ∧
  (∀ l, l < 128 → shufSrc 7 l = 127 - l ∧ shufSrc 31 l = 0 ∧ ∀ n ∈ [15, 23, 39, 47, 55, 63], shufSrc n l = l)

/-- R182 and R184. -/
def Obligations.VectorCompareAndMasks : Prop := ∀ (s : State) (g : Guard) (m a b y z : Code) (x : Ext),
  let val := fun (u : State) (c : Code) (l : Nat) => decodeTy (vxT x) (elem (vxT x) (u.rdV c) l)
  let cmp := fun (op : Instr) (whenNaN : Bool) (rel : Bool → Bool → Bool) => s.runs op = true →
    let u := s.entered op
    ∃ k : Mask, exec op s = .next (u.later 4 0 (.mask m.toNat k)) ∧ ∀ l, l < 128 →
      k.getLsbD l = ((u.maskAt (vxM x)).getLsbD l &&
        if isNaN (val u a l) || isNaN (val u b l) then whenNaN
        else rel (Machine.Num.lt false (val u a l) (val u b l)) (Machine.Num.lt false (val u b l) (val u a l)))
  let mask := fun (u : State) (k : Code) => u.maskAt k.toNat
  let comb := fun (op : Instr) (f : Mask → Mask → Mask) => s.runs op = true →
    exec op s = .next ((s.entered op).later 4 0 (.mask m.toNat (f (mask (s.entered op) y) (mask (s.entered op) z))))
  cmp (.vcmpEq g m a b x) false (fun lt gt => !lt && !gt) ∧ cmp (.vcmpNe g m a b x) true (fun lt gt => lt || gt) ∧
  cmp (.vcmpLt g m a b x) false (fun lt _ => lt) ∧ cmp (.vcmpLe g m a b x) false (fun _ gt => !gt) ∧
  cmp (.vcmpGt g m a b x) false (fun _ gt => gt) ∧ cmp (.vcmpGe g m a b x) false (fun lt _ => !lt) ∧
  cmp (.vcmpUn g m a b x) true (fun _ _ => false) ∧
  comb (.vmaskAnd g m y z) (fun p q => p &&& q) ∧ comb (.vmaskOr g m y z) (fun p q => p ||| q) ∧
  comb (.vmaskXor g m y z) (fun p q => p ^^^ q) ∧ comb (.vmaskAndn g m y z) (fun p q => p &&& ~~~q) ∧
  comb (.vmaskNot g m y) (fun p _ => ~~~p) ∧
  (m = 0 ∨ 8 ≤ m.toNat → exec (.vcmpEq g m a b x) s = s.illegal ∧ exec (.vcmpNe g m a b x) s = s.illegal ∧
    exec (.vcmpLt g m a b x) s = s.illegal ∧ exec (.vcmpLe g m a b x) s = s.illegal ∧ exec (.vcmpGt g m a b x) s = s.illegal ∧
    exec (.vcmpGe g m a b x) s = s.illegal ∧ exec (.vcmpUn g m a b x) s = s.illegal) ∧
  (m = 0 ∨ 8 ≤ m.toNat ∨ 8 ≤ y.toNat → exec (.vmaskNot g m y) s = s.illegal) ∧
  (m = 0 ∨ 8 ≤ m.toNat ∨ 8 ≤ y.toNat ∨ 8 ≤ z.toNat → exec (.vmaskAnd g m y z) s = s.illegal ∧
    exec (.vmaskOr g m y z) s = s.illegal ∧ exec (.vmaskXor g m y z) s = s.illegal ∧ exec (.vmaskAndn g m y z) s = s.illegal)

/-- R188 (with the tree of R160) and R187. That the NX and UF of VRED.add are judged against the exact sum is log 72's reading of R167. -/
def Obligations.VectorReduceAndConvert : Prop := ∀ (s : State) (g : Guard) (r : BitVec 3) (d a : Code) (x : Ext),
  let ty := vxT x
  let ext := fun (e : Nat) => if ty = 3 then (BitVec.ofNat 8 e).signExtend 64 else if ty = 4 then (BitVec.ofNat 32 e).signExtend 64
    else BitVec.ofNat 64 e
  let sel := fun (u : State) => ((List.range 128).filter fun l => (u.maskAt (vxM x)).getLsbD l).map fun l => elem ty (u.rdV a) l
  let best := fun (u : State) (largest : Bool) (w : Word) (empty : Nat) =>
    (sel u = [] → w = ext empty) ∧
    ((∃ e ∈ sel u, isNaN (decodeTy ty e) = true) → w = ext (canonNaN ty)) ∧
    (sel u ≠ [] → (∀ e ∈ sel u, isNaN (decodeTy ty e) = false) → ∃ e ∈ sel u, w = ext e ∧ ∀ f ∈ sel u,
      Machine.Num.lt true (decodeTy ty (if largest then e else f)) (decodeTy ty (if largest then f else e)) = false)
  let signMax := fun (f b : Nat) => if ty = 0 then f * 2 ^ 16 else if ty = 1 then f else b
  (s.runs (.vredAdd g d a x) = true →
    let u := s.entered (.vredAdd g d a x)
    ∃ (w : Word) (c : Causes), exec (.vredAdd g d a x) s = .next (u.putS 9 c d w) ∧
      (ty = 3 → c = 0 ∧ w = BitVec.ofInt 64 ((sel u).map fun e => (BitVec.ofNat 8 e).toInt).sum) ∧
      (ty = 4 → c = 0 ∧ w = BitVec.ofInt 64 ((sel u).map fun e => (BitVec.ofNat 32 e).toInt).sum) ∧
      (ty < 3 →
        let nums := (List.range 128).map fun l =>
          if (u.maskAt (vxM x)).getLsbD l then decodeTy ty (elem ty (u.rdV a) l) else Machine.Num.fin false 0 0
        ∃ v o, treeSum (nums.map fun n => ((rnd48 n).1, false)) = [(v, o)] ∧
          let z := encodeTy ty (u.rm (vxR x)) u.ftz (fp48 v)
          let exact := nums.foldl (Machine.Num.add (u.rm (vxR x))) (.fin false 0 0)
          w = BitVec.ofNat 64 z.bits ∧ c = z.causes ||| (if o then cOF ||| cNX else 0) |||
            (if isNaN (fp48 v) ∧ ∀ n ∈ nums, isNaN n = false then cNV else 0) ||| offExact ty exact z.bits)) ∧
  (s.runs (.vredMax g d a x) = true →
    let u := s.entered (.vredMax g d a x)
    ∃ w, exec (.vredMax g d a x) s = .next (u.putS 9 0 d w) ∧
      best u true w (if ty < 2 then signMax 0xFF80 0 else if ty = 2 then 0xFF else if ty = 3 then 0x80 else 0x80000000)) ∧
  (s.runs (.vredMin g d a x) = true →
    let u := s.entered (.vredMin g d a x)
    ∃ w, exec (.vredMin g d a x) s = .next (u.putS 9 0 d w) ∧
      best u false w (if ty < 2 then signMax 0x7F80 0 else if ty < 4 then 0x7F else 0x7FFFFFFF)) ∧
  (s.runs (.vcvt g r d a x) = true →
    let u := s.entered (.vcvt g r d a x)
    let to_ := vxM x
    let rm := if r = 7 then (u.cur.rnd.toNat % 8) else r.toNat
    let e := fun (l : Nat) => elem ty (u.rdV a) l
    let o := fun (l : Nat) => encodeTy to_ rm u.ftz (decodeTy ty (e l))
    ∃ (v : Vec) (c : Causes), exec (.vcvt g r d a x) s = .next (u.putV 3 c d v) ∧
      (∀ l, l < 128 → (v.lane l).toNat =
        if ty = to_ then (if ty < 3 ∧ isNaN (decodeTy ty (e l)) then canonNaN ty else e l) % 2 ^ 32 else (o l).bits % 2 ^ 32) ∧
      ∀ k, c.getLsbD k = true ↔ ty ≠ to_ ∧ ∃ l, l < 128 ∧ (o l).causes.getLsbD k = true)

/-- R189 and R190; the modulus is R111's, ABSENT_UNIT R191's. -/
def Obligations.ResidueArithmetic : Prop := ∀ (s : State) (g : Guard) (d a b : Code) (x : Ext),
  let op := fun (i : Instr) (lat group : Nat) (f : (Nat → Nat) → (Nat → Nat) → Nat → Nat → Int) =>
    (s.runs i = true → s.hasRes = true →
      let u := s.entered i
      let m := (NMap.getD u.cur.md (vxR x) 0).toNat
      let ok := m % 2 = 1 ∧ 3 ≤ m
      let A := fun j => residue (u.rdV a) j % m
      let B := fun j => residue (u.rdV b) j % m
      let on := fun j => (u.maskAt (vxM x)).getLsbD (2 * group * (j / group))
      ∃ (v : Vec) (c : Causes), exec i s = .next (u.putV lat c d v) ∧
        (∀ j, j < 64 → residue v j =
          if on j then (if ok then (f A B m j % m).toNat else 0) else residue (u.oldV d) j) ∧
        c = if ok then 0 else cBADMOD) ∧
    (s.hasRes = false → i.wf = true → s.iss.over i = false → s.latchBad i = false → exec i s = s.absent)
  op (.vmodadd g d a b x) 4 1 (fun A B _ j => A j + B j) ∧
  op (.vmodsub g d a b x) 4 1 (fun A B _ j => (A j : Int) - B j) ∧
  op (.vmodmul g d a b x) 8 1 (fun A B _ j => A j * B j) ∧
  op (.vbfly g d a b x) 9 2 (fun A B _ j =>
    if j % 2 = 0 then A j + B j * A (j + 1) else (A (j - 1) : Int) - B (j - 1) * A j) ∧
  op (.vibfly g d a b x) 9 2 (fun A B _ j => if j % 2 = 0 then A j + A (j + 1) else ((A (j - 1) : Int) - A j) * B (j - 1))

/-- R206. -/
def Obligations.ScratchpadAccess : Prop := ∀ (s : State) (g : Guard) (d v a o : Code) (x : Ext),
  let off : Word := match x with | none => o.signExtend 64 | some e => (e ++ o).signExtend 64
  let at_ := fun (u : State) (z : Nat) => ((u.rdS a).toNat + off.toNat * z) % 2 ^ 20
  let here := fun (u : State) (p j : Nat) => Memory.read u.issueSpad ((p + j) % 2 ^ 20)
  let off_ := fun (i : Instr) (z : Nat) => (s.runs i = true → at_ (s.entered i) z % z ≠ 0 → ∃ w0 w1, exec i s = (s.entered i).raise fALIGN w0 w1) ∧
    (s.guardOff i = true → exec i s = .next s)
  (s.runs (.lds g d a o x) = true →
    let u := s.entered (.lds g d a o x)
    at_ u 512 % 512 = 0 → ∃ r : Vec, exec (.lds g d a o x) s = .next (u.putV 6 0 d r) ∧
      ∀ j, j < 512 → r.extractLsb' (8 * j) 8 = here u (at_ u 512) j) ∧
  (s.runs (.ldss g d a o x) = true →
    let u := s.entered (.ldss g d a o x)
    at_ u 8 % 8 = 0 → ∃ r : Word, exec (.ldss g d a o x) s = .next (u.putS 6 0 d r) ∧
      ∀ j, j < 8 → r.extractLsb' (8 * j) 8 = here u (at_ u 8) j) ∧
  (s.runs (.sts g v a o x) = true →
    let u := s.entered (.sts g v a o x)
    at_ u 512 % 512 = 0 → ∃ (p : Nat) (bs : List Byte), exec (.sts g v a o x) s = .next (u.later 2 0 (.store p (at_ u 512) bs)) ∧
      bs.length = 512 ∧ ∀ j, j < 512 → bs[j]? = some ((u.rdV v).extractLsb' (8 * j) 8)) ∧
  (s.runs (.stss g v a o x) = true →
    let u := s.entered (.stss g v a o x)
    at_ u 8 % 8 = 0 → ∃ (p : Nat) (bs : List Byte), exec (.stss g v a o x) s = .next (u.later 2 0 (.store p (at_ u 8) bs)) ∧
      bs.length = 8 ∧ ∀ j, j < 8 → bs[j]? = some ((u.rdS v).extractLsb' (8 * j) 8)) ∧
  off_ (.lds g d a o x) 512 ∧ off_ (.ldss g d a o x) 8 ∧ off_ (.sts g v a o x) 512 ∧ off_ (.stss g v a o x) 8

/-- R198 (port order T0, T1) and R206, with the frame: the due stores of one port perform, those of T1 once none of T0 is left. -/
def Obligations.ScratchpadStorePerforms : Prop := ∀ (s : State) (c x : Nat),
  let due := fun (u : State) (p : Nat) => (u.ctx c x).flight.filter fun f =>
    decide (f.due ≤ (u.ctx c x).clk) && (match f.eff with | .store q _ _ => decide (q = p) | _ => false)
  let port := if due s 0 = [] then 1 else 0
  let covers := fun (a p : Nat) (bs : List Byte) => ∃ j, j < bs.length ∧ (p + j) % 2 ^ 20 = a
  let stands := fun (u : State) (p : Nat) (bs : List Byte) (but : Nat → Prop) => ∀ j, j < bs.length → ¬but ((p + j) % 2 ^ 20) →
    some (Memory.read (u.core c).spad ((p + j) % 2 ^ 20)) = bs[j]?
  (s.core c).spad.wf = true → ∃ t, exec (.scratchpadStorePerform c x) s = .next t ∧
    t.ctx c x = { s.ctx c x with flight := (s.ctx c x).flight.filter fun f => decide (f ∉ due s port) } ∧
    (∀ n, n ≠ x → t.ctx c n = s.ctx c n) ∧ (∀ n, n ≠ c → t.core n = s.core n) ∧
    (∀ a, (∀ f ∈ due s port, ∀ q p bs, f.eff = .store q p bs → ¬covers a p bs) →
      Memory.read (t.core c).spad a = Memory.read (s.core c).spad a) ∧
    (∀ f q p bs, due s port = [f] → f.eff = .store q p bs → bs.length ≤ 2 ^ 20 → stands t p bs fun _ => False) ∧
    (∀ f h p bs r cs, due s 0 = [f] → due s 1 = [h] → f.eff = .store 0 p bs → h.eff = .store 1 r cs →
      bs.length ≤ 2 ^ 20 → cs.length ≤ 2 ^ 20 → ∃ u, exec (.scratchpadStorePerform c x) t = .next u ∧
      (stands u r cs fun _ => False) ∧ stands u p bs fun a => covers a r cs)

/-- R44, R45 and the frame of a landing. -/
def Obligations.ResultLandings : Prop := ∀ (s : State) (c x : Nat),
  let y := s.ctx c x
  let due := y.flight.filter fun f => decide (f.due ≤ y.clk) && !f.isStore
  ∃ t, exec (.resultLanding c x) s = .next t ∧
    let z := t.ctx c x
    z.flight = y.flight.filter (fun f => !(decide (f.due ≤ y.clk) && !f.isStore)) ∧
    (∀ n, (∀ f ∈ due, ∀ v, f.eff ≠ .sreg (some n) v) → z.sAt n = y.sAt n) ∧
    (∀ n, (∀ f ∈ due, ∀ v, f.eff ≠ .vreg (some n) v ∧ f.eff ≠ .vplain n v) → z.vAt n = y.vAt n) ∧
    (∀ m, (∀ f ∈ due, ∀ v, f.eff ≠ .mask m v) → z.maskHeld m = y.maskHeld m) ∧
    (∀ q, (∀ f ∈ due, ∀ v, f.eff ≠ .guardReg q v) → q < 16 → z.guardAt q = y.guardAt q) ∧
    (∀ j, (∀ f ∈ due, ∀ v r, f.eff ≠ .cond j v r) → NMap.getD z.cond j (false, 0) = NMap.getD y.cond j (false, 0)) ∧
    (∀ n, (∀ f ∈ due, f.eff ≠ .clearCard n ∧ (f.pos = n → f.causes = 0)) →
      (∀ f ∈ y.recs, f.due ≤ (s.core c).ccyc → f.pos = n → f.causes = 0) → NMap.getD z.cards n {} = NMap.getD y.cards n {}) ∧
    (∀ f ∈ due, ∀ n v, f.eff = .sreg (some n) v → (∀ h ∈ due, ∀ w, h.eff = .sreg (some n) w → h = f ∨ h.due < f.due) → z.sAt n = v) ∧
    (∀ f ∈ due, ∀ n v, f.eff = .vreg (some n) v →
      (∀ h ∈ due, ∀ w, h.eff = .vreg (some n) w ∨ h.eff = .vplain n w → h = f ∨ h.due < f.due) → z.vAt n = v) ∧
    (z.pc = y.pc ∧ z.loops = y.loops ∧ z.allocS = y.allocS ∧ z.allocV = y.allocV ∧ z.clk = y.clk ∧ z.st = y.st) ∧
    (∀ n, n ≠ x → t.ctx c n = s.ctx c n) ∧ (∀ n, n ≠ c → t.core n = s.core n)

/-- R202 and R200; the field map is R199. -/
def Obligations.TaggedLoadAndFormats : Prop := ∀ (s : State) (g : Guard) (d a k t : Code),
  (s.runs (.ldsTag g d a t) = true →
    let u := s.entered (.ldsTag g d a t)
    let p := (u.rdS a).toNat % 2 ^ 20
    let compressed := (NMap.getD u.curCore.bankfmt (p / 2 ^ 16) 0).testBit 3
    let got := (Memory.read u.issueSpad p).toNat + 256 * (Memory.read u.issueSpad ((p + 1) % 2 ^ 20)).toNat
    (compressed = true → ∃ w0 w1, exec (.ldsTag g d a t) s = u.raise fLAYRANGE w0 w1) ∧
    (compressed = false → p % 4096 ≠ 0 → ∃ w0 w1, exec (.ldsTag g d a t) s = u.raise fALIGN w0 w1) ∧
    (compressed = false → p % 4096 = 0 → got ≠ (u.rdS t).toNat % 2 ^ 16 → ∃ w0 w1, exec (.ldsTag g d a t) s = u.raise fTAG w0 w1) ∧
    (compressed = false → p % 4096 = 0 → got = (u.rdS t).toNat % 2 ^ 16 →
      ∃ r : Vec, exec (.ldsTag g d a t) s = .next (u.putV 6 0 d r) ∧
        ∀ j, j < 512 → r.extractLsb' (8 * j) 8 = Memory.read u.issueSpad ((p + j) % 2 ^ 20))) ∧
  (s.runs (.bfmt g k a) = true → s.hasCmp = true ∨ (s.rdS a).getLsbD 3 = false →
    let u := s.entered (.bfmt g k a)
    let v := (u.rdS a).toNat
    let fmt := (if v % 8 < 6 then v % 8 else 0) + (if s.hasCmp = true ∧ v.testBit 3 = true then 8 else 0)
    let w := u.later 1 0 (.bankfmt k.toNat fmt)
    let was := (NMap.getD u.curCore.bankfmt k.toNat 0).testBit 3
    (v.testBit 3 = true → was = false →
      ∃ p, exec (.bfmt g k a) s = .next (w.later 2 0 (.store p (k.toNat * 2 ^ 16) (List.replicate 512 0)))) ∧
    (v.testBit 3 = false ∨ was = true → exec (.bfmt g k a) s = .next w)) ∧
  (s.runs (.bfmt g k a) = true → s.hasCmp = false → (s.rdS a).getLsbD 3 = true → exec (.bfmt g k a) s = s.absent) ∧
  (s.guardOff (.bfmt g k a) = true → exec (.bfmt g k a) s = .next s)

/-- R209 with R207: FLEV and FPEEK show the FIFO as it stood at the bundle's first issue cycle (R57), each entry in the format it was pushed in
(R261). -/
def Obligations.FifoReads : Prop := ∀ (s : State) (g : Guard) (d f : Code),
  let me := s.iss.core % 2
  let r := s.arr (pairOf s.iss.core)
  let held := r.mode = 2 ∨ r.mode = me
  let first := match s.curCore.first with | some b => b.arr.pos me | none => r.pos me
  let q := if f = 1 then first.fb else first.fa
  let is := fun (i : Instr) (v : Word) =>
    (s.runs i = true → isSupervisor s.iss.core = false → held → exec i s = .next (s.putS 1 0 d v)) ∧
    (s.runs i = true → isSupervisor s.iss.core = false → ¬held → exec i s = s.raise fWINDOW (BitVec.ofNat 64 r.acyc) r.modeWord) ∧
    (isSupervisor s.iss.core = true → i.wf = true → s.iss.over i = false → exec i s = s.absent) ∧
    (2 ≤ f.toNat → exec i s = s.illegal)
  is (.flev g d f) (BitVec.ofNat 64 (q.q.length + q.pushes % 2 ^ 24 * 2 ^ 8 + q.pops % 2 ^ 24 * 2 ^ 32)) ∧
  is (.fpeek g d f) (match q.q with
    | [] => 0
    | (fmt, e) :: _ => let w := tyBits fmt
      if fmt = 5 then e.extractLsb' 0 64
      else BitVec.ofNat 64 (((List.range (64 / w)).map fun i => (e.lane i).toNat % 2 ^ w * 2 ^ (w * i)).sum))

/-- R211 and R208, with the landings of R212 and what each transform unit computes: convert (R214), transpose (R215), gather (R216), SHA-256
(R217), ECDSA (R218), expand and compress (R219); reads of result ports once a result has landed (R213). A convert result's list in global memory
is written entry by entry by requests of their own (R173). That a bank lane counts modulo 16 and a
tile lane modulo 64 is log 82, and that a landed result stands until the next lands log 65. -/
def Obligations.Moves : Prop := ∀ (s : State) (g : Guard) (d t : Code) (n : BitVec 12) (x : Ext) (c : Nat),
  let moves := fun (i : Instr) (v : State → Vec) => s.runs i = true →
    let u := s.entered i
    let p := mvDst d x
    let me := u.curArr.pos (s.iss.core % 2)
    let fifo := if p = 0x40 then me.fa else me.fb
    let deep := if u.curArr.mode = 2 then 32 else 64
    let alone := u.unpush (s.iss.core % 2) (p == 0x41)
    (p < 0x30 → exec i s = .next (u.putV 1 0 d (v u))) ∧
    (0xD0 ≤ p ∧ p ≤ 0xD7 ∨ p = 0xF0 ∨ p = 0xC1 ∨ (p = 0x100 ∧ s.worldOf s.iss.core s.iss.ctx ≠ 0) →
      exec i s = .next (u.unitLater 1 p (.port p (v u)))) ∧
    (p = 0x40 ∨ p = 0x41 → isSupervisor s.iss.core = false → u.curArr.mode = 2 ∨ u.curArr.mode = s.iss.core % 2 →
      (fifo.q.length < deep → ∃ e : Vec, exec i s = .next (alone.arrLater 1 (.push (s.iss.core % 2) (p == 0x41) (mFmt me.mode) e)) ∧
        (mFmt me.mode = 5 → e = v u) ∧
        (mFmt me.mode ≠ 5 → ∀ l, l < 128 → (e.lane l).toNat = ((v u).lane l).toNat % 2 ^ tyBits (mFmt me.mode))) ∧
      ((∀ o ∈ u.iss.ops, moveDst o = some p → u.guardOn o = false) → alone = u) ∧
      (∀ o ∈ u.iss.ops, moveDst o = some p → u.guardOn o = true →
        ∀ f ∈ alone.curArr.flight, f.iss = u.curArr.clk → ∀ n e, f.eff ≠ .push (s.iss.core % 2) (p == 0x41) n e) ∧
      (deep ≤ fifo.q.length → ∃ w0 w1, exec i s = u.raise fTIMING w0 w1))
  let fires := fun (i : Instr) (v : State → Vec) => s.runs i = true →
    let u := s.entered i
    let p := mvDst d x
    let w := v u
    let world := s.worldOf s.iss.core s.iss.ctx
    let port := fun (n : Nat) => u.curCore.port n
    let bytes := fun (k m : Nat) => (List.range m).map fun j => w.extractLsb' (8 * (k + j)) 8
    let spad := fun (a m : Nat) => (List.range m).map fun j => Memory.read u.issueSpad ((a + j) % 2 ^ 20)
    let cmp := fun (b : Nat) => (NMap.getD u.curCore.bankfmt b 0).testBit 3
    ((s.iss.triggers p = true ∨ s.unitTaken p = true) → exec i s = s.illegal) ∧
    (s.iss.triggers p = false → s.unitTaken p = false → s.portGone p = true → exec i s = s.absent) ∧
    (s.iss.triggers p = false → s.unitTaken p = false → s.portGone p = false →
      (0x80 ≤ p → p < 0xC0 →
        let to_ := (p - 0x80) / 8
        let from_ := p % 8
        (movePairOk from_ to_ = false → ∃ w0 w1, exec i s = u.raise fLAYRANGE w0 w1) ∧
        (movePairOk from_ to_ = true → ∃ (t : State) (r : Vec), exec i s = .next t ∧
          (⟨u.curCore.ccyc + 4, 0xC0, .port 0xC0 r⟩ : UFlight) ∈ t.curCore.flight ∧
          ((port 0xC1).getLsbD 4 = true → t = u.unitLater 4 0xC0 (.port 0xC0 r)) ∧
          (to_ = 5 → ∀ j, j < 64 → residue r j = (moveElem from_ 5 (elem from_ w j)).bits % 2 ^ 64) ∧
          (to_ ≠ 5 → ∀ l, l < 128 → (r.lane l).toNat =
            if from_ = 5 ∧ 64 ≤ l then 0 else (moveElem from_ to_ (elem from_ w l)).bits % 2 ^ 32))) ∧
      (0xD8 ≤ p → p ≤ 0xDA → ∃ out : List Vec, exec i s = .next ((u.unitBusy 1 16).unitLater 16 0xE0 (.lines out)) ∧ out.length = 8 ∧
        let b := 2 ^ (p - 0xD8)
        ∀ m r c j, m < 4 / b → r < 32 → c < 32 → j < b →
          let to_ := m * (1024 * b) + (32 * r + c) * b + j
          let from_ := m * (1024 * b) + (32 * c + r) * b + j
          (out.getD (to_ / 512) 0).extractLsb' (8 * (to_ % 512)) 8 = (port (0xD0 + from_ / 512)).extractLsb' (8 * (from_ % 512)) 8) ∧
      (0xF1 ≤ p → p ≤ 0xF3 →
        let n := if p = 0xF1 then 4 else if p = 0xF2 then 2 else 1
        let b := (port 0xF0).toNat % 2 ^ 20
        (b % n ≠ 0 → ∃ w0 w1, exec i s = u.raise fALIGN w0 w1) ∧
        (b % n = 0 → ∃ r : Vec, exec i s = .next (u.unitLater 8 0xF4 (.port 0xF4 r)) ∧
          ∀ l, l < 128 → (r.lane l).toNat = leNat (spad ((b + (w.lane l).toNat * n) % 2 ^ 20) n))) ∧
      (0x100 ≤ p → p ≤ 0x103 → world = 0 → exec i s = u.raise fWORLD 0 0) ∧
      (p = 0x101 → world ≠ 0 →
        let h := shaVec (shaBlock (shaOfVec (port 0x100)) (bytes 0 64))
        exec i s = .next (((u.unitBusy 3 72).unitLater 72 0x100 (.port 0x100 h)).unitLater 72 0x102 (.port 0x102 h))) ∧
      (p = 0x103 → world ≠ 0 → exec i s =
        .next (((u.unitBusy 3 1).unitLater 1 0x100 (.port 0x100 (shaVec shaInit))).unitLater 1 0x102 (.port 0x102 (shaVec shaInit)))) ∧
      (p = 0x111 → (u.cur.proc = false → exec i s = u.raise fPERM 0 (src 2 1)) ∧
        (u.cur.proc = true →
          let n := fun (k : Nat) => beNat (bytes (32 * k) 32)
          exec i s = .next ((u.unitBusy 4 180000).unitLater 180000 0x112
            (.port 0x112 (BitVec.ofNat 4096 (ecdsaVerify (n 0) (n 1) (n 2) (n 3) (n 4))))))) ∧
      (p = 0x120 →
        let bank := (w.lane 0).toNat % 16
        let dst := (w.lane 3).toNat % 2 ^ 20
        let e := leNat (spad (bank * 2 ^ 16 + 8 * ((w.lane 1).toNat % 64)) 8)
        let miss := (w.lane 2).getLsbD 16 = true ∧ e % 2 ^ 16 ≠ (w.lane 2).toNat % 2 ^ 16
        (cmp bank = false ∨ e.testBit 63 = false → ∃ w0 w1, exec i s = u.raise fLAYRANGE w0 w1) ∧
        (cmp bank = true → e.testBit 63 = true → miss → ∃ w0 w1, exec i s = u.raise fTAG w0 w1) ∧
        (cmp bank = true → e.testBit 63 = true → ¬miss → dst % 4096 ≠ 0 → ∃ w0 w1, exec i s = u.raise fALIGN w0 w1) ∧
        (cmp bank = true → e.testBit 63 = true → ¬miss → dst % 4096 = 0 → cmp (dst / 2 ^ 16) = true → ∃ w0 w1, exec i s = u.raise fLAYRANGE w0 w1) ∧
        (cmp bank = true → e.testBit 63 = true → ¬miss → dst % 4096 = 0 → cmp (dst / 2 ^ 16) = false →
          let r := match expandTile u.issueSpad bank e with | some bs => (bs, e / 2 ^ 28 % 2 ^ 13) | none => (List.replicate 4096 0, 2 ^ 32 - 1)
          exec i s = .next (((u.unitBusy 5 48).unitLater 48 0 (.write dst r.1)).unitLater 48 0x122 (.port 0x122 (BitVec.ofNat 4096 r.2))))) ∧
      (p = 0x121 →
        let from_ := (w.lane 0).toNat % 2 ^ 20
        let bank := (w.lane 1).toNat % 16
        let start := (w.lane 3).toNat
        let formats := cmp (from_ / 2 ^ 16) = false ∧ cmp bank = true
        let fits := 32 ≤ start ∧ 16 * start + 4096 ≤ 65536
        (from_ % 4096 ≠ 0 → ∃ w0 w1, exec i s = u.raise fALIGN w0 w1) ∧
        (from_ % 4096 = 0 → ¬(formats ∧ fits) → ∃ w0 w1, exec i s = u.raise fLAYRANGE w0 w1) ∧
        (from_ % 4096 = 0 → formats → fits →
          let t := compressTile (spad from_ 4096)
          let len := t.2.length / 16
          let e := 2 ^ 63 + (if t.1 then 2 ^ 62 else 0) + len * 2 ^ 28 + start * 2 ^ 16 + (w.lane 4).toNat % 2 ^ 16
          exec i s = .next ((((u.unitBusy 5 72).unitLater 72 0 (.write (bank * 2 ^ 16 + 16 * start) t.2)).unitLater 72 0
            (.write (bank * 2 ^ 16 + 8 * ((w.lane 2).toNat % 64)) (leBytes 8 e))).unitLater 72 0x122 (.port 0x122 (lane0 len))))))
  (mvSrc t x < 0x40 → moves (.mv g d t x) (fun u => u.rdVn (mvSrc t x)) ∧ fires (.mv g d t x) fun u => u.rdVn (mvSrc t x)) ∧
  (let q := mvSrc t x
   let i : Instr := .mv g d t x
   let open_ := s.iss.triggers (mvDst d x) = false ∧ s.unitTaken (mvDst d x) = false ∧ s.portGone (mvDst d x) = false ∧ s.portGone q = false
   (∀ w, 0x40 ≤ q → NMap.get? s.curCore.ports q = some w → s.portGone q = false → (q = 0x102 → s.worldOf s.iss.core s.iss.ctx ≠ 0) →
     (q = 0x112 → s.cur.proc = true) → moves i (fun _ => w) ∧ fires i fun _ => w) ∧
   (q = 0x102 → s.worldOf s.iss.core s.iss.ctx = 0 → open_ → s.runs i = true → exec i s = (s.entered i).raise fWORLD 0 0) ∧
   (q = 0x112 → s.cur.proc = false → open_ → s.runs i = true → exec i s = (s.entered i).raise fPERM 0 (src 2 1))) ∧
  (moves (.mvi g d n x) (fun _ => BitVec.ofNat 4096 (n.signExtend 32).toNat) ∧
    fires (.mvi g d n x) fun _ => BitVec.ofNat 4096 (n.signExtend 32).toNat) ∧
  (∃ r, exec (.unitResultLanding c) s = .next r) ∧
  (∀ f p v, (s.core c).flight = [f] → f.due ≤ (s.core c).ccyc → f.eff = .port p v →
    exec (.unitResultLanding c) s = .next (s.modCore c fun k => { k with flight := [], ports := NMap.set k.ports p v })) ∧
  ((∀ f ∈ (s.core c).flight, (s.core c).ccyc < f.due) →
    ((s.core c).lists = [] → exec (.unitResultLanding c) s = .next s) ∧
    (∀ o rest, (s.core c).lists = o :: rest →
      (s.listClear o.by_ 0 o.peer o.world o.base o.len 1 = false → exec (.unitResultLanding c) s = .next s) ∧
      (∀ t, s.listClear o.by_ 0 o.peer o.world o.base o.len 1 = true → s.outAll { o with es := o.es.take 1 } = (t, none) →
        ∃ u, exec (.unitResultLanding c) s = .next u ∧ u.dies = t.dies ∧
          if o.es.length ≤ 1 then (u.core c).lists = rest else ∃ r, (u.core c).lists = { o with es := o.es.drop 1, ridx := some r } :: rest)))

/-- R262 to R265 and R267 with R258, R270 and R276; the contribution's own sums are the model's `colSums`. A drain reports the row's
sticky OF, and SAT of INT8 sums apart from it (log 92). FIFO entries are those that stood at
the bundle's first issue cycle (R57). -/
def Obligations.Beats : Prop := ∀ (s : State) (g : Guard) (st w : BitVec 2) (p : BitVec 1) (r : Code) (o : BitVec 12) (x : Ext),
  let i : Instr := .xbeat g st w p r o x
  let u := s.entered i
  let me := s.iss.core % 2
  let a := u.arr (pairOf s.iss.core)
  let q := a.pos me
  let first := match u.curCore.first with | some b => b.arr.pos me | none => q
  let fmt := mFmt q.mode
  let kr := mKr q.mode
  let nc := mNc q.mode
  let streams := st = 1 ∨ st = 2
  let two := fmt = 2 ∨ fmt = 3
  let rows := if st = 0 then [] else if streams ∧ two then [r.toNat, r.toNat + 1] else [r.toNat]
  let mine := (a.mode = 2 ∨ a.mode = me) ∧ (a.mode = 2 → a.acyc % (2 * 2 ^ a.wsz) / 2 ^ a.wsz = me ∧ ∀ k ∈ rows, k / 32 = me)
  let apart := st = 0 ∨ ∀ t, q.lastRes = some t → t + 4 ≤ a.clk
  let need := if two then 2 else 1
  let asks := fun (n : Nat) (e : AEff) => (⟨a.clk + n, a.clk, e⟩ : AFlight)
  let contribution := fun (j : Nat) =>
    let sums := colSums fmt kr nc q.mod (first.fa.q.getD j (0, 0)).2 q.act
    asks (if fmt = 5 then 8 + 4 * kr + nc else 6 + kr + nc) (.contrib me (r.toNat + j) (decide (st = 1)) fmt nc q.mod sums.1 sums.2
      (if mCk q.mode = true ∧ s.iss.c = true then some (rowPredict fmt kr (first.fa.q.getD j (0, 0)).2 q.act) else none) q.act.tag)
  let base := if st = 3 then o.toNat / 64 else o.toNat
  let shadow := fun (v : Vec) (tag : Nat) => asks 1 (.shadow me q.srp v (rowSum32 fmt v nc) tag kr)
  let weights := if w = 1 then [asks 1 (.popB me), shadow (first.fb.q.headD (0, 0)).2 0]
    else if w = 2 then [shadow (a.routed fmt q.sel base q.srp) q.sel] else []
  let swaps := if p = 1 then [asks 1 (.swap me)] else []
  let goes := s.runs i = true ∧ isSupervisor s.iss.core = false ∧ apart
  let types := x.byte.toNat % 8 = 5 ↔ fmt = 5
  let sticky := (if a.of_.getLsbD r.toNat then cOF else 0) ||| (if a.sat_.getLsbD r.toNat then cSAT else 0)
  (goes → mine → (w = 1 → first.fb.q ≠ []) →
    (st = 0 → ∃ t, exec i s = .next t ∧ (t.arr (pairOf s.iss.core)).flight = a.flight ++ weights ++ swaps) ∧
    (streams → (two → r.toNat % 2 = 0) → need ≤ first.fa.q.length →
      ∃ t, exec i s = .next t ∧ (t.arr (pairOf s.iss.core)).flight =
        a.flight ++ (List.range need).map contribution ++ [asks 1 (.popA me need)] ++ weights ++ swaps) ∧
    (st = 3 → types → fmt ≠ 5 → ∃ (t : State) (v : Vec) (c : Causes), exec i s = .next t ∧
      (∃ f ∈ t.cur.flight, f.due = u.cur.clk + (4 + u.heldFor) ∧ f.causes = c ∧ f.eff = .vreg (u.dstV (o.extractLsb' 0 6)) v) ∧
      (∃ f ∈ (t.arr (pairOf s.iss.core)).flight, f.due = a.clk + 1 ∧ f.eff = .ldc me (NMap.getD a.coord r.toNat 0)) ∧ c &&& sticky = sticky ∧
      ∀ l, l < 128 → (v.lane l).toNat = if l < nc then (encodeTy (x.byte.toNat % 8) (u.cur.rnd.toNat % 8) u.ftz
        (accNum fmt (rowEl (a.row r.toNat) l))).bits % 2 ^ 32 else 0) ∧
    (st = 3 → types → fmt = 5 → ∃ (t : State) (v : Vec), exec i s = .next t ∧
      (∃ f ∈ t.cur.flight, f.due = u.cur.clk + (4 + u.heldFor) ∧ f.causes = (sticky ||| (if q.mod = 0 then cBADMOD else 0)) ∧
        f.eff = .vreg (u.dstV (o.extractLsb' 0 6)) v) ∧
      (∃ f ∈ (t.arr (pairOf s.iss.core)).flight, f.due = a.clk + 1 ∧ f.eff = .ldc me (NMap.getD a.coord r.toNat 0)) ∧
      ∀ j, j < 64 → residue v j = if j < nc ∧ q.mod ≠ 0 then rowEl (a.row r.toNat) j % q.mod else 0)) ∧
  (goes → ¬mine → ∃ w0 w1, exec i s = u.raise fWINDOW w0 w1) ∧
  (goes → mine → streams → two → r.toNat % 2 = 1 → ∃ w0 w1, exec i s = u.raise fLAYRANGE w0 w1) ∧
  (goes → mine → st = 3 → ¬types → ∃ w0 w1, exec i s = u.raise fLAYRANGE w0 w1) ∧
  (goes → mine → streams → (two → r.toNat % 2 = 0) → first.fa.q.length < need → ∃ w0 w1, exec i s = u.raise fTIMING w0 w1) ∧
  (goes → mine → (streams → (two → r.toNat % 2 = 0) ∧ need ≤ first.fa.q.length) → (st = 3 → types) → w = 1 → first.fb.q = [] →
    ∃ w0 w1, exec i s = u.raise fTIMING w0 w1) ∧
  (isSupervisor s.iss.core = true → i.wf = true → s.iss.over i = false → s.latchBad i = false → apart → exec i s = s.absent)

/-- R259, R261, R271, R275, R277. -/
def Obligations.ArrayControls : Prop := ∀ (s : State) (g : Guard) (a b k r : Code) (c x : Nat),
  let me := s.iss.core % 2
  let pair := pairOf s.iss.core
  let A := s.arr pair
  let owns := A.mode = 2 ∨ A.mode = me
  let inside := owns ∧ (A.mode = 2 → A.acyc % (2 * 2 ^ A.wsz) / 2 ^ A.wsz = me)
  let row := A.mode = 2 → r.toNat / 32 = me
  let compute := isSupervisor s.iss.core = false
  (s.runs (.xmode g a) = true → compute → A.inFlight me = false → s.hasRes = false → (s.rdS a).toNat % 8 = 5 →
    exec (.xmode g a) s = s.absent) ∧
  (s.runs (.xmode g a) = true → compute → A.inFlight me = false → s.hasRes = true ∨ (s.rdS a).toNat % 8 ≠ 5 →
    let u := s.entered (.xmode g a)
    let m := (u.rdS a).toNat
    let f := m % 8
    let kr := m / 2 ^ 8 % 128 + 1
    let nc := m / 2 ^ 16 % 128 + 1
    let ck := m.testBit 24
    let tau := decodeBin 23 (m / 2 ^ 32)
    let legal := m / 2 ^ 25 % 128 = 0 ∧ m / 2 ^ 23 % 2 = 0 ∧ m / 2 ^ 15 % 2 = 0 ∧ m / 8 % 32 = 0 ∧ (f < 4 ∨ f = 5) ∧
      (f = 0 → kr ≤ 64 ∧ nc ≤ 64) ∧ (f = 5 → kr ≤ 32 ∧ nc ≤ 32) ∧
      (ck = true → f ≠ 3 ∧ f ≠ 5 ∧ ∃ z n e, tau = .fin z n e ∧ (z = true → n = 0))
    (inside → legal → exec (.xmode g a) s = .next (u.arrLater 1 (.xmode me (u.rdS a)))) ∧
    (inside → ¬legal → ∃ w0 w1, exec (.xmode g a) s = u.raise fLAYRANGE w0 w1) ∧
    (¬inside → ∃ w0 w1, exec (.xmode g a) s = u.raise fWINDOW w0 w1)) ∧
  (A.inFlight me = true → exec (.xmode g a) s = s.illegal) ∧
  (s.runs (.xzero g r) = true → compute →
    (inside → row → exec (.xzero g r) s = .next (s.arrLater 1 (.xzero r.toNat))) ∧
    (¬(inside ∧ row) → ∃ w0 w1, exec (.xzero g r) s = s.raise fWINDOW w0 w1)) ∧
  (s.runs (.xres g k) = true → compute → s.hasRes = true → inside →
    exec (.xres g k) s = .next (s.arrLater 1 (.xres me (NMap.getD s.cur.md k.toNat 0)))) ∧
  (s.runs (.xres g k) = true → compute → s.hasRes = true → ¬inside → ∃ w0 w1, exec (.xres g k) s = s.raise fWINDOW w0 w1) ∧
  (s.runs (.xres g k) = true → s.hasRes = false → exec (.xres g k) s = s.absent) ∧
  (s.runs (.xwin g a) = true → compute →
    let u := s.entered (.xwin g a)
    let n := (u.rdS a).toNat % 16
    let fits := if A.mode = 2 then n < 2 * 2 ^ A.wsz else n = 0
    (owns → fits → exec (.xwin g a) s = .next { u with iss := { u.iss with wait := u.iss.wait ++ [.win n], yield := true } }) ∧
    (owns → ¬fits → ∃ w0 w1, exec (.xwin g a) s = u.raise fLAYRANGE w0 w1) ∧
    (¬owns → ∃ w0 w1, exec (.xwin g a) s = u.raise fWINDOW w0 w1)) ∧
  (s.runs (.xinj g r a b) = true → compute →
    let u := s.entered (.xinj g r a b)
    let v := (u.rdS a).toNat
    (u.cur.proc = false → s.dbg = false → ∃ w0 w1, exec (.xinj g r a b) s = u.raise fPERM w0 w1) ∧
    (u.cur.proc = true ∨ s.dbg = true → ¬inside → ∃ w0 w1, exec (.xinj g r a b) s = u.raise fWINDOW w0 w1) ∧
    (u.cur.proc = true ∨ s.dbg = true → inside → v < 256 →
      exec (.xinj g r a b) s = .next (u.arrLater 1 (.flip r.toNat (v % 128) (decide (128 ≤ v)) ((u.rdS b).setWidth 48)))) ∧
    (u.cur.proc = true ∨ s.dbg = true → inside → 256 ≤ v → ∃ w0 w1, exec (.xinj g r a b) s = u.raise fLAYRANGE w0 w1)) ∧
  (∀ n, (s.ctx c x).st = .wait [.win n] →
    let B := s.arr (pairOf c)
    (B.mode ≠ 2 ∨ B.acyc % (2 * 2 ^ B.wsz) = n → ∃ t, exec (.xwinWake c x) s = .next t ∧ (t.ctx c x).st = .ready) ∧
    (B.mode = 2 → B.acyc % (2 * 2 ^ B.wsz) ≠ n → exec (.xwinWake c x) s = .next (s.modCtx c x id)))

/-- R273 and R274. -/
def Obligations.ChecksumVerdicts : Prop := ∀ (s : State) (g : Guard) (d a b : Code),
  let me := s.iss.core % 2
  let pair := pairOf s.iss.core
  let A := s.arr pair
  let q := A.pos me
  let inside := (A.mode = 2 ∨ A.mode = me) ∧ (A.mode = 2 → A.acyc % (2 * 2 ^ A.wsz) / 2 ^ A.wsz = me)
  let compute := isSupervisor s.iss.core = false
  let block := fun (v : Word) => (List.range (v.toNat / 2 ^ 8 % 64 + 1)).map fun i => v.toNat % 64 + i
  let legal := fun (v : Word) => v.toNat / 2 ^ 6 % 4 = 0 ∧ v.toNat / 2 ^ 14 = 0 ∧ v.toNat % 64 + (v.toNat / 2 ^ 8 % 64 + 1) ≤ 64
  let mine := fun (v : Word) => A.mode = 2 → ∀ k ∈ block v, k / 32 = me
  (s.runs (.xcks g d a b) = true → compute → inside →
    let u := s.entered (.xcks g d a b)
    let v := u.rdS a
    let t := (u.rdS b).toNat % 2 ^ 32
    let tau := decodeBin 23 t
    let fits := ∃ z n e, tau = .fin z n e ∧ (z = true → n = 0)
    (¬fits ∨ ¬legal v ∨ mCk q.mode = false → ∃ w0 w1, exec (.xcks g d a b) s = u.raise fLAYRANGE w0 w1) ∧
    (fits → legal v → mCk q.mode = true → ¬mine v → ∃ w0 w1, exec (.xcks g d a b) s = u.raise fWINDOW w0 w1) ∧
    (fits → legal v → mCk q.mode = true → mine v →
      let nc := mNc q.mode
      let el := fun (k c : Nat) => fp48 (rowEl (A.row k) c)
      let unchecked := (block v).any fun k => !q.checked.getLsbD k
      let fr := (block v).filter fun k => !q.checked.getLsbD k ||
        sumFails tau (sum48 ((List.range nc).map fun c => el k c)) (fp48 (NMap.getD A.rpred k 0))
      let fc := (List.range nc).filter fun c => unchecked ||
        sumFails tau (sum48 ((block v).map fun k => el k c)) (fp48 (NMap.getD q.cpred c 0))
      ∃ t, exec (.xcks g d a b) s = .next t ∧
        (∃ f ∈ t.cur.flight, f.due = u.cur.clk + (10 + u.heldFor) ∧ f.causes = 0 ∧ f.eff = .sreg (u.dstS d) (BitVec.ofNat 64
          (fr.length + fc.length * 2 ^ 8 + (if unchecked then 2 ^ 61 else 0) + (if fr = [] ∧ fc = [] then 0 else 2 ^ 63)))) ∧
        ((t.arr pair).pos me).cpred = [] ∧ ((t.arr pair).pos me).checked = 0 ∧
        ∃ f ∈ (t.arr pair).flight, f.due = A.clk + 10 ∧ ∃ FR FC, f.eff = .verdict me FR FC
              ((block v).map fun k => (k, (rnd48 (Machine.Num.add 0 (sum48 ((List.range nc).map fun c => el k c)) (fp48 (NMap.getD A.rpred k 0)).neg)).1))
              ((List.range nc).map fun c => (c, (rnd48 (Machine.Num.add 0 (sum48 ((block v).map fun k => el k c)) (fp48 (NMap.getD q.cpred c 0)).neg)).1))
              unchecked ∧
          (∀ k, k < 64 → FR.getLsbD k = decide (k ∈ fr)) ∧ ∀ c, c < 128 → FC.getLsbD c = decide (c ∈ fc))) ∧
  (s.runs (.xfix g d a) = true → compute → inside →
    let u := s.entered (.xfix g d a)
    let v := u.rdS a
    let fr := (block v).filter fun k => q.fr.getLsbD k
    let fc := (List.range 128).filter fun c => q.fc.getLsbD c
    let counts := fr.length + fc.length * 2 ^ 8
    (¬legal v ∨ mCk q.mode = false → ∃ w0 w1, exec (.xfix g d a) s = u.raise fLAYRANGE w0 w1) ∧
    (legal v → mCk q.mode = true → mine v →
      (q.ux = true ∨ 2 ≤ fr.length * fc.length → ∃ w0 w1, exec (.xfix g d a) s = u.raise fCHECKSUM w0 w1) ∧
      (q.ux = false → fr = [] → fc = [] → exec (.xfix g d a) s = .next ((u.arrLater 10 (.busy me)).putS (10 + u.heldFor) 0 d 0)) ∧
      (∀ k c, q.ux = false → fr = [k] → fc = [c] →
        exec (.xfix g d a) s = .next (((u.arrLater 10 (.busy me)).arrLater 10
          (.fix me (some { row := k, col := c, pre := rowEl (A.row k) c }))).putS (10 + u.heldFor) 0 d (BitVec.ofNat 64 (c * 2 ^ 8 + k + 2 ^ 63)))) ∧
      (q.ux = false → (fr = [] ∧ fc ≠ []) ∨ (fr ≠ [] ∧ fc = []) → exec (.xfix g d a) s =
        .next (((u.arrLater 10 (.busy me)).arrLater 10 (.fix me none)).putS (10 + u.heldFor) 0 d (BitVec.ofNat 64 (counts + 2 ^ 62)))))) ∧
  (∀ (B : Arr) (late : Nat → Bool) (p : Nat) (x : FixAt), x.col < 128 →
    let C := B.land late (.fix p (some x))
    let v := (rnd48 (Machine.Num.add 0 (fp48 x.pre) (fp48 (NMap.getD (B.pos p).cres x.col 0)).neg)).1
    (x.late = [] → rowEl (C.row x.row) x.col = v % 2 ^ 64) ∧
    (∀ k, x.late = [k] → rowEl (C.row x.row) x.col = (if late 0 then (accAdd k.fmt k.modulus k.shift v k.sum).1 else v) % 2 ^ 64) ∧
    (∀ c, c < 128 → c ≠ x.col → rowEl (C.row x.row) c = rowEl (B.row x.row) c) ∧ (∀ k, k ≠ x.row → C.row k = B.row k) ∧
    (C.pos p).fr = 0 ∧ (C.pos p).fc = 0)

/-- R264, R268, R271, R263: landings and their frames; field by field those of XMODE (R261), XRES (R275), XINJ (R277), an XCKS verdict and a drain's
row test (R272, R273), a push into the shadow plane (R263), GSEL (R292), GLOAD (R285, R286), GCHK (R290) and each addition of a GORB (R296). That an
emptied FIFO keeps FLEV's counts is the model's choice (log 105). -/
def Obligations.ArrayLandings : Prop := ∀ (s : State) (n : Nat),
  let lands := fun (i : Instr) (kind : AEff → Bool) => ∀ f, (s.arr n).dueOf kind = some f →
    ∃ (t : State) (late : Nat → Bool), exec i s = .next t ∧ t.arr n = ((s.arr n).without f).land late f.eff ∧ t.cores = s.cores
  lands (.contributionLanding n) isContrib ∧ lands (.arrayEffectLanding n) (fun e => isOther e && !isMode e) ∧
  ((s.arr n).dueOf (fun e => isOther e && !isMode e) = none → lands (.arrayEffectLanding n) isMode) ∧ lands (.gorbLanding n) isOrb ∧
  lands (.groupLoadLanding n) isGroupLoad ∧
  (∀ f, (s.arr n).dueOf isVerdict = some f → ∃ (t : State) (late : Nat → Bool), exec (.gchkVerdict n) s = .next t ∧
    t.arr n = ((s.arr n).without f).land late f.eff ∧
    (∀ k d st c x ge l w, f.eff = .gchkEnd k d st c x ge l w → st.getLsbD 0 = false → (s.ctx c x).gen = ge → (s.ctx c x).st ≠ .free →
      ∃ y ∈ (t.ctx c x).deferred, y.code = fGROUP ∧ y.d0 = st ∧ y.d1 = BitVec.ofNat 64 w)) ∧
  (∀ (A : Arr) (late : Nat → Bool) (p row : Nat) (sh : Bool) (fmt nc m : Nat) (sums : List Machine.Num) (o : Bool) (q : Option Machine.Num) (tag : Nat),
    let B := A.land late (.contrib p row sh fmt nc m sums o q tag)
    (∀ r, r ≠ row → B.row r = A.row r ∧ NMap.getD B.coord r 0 = NMap.getD A.coord r 0 ∧ NMap.getD B.rpred r 0 = NMap.getD A.rpred r 0) ∧
    (∀ c, c < 128 → rowEl (B.row row) c = if c < nc then (accAdd fmt m sh (rowEl (A.row row) c) (sums.getD c (.fin false 0 0))).1 % 2 ^ 64
      else rowEl (A.row row) c) ∧
    B.p0.fa = A.p0.fa ∧ B.p0.act = A.p0.act ∧ B.p0.mode = A.p0.mode ∧ B.p1.fa = A.p1.fa ∧ B.p1.act = A.p1.act ∧ B.tables = A.tables) ∧
  (∀ (A : Arr) (late : Nat → Bool) (k n : Nat) (e : Vec),
    (A.land late (.popA 0 k)).p0.fa.q = A.p0.fa.q.drop k ∧ (A.land late (.popA 0 k)).p0.fb = A.p0.fb ∧
    (A.land late (.push 0 false n e)).p0.fa.q = A.p0.fa.q ++ [(n, e)] ∧ (A.land late (.push 1 true n e)).p1.fb.q = A.p1.fb.q ++ [(n, e)] ∧
    (A.land late (.swap 0)).p0.act = A.p0.shadow ∧ (A.land late (.swap 0)).p0.shadow = A.p0.act ∧ (A.land late (.swap 0)).p0.srp = 0 ∧
    (A.land late (.xzero k)).row k = 0 ∧ (∀ r, r ≠ k → (A.land late (.xzero k)).row r = A.row r) ∧
    NMap.getD (A.land late (.xzero k)).rpred k 0 = 0 ∧ NMap.getD (A.land late (.xzero k)).coord k 0 = 0 ∧
    ∀ r, r < 64 → (A.land late (.xzero k)).of_.getLsbD r = (A.of_.getLsbD r && decide (r ≠ k))) ∧
  (∀ (A : Arr) (late : Nat → Bool) (p : Nat), p = 0 ∨ p = 1 →
    let q := A.pos p
    let alone := fun (e : AEff) => (A.land late e).pos (1 - p) = A.pos (1 - p) ∧ (A.land late e).rows = A.rows
    (∀ w : Word, let r := (A.land late (.xmode p w)).pos p
      alone (.xmode p w) ∧ r.mode = w ∧ r.srp = 0 ∧ r.cpred = [] ∧ r.ux = false ∧ r.checked = 0 ∧
      (w.toNat % 8 ≠ q.mode.toNat % 8 → r.fa.q = [] ∧ r.fb.q = [] ∧ r.fa.pushes = q.fa.pushes ∧ r.fa.pops = q.fa.pops) ∧
      (w.toNat % 8 = q.mode.toNat % 8 → r.fa = q.fa ∧ r.fb = q.fb) ∧
      r.sel = (if w.toNat % 8 = q.mode.toNat % 8 ∧ w.toNat / 2 ^ 8 % 2 ^ 7 = q.mode.toNat / 2 ^ 8 % 2 ^ 7 then q.sel else 0) ∧
      r.act = q.act ∧ r.shadow = q.shadow ∧ r.modulus = q.modulus ∧ r.fr = q.fr ∧ r.fc = q.fc ∧ r.ldc = q.ldc) ∧
    (∀ m : Word, alone (.xres p m) ∧ (A.land late (.xres p m)).pos p = { q with modulus := m }) ∧
    (∀ g : Nat, alone (.gsel p g) ∧ (A.land late (.gsel p g)).pos p = { q with sel := g }) ∧
    (∀ (row : Nat) (v : Vec) (rs tag kr : Nat), let r := (A.land late (.shadow p row v rs tag kr)).pos p
      alone (.shadow p row v rs tag kr) ∧ (∀ k, NMap.getD r.shadow.rows k 0 = if k = row then v else NMap.getD q.shadow.rows k 0) ∧
      (∀ k, NMap.getD r.shadow.rs k 0 = if k = row then rs else NMap.getD q.shadow.rs k 0) ∧ r.shadow.tag = tag ∧
      r.srp = (if row + 1 = kr then 0 else row + 1) ∧ r.act = q.act ∧ r.mode = q.mode ∧ r.sel = q.sel ∧ r.fa = q.fa ∧ r.fb = q.fb) ∧
    (∀ (fr : BitVec 64) (fc : BitVec 128) (rr cr : List (Nat × Nat)) (ux : Bool), let r := (A.land late (.verdict p fr fc rr cr ux)).pos p
      let holds := fun (l : List (Nat × Nat)) (m m' : NMap Nat) => ∀ k v, ((∃ e ∈ l, e.1 = k) → (∀ e ∈ l, e.1 = k → e.2 = v) → NMap.getD m' k 0 = v) ∧
        ((∀ e ∈ l, e.1 ≠ k) → NMap.getD m' k 0 = NMap.getD m k 0)
      alone (.verdict p fr fc rr cr ux) ∧ r.fr = fr ∧ r.fc = fc ∧ r.ux = ux ∧ holds rr q.rres r.rres ∧ holds cr q.cres r.cres ∧
      r.cpred = q.cpred ∧ r.checked = q.checked ∧ r.mode = q.mode) ∧
    (∀ row v : Nat, let r := (A.land late (.rowFail p row v)).pos p
      alone (.rowFail p row v) ∧ (∀ k, k < 64 → r.fr.getLsbD k = (q.fr.getLsbD k || decide (k = row))) ∧
      (∀ k, NMap.getD r.rres k 0 = if k = row then v else NMap.getD q.rres k 0) ∧ r.fc = q.fc ∧ r.cres = q.cres ∧ r.ux = q.ux)) ∧
  (∀ (A : Arr) (late : Nat → Bool) (row el : Nat) (v : BitVec 48), el < 128 →
    let B := A.land late (.flip row el false v)
    let C := A.land late (.flip row el true v)
    rowEl (B.row row) el = rowEl (A.row row) el ^^^ v.toNat ∧ (∀ c, c < 128 → c ≠ el → rowEl (B.row row) c = rowEl (A.row row) c) ∧
    (∀ k, k ≠ row → B.row k = A.row k) ∧ B.rpred = A.rpred ∧ B.of_ = A.of_ ∧ B.p0 = A.p0 ∧ B.p1 = A.p1 ∧
    NMap.getD C.rpred row 0 = NMap.getD A.rpred row 0 ^^^ v.toNat ∧ (∀ k, k ≠ row → NMap.getD C.rpred k 0 = NMap.getD A.rpred k 0) ∧
    C.rows = A.rows ∧ C.of_ = A.of_ ∧ C.p0 = A.p0 ∧ C.p1 = A.p1) ∧
  (∀ (A : Arr) (late : Nat → Bool) (m kind inex u : Nat),
    let S := A.land late .gloadStart
    let T := A.land late (.gtables m kind inex)
    let F := A.land late (.gfilter u m)
    S.chk = 0 ∧ S.p0 = { A.p0 with sel := 0 } ∧ S.p1 = { A.p1 with sel := 0 } ∧ S.tables = A.tables ∧ S.gn = A.gn ∧
    (∀ g t, t < 128 → T.entry g t = if g < m then ((A.gunits.getD g 0).lane t).toNat else A.entry g t) ∧
    (∀ g h, h < 64 → T.cay g h = if kind = 0 ∧ g < m
      then ((A.gunits.getD (m + g / 8) 0).extractLsb' (512 * (g % 8) + 8 * h) 6).toNat else A.cay g h) ∧
    T.gn = m ∧ T.kind = kind ∧ T.inex = inex ∧ T.krc = 0 ∧ T.dev = 0 ∧ T.chk = A.chk ∧ T.p0 = A.p0 ∧ T.p1 = A.p1 ∧ T.rows = A.rows ∧
    (∀ k, NMap.getD F.filt k 0 = if u ≤ k ∧ k < u + m then A.gunits.getD (k - u) 0 else NMap.getD A.filt k 0) ∧
    F.tables = A.tables ∧ F.chk = A.chk ∧ F.gn = A.gn ∧ F.rows = A.rows) ∧
  (∀ (A : Arr) (late : Nat → Bool) (k d c x l w : Nat) (ge : BitVec 16) (st : Word),
    let E := A.land late (.gchkEnd k d st c x ge l w)
    (A.land late .gchkStart).chk = 3 ∧ E.tables = A.tables ∧ E.rows = A.rows ∧ E.p0 = A.p0 ∧ E.p1 = A.p1 ∧
    (st.getLsbD 0 = true → E.chk = 1 ∧ E.krc = k ∧ E.dev = d) ∧ (st.getLsbD 0 = false → E.chk = 2 ∧ E.krc = A.krc ∧ E.dev = 0)) ∧
  ∀ (A : Arr) (late : Nat → Bool) (b nc fmt t : Nat) (x : Machine.Num) (xs : List Machine.Num) (ts : List (Nat × Machine.Num × List Machine.Num)),
    let B := A.land late (.gorb b nc fmt [(t, x, xs)])
    A.land late (.gorb b nc fmt []) = A ∧ A.land late (.gorb b nc fmt ((t, x, xs) :: ts)) = B.land late (.gorb b nc fmt ts) ∧
    (∀ c, c < 128 → rowEl (B.row (b + t)) c = if c < nc
      then (accAdd fmt 0 false (rowEl (A.row (b + t)) c) (Machine.Num.mul x (xs.getD c (.fin false 0 0)))).1 % 2 ^ 64 else rowEl (A.row (b + t)) c) ∧
    NMap.getD B.coord (b + t) 0 = 0 ∧
    (∀ r, r ≠ b + t → B.row r = A.row r ∧ NMap.getD B.coord r 0 = NMap.getD A.coord r 0) ∧ B.rpred = A.rpred ∧ B.p0 = A.p0 ∧ B.p1 = A.p1

/-- R284 to R298, the engine idle unless said otherwise. That a GLOAD of a bundle held for a translation issues in its last issue cycle, and so
reads the scratchpad as it stands then, is log 61's reading. -/
def Obligations.GroupEngine : Prop := ∀ (s : State) (g : Guard) (a d n r : Code),
  let me := s.iss.core % 2
  let pair := pairOf s.iss.core
  let A := s.arr pair
  let q := A.pos me
  let kr := mKr q.mode
  let nc := mNc q.mode
  let owns := A.mode = 2 ∨ A.mode = me
  let idle := (∀ b, A.gbusy = some b → b.until_ ≤ A.clk) ∧ s.engineRival = false
  let compute := isSupervisor s.iss.core = false
  let passed := fun (e : Nat) => e = 0 ∨ (A.chk = 1 ∧ A.krc = kr - 1)
  (s.runs (.gload g a n) = true → compute → owns → idle →
    let u := s.entered (.gload g a n)
    let w := (u.rdS a).toNat
    let m := n.toNat + 1
    let kind := w / 2 ^ 20 % 4
    let inex := w / 2 ^ 22 % 2
    let unit := w / 2 ^ 32 % 512
    let units := if kind = 0 then m + (m + 7) / 8 else m
    let legal := w / 2 ^ 23 % 512 = 0 ∧ w / 2 ^ 41 = 0 ∧ kind ≠ 3 ∧ (inex = 1 → kind = 0) ∧ (kind ≠ 2 → unit = 0) ∧ (kind = 2 → unit + m ≤ 512)
    (¬legal → ∃ w0 w1, exec (.gload g a n) s = u.raise fLAYRANGE w0 w1) ∧
    (legal → w % 512 ≠ 0 → ∃ w0 w1, exec (.gload g a n) s = u.raise fALIGN w0 w1) ∧
    (legal → w % 512 = 0 → 2 ^ 16 < w % 2 ^ 16 + 512 * units → ∃ w0 w1, exec (.gload g a n) s = u.raise fLAYRANGE w0 w1) ∧
    (legal → w % 512 = 0 → w % 2 ^ 16 + 512 * units ≤ 2 ^ 16 → ∃ t, exec (.gload g a n) s = .next t ∧
      (t.arr pair).gbusy = some ⟨s.iss.core, A.clk, A.clk + (8 + units)⟩ ∧
      (t.arr pair).gunits = [vecOfBytes (spadRead (if s.heldFor = 0 then u.issueSpad else u.curCore.spad) (w % 2 ^ 20) 512)] ∧
      (t.arr pair).flight = A.flight ++ ((List.range (units - 1)).map fun k =>
          (⟨A.clk + (k + 1), A.clk, .gread s.iss.core (w % 2 ^ 20 + 512 * (k + 1))⟩ : AFlight)) ++
        (if kind = 2 then [⟨A.clk + (8 + units), A.clk, .gfilter unit m⟩]
         else [⟨A.clk + 1, A.clk, .gloadStart⟩, ⟨A.clk + (8 + units), A.clk, .gtables m kind inex⟩]))) ∧
  (s.runs (.gchk g d) = true → compute → owns → idle →
    let lat := (if A.kind = 0 then A.gn * A.gn else A.gn) * ((kr + 15) / 16)
    let st := BitVec.ofNat 64 (A.check kr).1
    let e := fun (h t : Nat) => ((A.table h).lane t).toNat
    let fstA := fun (h t : Nat) => e h t % 2 ^ 7
    let sndB := fun (h t : Nat) => e h t / 2 ^ 8 % 2 ^ 7
    let wt := fun (h t : Nat) => e h t / 2 ^ 16 % 2 ^ 8
    let prod := fun (h j : Nat) => ((NMap.getD A.cayley h 0).extractLsb' (8 * j) 6).toNat
    let m := A.gn
    let id := ∃ t, t < kr ∧ ¬(fstA 0 t = t ∧ sndB 0 t = 0 ∧ wt 0 t = 0)
    let sites := ∃ h t, h < m ∧ t < kr ∧ (e h t / 2 ^ 24 ≠ 0 ∨ e h t / 2 ^ 15 % 2 ≠ 0 ∨ e h t / 2 ^ 7 % 2 ≠ 0 ∨ kr ≤ fstA h t ∨
      (A.inex = 1 ∧ kr ≤ sndB h t) ∨ (A.inex ≠ 1 ∧ (sndB h t ≠ 0 ∨ wt h t ≠ 0)) ∨ ((A.inex ≠ 1 ∨ A.kind = 1) ∧ ∃ j, j < t ∧ fstA h j = fstA h t))
    let cayley := A.kind = 0 ∧ ∃ h j, h < m ∧ j < m ∧ (m ≤ prod h j ∨ (h = 0 ∧ prod h j ≠ j) ∨ (j = 0 ∧ prod h j ≠ h))
    let inv := A.kind = 0 ∧ ∃ h, h < m ∧ ∀ j, j < m → ¬(prod h j = 0 ∧ prod j h = 0)
    let comp := A.kind = 0 ∧ A.inex = 0 ∧ ¬(id ∨ sites ∨ cayley ∨ inv) ∧
      ∃ h j t, h < m ∧ j < m ∧ t < kr ∧ fstA (prod h j) t ≠ fstA j (fstA h t)
    (st.getLsbD 0 = true ↔ ¬(id ∨ sites ∨ cayley ∨ inv ∨ comp)) ∧ (st.getLsbD 1 = true ↔ id) ∧ (st.getLsbD 2 = true ↔ sites) ∧
    (st.getLsbD 3 = true ↔ cayley) ∧ (st.getLsbD 4 = true ↔ inv) ∧ (st.getLsbD 5 = true ↔ comp) ∧
    ∃ t, exec (.gchk g d) s = .next t ∧ (t.arr pair).gbusy = some ⟨s.iss.core, A.clk, A.clk + lat⟩ ∧
      (t.arr pair).flight = A.flight ++ [⟨A.clk + 1, A.clk, .gchkStart⟩, ⟨A.clk + lat, A.clk,
        .gchkEnd (kr - 1) (A.check kr).2 st s.iss.core s.iss.ctx s.cur.gen s.cur.launch s.iss.addr⟩] ∧
      ∃ f ∈ t.cur.flight, f.due = s.cur.clk + (lat + s.heldFor) ∧ f.eff = .sreg (s.dstS d) st) ∧
  (∀ b, A.gbusy = some b → A.clk < b.until_ → b.core = s.iss.core → exec (.gload g a n) s = s.illegal ∧ exec (.gchk g d) s = s.illegal) ∧
  (∀ b, A.gbusy = some b → A.clk < b.until_ → b.core ≠ s.iss.core → compute →
    (s.runs (.gload g a n) = true → ∃ w0 w1, exec (.gload g a n) s = (s.entered (.gload g a n)).raise fWINDOW w0 w1) ∧
    (s.runs (.gchk g d) = true → ∃ w0 w1, exec (.gchk g d) s = (s.entered (.gchk g d)).raise fWINDOW w0 w1)) ∧
  (s.runs (.gsel g a) = true → compute → owns →
    let u := s.entered (.gsel g a)
    let e := (u.rdS a).toNat
    let fits := e < 64 ∧ e < A.gn ∧ ¬(e ≠ 0 ∧ A.inex = 1 ∧ mFmt q.mode = 5)
    (fits → passed e → exec (.gsel g a) s = .next (u.arrLater 1 (.gsel me e))) ∧
    (fits → ¬passed e → ∃ w0 w1, exec (.gsel g a) s = u.raise fGROUP w0 w1) ∧
    (¬fits → ∃ w0 w1, exec (.gsel g a) s = u.raise fLAYRANGE w0 w1)) ∧
  (s.runs (.gorb g r a) = true → compute → owns →
    let u := s.entered (.gorb g r a)
    let w := (u.rdS a).toNat
    let e := w % 64
    let b := w / 2 ^ 8 % 64
    let t0 := w / 2 ^ 16 % 128
    let m := w / 2 ^ 24 % 128 + 1
    let row := r.toNat
    let f := mFmt q.mode
    let plain := w / 2 ^ 6 % 4 = 0 ∧ w / 2 ^ 14 % 4 = 0 ∧ w / 2 ^ 23 % 2 = 0 ∧ w / 2 ^ 31 = 0
    let suits := e < A.gn ∧ A.kind ≠ 1 ∧ f ≠ 5 ∧ ¬(f = 3 ∧ A.inex = 1)
    let placed := t0 + m ≤ kr ∧ row + m ≤ 64 ∧ b + kr ≤ 64 ∧ ¬(row < b + kr ∧ b < row + m)
    let mine := A.mode = 2 → ∀ j, row ≤ j ∧ j < row + m ∨ b ≤ j ∧ j < b + kr → j / 32 = me
    (plain → suits → placed → passed e → mine →
      exec (.gorb g r a) s = .next (u.arrLater (6 + m) (.gorb b nc f (A.orbTerms f nc e t0 m row)))) ∧
    (¬plain ∨ ¬suits ∨ ¬placed → ∃ w0 w1, exec (.gorb g r a) s = u.raise fLAYRANGE w0 w1) ∧
    (plain → suits → placed → ¬passed e → ∃ w0 w1, exec (.gorb g r a) s = u.raise fGROUP w0 w1) ∧
    (plain → suits → placed → passed e → ¬mine → ∃ w0 w1, exec (.gorb g r a) s = u.raise fWINDOW w0 w1)) ∧
  (compute → ¬owns → ∀ i, i = .gsel g a ∨ i = .gorb g r a → s.runs i = true → ∃ w0 w1, exec i s = (s.entered i).raise fWINDOW w0 w1) ∧
  (∀ (f h t0 m row : Nat), A.orbTerms f nc h t0 m row = (List.range m).flatMap fun j =>
    let e := ((A.table h).lane (t0 + j)).toNat
    let x := (List.range nc).map fun c => accNum f (rowEl (A.row (row + j)) c)
    let wt := e / 2 ^ 16 % 2 ^ 8
    if h = 0 then [(t0 + j, .fin false 1 0, x)]
    else if A.inex = 0 then [(e % 2 ^ 7, .fin false 1 0, x)]
    else if wt = 0 then [(e % 2 ^ 7, .fin false 256 (-8), x)]
    else [(e % 2 ^ 7, .fin false (256 - wt) (-8), x), (e / 2 ^ 8 % 2 ^ 7, .fin false wt (-8), x)]) ∧
  (s.runs (.gstat g d) = true → compute → ∃ v : Word, exec (.gstat g d) s = .next (s.putS 1 0 d v) ∧
    let n := v.toNat
    let busy := ∃ b, A.gbusy = some b ∧ A.clk < b.until_
    n % 2 ^ 6 = (A.gn - 1) % 2 ^ 6 ∧ n / 2 ^ 6 % 2 ^ 2 = A.kind % 2 ^ 2 ∧ n / 2 ^ 8 % 2 = A.inex % 2 ∧ n / 2 ^ 9 % 2 ^ 2 = A.chk % 2 ^ 2 ∧
    (n / 2 ^ 11 % 2 = 1 ↔ busy) ∧ (n / 2 ^ 12 % 2 = 1 ↔ ∃ b, A.gbusy = some b ∧ A.clk < b.until_ ∧ b.core ≠ s.iss.core) ∧
    n / 2 ^ 13 % 2 ^ 3 = 0 ∧ n / 2 ^ 16 % 2 ^ 6 = q.sel % 2 ^ 6 ∧ n / 2 ^ 22 % 2 ^ 2 = 0 ∧ n / 2 ^ 24 % 2 ^ 6 = q.ldc % 2 ^ 6 ∧ n / 2 ^ 30 % 2 ^ 2 = 0 ∧
    n / 2 ^ 32 % 2 ^ 16 = A.dev % 2 ^ 16 ∧ n / 2 ^ 48 % 2 ^ 7 = A.krc % 2 ^ 7 ∧ n / 2 ^ 55 = 0)

/-- R316 and the common rules of R315; an access that no buffered translation serves starts a walk, waits for the one that is under way, or faults
as its own has failed (R312). That an STV into a window is one whole access, where any other performs in sectors, is log 63's reading. -/
def Obligations.GlobalAccesses : Prop := ∀ (s : State) (g : Guard) (d v a o : Code) (x : Ext),
  let va := fun (u : State) (z : Nat) => (u.rdS a + o.signExtend 64 * BitVec.ofNat 64 z).toNat
  let access : State → TlbEntry → Nat → Access := fun u e z =>
    { id := u.curCore.nextAccess, ctx := s.iss.ctx, gen := u.cur.gen, launch := u.cur.launch, kind := 0, pa := e.phys (va u z),
      wtag := e.wtag, len := z, at_ := s.cyc }
  let common := fun (i : Instr) (z kind : Nat) =>
    (s.runs i = true → va (s.entered i) z % z ≠ 0 → ∃ w0 w1, exec i s = (s.entered i).raise fALIGN w0 w1) ∧
    (s.runs i = true → va (s.entered i) z % z = 0 → ∀ f, s.curCore.failed.find? (fun f => decide (f.va = va (s.entered i) z ∧ f.kind = kind)) = some f →
      ∃ w0 w1, exec i s = (s.entered i).raise (causeFault f.cause) w0 w1) ∧
    (s.runs i = true → va (s.entered i) z % z = 0 → (∀ f ∈ s.curCore.failed, ¬(f.va = va (s.entered i) z ∧ f.kind = kind)) →
      s.tlbFind s.iss.core (va (s.entered i) z) (s.worldOf s.iss.core s.iss.ctx) = none →
      (s.curCore.walk = none → s.walkSlot (dieOf s.iss.core) = true → exec i s = .next (((s.entered i).modCurCore fun q =>
        { q with walk := some ⟨va (s.entered i) z, kind⟩ }).modIss fun j => { j with held := true })) ∧
      (s.curCore.walk ≠ none ∨ s.walkSlot (dieOf s.iss.core) = false → exec i s = .next ((s.entered i).modIss fun j => { j with held := true }))) ∧
    (s.guardOff i = true → exec i s = .next s)
  let loads := fun (i : Instr) (z : Nat) (vec : Bool) => common i z 0 ∧ ∀ e, s.runs i = true →
    let u := s.entered i
    va u z % z = 0 → u.reaches (va u z) 0 z e = true → u.loadRoom = true →
    let dest := if d.toNat < 48 then some (vec, if vec then u.slotV d.toNat else u.slotS d.toNat) else none
    exec i s = .next (u.enter { access u e z with dest := dest, fresh := x.byte.getLsbD 3, last := x.byte.getLsbD 4 } vec)
  let stores := fun (i : Instr) (z : Nat) (val : State → Vec) => common i z 1 ∧ ∀ e, s.runs i = true →
    let u := s.entered i
    va u z % z = 0 → u.reaches (va u z) 1 z e = true → u.storeRoom = true →
    exec i s = .next ((u.enter { access u e z with kind := 1, value := val u } (decide (z = 512) && !isWindow (e.phys (va u z)))).dropL1
      s.iss.core (e.phys (va u z)) z)
  let scalar := fun (u : State) => (u.rdS v).setWidth 4096
  loads (.ldW8 g d a o x) 1 false ∧ loads (.ldW16 g d a o x) 2 false ∧ loads (.ldW32 g d a o x) 4 false ∧
  loads (.ldW64 g d a o x) 8 false ∧ loads (.ldv g d a o x) 512 true ∧
  stores (.stW8 g v a o x) 1 scalar ∧ stores (.stW16 g v a o x) 2 scalar ∧ stores (.stW32 g v a o x) 4 scalar ∧
  stores (.stW64 g v a o x) 8 scalar ∧ stores (.stv g v a o x) 512 fun u => u.rdV v

/-- R317 and R318. In each case the word's sectors leave the L1 that the core reads through (R307). -/
def Obligations.AmoAndCas : Prop := ∀ (s : State) (g : Guard) (d a b : Code) (x : Ext),
  let access : State → TlbEntry → Access := fun u e =>
    { id := u.curCore.nextAccess, ctx := s.iss.ctx, gen := u.cur.gen, launch := u.cur.launch, kind := 0, pa := e.phys (u.rdS a).toNat,
      wtag := e.wtag, len := 8, at_ := s.cyc }
  let scope := x.byte.toNat % 8
  let amo := fun (i : Instr) (op : Nat) =>
    (s.runs i = true → (s.entered i).rdS a % 8 ≠ 0 → ∃ w0 w1, exec i s = (s.entered i).raise fALIGN w0 w1) ∧
    (∀ e, s.runs i = true →
      let u := s.entered i
      let pa := e.phys (u.rdS a).toNat
      u.rdS a % 8 = 0 → u.reaches (u.rdS a).toNat 2 8 e = true →
      (d.toNat < 48 → u.loadRoom = true → exec i s = .next ((u.enter
        { access u e with kind := 2, amo := op, value := (u.rdS b).setWidth 4096, scope := scope, dest := some (false, u.slotS d.toNat) }
        false).dropL1 s.iss.core pa 8)) ∧
      (d.toNat = 63 → isRegPage pa = true → u.loadRoom = true → exec i s = .next ((u.enter
        { access u e with kind := 2, amo := op, value := (u.rdS b).setWidth 4096, scope := scope } false).dropL1 s.iss.core pa 8)) ∧
      (d.toNat = 63 → isRegPage pa = false → ∃ t, exec i s = .next t ∧ (t.core s.iss.core).nextAccess = u.curCore.nextAccess + 1 ∧
        (∀ k, NMap.get? (t.core (u.l1Core s.iss.core)).l1 k = if k ∈ blocks 16 pa 8 then none else NMap.get? (u.core (u.l1Core s.iss.core)).l1 k) ∧
        (∀ k, t.core k = { u.core k with amo := (t.core k).amo, nextAccess := (t.core k).nextAccess, l1 := (t.core k).l1 } ∧
          (k ≠ s.iss.core → (t.core k).amo = (u.core k).amo ∧ (t.core k).nextAccess = (u.core k).nextAccess) ∧
          (k ≠ u.l1Core s.iss.core → (t.core k).l1 = (u.core k).l1)) ∧
        { t with cores := u.cores, paths := u.paths } = u ∧
        ((∀ c ∈ u.curCore.amo, c.pa = pa → c.op = op) → t.paths = u.paths) ∧
        (∀ c ∈ u.curCore.amo, c.pa = pa → c.op ≠ op → ∃ r ∈ t.path (dieOf s.iss.core), r.what = .bufferedAmoMerge s.iss.core pa) ∧
        ((∀ c ∈ u.curCore.amo, c.pa ≠ pa) → (t.core s.iss.core).amo = u.curCore.amo ++ [
          { pa := pa, op := op, value := u.rdS b, scope := scope, since := s.cyc, ctx := s.iss.ctx, launch := u.cur.launch,
            gen := u.cur.gen, seq := u.curCore.nextAccess, wtag := e.wtag }]) ∧
        (∀ c, u.curCore.amo = [c] → c.pa = pa → c.op = op → c.scope = scope → c.ctx = s.iss.ctx → c.gen = u.cur.gen →
          u.curCore.fenceAfter s.iss.ctx u.cur.gen c.seq = false → u.curCore.ownAfter s.iss.ctx u.cur.gen c.seq pa = false →
          (t.core s.iss.core).amo = [{ c with value := amoVal op c.value (u.rdS b) }])))
  amo (.amoAdd g d a b x) 0 ∧ amo (.amoMin g d a b x) 1 ∧ amo (.amoMax g d a b x) 2 ∧ amo (.amoAnd g d a b x) 3 ∧
  amo (.amoOr g d a b x) 4 ∧ amo (.amoXor g d a b x) 5 ∧
  (s.runs (.cas g d a b x) = true → (s.entered (.cas g d a b x)).rdS a % 8 ≠ 0 →
    ∃ w0 w1, exec (.cas g d a b x) s = (s.entered (.cas g d a b x)).raise fALIGN w0 w1) ∧
  (∀ e, s.runs (.cas g d a b x) = true →
    let u := s.entered (.cas g d a b x)
    u.rdS a % 8 = 0 → u.reaches (u.rdS a).toNat 2 8 e = true → u.loadRoom = true →
    exec (.cas g d a b x) s = .next ((u.enter
      { access u e with kind := 3, value := (u.rdS b).setWidth 4096, cmp := u.rdS d, scope := scope, dest := some (false, u.slotS d.toNat) }
      false).dropL1 s.iss.core (e.phys (u.rdS a).toNat) 8)) ∧
  (d = 63 → exec (.cas g d a b x) s = s.illegal) ∧
  (∀ p q : Word, amoVal 0 p q = p + q ∧ (amoVal 1 p q).toInt = min p.toInt q.toInt ∧ (amoVal 2 p q).toInt = max p.toInt q.toInt ∧
    amoVal 3 p q = p &&& q ∧ amoVal 4 p q = p ||| q ∧ amoVal 5 p q = p ^^^ q)

/-- R320, R321, R25, R26: a fence asks for the merges of its core's buffered updates; a path's grant goes to the lowest class, and within it by turn,
and moves one packet. That a PREF's walk goes on after its bundle, and that a PREF is dropped where no walk slot is free or its line does not
verify, is log 67's reading. -/
def Obligations.FencesAndPrefetch : Prop := ∀ (s : State) (g : Guard) (a o : Code) (x : Ext) (c n : Nat),
  let scope := x.byte.toNat % 8
  let merged := s.askMerges s.iss.core fun _ => true
  let waits := fun (t : State) (k : Nat) => ({ t with iss := { t.iss with wait := t.iss.wait ++ [.fence k scope] } } : State)
  (s.runs (.fenceAcq g x) = true → exec (.fenceAcq g x) s = .next (waits s 0)) ∧
  (s.runs (.fenceFull g x) = true → exec (.fenceFull g x) s = .next (waits merged 2)) ∧
  (s.runs (.fenceRel g x) = true → exec (.fenceRel g x) s = .next (merged.enter
    { id := merged.curCore.nextAccess, ctx := s.iss.ctx, gen := s.cur.gen, launch := s.cur.launch, kind := 5, scope := scope, at_ := s.cyc }
    false)) ∧
  (s.curCore.amo = [] → merged = s) ∧ { merged with paths := s.paths } = s ∧
  (∀ b ∈ s.curCore.amo, ∃ r ∈ merged.path (dieOf s.iss.core), r.what = .bufferedAmoMerge s.iss.core b.pa) ∧
  (∀ k, (s.ctx c n).st = .wait [.fence 0 k] →
    let out := ∃ q ∈ (s.core c).access, q.of n (s.ctx c n).gen = true ∧ q.landing = true
    (¬out → ∃ t, exec (.fenceWaitEnd c n) s = .next t ∧ (t.ctx c n).st = .ready) ∧
    (out → exec (.fenceWaitEnd c n) s = .next (s.modCtx c n id))) ∧
  (∀ k, (s.ctx c n).st = .wait [.fence 2 k] →
    let ended := s.settledAll c n k = true ∧ (s.core c).amo = [] ∧ ∀ q ∈ (s.core c).access, q.merged = true → s.performed q k = true
    (ended → ∃ t, exec (.fenceWaitEnd c n) s = .next t ∧ (t.ctx c n).st = .ready) ∧
    (¬ended → exec (.fenceWaitEnd c n) s = .next (s.modCtx c n id))) ∧
  (s.runs (.pref g a o x) = true →
    let u := s.entered (.pref g a o x)
    let w := s.worldOf s.iss.core s.iss.ctx
    let va := (u.rdS a + o.signExtend 64 * 128).toNat / 128 * 128
    let L := u.l1Core s.iss.core
    let mgmt := u.isMgmt s.iss.core s.iss.ctx
    (∀ e, u.tlbFind s.iss.core va w = some e →
      let good := u.judge e va 3 w mgmt = none ∧ u.badLine e.wtag (e.phys va) 128 = none
      (u.judge e va 3 w mgmt ≠ none → exec (.pref g a o x) s = .next (u.note cPREFDROP)) ∧
      (u.judge e va 3 w mgmt = none → u.badLine e.wtag (e.phys va) 128 ≠ none →
        ∃ t : State, exec (.pref g a o x) s = .next (t.note cPREFDROP) ∧ t.cores = u.cores) ∧
      (good → x.byte.getLsbD 3 = true → exec (.pref g a o x) s = .next u) ∧
      (good → x.byte.getLsbD 3 = false → (∀ f ∈ (u.core L).fills, f.line ≠ e.phys va / 128) → exec (.pref g a o x) s =
        .next (u.modCore L fun q => { q with fills := q.fills ++ [⟨e.phys va / 128, s.cyc, 3⟩] }))) ∧
    (u.tlbFind s.iss.core va w = none →
      (s.walkSlot (dieOf s.iss.core) = false → exec (.pref g a o x) s = .next (u.note cPREFDROP)) ∧
      (s.walkSlot (dieOf s.iss.core) = true → ∃ p : PrefWalk, p.va = va ∧ p.world = w ∧ p.fresh = x.byte.getLsbD 3 ∧
        exec (.pref g a o x) s = .next (u.modCurCore fun q => { q with prefs := q.prefs ++ [p] })))) ∧
  (∀ line, line < 2 ^ 45 → ∃ t, exec (.arbiterAging (c * 2 ^ 45 + line)) s = .next t ∧ (t.core c).fills =
    (s.core c).fills.map fun f => if f.line = line ∧ f.since + 8192 ≤ s.cyc then { f with cls := 2 } else f) ∧
  (∀ id, ∃ t, exec (.arbiterAging id) s = .next t ∧ t.paths = s.paths.map fun p => (p.1, p.2.map fun r =>
    if r.cls = 3 ∧ agingId r.what = id ∧ r.since + 8192 ≤ s.cyc then { r with cls := 2 } else r)) ∧
  (∀ e, s.nextReq e = none → s.grant e = .next s) ∧
  ∀ e r, s.nextReq e = some r →
    let t := ({ s with paths := NMap.set s.paths e ((s.path e).erase r) } : State).served e r.cls r.src
    r ∈ s.path e ∧ (∀ q ∈ s.path e, r.cls ≤ q.cls ∧ (q.cls = r.cls → turnBefore (NMap.getD s.granted (4 * e + r.cls) 0) r.src q.src = true)) ∧
    (t.stale r.what = false → r.left = 0 → s.grant e = exec r.what t) ∧
    (t.stale r.what = false → 0 < r.left → ∃ u, s.grant e = .next u ∧ u.cores = s.cores ∧ u.dies = s.dies ∧ ∃ q ∈ u.path e, q.what = r.what)

/-- R315, R317, R318, R323, R324: the frame of a write. -/
def Obligations.WritePerforms : Prop := ∀ (s : State) (c x id : Nat) (a : Access),
  let waits := fun (q : Access) => decide (q.id = id ∧ q.ctx = x) && !q.done && decide (1 ≤ q.kind ∧ q.kind ≤ 4)
  let kept := fun (pa len w : Nat) => ∀ l ∈ blocks 128 pa len, s.sealer l = w
  let word := fun (d : Nat) (t : State) (pa w : Nat) (v : Word) =>
    (∀ j, j < 8 → Memory.read (t.die d).view (pa + j) = v.extractLsb' (8 * j) 8) ∧ t.hbm = s.hbm ∧
    (kept pa 8 w → (∀ b, b < pa ∨ pa + 8 ≤ b → Memory.read (t.die d).view b = Memory.read (s.die d).view b) ∧
      ∀ e, e ≠ d → (t.die e).view = (s.die e).view)
  let marks := fun (t : State) (v : Vec) (st : Option (Nat × Nat)) (h : List Nat) =>
    t.core c = (s.core c).modAccess a.id a.pa fun q => { q with done := true, value := v, stamp := st, unacked := false, heard := h }
  let answer := fun (h : List Nat) => a.site c = dieOf c → h = []
  ((s.core c).access.find? waits = none → exec (.writePerform c x id) s = .next s) ∧
  ((s.core c).access.find? waits = some a → s.canPerform c a = false → exec (.writePerform c x id) s = .next s) ∧
  ((s.core c).access.find? waits = some a → s.canPerform c a = true → isWindow a.pa = false → isRegPage a.pa = false →
    (∀ d, (s.die d).view.wf = true) →
    (a.kind = 1 → ∃ t n, exec (.writePerform c x id) s = .next t ∧
      (∀ j, j < a.len → a.len ≤ 512 → Memory.read (t.die (dieOf c)).view (a.pa + j) = a.value.extractLsb' (8 * j) 8) ∧ t.hbm = s.hbm ∧
      (kept a.pa a.len a.wtag → (∀ b, b < a.pa ∨ a.pa + a.len ≤ b → Memory.read (t.die (dieOf c)).view b = Memory.read (s.die (dieOf c)).view b) ∧
        ∀ e, e ≠ dieOf c → (t.die e).view = (s.die e).view) ∧
      (∀ e, e ≠ dieOf c → e < s.nDies → ∃ w, (t.die e).inq = (s.die e).inq ++ [w] ∧ w.origin = dieOf c ∧ w.pa = a.pa ∧
        w.data = leBytes a.len a.value.toNat) ∧
      (∀ k, k ≠ c → t.core k = s.core k) ∧ marks t a.value (some (dieOf c, n)) []) ∧
    (a.kind = 2 →
      let d := a.site c
      let old := BitVec.ofNat 64 (leNat (s.viewRead d a.wtag a.pa 8))
      ∃ t n h, exec (.writePerform c x id) s = .next t ∧ word d t a.pa a.wtag (amoVal a.amo old (a.value.setWidth 64)) ∧
        marks t (old.setWidth 4096) (some (d, n)) h ∧ answer h) ∧
    (a.kind = 3 →
      let d := a.site c
      let old := BitVec.ofNat 64 (leNat (s.viewRead d a.wtag a.pa 8))
      (old ≠ a.cmp → ∃ t h, exec (.writePerform c x id) s = .next t ∧ t.dies = s.dies ∧ marks t (old.setWidth 4096) none h ∧ answer h) ∧
      (old = a.cmp → ∃ t n h, exec (.writePerform c x id) s = .next t ∧ word d t a.pa a.wtag (a.value.setWidth 64) ∧
        marks t (old.setWidth 4096) (some (d, n)) h ∧ answer h))) ∧
  (∀ pa b, (s.core c).amo.find? (fun q => decide (q.pa = pa)) = some b →
    let d := amoDie c b.scope pa
    (s.cyc < b.since + 65536 → exec (.bufferedAmoTimeout c pa) s = .next s) ∧
    (b.since + 65536 ≤ s.cyc → exec (.bufferedAmoTimeout c pa) s = .next (s.request (dieOf c) 2 (c + 1) 0 (.bufferedAmoMerge c pa))) ∧
    (s.fencesOpen c b.ctx b.gen b.seq = true → s.ownClear c b.ctx b.gen b.seq pa 8 [dieOf c, d] = true → isRegPage pa = false →
      (∀ e, (s.die e).view.wf = true) → ∃ t, exec (.bufferedAmoMerge c pa) s = .next t ∧
        word d t pa b.wtag (amoVal b.op (BitVec.ofNat 64 (leNat (s.viewRead d b.wtag pa 8))) b.value) ∧
        (t.core c).amo = (s.core c).amo.filter fun q => decide (q.seq ≠ b.seq)) ∧
    (s.fencesOpen c b.ctx b.gen b.seq = false ∨ s.ownClear c b.ctx b.gen b.seq pa 8 [dieOf c, d] = false →
      exec (.bufferedAmoMerge c pa) s = .next s))

/-- R307, R309, R311, R312, R315, R323, R324, R401. What the end of a PREF's walk does is log 67's reading, and that a tag is tested by sectors log
55's; the data of a load whose register was released are discarded (R103). -/
def Obligations.MemoryEvents : Prop := ∀ (s : State) (c x id : Nat),
  (∀ va kind n, (s.core c).walk = some ⟨va, kind⟩ → (s.core c).run = some n →
    let clear := s.walkClear (dieOf c) (s.worldOf c n) va = true
    (¬clear → exec (.translationWalk c) s = .next s) ∧
    (∀ e, clear → s.walk (dieOf c) (s.worldOf c n) va kind (s.isMgmt c n) = .ok e → exec (.translationWalk c) s =
      .next (s.modCore c fun k => { k with walk := none, tlb := tlbInsert k.tlb { e with fresh := true } })) ∧
    (∀ l g q, clear → s.walk (dieOf c) (s.worldOf c n) va kind (s.isMgmt c n) = .bad l g q → exec (.translationWalk c) s =
      .next (s.modCore c fun k => { k with walk := none, failed := k.failed ++ [⟨va, kind, l, g, q⟩] }))) ∧
  (∀ p ps, (s.core c).walk = none → (s.core c).prefs = p :: ps → s.walkClear (dieOf c) p.world p.va = true →
    let t := s.modCore c fun k => { k with prefs := ps }
    (∀ l g q, s.walk1 (dieOf c) p.world p.va = .bad l g q →
      exec (.translationWalk c) s = .next (t.lateRecord c p.ctx p.gen p.launch p.pos p.addr p.iss cPREFDROP)) ∧
    (∀ e, s.walk1 (dieOf c) p.world p.va = .ok e → s.judge e p.va 3 p.world p.mgmt ≠ none →
      exec (.translationWalk c) s = .next (t.lateRecord c p.ctx p.gen p.launch p.pos p.addr p.iss cPREFDROP)) ∧
    (∀ e, s.walk1 (dieOf c) p.world p.va = .ok e → s.judge e p.va 3 p.world p.mgmt = none → s.badLine e.wtag (e.phys p.va) 128 = none →
      (p.fresh = true → exec (.translationWalk c) s = .next t) ∧
      (p.fresh = false → (∀ f ∈ (t.core (s.l1Core c)).fills, f.line ≠ e.phys p.va / 128) → exec (.translationWalk c) s =
        .next (t.modCore (s.l1Core c) fun q => { q with fills := q.fills ++ [⟨e.phys p.va / 128, s.cyc, 3⟩] })))) ∧
  (∀ a, (s.core c).access.filter (fun q => decide (q.id = id ∧ q.ctx = x) && q.landing) = [a] → a.kind = 0 →
    (a.done = false → a.fresh = true → a.last = false → isRegPage a.pa = false →
      s.ownClear c a.ctx a.gen a.id a.pa a.len [dieOf c] = true → s.lineClear (dieOf c) a.pa a.len c a.id a.at_ = true →
      exec (.globalLoadLanding c x id) s = .next (s.modCore c fun k => k.modAccess a.id a.pa fun q =>
        { q with done := true, value := BitVec.ofNat 4096 (leNat (s.viewRead (dieOf c) a.wtag a.pa a.len)) })) ∧
    (∀ v n, a.done = true → a.dest = some (v, n) → a.void = true → ∃ t, exec (.globalLoadLanding c x id) s = .next t ∧
      t.ctx c x = s.ctx c x ∧ ∀ q ∈ (t.core c).access, q.id = id → q.kind ≠ 0) ∧
    (∀ n, a.done = true → a.dest = some (false, n) → a.void = false → ∃ t, exec (.globalLoadLanding c x id) s = .next t ∧
      (t.ctx c x).sAt n = a.value.setWidth 64 ∧ (∀ m, m ≠ n → (t.ctx c x).sAt m = (s.ctx c x).sAt m) ∧
      ∀ q ∈ (t.core c).access, q.id = id → q.kind ≠ 0)) ∧
  (∀ line f, (s.core c).fills.find? (fun f => decide (f.line = line)) = some f →
    let first := f.cls = 3 → ∀ q ∈ s.cores, dieOf q.1 = dieOf c → ∀ h ∈ q.2.fills, h.cls ≠ 2
    (¬first → exec (.l1Fill c line) s = .next s) ∧
    (first → s.lineClear (dieOf c) (128 * line) 128 c 0 (s.cyc + 1) = true → ∃ t, exec (.l1Fill c line) s = .next t ∧
      (∀ f ∈ (t.core c).fills, f.line ≠ line) ∧ (∀ k, k < 8 → NMap.get? (t.core c).l1 (8 * line + k) =
        if s.sectorPending c (dieOf c) (8 * line + k) then NMap.get? (s.core c).l1 (8 * line + k)
        else some (BitVec.ofNat 128 (leNat (Memory.readN (s.die (dieOf c)).view (16 * (8 * line + k)) 16)))))) ∧
  (∀ d w, (s.die d).inq.find? (fun q => decide (q.id = id)) = some w →
    (s.canApply d w = false → exec (.crossDieWriteApply d id) s = .next s) ∧
    (s.canApply d w = true → w.mark = false → (s.die d).view.wf = true → ∃ t, exec (.crossDieWriteApply d id) s = .next t ∧
      (∀ b, b < w.pa ∨ w.pa + w.data.length ≤ b → Memory.read (t.die d).view b = Memory.read (s.die d).view b) ∧
      (∀ j, j < w.data.length → some (Memory.read (t.die d).view (w.pa + j)) = w.data[j]?) ∧
      NMap.getD (t.die d).applied w.origin 0 = w.vc.getD w.origin 0 ∧ (∀ e, e ≠ d → t.die e = s.die e) ∧ t.cores = s.cores)) ∧
  (∀ d sector,
    let line := sector / 8
    let o := s.sealer line
    (NMap.get? (s.die d).marks sector = none → o = 0 → s.hbm.wf = true → ∃ t, exec (.dirtySectorWriteBack d sector) s = .next t ∧
      t.dies = s.dies ∧ ∀ b, Memory.read t.hbm b = if b / 16 = sector then Memory.read (s.die d).view b else Memory.read s.hbm b) ∧
    (NMap.get? (s.die d).marks sector = none → o ≠ 0 → s.hbm.wf = true →
      let n := (NMap.getD s.wcounts line 0 + 1) % 2 ^ 48
      let sealed := gcmSeal (s.lineKey o line) (BitVec.ofNat 45 line ++ (0 : BitVec 3) ++ BitVec.ofNat 48 n)
        (Memory.readN (s.die d).view (128 * line) 128)
      ∃ t, exec (.dirtySectorWriteBack d sector) s = .next t ∧ t.dies = s.dies ∧ NMap.getD t.wcounts line 0 = n ∧
        NMap.getD t.tags line 0 = sealed.2 ∧ (∀ j, j < 128 → some (Memory.read t.hbm (128 * line + j)) = sealed.1[j]?) ∧
        ∀ b, b / 128 ≠ line → Memory.read t.hbm b = Memory.read s.hbm b) ∧
    (∀ w, NMap.get? (s.die d).marks sector = some w → (∀ e, (s.die e).view.wf = true) →
      ∃ t, exec (.dirtySectorWriteBack d sector) s = .next t ∧ t.hbm = s.hbm ∧
        (∀ e v, NMap.get? (s.die e).marks sector = some v → NMap.get? (t.die e).marks sector = none ∧
          ∀ b, some (Memory.read (t.die e).view b) = if b / 16 = sector then (leBytes 16 v.toNat)[b % 16]? else some (Memory.read (s.die e).view b)) ∧
        ∀ e, NMap.get? (s.die e).marks sector = none → (t.die e).view = (s.die e).view)) ∧
  (∀ d line ok, (s.nDies ≤ d ∨ s.sealer line = 0 → exec (.sealedLineFill d line ok) s = .next s) ∧
    (d < s.nDies → s.sealer line ≠ 0 → ∃ t, exec (.sealedLineFill d line ok) s = .next t ∧
      (∀ k, k < 8 → NMap.getD t.badTag (8 * line + k) false = !ok) ∧ (ok = true → t.evlog = s.evlog)))

/-- R225, R231, R236, R242, R243, R245, R246, R313. That a CIDW whose wait is over already yields all the same is log 77's choice; CINV kills the
translation in every buffer and every channel of the die, and the commands ahead of its marker keep theirs (log 14). -/
def Obligations.CopyCommands : Prop := ∀ (s : State) (g : Guard) (d l m a k : Code) (x : Ext) (c n : Nat),
  let here := s.iss.core
  let cl := clusterOf here
  let ch := x.byte.toNat % 4
  let h := s.chan cl ch
  let world := s.worldOf here s.iss.ctx
  let slot := fun (i : Code) => (List.range 12).map fun j => (NMap.getD s.cur.lrec i.toNat {}).words.getD j 0
  let checked := (NMap.getD s.cur.lrec l.toNat {}).unchecked = false ∧ (NMap.getD s.cur.lrec m.toNat {}).unchecked = false
  let tracked := fun (i : Instr) (swap : Bool) => s.runs i = true → checked →
      (∀ code w0 w1, s.copyBad false swap (slot l) (slot m) = some (code, w0, w1) → exec i s = s.raise code w0 w1) ∧
      (s.copyBad false swap (slot l) (slot m) = none → 64 ≤ h.qlev → exec i s = .next (s.putS 1 0 d (BitVec.ofNat 64 (2 ^ 63)))) ∧
      (s.copyBad false swap (slot l) (slot m) = none → h.qlev < 64 → ∃ (t : State) (q : Tracked), exec i s = .next t ∧
        (t.chan cl ch).queue = h.queue ++ [q] ∧ (t.chan cl ch).next = (h.next + 1) % 2 ^ 32 ∧
        q.id = h.next ∧ q.core = here ∧ q.ctx = s.iss.ctx ∧ q.gen = s.cur.gen ∧ q.world = world ∧ q.x = swap ∧ q.src = slot l ∧ q.dst = slot m ∧
        q.pos = 0 ∧ q.marker = none ∧ ∃ f ∈ t.cur.flight, f.due = s.cur.clk + 1 ∧ f.eff = .sreg (s.dstS d) (BitVec.ofNat 64 h.next))
  (s.runs (.lrec g k a) = true →
    let r := (List.range 12).map fun j => s.readSlotS (s.slotS (a.toNat + j))
    (s.hasCmp = false → recCt r = true → exec (.lrec g k a) s = s.absent) ∧
    (s.hasCmp = true ∨ recCt r = false →
    (∀ w, recBadWord r = some w → ∃ w0 w1, exec (.lrec g k a) s = (s.entered (.lrec g k a)).raise fLAYRES w0 w1) ∧
    (recBadWord r = none → recWtag r ≠ world → ∃ w0 w1, exec (.lrec g k a) s = (s.entered (.lrec g k a)).raise fWORLD w0 w1) ∧
    (∀ v, recBadWord r = none → recWtag r = world → recRange r = some v →
      ∃ w0 w1, exec (.lrec g k a) s = (s.entered (.lrec g k a)).raise fLAYRANGE w0 w1) ∧
    (recBadWord r = none → recWtag r = world → recRange r = none →
      exec (.lrec g k a) s = .next ((s.entered (.lrec g k a)).later 1 0 (.lrec k.toNat ⟨false, r⟩))))) ∧
  tracked (.cpy g d l m x) false ∧ tracked (.cpyx g d l m x) true ∧
  (s.runs (.cpyt g a l m x) = true → checked → s.copyBad true false (slot l) (slot m) = none →
    let u := s.entered (.cpyt g a l m x)
    let at_ := (u.rdS a).toNat
    let p := packetsOf (slot l) (slot m)
    (at_ < s.cyc + 8 ∨ s.cyc + 2 ^ 20 < at_ ∨ 32 ≤ h.tlev → ∃ w0 w1, exec (.cpyt g a l m x) s = u.raise fTIMING w0 w1) ∧
    (s.cyc + 8 ≤ at_ → at_ ≤ s.cyc + 2 ^ 20 → h.tlev < 32 → 0 < p → ∀ q : Timed,
      q = { id := h.nextTimed, core := here, ctx := s.iss.ctx, gen := s.cur.gen, launch := s.cur.launch, addr := s.iss.addr, t := at_, packets := p, per := 512 / max (recW (slot l)) (recW (slot m)), dly := if recSpace (slot m) = 3 then 104 else if recSpace (slot l) = 3 then 112 else 72, src := slot l, dst := slot m } →
      (s.collides cl (q.claims ch) = false →
        exec (.cpyt g a l m x) s = .next (u.modChan cl ch fun v => { v with timed := v.timed ++ [q], nextTimed := v.nextTimed + 1 })) ∧
      (s.collides cl (q.claims ch) = true → ∃ w0 w1, exec (.cpyt g a l m x) s = u.raise fTIMING w0 w1))) ∧
  (s.runs (.cidw g a x) = true →
    let u := s.entered (.cidw g a x)
    let id := (u.rdS a).toNat % 2 ^ 32
    (∀ f, h.flagFor here s.iss.ctx s.cur.gen id = some f → ∃ w1, exec (.cidw g a x) s = u.raise f.cause (BitVec.ofNat 64 f.va) w1) ∧
    (h.flagFor here s.iss.ctx s.cur.gen id = none → h.covered id = true →
      exec (.cidw g a x) s = .next { u with iss := { u.iss with yield := true } }) ∧
    (h.flagFor here s.iss.ctx s.cur.gen id = none → h.covered id = false →
      exec (.cidw g a x) s = .next { u with iss := { u.iss with wait := u.iss.wait ++ [.cid ch id], yield := true } })) ∧
  (∀ b i, (s.ctx c n).st = .wait [.cid b i] →
    ((s.chan (clusterOf c) b).covered i = true → ∃ t, exec (.cidwWake c n) s = .next t ∧ (t.ctx c n).st = .ready) ∧
    ((s.chan (clusterOf c) b).covered i = false → exec (.cidwWake c n) s = .next (s.modCtx c n id))) ∧
  (s.runs (.cidr g d x) = true →
    let again := h.repushed.any fun t => t.of here s.iss.ctx s.cur.gen
    let flag := h.flags.any fun f => f.of here s.iss.ctx s.cur.gen
    exec (.cidr g d x) s = .next (s.putS 1 0 d (BitVec.ofNat 64
      (h.done_ + (if again then 2 ^ 62 else 0) + (if flag then 2 ^ 63 else 0))))) ∧
  (s.runs (.cinv g a x) = true →
    let va := ((s.entered (.cinv g a x)).rdS a).toNat
    ∃ t, exec (.cinv g a x) s = .next t ∧
      (∀ c', dieOf c' = dieOf here → ∀ e ∈ (t.core c').tlb, e.world = world → e.va / 2 ^ lvlShift e.tlvl = va / 2 ^ lvlShift e.tlvl → e.dead ≠ none) ∧
      (∀ b i, b / 64 = dieOf here → ∀ e ∈ (t.chan b i).map, e.world = world → e.va / 2 ^ lvlShift e.tlvl ≠ va / 2 ^ lvlShift e.tlvl) ∧
      ∃ (q : Tracked) (f : Tracked → Tracked), (t.chan cl ch).queue = h.queue.map f ++ [q] ∧ (t.chan cl ch).run = h.run.map f ∧
        q.marker = some (world, va / 65536) ∧ ∀ r, f r = { r with map := (f r).map, holes := (f r).holes }) ∧
  (s.runs (.chalt g x) = true → ∃ t, exec (.chalt g x) s = .next t ∧
    (t.chan cl ch).queue = h.queue.filter (fun q => !q.of here s.iss.ctx s.cur.gen) ∧
    (t.chan cl ch).timed = h.timed.filter (fun q => !q.of here s.iss.ctx s.cur.gen) ∧ (t.chan cl ch).run = h.run ∧ t.cores = s.cores)

/-- R234, R237, R238, R240. -/
def Obligations.CopyEvents : Prop := ∀ (s : State) (cl ch id : Nat),
  let h := s.chan cl ch
  (∀ t, h.timed.find? (fun q => decide (q.id = id)) = some t →
    (t.read < t.packets → t.t + t.read ≤ s.cyc →
      let el := fun (j : Nat) =>
        let e := recElem t.src j
        let o := moveElem (recFmt t.src) (recFmt t.dst) (s.localElem t.core t.src e)
        (o.bits, o.entry, off48 e.2)
      exec (.timedPacketRead cl ch id) s = .next (s.modTimed cl ch id fun q =>
        { q with read := q.read + 1, data := q.data ++ [(t.read, (t.elems t.read).map el)] })) ∧
    (t.packets ≤ t.read ∨ s.cyc < t.t + t.read → exec (.timedPacketRead cl ch id) s = .next s) ∧
    (t.read ≤ t.wrote ∨ s.cyc < t.t + t.wrote + t.dly → exec (.timedPacketWrite cl ch id) s = .next s) ∧
    (∀ row, t.wrote < t.read → t.t + t.wrote + t.dly ≤ s.cyc → t.lost = false → spadSpace (recSpace t.dst) = true → recTagen t.dst = false →
      recXlen t.dst = 0 → t.data.find? (fun r => decide (r.1 = t.wrote)) = some (t.wrote, row) → ∃ u, exec (.timedPacketWrite cl ch id) s = .next u ∧
        u.cores = ((List.range row.length).foldl (fun (v : State) i =>
          v.storeElem t.core t.dst (recElem t.dst ((t.elems t.wrote).getD i 0)) (row.getD i (0, 0, 0)).1) s).cores ∧
        (t.packets ≤ t.wrote + 1 → ∀ q ∈ (u.chan cl ch).timed, q.id ≠ id) ∧
        (t.wrote + 1 < t.packets → ∀ q ∈ (u.chan cl ch).timed, q.id = id → q.wrote = t.wrote + 1))) ∧
  (∀ t rest, h.queue = t :: rest → h.run = none →
    (t.marker ≠ none → exec (.trackedCopyStart cl ch) s = .next (s.modChan cl ch fun v => { v with queue := rest })) ∧
    (t.marker = none →
      exec (.trackedCopyStart cl ch) s = .next (s.modChan cl ch fun v => { v with queue := rest, run := some { t with started := true } }))) ∧
  (∀ t, h.run = some t → s.copyReady t = false → exec (.trackedCopyElement cl ch) s = .next s) ∧
  (∀ t, h.run = some t → s.copyReady t = true → t.stopped = false → t.pos < recN t.dst → recTagen t.dst = false → recXlen t.dst = 0 → fifoSpace (recSpace t.dst) = false →
    let e := srcElem t.x t.src t.dst t.pos
    (∀ v u, s.copyRead h.queue t e = .ok v →
      s.copyWrite cl ch t (recElem t.dst t.pos) (moveElem (recFmt t.src) (recFmt t.dst) v).bits = .ok u →
      exec (.trackedCopyElement cl ch) s = .next (u.modRun cl ch fun q => { q with pos := t.pos + 1, acc := [] })) ∧
    (∀ cause va, s.copyRead h.queue t e = .error (some (cause, va)) → t.acc = [] → (s.ctx t.core t.ctx).gen = t.gen → (s.ctx t.core t.ctx).st ≠ .free →
      h.flags.length < 16 → ∃ u, exec (.trackedCopyElement cl ch) s = .next u ∧
        (u.chan cl ch).flags = h.flags ++ [{ id := t.id, cause := cause, index := t.pos, va := va, core := t.core, ctx := t.ctx, gen := t.gen }] ∧
        ∃ q, (u.chan cl ch).run = some q ∧ q.stopped = true)) ∧
  (∀ t, h.run = some t →
    (t.stopped = false → t.pos < recN t.dst → exec (.trackedCopyComplete cl ch) s = .next s) ∧
    (t.stopped = true ∨ recN t.dst ≤ t.pos → (∀ p ∈ s.packets, p.lost = true ∨ p.copy ≠ some (cl, ch, t.id)) →
      ∃ u, exec (.trackedCopyComplete cl ch) s = .next u ∧ (u.chan cl ch).run = none ∧ (u.chan cl ch).queue = h.queue ∧
        (t.repush = false → h.finished = [] → h.done_ = t.id → (u.chan cl ch).done_ = (t.id + 1) % 2 ^ 32)))

/-- R373, R379 to R382, R389. That MHND of 0 needs no job is log 72's reading, and that a COLL joins no slot that all its participants have joined
log 22's choice. -/
def Obligations.FabricOps : Prop := ∀ (s : State) (g : Guard) (d a b : Code),
  let c := s.iss.core
  let needs := fun (i : Instr) => s.runs i = true → (s.entered i).jobOf c s.iss.ctx = none →
    exec i s = (s.entered i).raise fPERM 0 (src 2 5)
  let counted := fun (job : Nat) (p : Nat × Job) =>
    if p.2.job = job then (p.1, { p.2 with inj := NMap.set p.2.inj (dieOf c) ((NMap.getD p.2.inj (dieOf c) 0 + 1) % 2 ^ 48) }) else p
  needs (.msend g a b) ∧ needs (.wquiet g) ∧ needs (.rcstat g d) ∧ needs (.collAr g d a) ∧ needs (.collRs g d a) ∧
  needs (.collAg g d a) ∧ needs (.collBc g d a) ∧ ((s.entered (.mhnd g a)).rdS a ≠ 0 → needs (.mhnd g a)) ∧
  (∀ job, s.runs (.msend g a b) = true → (s.entered (.msend g a b)).jobOf c s.iss.ctx = some job →
    let u := s.entered (.msend g a b)
    let v := (u.rdS a).toNat
    let bad := v / 2 ^ 30 % 4 ≠ 0 ∨ v / 2 ^ 39 % 2 ^ 9 ≠ 0 ∨ v / 2 ^ 56 ≠ 0 ∨ 56 ≤ clusterNo (v / 2 ^ 20 % 2 ^ 10)
    (bad → ∃ w1, exec (.msend g a b) s = u.raise fLAYRANGE 0 w1) ∧
    (¬bad → 16 ≤ u.curCore.sendq.length → exec (.msend g a b) s = .next u.heldState) ∧
    (¬bad → u.curCore.sendq.length < 16 → ∃ (t : State) (m : Msg), exec (.msend g a b) s = .next t ∧
      (t.core c).sendq = u.curCore.sendq ++ [m] ∧ t.jobs = s.jobs.map (counted job) ∧
      m.node = v % 2 ^ 20 ∧ m.core = v / 2 ^ 20 % 2 ^ 10 ∧ m.len = v / 2 ^ 32 % 2 ^ 7 ∧ m.tag = v / 2 ^ 48 % 2 ^ 8 ∧ m.job = job ∧
      m.srcNode = s.node ∧ m.srcCore = c ∧
      ∀ l, l < 128 → m.payload.lane l = if l ≤ m.len then (u.rdV b).lane l else 0)) ∧
  (s.runs (.mhnd g a) = true →
    let u := s.entered (.mhnd g a)
    let v := u.rdS a
    (v = 0 → ∃ t, exec (.mhnd g a) s = .next t ∧
      (t.core c).handlers = u.curCore.handlers.filter (fun h => !decide (h.ctx = s.iss.ctx ∧ h.gen = u.cur.gen))) ∧
    (∀ job, v ≠ 0 → u.jobOf c s.iss.ctx = some job →
      (v.toNat % 16 ≠ 0 → ∃ w0, exec (.mhnd g a) s = u.raise fALIGN w0 (src 3 0)) ∧
      (v.toNat % 16 = 0 → 2 ^ 57 ≤ v.toNat → ∃ w1, exec (.mhnd g a) s = u.raise fLAYRANGE 0 w1) ∧
      (v.toNat % 16 = 0 → v.toNat < 2 ^ 57 → ∃ t, exec (.mhnd g a) s = .next t ∧
        (t.core c).handlers = (u.curCore.handlers.filter fun h => decide (h.job ≠ job)) ++
          [{ job := job, entry := v.toNat, launch := u.cur.launch, prio := u.cur.prio, world := s.worldOf c s.iss.ctx, depth := u.cur.depth,
             ctx := s.iss.ctx, gen := u.cur.gen }]))) ∧
  (∀ job, s.runs (.wquiet g) = true → s.jobOf c s.iss.ctx = some job →
    (s.myGinc = none → exec (.wquiet g) s = .next (s.waitState (.quiet job none))) ∧
    (∀ p, s.myGinc = some p → exec (.wquiet g) s = s.raise fGANG (BitVec.ofNat 64 p.1) (BitVec.ofNat 64 p.2))) ∧
  (∀ job, s.runs (.rcstat g d) = true → s.jobOf c s.iss.ctx = some job → ∃ e : Word, exec (.rcstat g d) s = .next (s.putS 1 0 d e) ∧
    (∀ v, NMap.get? (s.die (dieOf c)).verdicts job = some v → v.sumi < 2 ^ 48 →
      e.getLsbD 61 = s.myGinc.isSome ∧ (e.getLsbD 60 = true ↔ ∃ q, s.jobEntry job = some q ∧ q.2.loss = true) ∧ e.getLsbD 63 = true ∧ e.getLsbD 62 = v.quiet ∧ e.toNat / 2 ^ 48 % 2 ^ 12 = v.wave % 2 ^ 12 ∧ e.toNat % 2 ^ 48 = v.sumi) ∧
    (NMap.get? (s.die (dieOf c)).verdicts job = none →
      e.getLsbD 61 = s.myGinc.isSome ∧ (e.getLsbD 60 = true ↔ ∃ q, s.jobEntry job = some q ∧ q.2.loss = true) ∧
      e.getLsbD 63 = false ∧ e.getLsbD 62 = false ∧ e.toNat % 2 ^ 60 = 0)) ∧
  (let coll := fun (i : Instr) (kind : Nat) => s.runs i = true → ∀ job, (s.entered i).jobOf c s.iss.ctx = some job →
      let u := s.entered i
      let va := (u.rdS a).toNat
      (va % 64 ≠ 0 → ∃ w0 w1, exec i s = u.raise fALIGN w0 w1) ∧
      (∀ e, va % 64 = 0 → u.readsFresh va 64 e = true →
        let ws := words8 8 (u.freshBytes va 64 e)
        collBad ws = none → u.listWordsClear (ws.getD 4 0).toNat = false → exec i s = .next u.heldState) ∧
      (∀ e ls nodes again, va % 64 = 0 → u.readsFresh va 64 e = true →
        let ws := words8 8 (u.freshBytes va 64 e)
        let w := fun (i : Nat) => (ws.getD i 0).toNat
        let n := w 2 % 2 ^ 32
        collBad ws = none → u.listWordsClear (w 4) = true → u.readList (w 4) = .ok ls → pkgList ls 0 1 u.node = .ok (job, nodes, again) →
        w 2 / 2 ^ 48 % 2 ^ 12 < nodes.length → (kind = 3 ∨ n % (32 * nodes.length) = 0) →
        let v := u.askMerges c fun _ => true
        let fence : Access := { id := v.curCore.nextAccess, ctx := s.iss.ctx, gen := u.cur.gen, launch := u.cur.launch, kind := 5, scope := 5,
                                at_ := s.cyc }
        let part : Part := { core := c, kind := kind, n := n, ppart := w 2 / 2 ^ 32 % 2 ^ 10 + 1, root := w 2 / 2 ^ 48 % 2 ^ 12, list := nodes,
                             src := w 0, dst := w 1, stat := w 5, ctr := w 6, world := s.worldOf c s.iss.ctx, ctx := s.iss.ctx,
                             gen := u.cur.gen, at_ := v.curCore.nextAccess + 1 }
        let open_ := s.gates.find? fun q => decide (q.2.job = job ∧ q.2.tag = w 3) && !q.2.counted && !q.2.joined
        let free := (List.range 64).find? fun i => (NMap.get? s.gates i).isNone
        ∃ t, exec i s = .next t ∧ (t.core c).access = v.curCore.access ++ [fence] ∧
          (∀ m q, open_ = some (m, q) → NMap.get? s.gates m = some q → NMap.get? t.gates m = some { q with parts := q.parts ++ [{ part with late := q.begun.isSome }] } ∧
            ∃ f ∈ t.cur.flight, f.due = u.cur.clk + 1 ∧ f.eff = .sreg (u.dstS d) (BitVec.ofNat 64 (2 ^ 63 + q.seq % 2 ^ 63))) ∧
          (∀ m, open_ = none → free = some m → (∃ q, NMap.get? t.gates m = some q ∧ q.parts = [part] ∧ q.job = job ∧ q.tag = w 3 ∧
              q.seq = s.nextGate) ∧ t.nextGate = s.nextGate + 1 ∧
            ∃ f ∈ t.cur.flight, f.due = u.cur.clk + 1 ∧ f.eff = .sreg (u.dstS d) (BitVec.ofNat 64 (2 ^ 63 + s.nextGate % 2 ^ 63))) ∧
          (open_ = none → free = none → t.gates = s.gates ∧ ∃ f ∈ t.cur.flight, f.due = u.cur.clk + 1 ∧ f.eff = .sreg (u.dstS d) 0))
   coll (.collAr g d a) 0 ∧ coll (.collRs g d a) 1 ∧ coll (.collAg g d a) 2 ∧ coll (.collBc g d a) 3)

/-- R349 to R351; an arrival is counted once the accesses before the barrier's bundle, and the context's scratchpad stores, have performed. That the
news of a gang's other packages comes as an early BARRIER_RELEASE is the model's choice (log 49). -/
def Obligations.BarriersAndCounters : Prop := ∀ (s : State) (g : Guard) (n a b : Code) (c x : Nat),
  let me := s.iss.core
  (s.runs (.bar g n) = true →
    (s.cur.proc = true → exec (.bar g n) s = s.raise fPERM 0 (src 2 4)) ∧
    (s.cur.proc = false → exec (.bar g n) s = .next (s.waitState (.bar n.toNat false s.iss.acc)))) ∧
  (s.runs (.gbar g n) = true →
    (s.cur.proc = true ∨ s.cur.handler ≠ none ∨ s.cur.lvl ≠ 2 → exec (.gbar g n) s = s.raise fPERM 0 (src 2 4)) ∧
    (s.cur.proc = false → s.cur.handler = none → s.cur.lvl = 2 →
      (s.multi s.cur.launch = false ∨ s.ginc s.cur.launch = none → exec (.gbar g n) s = .next (s.waitState (.gbar n.toNat false s.iss.acc))) ∧
      (∀ p, s.multi s.cur.launch = true → s.ginc s.cur.launch = some p →
        exec (.gbar g n) s = s.raise fGANG (BitVec.ofNat 64 p.1) (BitVec.ofNat 64 p.2)))) ∧
  (s.runs (.ctrinc g a b) = true →
    let u := s.entered (.ctrinc g a b)
    let va := (u.rdS a).toNat
    (va % 8 ≠ 0 → ∃ w0 w1, exec (.ctrinc g a b) s = u.raise fALIGN w0 w1) ∧
    (∀ e, va % 8 = 0 → u.reaches va 2 8 e = true → ∃ (t : State) (f k : Access), exec (.ctrinc g a b) s = .next t ∧
      let v := u.askMerges me fun _ => true
      (t.core me).access = v.curCore.access ++ [f, k] ∧ (t.core me).nextAccess = v.curCore.nextAccess + 2 ∧ (t.core me).amo = v.curCore.amo ∧
      (t.core (s.l1Core me)).l1 = (blocks 16 (e.phys va) 8).foldl NMap.erase (v.core (s.l1Core me)).l1 ∧
      f.kind = 5 ∧ f.scope = 5 ∧ f.id = v.curCore.nextAccess ∧ f.ctx = s.iss.ctx ∧ f.gen = u.cur.gen ∧
      k.kind = 4 ∧ k.pa = e.phys va ∧ k.len = 8 ∧ k.id = f.id + 1 ∧ k.ctx = s.iss.ctx ∧ k.value.setWidth 64 = u.rdS b ∧ k.done = false)) ∧
  (s.runs (.ctrwait g a b) = true →
    let u := s.entered (.ctrwait g a b)
    let va := (u.rdS a).toNat
    (va % 8 ≠ 0 → ∃ w0 w1, exec (.ctrwait g a b) s = u.raise fALIGN w0 w1) ∧
    (∀ e, va % 8 = 0 → u.reaches va 0 8 e = true →
      let pa := e.phys va
      let own := fun (n : Nat) => u.ownClear me s.iss.ctx u.cur.gen n pa 8 [homeDie pa]
      let there := own s.iss.acc && u.lineClear (homeDie pa) pa 8 me s.iss.acc s.cyc
      (there = false → exec (.ctrwait g a b) s = .next u.heldState) ∧
      (there = true → own u.curCore.nextAccess = false → exec (.ctrwait g a b) s =
        .next (u.waitState (.ctrRead pa e.wtag (u.rdS b) u.curCore.nextAccess))) ∧
      (there = true → own u.curCore.nextAccess = true → exec (.ctrwait g a b) s = .next (u.waitState (.ctr pa e.wtag (u.rdS b)
        (decide ((u.rdS b).toNat ≤ (if isRegPage pa then leNat (u.regRead (pa % 2 ^ 32) 8) % 2 ^ 64
          else leNat (u.viewRead (homeDie pa) e.wtag pa 8) % 2 ^ 64)))))))) ∧
  (∀ id n, (s.ctx c x).st = .wait [.bar id false n] →
    let k := s.ctx c x
    let before := s.settledBy c x k.gen 4 n = true ∧ ∀ f ∈ k.flight, ∀ p q d, f.eff ≠ .store p q d
    (before → ((s.arrive c x k).ctx c x).st = .wait [.bar id true n]) ∧ (¬before → s.arrive c x k = s)) ∧
  (∀ l v sub, l < 2 ^ 64 → sub < 2 ^ 64 → NMap.get? s.launches l = some v → (∀ t, (v.bar sub).release = some t → s.cyc < t) →
    (sub % 16 < 8 ∨ s.multi l = false → exec (.barrierRelease (l * 2 ^ 64 + sub)) s = .next s) ∧
    (8 ≤ sub % 16 → s.multi l = true → ∃ u v', exec (.barrierRelease (l * 2 ^ 64 + sub)) s = .next u ∧ u.cores = s.cores ∧
      NMap.get? u.launches l = some v' ∧ v'.bar sub = { v.bar sub with others := (v.bar sub).others + 1 })) ∧
  (∀ l v sub t, l < 2 ^ 64 → sub < 2 ^ 64 → NMap.get? s.launches l = some v → (v.bar sub).release = some t →
    (t ≤ s.cyc → ∃ u, exec (.barrierRelease (l * 2 ^ 64 + sub)) s = .next u ∧
      (∃ v', NMap.get? u.launches l = some v' ∧ v'.bar sub = { others := (v.bar sub).others - 1 }) ∧
      (∀ c x, (∀ ws, (s.ctx c x).st ≠ .wait ws) → u.ctx c x = s.ctx c x) ∧
      (∀ c x id n, ((s.ctx c x).st = .wait [.bar id true n] ∧ id < 8 ∧ barKey (s.ctx c x).launch ((s.ctx c x).barSub c x) id = l * 2 ^ 64 + sub ∨
          (s.ctx c x).st = .wait [.gbar id true n] ∧ id < 8 ∧ barKey (s.ctx c x).launch 0 (8 + id) = l * 2 ^ 64 + sub) →
        (s.loadsOut c x = false → (u.ctx c x).st = .ready) ∧
        (s.loadsOut c x = true → ∃ ws, (u.ctx c x).st = .wait ws ∧ ws ≠ [] ∧ ∀ w ∈ ws, w = .fence 0 0)))) ∧
  (∀ pa w v h, (s.ctx c x).st = .wait [.ctr pa w v h] →
    (h = true → ∃ t, exec (.counterWaitWake c x) s = .next t ∧ (t.ctx c x).st = if s.loadsOut c x then .wait [.fence 0 0] else .ready) ∧
    (h = false → s.loadsOut c x = false → exec (.counterWaitWake c x) s = .next (s.modCtx c x id))) ∧
  (∀ pa w v n, (s.ctx c x).st = .wait [.ctrRead pa w v n] → s.loadsOut c x = false →
    let read := s.ownClear c x (s.ctx c x).gen n pa 8 [homeDie pa] && s.lineClear (homeDie pa) pa 8 1024 0 (s.cyc + 1)
    let reached := v.toNat ≤ (s.wordAt (homeDie pa) w pa).toNat
    (read = false → exec (.counterWaitWake c x) s = .next (s.modCtx c x id)) ∧
    (read = true → ∃ t, exec (.counterWaitWake c x) s = .next t ∧
      (t.ctx c x).st = if reached then .ready else .wait [.ctr pa w v false]))

/-- R343, R344, R386, R387. That a REARM of a job that has no incomplete gang raises LAYOUT_RANGE is the model's choice (log 109). -/
def Obligations.LaunchOps : Prop := ∀ (s : State) (g : Guard) (d a : Code) (c x : Nat),
  let me := s.iss.core
  let world := s.worldOf me s.iss.ctx
  let bytes := fun (u : State) (e : TlbEntry) => words8 32 (u.freshBytes (u.rdS a).toNat 256 e)
  let sound := fun (i : Instr) (e : TlbEntry) =>
    let u := s.entered i
    s.runs i = true ∧ u.cur.depth ≠ 3 ∧ (u.rdS a).toNat % 256 = 0 ∧ u.settledBy me s.iss.ctx u.cur.gen 5 s.iss.acc = true ∧
      u.pathTurn (dieOf me) 1 (me + 1) = true ∧ u.readsFresh (u.rdS a).toNat 256 e = true
  let common := fun (i : Instr) =>
    let u := s.entered i
    let va := (u.rdS a).toNat
    (s.runs i = true → u.cur.depth = 3 → exec i s = u.raise fDEPTH (BitVec.ofNat 64 va) 0) ∧
    (s.runs i = true → u.cur.depth ≠ 3 → va % 256 ≠ 0 → ∃ w0 w1, exec i s = u.raise fALIGN w0 w1) ∧
    (s.runs i = true → u.cur.depth ≠ 3 → va % 256 = 0 → u.settledBy me s.iss.ctx u.cur.gen 5 s.iss.acc = false →
      exec i s = .next { u with iss := { u.iss with held := true, rel := true } }) ∧
    (s.runs i = true → u.cur.depth ≠ 3 → va % 256 = 0 → u.settledBy me s.iss.ctx u.cur.gen 5 s.iss.acc = true →
      u.pathTurn (dieOf me) 1 (me + 1) = false → exec i s = .next u.heldState) ∧
    (∀ e rule v, sound i e → u.lrBad (bytes u e) world = some (rule, v) →
      (rule = 12 → ∃ w0 w1, exec i s = u.raise fWORLD w0 w1) ∧
      (rule ≠ 12 → exec i s = u.raise fLAYRANGE (BitVec.ofNat 64 rule) (BitVec.ofNat 64 v)))
  let pending := fun (t : State) (n : Nat) (r : List Word) =>
    (t.slotAt n).rec_ = r ∧ (t.slotAt n).claim = true ∧ (t.slotAt n).order = s.nextOrder ∧ t.nextOrder = s.nextOrder + 1 ∧
    ∀ m, m ≠ n → t.slotAt m = s.slotAt m
  let found := fun (i : Instr) => ∀ e n, sound i e →
    let u := s.entered i
    u.lrBad (bytes u e) world = none → u.recordRead.slotNow (u.cur.depth + 1) = some n → ∃ t, exec i s = .next t ∧
      pending t n (lrFor (bytes u e) (u.cur.depth + 1)) ∧
      ∃ f ∈ t.cur.flight, f.due = u.cur.clk + 1 ∧ f.eff = .sreg (u.dstS d) (BitVec.ofNat 64 (2 ^ 63 + n))
  common (.launch g d a) ∧ common (.launchn g d a) ∧ common (.glaunch g d a) ∧ found (.launch g d a) ∧ found (.launchn g d a) ∧
  (∀ e, sound (.launch g d a) e →
    let u := s.entered (.launch g d a)
    let v := u.recordRead
    u.lrBad (bytes u e) world = none → v.slotNow (u.cur.depth + 1) = none →
      exec (.launch g d a) s = .next (v.waitState (.slot (lrFor (bytes u e) (u.cur.depth + 1)) none (u.dstS d) s.cyc))) ∧
  (∀ e, sound (.launchn g d a) e →
    let u := s.entered (.launchn g d a)
    let v := u.recordRead
    u.lrBad (bytes u e) world = none → v.slotNow (u.cur.depth + 1) = none → exec (.launchn g d a) s = .next (v.putS 1 0 d 0)) ∧
  (∀ e, sound (.glaunch g d a) e →
    let u := s.entered (.glaunch g d a)
    let r := lrFor (bytes u e) (u.cur.depth + 1)
    let v := u.recordRead
    u.lrBad (bytes u e) world = none →
    (lrKind (bytes u e) ≠ 2 → ∃ w1, exec (.glaunch g d a) s = u.raise fLAYRANGE 0 w1) ∧
    (lrKind (bytes u e) = 2 → lw (bytes u e) 0xE8 = 0 → exec (.glaunch g d a) s = u.raise fLAYRANGE 0 0) ∧
    (lrKind (bytes u e) = 2 → lw (bytes u e) 0xE8 ≠ 0 → lw r 0xE8 % 8 ≠ 0 → ∃ w1, exec (.glaunch g d a) s = v.raise fLAYRANGE 0 w1) ∧
    (lrKind (bytes u e) = 2 → lw (bytes u e) 0xE8 ≠ 0 → lw r 0xE8 % 8 = 0 → v.listWordsClear (lw r 0xE8) = false →
      exec (.glaunch g d a) s = .next v.heldState) ∧
    (∀ ls job nodes, lrKind (bytes u e) = 2 → lw (bytes u e) 0xE8 ≠ 0 → lw r 0xE8 % 8 = 0 → v.listWordsClear (lw r 0xE8) = true →
      v.readList (lw r 0xE8) = .ok ls → pkgList ls (lrTiles r) (lrCsz r) u.node = .ok (job, nodes, true) → s.holdsJob job world = true →
      let lost := (s.gangs.filter fun q => decide (q.job = job ∧ q.phase = 3)).getLast?
      (lost = none → exec (.glaunch g d a) s = v.raise fLAYRANGE 0 (BitVec.ofNat 64 job)) ∧
      (∀ q, lost = some q → ∃ t, exec (.glaunch g d a) s = .next t ∧ t.iss = (u.waitState (.gang q.no (u.dstS d))).iss ∧ t.pool = s.pool ∧
        ∃ h ∈ t.gangs, h.no = q.no ∧ h.job = job ∧ h.phase = 0 ∧ h.rearm = true ∧ h.nodes = nodes ∧ h.core = me ∧ h.ctx = s.iss.ctx ∧
          h.dest = u.dstS d)) ∧
    (∀ ls job nodes, lrKind (bytes u e) = 2 → lw (bytes u e) 0xE8 ≠ 0 → lw r 0xE8 % 8 = 0 → v.listWordsClear (lw r 0xE8) = true →
      v.readList (lw r 0xE8) = .ok ls → pkgList ls (lrTiles r) (lrCsz r) u.node = .ok (job, nodes, false) →
      (s.holdsJob job world = false → exec (.glaunch g d a) s = v.raise fLAYRANGE 0 (BitVec.ofNat 64 job)) ∧
      (∀ n, s.holdsJob job world = true → v.slotNow (u.cur.depth + 1) = some n → ∃ (t : State) (q : Gang), exec (.glaunch g d a) s = .next t ∧
        t.gangs = s.gangs ++ [q] ∧ q.job = job ∧ q.nodes = nodes ∧ q.slot = n ∧ q.no = s.gangNo n ∧ q.phase = 0 ∧ q.core = me ∧ q.ctx = s.iss.ctx ∧
        q.dest = u.dstS d ∧ (t.slotAt n).reserved = true ∧ (t.slotAt n).rec_ = r ∧
        t.nextGang = s.nextGang + 1 ∧ t.iss = (u.waitState (.gang (s.gangNo n) (u.dstS d))).iss) ∧
      (s.holdsJob job world = true → v.slotNow (u.cur.depth + 1) = none → exec (.glaunch g d a) s = .next (v.waitState
        (.slot r (some (job, nodes, nodes.findIdx fun n => decide (n = u.node))) (u.dstS d) s.cyc))))) ∧
  (∀ r r0 at_ n, (s.ctx c x).st = .wait [.slot r none (some r0) at_] →
    let depth := lw r 8 / 2 ^ 5 % 4
    ((s.line depth).head?.map (·.2) = some (c, x) → s.freeSlot depth = some n → ∃ t, exec (.launchWaitSlot c x) s = .next t ∧
      pending t n r ∧ (t.ctx c x).st = .ready ∧ (t.ctx c x).sAt r0 = BitVec.ofNat 64 (2 ^ 63 + n)) ∧
    ((s.line depth).head?.map (·.2) ≠ some (c, x) ∨ s.freeSlot depth = none → exec (.launchWaitSlot c x) s = .next s))

/-- R361 to R371. -/
def Obligations.ProctorOps : Prop := ∀ (s : State) (g : Guard) (d a b : Code) (p : Pass) (c x : Nat),
  let pass := fun (i : Instr) => s.runs i = true ∧ s.cur.proc = true ∧ (s.entered i).livePass ((s.entered i).rdS a) = some p
  let checks := fun (i : Instr) =>
    (s.runs i = true → s.cur.proc = false → exec i s = (s.entered i).raise fPERM 0 (src 2 1)) ∧
    (s.runs i = true → s.cur.proc = true → (s.entered i).livePass ((s.entered i).rdS a) = none →
      exec i s = (s.entered i).raise fPERM 0 (src 2 2))
  let spent := fun (t : State) => ∀ q, t.cur.pass = some q → q.live = false
  let free_ := fun (taken : Bool) => if taken then CtxSt.wait [.foreign] else .ready
  let k := s.ctx p.core p.ctx
  let getI := Instr.frget g d a b
  let putI := Instr.frput g d a b
  let item := fun (i : Instr) => ((s.entered i).rdS b).toNat
  checks (.frres g a) ∧ checks (.frskip g a) ∧ checks (.frkill g a) ∧ checks (.frexc g a) ∧
  (s.f1Over d b = none → checks getI) ∧ (s.f1Over d b = none → s.f1Bad d b = false → checks putI) ∧
  (s.runs (.fwait g d) = true →
    (s.cur.proc = false → exec (.fwait g d) s = s.raise fPERM 0 (src 2 1)) ∧
    (∀ q, s.cur.proc = true → s.cur.pass = some q → q.live = true → exec (.fwait g d) s = s.raise fPERM 0 (src 2 2)) ∧
    (s.cur.proc = true → (∀ q, s.cur.pass = some q → q.live = false) →
      exec (.fwait g d) s = .next (s.waitState (.fwait (s.slotS d.toNat))))) ∧
  (pass getI → s.f1Over d b = none →
    (selOk (item getI) = false ∨ (s.entered getI).selBeyond p.core p.ctx (item getI) = true →
      ∃ w0, exec getI s = (s.entered getI).raise fLAYRANGE w0 (BitVec.ofNat 64 (item getI))) ∧
    (selOk (item getI) = true → (s.entered getI).selBeyond p.core p.ctx (item getI) = false → exec getI s = .next ((s.entered getI).waitState
      (.frget (if selVec (item getI) then (s.entered getI).slotV d.toNat else (s.entered getI).slotS d.toNat) (selVec (item getI)) (item getI))))) ∧
  (pass putI → s.f1Over d b = none → s.f1Bad d b = false →
    (selPut (item putI) = false ∨ (s.entered putI).selBeyond p.core p.ctx (item putI) = true →
      ∃ w0, exec putI s = (s.entered putI).raise fLAYRANGE w0 (BitVec.ofNat 64 (item putI))) ∧
    (selPut (item putI) = true → (s.entered putI).selBeyond p.core p.ctx (item putI) = false → s.shut p.core = true →
      exec putI s = (s.entered putI).raise fWORLD 0 0) ∧
    (selPut (item putI) = true → (s.entered putI).selBeyond p.core p.ctx (item putI) = false → s.shut p.core = false → ∃ t, exec putI s = .next t ∧
      t.iss = ((s.entered putI).waitState (.frput (item putI) (if selVec (item putI) then 0 else (s.entered putI).rdS d)
        (if selVec (item putI) then (s.entered putI).rdV d else 0))).iss)) ∧
  (pass (.frres g a) →
    (k.frec.waitFault = false → ∃ t, exec (.frres g a) s = .next t ∧ (t.ctx p.core p.ctx).st = free_ (k.saved.contains .foreign) ∧
      (t.ctx p.core p.ctx).pc = k.pc ∧ spent t) ∧
    (k.frec.waitFault = true → s.ginc k.launch = none → ∃ t, exec (.frres g a) s = .next t ∧
      (t.ctx p.core p.ctx).st = .wait k.saved ∧ (t.ctx p.core p.ctx).pc = k.resumePc ∧ spent t)) ∧
  (pass (.frskip g a) →
    (p.skip = false → exec (.frskip g a) s = (s.entered (.frskip g a)).raise fPERM 0 (src 2 3)) ∧
    (p.skip = true → ∃ t, exec (.frskip g a) s = .next t ∧ (t.ctx p.core p.ctx).st = free_ (k.saved.contains .foreign) ∧
      (t.ctx p.core p.ctx).pc = (k.boundary k.pc k.loops).2 ∧ ((∀ l ∈ k.loops, l.last ≠ k.pc) → (t.ctx p.core p.ctx).pc = k.pc + 16) ∧ spent t)) ∧
  (pass (.frkill g a) → ∃ t, exec (.frkill g a) s = .next t ∧ (s.cur.st = .ready → spent t) ∧
    (k.proc = false → (t.ctx p.core p.ctx).st = .free ∧ ∀ l, NMap.get? s.launches k.launch = some l →
      ∃ l', NMap.get? t.launches k.launch = some l' ∧ l'.nKilled = l.nKilled + 1 ∧ l'.nRetired = l.nRetired) ∧
    (k.proc = true → k.leaving = false → (t.ctx p.core p.ctx).st = free_ (k.waits.contains .foreign || k.saved.contains .foreign) ∧
      (t.ctx p.core p.ctx).pc = k.entry)) ∧
  (pass (.frexc g a) → ∃ t, exec (.frexc g a) s = .next t ∧ t.cores = (s.entered (.frexc g a)).cores ∧
    ∀ key ∈ (s.entered (.frexc g a)).barKeys, k.inBar p.core p.ctx key = true → k.atBar p.core p.ctx key = false →
      ∀ l, NMap.get? s.launches (key / 2 ^ 64) = some l → ∃ l', NMap.get? t.launches (key / 2 ^ 64) = some l' ∧
        p.core * 8 + p.ctx ∈ (l'.bar (key % 2 ^ 64)).excused) ∧
  (∀ r vec q, (s.ctx c x).st = .wait [.frget r vec q] → (s.ctx c x).pass = some p →
    (s.itemBusy p.core p.ctx q = true → exec (.frgetFrputComplete c x) s = .next s) ∧
    (s.itemBusy p.core p.ctx q = false → ∃ t, exec (.frgetFrputComplete c x) s = .next t ∧ (t.ctx c x).st = .ready ∧
      (if vec then (t.ctx c x).vAt r = s.itemV p.core p.ctx q else (t.ctx c x).sAt r = s.itemS p.core p.ctx q))) ∧
  (∀ q v u, (s.ctx c x).st = .wait [.frput q v u] → (s.ctx c x).pass = some p →
    (s.itemBusy p.core p.ctx q = true → exec (.frgetFrputComplete c x) s = .next s) ∧
    (s.itemBusy p.core p.ctx q = false → (c, x) ≠ (p.core, p.ctx) → ∃ t, exec (.frgetFrputComplete c x) s = .next t ∧
      (t.ctx c x).st = .ready ∧ (q ≠ 0x300 → q ≠ 0x301 → (0x50 ≤ q → q < 0x54 → s.hasRes = true) →
        t.ctx p.core p.ctx = if selVec q then k.putItemV q u else k.putItemS q v)))

/-- R403 to R405, R410, R414 to R419. The three stages of WORLD_TEARDOWN are log 24's reading and part of WLOAD's check log 53's; that a world-0
context stands still while its core is another world's is log 46's choice. -/
def Obligations.RegistrarOps : Prop := ∀ (s : State) (g : Guard) (d a b : Code),
  let me := s.worldOf s.iss.core s.iss.ctx
  let mgmt := s.isMgmt s.iss.core s.iss.ctx
  let va := fun (i : Instr) => ((s.entered i).rdS a).toNat
  let queue := fun (r : RegReq) (t : State) => ({ t with regq := t.regq ++ [r] } : State)
  let denied := fun (i : Instr) => exec i s = (s.entered i).raise fPERM 0 (src 2 1)
  let refused := fun (i : Instr) => ∃ w1, exec i s = (s.entered i).raise fLAYRANGE 0 w1
  let crooked := fun (i : Instr) => ∃ w0 w1, exec i s = (s.entered i).raise fALIGN w0 w1
  (s.runs (.wload g a) = true →
    let i := Instr.wload g a
    let u := s.entered i
    (mgmt = false → denied i) ∧ (mgmt = true → va i % 256 ≠ 0 → crooked i) ∧
    (∀ e, mgmt = true → va i % 256 = 0 → u.readsFresh (va i) 256 e = true →
      let dsc := u.freshBytes (va i) 256 e
      let w := dscW dsc 0
      let n := dscW dsc 0x18
      let zero := leNat ((dsc.drop 0x38).take 0xC0) = 0
      (w = 0 ∨ 64 ≤ w ∨ ¬zero ∨ n % 16 ≠ 0 ∨ n < 48 ∨ 2 ^ 26 < n → refused i) ∧
      (0 < w → w < 64 → zero → n % 16 = 0 → 48 ≤ n → n ≤ 2 ^ 26 → u.lateClear (dieOf s.iss.core) dsc = false →
        exec i s = .next u.heldState) ∧
      (0 < w → w < 64 → zero → n % 16 = 0 → 48 ≤ n → n ≤ 2 ^ 26 → u.lateClear (dieOf s.iss.core) dsc = true →
        Asks i u 1 s fun t => queue (.wload (dieOf s.iss.core) (va i) w dsc (t.wloadLate (dieOf s.iss.core) w dsc)) t))) ∧
  (s.runs (.kwipe g a) = true →
    let i := Instr.kwipe g a
    (isSupervisor s.iss.core = false → denied i) ∧
    (isSupervisor s.iss.core = true → va i = 0 ∨ 64 ≤ va i → refused i) ∧
    (isSupervisor s.iss.core = true → 0 < va i → va i < 64 → (me ≠ 0 ∧ me ≠ va i → denied i) ∧
      (me = 0 ∨ me = va i → Asks i (s.entered i) 1 s (queue (.kwipe (va i)))))) ∧
  (s.runs (.fuserd g d a) = true →
    let i := Instr.fuserd g d a
    (16 ≤ va i → refused i) ∧
    (va i < 16 → Asks i (s.entered i) 1 s fun t => t.putS 1 0 d (t.fuseWord (va i)))) ∧
  (s.runs (.mext g a b) = true →
    let i := Instr.mext g a b
    let u := s.entered i
    let t := (u.rdS b).toNat
    (me = 0 → mgmt = false → denied i) ∧ (me ≠ 0 ∨ mgmt = true → va i % 32 ≠ 0 → crooked i) ∧
    (∀ e, me ≠ 0 ∨ mgmt = true → va i % 32 = 0 → u.readsFresh (va i) 32 e = true →
      let x := u.freshBytes (va i) 32 e
      (t < 0x100 ∨ 2 ^ 16 ≤ t → refused i) ∧
      (0x100 ≤ t → t < 2 ^ 16 → (me = 0 → Asks i u 1 s fun v => { v with mb2 := extendMb v.mb2 t x }) ∧
        (me ≠ 0 → Asks i u 1 s fun v => v.modWorld me fun r => { r with mb := extendMb r.mb t x })))) ∧
  (s.runs (.dbgopen g a) = true →
    let i := Instr.dbgopen g a
    let u := s.entered i
    let q := s.asks.find? fun v => decide (v.core = s.iss.core)
    (mgmt = false → denied i) ∧ (mgmt = true → va i % 256 ≠ 0 → crooked i) ∧
    (∀ e, mgmt = true → va i % 256 = 0 → u.readsFresh (va i) 256 e = true →
      let tok := u.freshBytes (va i) 256 e
      let line := if s.regq.contains (.dbgopen s.iss.core) then s.regq else s.regq ++ [.dbgopen s.iss.core]
      (q = none → exec i s = .next { u.heldState with regq := line, asks := s.asks ++ [⟨s.iss.core, false, s.cyc, 180000⟩] }) ∧
      (∀ v, q = some v → v.answered = false → exec i s = .next { u.heldState with regq := line }) ∧
      (∀ v, q = some v → v.answered = true → line.head? ≠ some (.dbgopen s.iss.core) →
        ∃ t, exec i s = .next t ∧ t.iss.held = true ∧ t.regq = line ∧ t.dbg = s.dbg ∧ t.nonce = s.nonce) ∧
      (∀ v, q = some v → v.answered = true → line.head? = some (.dbgopen s.iss.core) →
        (s.dbg = true → ∃ t, exec i s = .next t ∧ t.dbg = true ∧ t.nonce = s.nonce ∧ t.regq = line.tail) ∧
        (∀ n, s.dbg = false → u.tokenBad tok = some n → ∃ t, exec i s = .next t ∧ t.nonce = Config.random s.draws ∧ t.dbg = false ∧
          t.iss.faults = s.iss.faults ++ [(s.iss.pos, fPERM, BitVec.ofNat 64 n, src 2 6)]) ∧
        (s.dbg = false → u.tokenBad tok = none → u.tenants.any u.copiesOut = false → ∃ t, exec i s = .next t ∧ t.dbg = true ∧ t.debugPort = true ∧
          t.nonce = Config.random s.draws ∧ t.mb3 = extendMb s.mb3 3 (sha256 (tok.take 0x80)))))) ∧
  (∀ c v, s.asks = [v] → v.core = c →
    (s.cyc < v.since + v.least → exec (.registrarAnswer c) s = .next s) ∧
    (v.since + v.least ≤ s.cyc → exec (.registrarAnswer c) s = .next { s with asks := [{ v with answered := true }] })) ∧
  (∀ die at_ w dsc late rest, s.regq = .wload die at_ w dsc late :: rest → s.loadClear die at_ dsc = true →
    (late = true → exec .wloadService s = .next ({ s with regq := rest }.wstatus die at_ 1)) ∧
    (∀ code, late = false → s.wloadCheck die w dsc = .error code → exec .wloadService s = .next ({ s with regq := rest }.wstatus die at_ code)) ∧
    (∀ cs, late = false → s.wloadCheck die w dsc = .ok cs →
      (∀ e ∈ cs, (s.core e).first ≠ none → exec .wloadService s = .next s) ∧
      ((∀ e ∈ cs, (s.core e).first = none) → ∃ t, exec .wloadService s = .next t ∧ t.regq = .opening die at_ w dsc :: rest ∧
        (∀ e, (t.core e).world = if e ∈ cs then w else (s.core e).world) ∧
        ∀ e x, (t.ctx e x).st = if e ∈ cs ∧ (s.ctx e x).st = .ready then .wait [.foreign] else
          match (s.ctx e x).st with | .wait ws => if e ∈ cs then .wait (ws ++ [.foreign]) else .wait ws | st => st))) ∧
  (∀ die at_ w dsc rest, (∃ late, s.regq = .wload die at_ w dsc late :: rest) ∨ s.regq = .opening die at_ w dsc :: rest →
    s.loadClear die at_ dsc = false → exec .wloadService s = .next s) ∧
  (∀ die at_ w dsc rest img bm key, s.regq = .opening die at_ w dsc :: rest → s.loadClear die at_ dsc = true →
    let v : State := { s with regq := rest }
    let n := dscW dsc 0x18
    let base := dscW dsc 0x20
    let open_ := gcmOpen key (BitVec.ofNat 96 (beNat (img.take 12))) ((img.drop 16).take (n - 32)) (BitVec.ofNat 128 (beNat (img.drop (n - 16))))
    v.readPages die 0 (dscW dsc 0x10) n = .ok img → v.readPages die 0 (dscW dsc 0x08) 64 = .ok bm → (s.world w).imageKey = some key →
    (open_ = none → exec .wloadService s = .next ((v.freeCores w).wstatus die at_ 4)) ∧
    (∀ plain, open_ = some plain → gofSections plain = none → exec .wloadService s = .next ((v.freeCores w).wstatus die at_ 4)) ∧
    (∀ plain ss, open_ = some plain → gofSections plain = some ss →
      (s.hbmSize < base + (layOut ss).length → exec .wloadService s = .next ((v.freeCores w).wstatus die at_ 5)) ∧
      (base + (layOut ss).length ≤ s.hbmSize → s.regionClear base (layOut ss).length (dscW dsc 0x30) = false →
        exec .wloadService s = .next s) ∧
      (base + (layOut ss).length ≤ s.hbmSize → s.regionClear base (layOut ss).length (dscW dsc 0x30) = true → ∃ t ps, exec .wloadService s = .next t ∧ t.regq = .loaded die at_ w ps :: rest ∧
        t.draws = s.draws + 2 ∧ (t.world w).ki = Config.random s.draws ∧ (t.world w).kd = Config.random (s.draws + 1) ∧
        (t.world w).troot = dscW dsc 0x28 ∧ (t.world w).hroot = dscW dsc 0x30 ∧ (t.world w).ireg = base ∧
        (t.world w).ilen = (layOut ss).length ∧
        (t.world w).mb = extendMb (extendMb 0 1 (sha256 plain)) 2 (sha256 (bm ++ dsc.take 0x38))))) ∧
  (∀ die at_ w ps rest, s.regq = .loaded die at_ w ps :: rest → s.rangeClear die 0 (at_ + 0xF8) 8 (fun _ => die) = true →
    (ps.all s.appliedAll = true → exec .wloadService s =
      .next (({ s with regq := rest }.modWorld w fun r => { r with loaded := true }).wstatus die at_ 0)) ∧
    (ps.all s.appliedAll = false → exec .wloadService s = .next s)) ∧
  (∀ w rest, 0 < w → s.regq = .kwipe w :: rest →
    (s.worldExists w = false → exec (.worldTeardown w) s = .next { s with regq := rest }) ∧
    (s.worldExists w = true → (s.world w).closing = false → ∃ t, exec (.worldTeardown w) s = .next t ∧ (t.world w).closing = true ∧
      (∀ q ∈ t.pool, q.2.taken = true → q.2.world ≠ w) ∧ t.regq = s.regq ∧ t.cores = s.cores) ∧
    ((s.world w).closing = true → (s.world w).halted = false → ∃ t, exec (.worldTeardown w) s = .next t ∧ t.regq.head? = s.regq.head? ∧
      (t.world w).halted = true ∧ ∀ c x, s.worldOf c x = w → (t.ctx c x).st = .free) ∧
    ((s.world w).closing = true → (s.world w).halted = true → s.copiesOut w = true → exec (.worldTeardown w) s = .next s) ∧
    ((s.world w).closing = true → (s.world w).halted = true → s.copiesOut w = false → ∃ t, exec (.worldTeardown w) s = .next t ∧
      t.regq = rest ∧ NMap.get? t.worlds w = none ∧ (∀ c, (t.core c).world ≠ w) ∧ (∀ l ∈ t.sealed, l.2 ≠ w) ∧ ∀ q ∈ t.jobs, q.2.wtag ≠ w))

/-- R52, R53, R56, R57, R62, R196, R244, R333, R356: a snapshot reaches the save area packet by packet after the context has left, and is read
back packet by packet before the context goes on, in class 1 of the die's path (log 11); a result that the save area's bytes show is there when
it goes on, and one that they no longer show is not (R196, log 108). That a pre-empted context that waits becomes ready and waits again when it resumes, and that parked
commands are pushed again within the 64 entries of the queue and the 16 of the flag file, is log 17's reading. -/
def Obligations.PipelineEvents : Prop := ∀ (s : State) (c x : Nat),
  let k := s.ctx c x
  let g := k.gen
  let entry := fun (e : Nat) => bytesOfVec (k.snapVal e) ++ leBytes 8 (k.snapDesc e).toNat ++ leBytes 8 0
  let stored := fun (e : Nat) => (k.refill.drop (528 * e)).take 528
  let desc := fun (e : Nat) => leNat (((stored e).drop 512).take 8)
  (k.skips = true → exec (.nullifierSkip c x) s = .next (s.modCtx c x fun y => { y with null := y.null.erase y.pc, pc := y.pc + 16 })) ∧
  (k.skips = false → exec (.nullifierSkip c x) s = .next s) ∧
  (∀ n, (s.core c).run = some x → ∃ (t : State) (f : First), exec (.bundleSplit c n) s = .next t ∧ (t.core c).hold = n - 1 ∧
    (t.core c).first = some f ∧ t.cyc = s.cyc ∧ (∀ y, t.ctx c y = s.ctx c y) ∧
    ((s.core c).first = none → f.cyc = s.cyc ∧ f.ctx = k ∧ f.spad = (s.core c).spad ∧ f.words = s.iss.words) ∧
    (∀ f0, (s.core c).first = some f0 → f = f0)) ∧
  (∀ n, (s.core c).run = none → exec (.bundleSplit c n) s = .next s) ∧
  (∀ d rest, k.deferred = d :: rest → ∃ t, exec (.deferredFaultRaise c x) s = .next t ∧ (t.ctx c x).st = .frozen ∧
    (t.ctx c x).deferred = rest ∧ (t.ctx c x).fgen = k.fgen + 1 ∧ (t.ctx c x).frec.deferred = true ∧ (t.ctx c x).frec.d0 = d.d0 ∧
    (t.ctx c x).frec.d1 = d.d1 ∧ (t.ctx c x).frec.words = s.iss.words ∧ (t.ctx c x).frec.cyc = s.cyc ∧ (t.ctx c x).pc = k.pc ∧
    (s.iss.pos < 4 → (t.ctx c x).frec.codes.getD s.iss.pos 0 = d.code)) ∧
  (k.deferred = [] → exec (.deferredFaultRaise c x) s = .next s) ∧
  (∀ base, (s.core c).run = some x → k.save = some base →
    ((s.core c).preempts x = true → ∃ t, exec (.preemption c x) s = .next t ∧ (t.ctx c x).spilled = true ∧ (t.ctx c x).snapped = true ∧
      (t.ctx c x).unspilled = 132 ∧ (t.ctx c x).refill = [] ∧ (t.ctx c x).st = .ready ∧ (t.ctx c x).saved = k.waits ∧ (t.ctx c x).pc = k.pc ∧ (t.core c).hostPre = none ∧ ∀ n, n < 4 →
        (t.chan (clusterOf c) n).queue = (s.chan (clusterOf c) n).queue.filter (fun q => !q.of c x g) ∧
        (t.chan (clusterOf c) n).parked = (s.chan (clusterOf c) n).parked ++
          ((s.chan (clusterOf c) n).queue.filter (fun q => q.of c x g)).mapIdx fun i q => { q with place := i }) ∧
    ((s.core c).preempts x = false → k.unspilled = 0 → exec (.preemption c x) s = .next s) ∧
    (k.spilled = true → k.unspilled = 0 → k.refill.length < 33792 → exec (.preemptedResume c x) s =
      .next (s.modCtx c x fun y => { y with refill := k.refill ++ spadRead (s.core c).spad (base + k.refill.length) 256 })) ∧
    (k.spilled = true → k.unspilled = 0 → 33792 ≤ k.refill.length →
      ∃ t, exec (.preemptedResume c x) s = .next t ∧ ((t.ctx c x).spilled = false ∨ t.cores = s.cores)) ∧
    (k.spilled = true → k.unspilled = 0 → 33792 ≤ k.refill.length → (∀ n, n < 4 → let h := s.chan (clusterOf c) n
        (h.parked.filter fun q => q.of c x g).length + h.qlev ≤ 64 ∧ (h.pflags.filter fun q => q.of c x g).length + h.flags.length ≤ 16) →
      ∃ t, exec (.preemptedResume c x) s = .next t ∧ (t.ctx c x).spilled = false ∧ (t.ctx c x).prepAll = k.issued ∧
        (t.ctx c x).pc = k.pc ∧ (t.ctx c x).st = (if k.saved.isEmpty then k.st else .wait k.saved) ∧
        (∀ e, e < 64 → (desc e).testBit 63 = true → bits (desc e) 7 6 = 0 → bits (desc e) 5 0 < 48 → k.flight.filter Flight.snap = [] →
          ∃ f ∈ (t.ctx c x).flight, f.eff = .sreg (some (bits (desc e) 5 0)) (BitVec.ofNat 64 (leNat ((stored e).take 8)))) ∧
        ((∀ e, e < 64 → (desc e).testBit 63 = false) → (k.flight.filter Flight.snap).length ≤ 48 →
          (t.ctx c x).latch = [] ∧ ∀ f ∈ (t.ctx c x).flight, f.snap = false) ∧ ∀ n, n < 4 →
          (t.chan (clusterOf c) n).parked = (s.chan (clusterOf c) n).parked.filter (fun q => !q.of c x g) ∧
          ∀ q ∈ (s.chan (clusterOf c) n).parked, q.of c x g = true → ∃ r ∈ (t.chan (clusterOf c) n).queue, r.place = q.place ∧ r.repush = true) ∧
    (k.spilled = false ∨ 0 < k.unspilled → exec (.preemptedResume c x) s = .next s)) ∧
  (∀ base, k.save = some base → (s.core c).run ≠ some x ∨ (s.core c).preempts x = false → 0 < k.unspilled → k.unspilled ≤ 132 →
    (s.core c).spad.wf = true → base + 33792 ≤ 2 ^ 20 → ∃ t, exec (.preemption c x) s = .next t ∧
      let i := 132 - k.unspilled
      t.ctx c x = { k with unspilled := k.unspilled - 1 } ∧ (∀ n, n ≠ x → t.ctx c n = s.ctx c n) ∧
      (∀ j, j < 256 → spadRead (t.core c).spad (base + 256 * i + j) 1 = [(entry ((256 * i + j) / 528)).getD ((256 * i + j) % 528) 0]) ∧
      ∀ a, a < base + 256 * i ∨ base + 256 * i + 256 ≤ a → Memory.read (t.core c).spad a = Memory.read (s.core c).spad a) ∧
  exec .illegalEncoding s = s.raise fILLEGAL ((s.iss.words.getD s.iss.pos 0).setWidth 64)
    (if s.iss.hdr then (s.iss.words.getD 0 0).setWidth 64 else 0)

/-- R99, R339, R341, R347, R348, R383. That a slot ahead that is still to be evaluated is waited for is log 68's reading; that an
eligible slot ahead that fits nowhere is passed over, so that slot `n` is placed, is the model's choice (log 98), no rule of the spec. -/
def Obligations.LaunchEvents : Prop := ∀ (s : State) (n : Nat),
  let p := s.slotAt n
  (p.claim = false → exec (.launchPlacement n) s = .next s) ∧
  (p.claim = true → p.elig = none → (∀ d ∈ lrDeps p.rec_, d.1 = 0 ∨ s.arbClear p.world d.1 8 = true) →
    exec (.launchPlacement n) s = .next (s.evaluate n) ∧
    ((∀ d ∈ lrDeps p.rec_, d.1 = 0) → ((s.evaluate n).slotAt n).elig = some true)) ∧
  (p.claim = true → p.elig = none → (∃ d ∈ lrDeps p.rec_, d.1 ≠ 0 ∧ s.arbClear p.world d.1 8 = false) →
    exec (.launchPlacement n) s = .next s) ∧
  (p.claim = true → p.elig = some false → exec (.launchPlacement n) s = .next s) ∧
  (p.claim = true → p.elig = some true →
    ((∃ m ∈ s.ahead n, (s.slotAt m).elig = none ∨ s.tryPlace m ≠ none) ∨ s.tryPlace n = none ∨ s.placeClear n = false → exec (.launchPlacement n) s = .next s) ∧
    (∀ t, (∀ m ∈ s.ahead n, (s.slotAt m).elig ≠ none ∧ s.tryPlace m = none) → s.tryPlace n = some t → s.placeClear n = true → ∃ u, exec (.launchPlacement n) s = .next u ∧
      u.cores = t.cores ∧ u.launches = t.launches ∧
      ∀ l v, (t.slotAt n).launch = some l → NMap.get? t.launches l = some v →
        (v.tiles ≤ v.placed → NMap.get? u.pool n = none) ∧ (v.placed < v.tiles → u.slotAt n = t.slotAt n))) ∧
  (∀ l r slot depth c x coord crew memb tab, lw r 0x20 = 0 →
    let u := s.placeTask l r slot depth c x coord crew memb tab
    (u.ctx c x).st = .ready ∧ (u.ctx c x).pc = lw r 0 % 2 ^ 57 ∧ (u.ctx c x).allocS = lrNs r ∧ (u.ctx c x).allocV = lrNv r ∧
    (u.ctx c x).gen = (s.ctx c x).gen + 1 ∧ (u.ctx c x).launch = l ∧ (u.ctx c x).prio = lrPrio r ∧ (u.ctx c x).loops = [] ∧
    (∀ i, i < lrArgn r → (u.ctx c x).sAt (lrArgr r + i) = r.getD (16 + i) 0) ∧
    (lrArgn r = 0 → lrTcr r ≠ 63 → (u.ctx c x).sAt (lrTcr r) = BitVec.ofNat 64 coord)) ∧
  (∀ l v c, NMap.get? s.launches l = some v →
    (NMap.get? v.coreCnt c = some 0 → ∃ t w, exec (.completionTreeReport l 0 c) s = .next t ∧ NMap.get? t.launches l = some w ∧
      NMap.get? w.coreCnt c = none ∧ NMap.getD w.clCnt (clusterOf c) 0 = NMap.getD v.clCnt (clusterOf c) 0 - NMap.getD v.coreDone c 0 ∧
      NMap.getD w.clDone (clusterOf c) 0 = NMap.getD v.clDone (clusterOf c) 0 + NMap.getD v.coreDone c 0) ∧
    (NMap.get? v.clCnt c = some 0 → ∃ t w, exec (.completionTreeReport l 1 c) s = .next t ∧ NMap.get? t.launches l = some w ∧
      NMap.get? w.clCnt c = none ∧ NMap.getD w.dieCnt (c / 64) 0 = NMap.getD v.dieCnt (c / 64) 0 - NMap.getD v.clDone c 0 ∧ w.coreCnt = v.coreCnt) ∧
    (NMap.get? v.dieCnt c = some 0 → ∃ t w, exec (.completionTreeReport l 2 c) s = .next t ∧ NMap.get? t.launches l = some w ∧
      NMap.get? w.dieCnt c = none ∧ w.clCnt = v.clCnt ∧ w.coreCnt = v.coreCnt) ∧
    (NMap.getD v.coreCnt c 1 ≠ 0 → exec (.completionTreeReport l 0 c) s = .next s) ∧
    (NMap.getD v.clCnt c 1 ≠ 0 → exec (.completionTreeReport l 1 c) s = .next s) ∧
    (NMap.getD v.dieCnt c 1 ≠ 0 → exec (.completionTreeReport l 2 c) s = .next s)) ∧
  (∀ l v, NMap.get? s.launches l = some v →
    (v.complete = false → v.placed < v.tiles ∨ v.coreCnt ≠ [] ∨ s.quietLaunch l = false ∨ s.arbClear v.world (lw v.rec_ 0xC0) 256 = false →
      exec (.launchComplete l) s = .next s) ∧
    (v.complete = false → v.tiles ≤ v.placed → v.coreCnt = [] → v.clCnt = [] → v.dieCnt = [] → s.quietLaunch l = true →
      s.arbClear v.world (lw v.rec_ 0xC0) 256 = true → ∃ t w, exec (.launchComplete l) s = .next t ∧ NMap.get? t.launches l = some w ∧ w.complete = true ∧
        ∀ a, s.arbWrite v.world (lw v.rec_ 0xC0) (v.block s.cyc) = .ok a → w.cstamp = a.2 ∧ t.dies = a.1.dies) ∧
    (∀ st, v.complete = true → v.cstamp = some st → s.appliedAll st = false → exec (.launchComplete l) s = .next s) ∧
    (v.complete = true → lw v.rec_ 0xC8 ≠ 0 → s.arbClear v.world (lw v.rec_ 0xC8) 8 = false → exec (.launchComplete l) s = .next s) ∧
    (v.complete = true → (∀ st, v.cstamp = some st → s.appliedAll st = true) → (lw v.rec_ 0xC8 = 0 ∨ s.arbClear v.world (lw v.rec_ 0xC8) 8 = true) →
      ∃ t, exec (.launchComplete l) s = .next t ∧ NMap.get? t.launches l = none)) ∧
  (∀ c, (s.core c).inq = [] → exec (.handlerPlacement c) s = .next s) ∧
  (∀ c m rest, (s.core c).inq = m :: rest →
    ((∀ h ∈ (s.core c).handlers, h.job ≠ m.job) → ∃ t, exec (.handlerPlacement c) s = .next t ∧ (t.core c).inq = rest ∧
      t.jobs = s.jobs.map fun q => if q.2.job = m.job then
        (q.1, { q.2 with cons := NMap.set q.2.cons (dieOf c) ((NMap.getD q.2.cons (dieOf c) 0 + 1) % 2 ^ 48) }) else q) ∧
    (∀ h, (s.core c).handlers.find? (fun h => decide (h.job = m.job)) = some h →
      let free := (List.range 8).find? fun x => decide ((s.ctx c x).st = .free)
      (free = none ∨ (s.core c).freeS < 16 ∨ (s.core c).freeV < 4 ∨ (s.core c).world ≠ h.world → exec (.handlerPlacement c) s = .next s) ∧
      (∀ x, free = some x → 16 ≤ (s.core c).freeS → 4 ≤ (s.core c).freeV → (s.core c).world = h.world → ∃ t, exec (.handlerPlacement c) s = .next t ∧
        (t.core c).inq = rest ∧ (t.ctx c x).st = .ready ∧ (t.ctx c x).pc = h.entry ∧ (t.ctx c x).allocS = 16 ∧ (t.ctx c x).allocV = 4 ∧
        (t.ctx c x).gen = (s.ctx c x).gen + 1 ∧ (t.ctx c x).sAt 0 = m.header ∧ (t.ctx c x).sAt 1 = BitVec.ofNat 64 m.job ∧
        (t.ctx c x).handler = some m.job ∧ ∀ l, l < 128 → ((t.ctx c x).vAt 0).lane l = if l ≤ m.len then m.payload.lane l else 0)))

/-- R344, R387, R388. That an abort reaches an armed package as GANG_ARM_TIMEOUT is log 23's choice. -/
def Obligations.Gangs : Prop := ∀ (s : State) (n i job : Nat) (g : Gang),
  (∀ from_ wtag depth img np,
    let r := words8 32 (leBytes 256 (img : BitVec 2048).toNat)
    let own := ∃ q, s.jobEntry job = some q ∧ q.2.v = true ∧ q.2.wtag = wtag
    (∀ m, own → depth < 3 → s.lrBad r wtag = none → s.slotNow (depth + 1) = some m →
      ∃ t, exec (.gangArm from_ wtag depth img job np i) s = .next t ∧ (t.slotAt m).reserved = true ∧ (t.slotAt m).claim = false ∧
        (t.slotAt m).rec_ = lrFor r (depth + 1) ∧ (t.slotAt m).gang = some (job, np, i, from_) ∧ ∀ k, k ≠ m → t.slotAt k = s.slotAt k) ∧
    (¬own ∨ 3 ≤ depth ∨ s.lrBad r wtag ≠ none ∨ s.slotNow (depth + 1) = none → exec (.gangArm from_ wtag depth img job np i) s = .next s)) ∧
  (∀ m q a b, s.pool = [(m, q)] → q.gang = some (job, a, b, n) →
    (q.reserved = true → exec (.gangGo n job) s = .next
      { s with pool := [(m, { q with claim := true, reserved := false, order := s.nextOrder })], nextOrder := s.nextOrder + 1 }) ∧
    (q.reserved = false → exec (.gangGo n job) s = .next s)) ∧
  (s.gangOf n = none → exec (.gangArmAck n i true) s = .next s ∧ exec (.gangGoAck n i) s = .next s ∧ exec (.gangGoTimeout n) s = .next s ∧
    (∀ m q, s.pool = [(m, q)] →
      (q.reserved = true → q.claim = false → (∃ j a b, q.gang = some (j, a, b, n)) → exec (.gangArmTimeout n) s = .next { s with pool := [] }) ∧
      (q.reserved = false ∨ q.claim = true ∨ (∀ j a b, q.gang ≠ some (j, a, b, n)) → exec (.gangArmTimeout n) s = .next s))) ∧
  (s.gangOf n = some g →
    let aborted := fun (t : State) => (∃ q, t.gangOf n = some q ∧ q.phase = 4) ∧ (g.rearm = false → NMap.get? t.pool g.slot = none)
    (∀ ok, g.phase ≠ 0 ∨ i ∉ g.need → exec (.gangArmAck n i ok) s = .next s) ∧
    (g.phase = 0 → i ∈ g.need → ∃ t, exec (.gangArmAck n i false) s = .next t ∧ aborted t) ∧
    (g.phase = 0 → i ∈ g.need → (∀ k ∈ g.need, k = i ∨ k ∈ g.armed) → ∃ t q, exec (.gangArmAck n i true) s = .next t ∧
      t.gangOf n = some q ∧ q.phase = 1 ∧ q.since = s.cyc ∧
      (g.rearm = false → (t.slotAt g.slot).claim = true ∧ (t.slotAt g.slot).reserved = false ∧ (t.slotAt g.slot).rec_ = (s.slotAt g.slot).rec_)) ∧
    (∀ k ∈ g.need, g.phase = 0 → i ∈ g.need → k ≠ i → k ∉ g.armed → ∃ t q, exec (.gangArmAck n i true) s = .next t ∧
      t.gangOf n = some q ∧ q.phase = 0 ∧ i ∈ q.armed ∧ t.pool = s.pool) ∧
    (g.phase = 0 → g.since + 2 ^ 20 ≤ s.cyc → ∃ t, exec (.gangArmTimeout n) s = .next t ∧ aborted t) ∧
    (g.phase ≠ 0 ∨ s.cyc < g.since + 2 ^ 20 → exec (.gangArmTimeout n) s = .next s) ∧
    (g.phase ≠ 1 ∨ i ∉ g.need → exec (.gangGoAck n i) s = .next s) ∧
    (g.phase = 1 → i ∈ g.need → (∀ k ∈ g.need, k = i ∨ k ∈ g.gone) → ∃ t q, exec (.gangGoAck n i) s = .next t ∧
      t.gangOf n = some q ∧ q.phase = 2) ∧
    (∀ k ∈ g.need, g.phase = 1 → i ∈ g.need → k ≠ i → k ∉ g.gone → ∃ t q, exec (.gangGoAck n i) s = .next t ∧
      t.gangOf n = some q ∧ q.phase = 1 ∧ i ∈ q.gone) ∧
    (g.phase = 1 → g.since + 2 ^ 20 ≤ s.cyc → ∃ t q, exec (.gangGoTimeout n) s = .next t ∧
      t.gangOf n = some q ∧ q.phase = 3 ∧ q.need = g.need.filter fun k => !g.gone.contains k) ∧
    (g.phase ≠ 1 ∨ s.cyc < g.since + 2 ^ 20 → exec (.gangGoTimeout n) s = .next s)) ∧
  (∀ count l v a b, NMap.get? s.launches l = some v → v.gang = some (job, a, b, n) →
    (0 < count → ∃ t w, exec (.gangIncompleteNotice job i count n) s = .next t ∧ NMap.get? t.launches l = some w ∧
      w.ginc = some (i % 2 ^ 12 + count % 2 ^ 12 * 2 ^ 16, job % 2 ^ 16 + n % 2 ^ 12 * 2 ^ 16) ∧
      ∀ c x k, (s.ctx c x).launch = l → (s.ctx c x).handler = none → (s.ctx c x).proc = false →
        ((∃ f m, (s.ctx c x).st = .wait [.gbar k f m]) ∨ ∃ f, (s.ctx c x).st = .wait [.quiet k f]) →
        (t.ctx c x).st = .frozen ∧ (t.ctx c x).frec.waitFault = true ∧
        (t.ctx c x).frec.d0 = BitVec.ofNat 64 (i % 2 ^ 12 + count % 2 ^ 12 * 2 ^ 16) ∧
        (t.ctx c x).frec.d1 = BitVec.ofNat 64 (job % 2 ^ 16 + n % 2 ^ 12 * 2 ^ 16)) ∧
    (∃ t w, exec (.gangIncompleteNotice job i 0 n) s = .next t ∧ NMap.get? t.launches l = some w ∧ w.ginc = none ∧ t.cores = s.cores))

/-- R372, R374 to R376, R381, R383, R385. Which die counts a message to an absent one (die 0), and a window write that is discarded (that of
its address, among those there are), is the model's choice (log 50). -/
def Obligations.FabricEvents : Prop := ∀ (s : State) (c n job : Nat),
  let cons := fun (die : Nat) (q : Nat × Job) => if q.2.job = job then
    (q.1, { q.2 with cons := NMap.set q.2.cons die ((NMap.getD q.2.cons die 0 + 1) % 2 ^ 48) }) else q
  exec (.linkFlitRetry n) s = .next s ∧
  (∃ t, exec (.crebyLinkLost n) s = .next t ∧ NMap.getD t.links n true = false ∧ ∀ m, m ≠ n → NMap.get? t.links m = NMap.get? s.links m) ∧
  (∃ t, exec (.crebyLinkTrained n) s = .next t ∧ NMap.getD t.links n true = true ∧ ∀ m, m ≠ n → NMap.get? t.links m = NMap.get? s.links m) ∧
  ((s.core c).sendq = [] → exec (.messageTransmit c) s = .next s) ∧
  (∀ m rest, (s.core c).sendq = m :: rest →
    (s.linkUp = true → s.fencesOpen c m.ctx m.gen m.seq = true → ∃ (t : State) (p : Packet), exec (.messageTransmit c) s = .next t ∧
      (t.core c).sendq = rest ∧ t.packets = s.packets ++ [p] ∧ t.jobs = s.jobs ∧ p.kind = 1 ∧ p.id = s.nextPacket ∧ p.node = m.node ∧ p.job = m.job ∧
      p.pa = m.core ∧ p.die = dieOf c ∧ p.data.take 8 = leBytes 8 (m.srcNode + m.srcCore * 2 ^ 20 + m.tag * 2 ^ 32 + m.len * 2 ^ 48)) ∧
    (s.linkUp = false ∨ s.fencesOpen c m.ctx m.gen m.seq = false → exec (.messageTransmit c) s = .next s)) ∧
  (∀ src hdr v, let i := Instr.messageArrival c ⟨src, n, job⟩ hdr v
    (s.fresh src n = false → exec i s = .next s) ∧
    (∀ q, s.fresh src n = true → s.jobEntry job = some q →
      (s.nDies ≤ dieOf c → ∃ t, exec i s = .next t ∧ t.jobs = s.jobs.map (cons 0) ∧ t.cores = s.cores ∧ t.seen = s.seen ++ [(src, n)] ∧
        (∀ e ∈ t.evlog, e ∈ s.evlog ∨ e.code = 0x22)) ∧
      (dieOf c < s.nDies → (s.core c).inq.length < 32 → ∃ (t : State) (m : Msg), exec i s = .next t ∧ t.seen = s.seen ++ [(src, n)] ∧
        (t.core c).inq = (s.core c).inq ++ [m] ∧ m.job = job ∧ m.payload = v ∧ m.srcNode = hdr.toNat % 2 ^ 20 ∧
        m.srcCore = hdr.toNat / 2 ^ 20 % 2 ^ 10 ∧ m.tag = hdr.toNat / 2 ^ 32 % 2 ^ 8 ∧ m.len = hdr.toNat / 2 ^ 48 % 2 ^ 7 ∧ t.jobs = s.jobs) ∧
      (dieOf c < s.nDies → 32 ≤ (s.core c).inq.length → exec i s = .next s)) ∧
    (s.fresh src n = true → s.jobEntry job = none →
      (s.goneJobs.contains job = true ∨ s.freeJob = none → exec i s = .next s) ∧
      (∀ k, s.goneJobs.contains job = false → s.freeJob = some k → dieOf c < s.nDies → (s.core c).inq.length < 32 →
        ∃ (t : State) (m : Msg), exec i s = .next t ∧ (t.core c).inq = (s.core c).inq ++ [m] ∧ m.job = job ∧
          NMap.get? t.jobs k = some { job := job, wtag := 0, def_ := false, v := false }))) ∧
  (∀ src wtag pa size v, let i := Instr.windowWriteArrival ⟨src, n, job⟩ wtag pa size v
    (s.fresh src n = false → exec i s = .next s) ∧
    (∀ q, s.fresh src n = true → s.jobEntry job = some q →
      let fits := q.2.v = true ∧ q.2.wtag = wtag ∧ pa + size ≤ s.hbmSize
      (¬fits → ∃ t, exec i s = .next t ∧ t.dies = s.dies ∧ t.jobs = s.jobs.map (cons (homeDie pa % max s.nDies 1)) ∧
        (∀ e ∈ t.evlog, e ∈ s.evlog ∨ e.code = 0x23)) ∧
      (fits → s.windowClear pa size = true → s.inTurn src pa = true → (∀ d, (s.die d).view.wf = true) →
        ∃ t k, exec i s = .next t ∧ t.jobs = s.jobs ∧ t.hbm = s.hbm ∧ t.arrivals = s.arrivals ++ [⟨homeDie pa, k, job, src⟩] ∧
          (∀ j, j < size → Memory.read (t.die (homeDie pa)).view (pa + j) = (leBytes size v.toNat).getD j 0) ∧
          ((∀ l ∈ blocks 128 pa size, s.sealer l = wtag) →
            ∀ y, y < pa ∨ pa + size ≤ y → Memory.read (t.die (homeDie pa)).view y = Memory.read (s.die (homeDie pa)).view y)) ∧
      (fits → s.windowClear pa size = false ∨ s.inTurn src pa = false → exec i s = .next s)) ∧
    (s.fresh src n = true → s.jobEntry job = none →
      (s.goneJobs.contains job = true ∨ s.freeJob = none → exec i s = .next s) ∧
      (∀ k, s.goneJobs.contains job = false → s.freeJob = some k → ∃ t e, exec i s = .next t ∧ t.dies = s.dies ∧ NMap.get? t.jobs k = some e ∧
        e.job = job ∧ e.v = false ∧ NMap.getD e.cons (homeDie pa % max s.nDies 1) 0 = 1))) ∧
  (∀ p, s.packets.find? (fun p => decide (p.id = n) && !p.lost) = some p →
    (∃ t, exec (.packetAcknowledge n) s = .next t ∧ t.packets = s.packets.filter (fun q => decide (q.id ≠ n)) ∧ t.jobs = s.jobs ∧
      (p.kind = 0 → p.copy = none → ∀ a ∈ (t.core p.core).access, a.id = p.access → isWindow a.pa = true → a.unacked = false)) ∧
    (∃ t, exec (.endToEndRetransmit n false) s = .next t ∧ t.jobs = s.jobs ∧ t.cores = s.cores ∧
      t.packets = s.packets.map fun q => if q.id = n then { q with tries := q.tries + 1, lost := false } else q) ∧
    (p.arrived = false → ∃ t, exec (.endToEndRetransmit n true) s = .next t ∧ (∀ q ∈ t.packets, q.id = n → q.lost = true) ∧
      t.jobs = s.jobs.map fun q => if q.2.job = p.job then (q.1, { q.2 with loss := true }) else q) ∧
    (p.arrived = true → exec (.endToEndRetransmit n true) s = exec (.endToEndRetransmit n false) s)) ∧
  (s.packets.find? (fun p => decide (p.id = n) && !p.lost) = none → exec (.packetAcknowledge n) s = .next s ∧
    ∀ b, exec (.endToEndRetransmit n b) s = .next s) ∧
  (∀ p, s.packets.find? (fun p => p.lost && decide (p.die = n ∧ p.job = job)) = some p → ∃ t, exec (.repairNoticeApply n job) s = .next t ∧
    t.packets = s.packets.filter (fun q => decide (q.id ≠ p.id)) ∧ t.jobs = s.jobs.map fun q => if q.2.job = job then
      (q.1, { q.2 with inj := NMap.set q.2.inj n ((NMap.getD q.2.inj n 0 + 2 ^ 48 - 1) % 2 ^ 48) }) else q)

/-- R377 to R380, R390 to R393. The die at which ring transfers are counted (die 0), the layout of a transfer, and that a report names a
job with an open packet are the model's choices (log 51), as are the ring's order and what a package that drops out does (log 22); that a verdict
which the device could not have got is ignored is log 75's reading. -/
def Obligations.RollCallAndCollectives : Prop := ∀ (s : State) (wave die job n : Nat) (q : Gateway),
  (∃ t, exec (.rollCallWave wave) s = .next t ∧ ∀ d, d < s.nDies → (t.die d).waves = (s.die d).waves + 1 ∧
    (t.die d).place wave = (s.die d).waves + 1 ∧ NMap.get? (t.die d).snap wave = some (s.counts d) ∧ (t.die d).view = (s.die d).view) ∧
  (∃ t, exec (.rollCallPass2 wave) s = .next t ∧ ∀ d, d < s.nDies →
    (∀ old, NMap.get? (s.die d).snap wave = some old → NMap.get? (t.die d).snap wave = none ∧
      ∃ js, NMap.get? (t.die d).rep wave = some js ∧
        ∀ j, j ∈ js ↔ j ∈ s.openJobs ∨ ∃ p ∈ s.counts d, p.1 = j ∧ NMap.getD old j (0, 0) ≠ p.2) ∧
    (∀ v js, NMap.get? (s.die d).snap wave ≠ none → v ≠ wave → NMap.get? (s.die d).rep v = some js → (s.die d).place wave < (s.die d).place v + 256 →
      NMap.get? (t.die d).rep v = some js) ∧
    (NMap.get? (s.die d).snap wave = none → t.die d = s.die d)) ∧
  (∀ quiet loss sumi,
    let i := Instr.rollCallVerdict die wave job ⟨quiet, loss⟩ sumi
    let later := ∀ v, NMap.get? (s.die die).verdicts job = some v → v.ord < (s.die die).place wave
    let clean := ∀ d, d < s.nDies → ∃ js, NMap.get? (s.die d).rep wave = some js ∧ job ∉ js
    let told := s.jobEntry job ≠ none ∧ later ∧ NMap.get? (s.die die).rep wave ≠ none ∧ (quiet = true → clean)
    (¬told → exec i s = .next s) ∧
    (told → ∃ t, exec i s = .next t ∧ t.jobs = s.jobs.map (fun p => if p.2.job = job then (p.1, { p.2 with loss := p.2.loss || loss }) else p) ∧
      NMap.get? (t.die die).verdicts job = some ⟨quiet, wave, sumi % 2 ^ 48, (s.die die).place wave⟩ ∧
      (quiet = false → t.cores = s.cores) ∧
      ∀ c x m, quiet = true → dieOf c = die → (s.ctx c x).st = .wait [.quiet job (some m)] → m < (s.die die).place wave →
        s.loadsOut c x = false → (t.ctx c x).st = .ready)) ∧
  (NMap.get? s.gates n = none → exec (.collJoinTimeout n) s = .next s ∧ exec (.collComplete n) s = .next s ∧
    (∀ k, exec (.collRingTimeout n k) s = .next s) ∧ ∀ k ph bm fl d, exec (.collRingStep n k ph bm fl d) s =
      .next (if s.fresh d.from_.src d.from_.id then (s.withJob d.from_.job).getD s else s)) ∧
  (NMap.get? s.gates n = some q →
    let next := q.lead.list.getD ((q.self_ + 1) % max q.size 1) 0
    let wire := fun (r : Ring) => leBytes (8 + 3 * q.size) r.desc ++ leBytes 8 (r.chunk + r.phase * 2 ^ 32) ++ leBytes 8 r.flags ++
      leBytes (8 * ((q.size + 63) / 64)) r.bitmap ++ r.data.flatMap fun x => leBytes 4 x.toNat
    let sent := fun (t : State) (r : Ring) => ∃ p : Packet, t.packets.getLast? = some p ∧ p.kind = 2 ∧ p.node = next ∧ p.job = q.job ∧ p.data = wire r
    let mark := fun (c : Chunk) (bm : Nat) => if c.own.isSome then bm ||| 2 ^ q.self_ else bm
    let after := (q.self_ + 1) % max q.size 1
    (q.begun ≠ none ∨ q.lead.ppart ≤ q.parts.length ∨ s.cyc < q.since + 2 ^ 22 → exec (.collJoinTimeout n) s = .next s) ∧
    (q.begun = none → q.parts.length < q.lead.ppart → q.since + 2 ^ 22 ≤ s.cyc → (∀ p ∈ q.parts, q.lead.differs p = false) → q.pending = [] →
      ∃ t r, exec (.collJoinTimeout n) s = .next t ∧ NMap.get? t.gates n = some r ∧ r.dropped = true ∧ r.begun = some s.cyc ∧
        ∀ k ∈ q.allChunks, (r.chunk k).passed = true ∧ (r.chunk k).own = none) ∧
    (s.gateClear n = false → exec (.collComplete n) s = .next s) ∧
    (∀ d rest, q.todo = d :: rest → d.data ≠ [] → s.gateClear n = true →
      let m := min d.data.length (256 - d.va % 256)
      let page := s.walk (dieOf d.part.core) d.part.world d.va 1 d.part.mgmt
      let entry := fun (fl : Nat) => leBytes 8 (fl % 64 + ((List.range d.part.size).filter fun i => d.bitmap.testBit i).length * 2 ^ 48) ++
        leBytes (8 * ((d.part.size + 63) / 64)) d.bitmap
      let goesOn := fun (r : Gateway) (fl : Nat) =>
        (m < d.data.length → r.todo = { d with va := d.va + m, data := d.data.drop m, flags := fl } :: rest) ∧
        (m = d.data.length → d.status = true → r.todo = rest ∧ ((∀ e ∈ rest, e.chunk ≠ d.chunk) → (r.chunk d.chunk).owed = false)) ∧
        (m = d.data.length → d.status = false → r.todo = { d with
          va := d.part.stat + (entry fl).length * (if d.part.kind = 0 ∨ d.part.kind = 2 then d.chunk else 0), data := entry fl, flags := fl, status := true } :: rest)
      (∀ e, page = .ok e → isWindow (e.phys d.va) = false → isRegPage (e.phys d.va) = false → (∀ y, (s.die y).view.wf = true) →
        let pa := e.phys d.va
        ∃ t r, exec (.collComplete n) s = .next t ∧ NMap.get? t.gates n = some r ∧ goesOn r d.flags ∧
          (∀ j, j < m → Memory.read (t.die (homeDie pa)).view (pa + j) = d.data.getD j 0) ∧
          ((∀ l ∈ blocks 128 pa m, s.sealer l = d.part.world) →
            ∀ y, y < pa ∨ pa + m ≤ y → Memory.read (t.die (homeDie pa)).view y = Memory.read (s.die (homeDie pa)).view y)) ∧
      (∀ l g c, page = .bad l g c → ∃ t r, exec (.collComplete n) s = .next t ∧ NMap.get? t.gates n = some r ∧ t.dies = s.dies ∧
        goesOn r (d.flags ||| 33))) ∧
    (∀ p, q.parts.find? (fun p => p.late && s.settledBy p.core p.ctx p.gen 5 p.at_) = some p → q.begun ≠ none → q.counted = false → q.todo = [] →
      s.gateClear n = true → q.mismatch = false → q.lead.differs p = false → ∃ t r, exec (.collComplete n) s = .next t ∧
        NMap.get? t.gates n = some r ∧ r.parts.length = q.parts.length ∧ (∀ p' ∈ r.parts, p' ≠ { p with late := false } → p' ∈ q.parts) ∧ p ∉ r.parts ∧
        ∀ k c bm fl data, (k, c) ∈ q.chunks → c.out = some (bm, fl, data) → ∃ d ∈ r.todo, d.part = p ∧ d.chunk = k ∧ d.bitmap = bm) ∧
    (∀ k ph bm fl d, d.from_.job ≠ q.job ∨ d.tag ≠ q.tag → exec (.collRingStep n k ph bm fl d) s =
      .next (if s.fresh d.from_.src d.from_.id then (s.withJob d.from_.job).getD s else s)) ∧
    (∀ k ph bm fl dsc xs a b, s.fresh a b = false ∨ s.withJob q.job = none →
      exec (.collRingStep n k ph bm fl ⟨dsc, xs, ⟨a, b, q.job⟩, q.tag⟩) s = .next s) ∧
    (∀ k ph bm fl dsc xs a b u0, s.fresh a b = true → s.withJob q.job = some u0 →
      let i := Instr.collRingStep n k ph bm fl ⟨dsc, xs, ⟨a, b, q.job⟩, q.tag⟩
      let u := u0.see a b
      let c := q.chunk k
      let live := q.begun ≠ none ∧ q.mismatch = false ∧ k ∈ q.allChunks ∧ fl.testBit 4 = false ∧ dsc = q.lead.desc
      (q.begun = none → exec i s = .next (u.modGate n fun r => { r with pending := r.pending ++ [⟨k, ph, bm, fl, xs, dsc⟩] })) ∧
      (q.begun ≠ none → q.mismatch = true → exec i s = .next (u.addCons 0 q.job)) ∧
      (q.begun ≠ none → q.mismatch = false → k ∈ q.allChunks → fl.testBit 4 = true ∨ dsc ≠ q.lead.desc →
        ∃ t r, exec i s = .next t ∧ NMap.get? t.gates n = some r ∧ r.mismatch = true) ∧
      (live → ph = 0 → c.passed = false → q.lead.kind < 2 →
        let acc := if xs = [] then c.own else match c.own with | none => some (expand xs).1 | some ys => some (addLists (expand xs).1 ys).1
        let big := match c.own with | some ys => !xs.isEmpty && (addLists (expand xs).1 ys).2 | none => false
        let flags := fl ||| c.flags ||| b2n (expand xs).2 4 ||| b2n big 2
        ∃ t r, exec i s = .next t ∧ NMap.get? t.gates n = some r ∧ (r.chunk k).passed = true ∧
          (k ≠ q.self_ → t.dies = s.dies ∧ sent t ⟨k, 0, mark c bm, flags, (acc.map compress).getD [], dsc⟩) ∧
          (k = q.self_ → (r.chunk k).final = true) ∧
          (k = q.self_ → q.lead.kind = 0 → sent t ⟨k, 1, mark c bm, flags, (acc.map compress).getD [], dsc⟩)) ∧
      (live → ph = 1 → c.final = false → q.lead.kind = 0 ∨ q.lead.kind = 2 →
        ∃ t r, exec i s = .next t ∧ NMap.get? t.gates n = some r ∧ (after ≠ k → sent t ⟨k, ph, bm, fl, xs, dsc⟩) ∧
          (q.lead.kind = 0 ∨ q.agreed = true ∨ q.size ≤ 1 ∨ after = k → (r.chunk k).final = true ∧
            ((r.chunk k).owed = true ↔ ∃ d ∈ r.todo, d.chunk = k) ∧ ∀ p ∈ q.parts, p.late = false → ∃ d ∈ r.todo, d.part = p ∧ d.chunk = k) ∧
          (q.lead.kind = 2 → after = k → r.agreed = true) ∧
          (q.lead.kind = 2 → q.agreed = false → 1 < q.size → after ≠ k → t.dies = s.dies ∧ (r.chunk k).final = false ∧
            (r.chunk k).held = some (bm, fl, if xs = [] then none else some xs) ∧ (r.chunk k).owed = true ∧ q.job ∈ t.openJobs)) ∧
      (live → ph = 1 → c.final = false → q.lead.kind = 3 →
        ∃ t r, exec i s = .next t ∧ NMap.get? t.gates n = some r ∧
          (q.self_ = q.lead.root → r.agreed = true ∧ sent t ⟨k, 2, bm, fl, [], dsc⟩ ∧ (c.held ≠ none → (r.chunk k).final = true)) ∧
          (q.self_ ≠ q.lead.root → sent t ⟨k, 1, bm, fl, xs, dsc⟩ ∧
            (q.agreed = false → 1 < q.size → t.dies = s.dies ∧ (r.chunk k).held = some (bm, fl, if xs = [] then none else some xs) ∧
              (r.chunk k).owed = true ∧ q.job ∈ t.openJobs))) ∧
      (live → ph = 2 → q.agreed = false → ∃ t r, exec i s = .next t ∧ NMap.get? t.gates n = some r ∧ r.agreed = true ∧
        (c.held ≠ none → (r.chunk k).final = true) ∧ (after ≠ q.lead.root → sent t ⟨k, 2, bm, fl, xs, dsc⟩)) ∧
      (live → (ph = 0 ∧ (c.passed = true ∨ 2 ≤ q.lead.kind)) ∨ (ph = 1 ∧ (c.final = true ∨ q.lead.kind = 1)) ∨ (ph = 2 ∧ q.agreed = true) →
        exec i s = .next (u.addCons 0 q.job))) ∧
    (∀ p, q.parts = [p] → q.begun = none → p.ppart = 1 → p.kind ≤ 1 → 1 < p.size → q.pending = [] → q.todo = [] →
      s.settledBy p.core p.ctx p.gen 5 p.at_ = true → s.gateClear n = true →
      let src := fun (k : Nat) => s.readPages (dieOf p.core) p.world (p.src + 4 * (k * p.chunkLen)) (4 * p.chunkLen)
      let k0 := (q.self_ + p.size - 1) % p.size
      (∀ k, k < p.size → ∃ bs, src k = .ok bs) → ∃ t r, exec (.collComplete n) s = .next t ∧ NMap.get? t.gates n = some r ∧ r.begun = some s.cyc ∧
        (∀ k bs, k < p.size → src k = .ok bs → (r.chunk k).own = some (fp32Words p.chunkLen bs) ∧ ((r.chunk k).passed = true ↔ k = k0)) ∧
        ∀ bs, src k0 = .ok bs → sent t ⟨k0, 0, 2 ^ q.self_, 0, compress (fp32Words p.chunkLen bs), p.desc⟩) ∧
    (∀ k ∈ q.allChunks, q.begun ≠ none → q.mismatch = false → (q.chunk k).since + 2 ^ 22 ≤ s.cyc → (q.chunk k).passed = false → k ≠ q.self_ →
      ∃ t r, exec (.collRingTimeout n k) s = .next t ∧ NMap.get? t.gates n = some r ∧ (r.chunk k).passed = true ∧
        sent t ⟨k, 0, mark (q.chunk k) 0, (q.chunk k).flags, ((q.chunk k).own.map compress).getD [], q.lead.desc⟩) ∧
    (∀ k, q.begun = none ∨ q.mismatch = true ∨ s.cyc < (q.chunk k).since + 2 ^ 22 → exec (.collRingTimeout n k) s = .next s) ∧
    (∀ k ∈ q.wanted, k ∈ q.allChunks → q.begun ≠ none → q.mismatch = false → (q.chunk k).since + 2 ^ 22 ≤ s.cyc →
      (q.chunk k).passed = true → (q.chunk k).final = false →
      ((q.chunk k).held = none → exec (.collRingTimeout n k) s = .next (s.deliverChunk n k 0 0 none)) ∧
      (∀ bm fl data, (q.chunk k).held = some (bm, fl, data) → exec (.collRingTimeout n k) s = .next (s.deliverChunk n k bm fl data))) ∧
    (q.begun = none → q.todo = [] → q.parts.length < q.lead.ppart ∨ (∃ p ∈ q.parts, s.settledBy p.core p.ctx p.gen 5 p.at_ = false) →
      exec (.collComplete n) s = .next s) ∧
    (q.begun ≠ none → q.counted = false → q.mismatch = false → q.todo = [] → (∀ p ∈ q.parts, p.late = false) →
      (∃ k ∈ q.wanted, (q.chunk k).final = false) → exec (.collComplete n) s = .next s) ∧
    (∀ st ∈ q.stamps, q.begun ≠ none → q.counted = false → q.todo = [] → (∀ p ∈ q.parts, p.late = false) → s.appliedAll st = false →
      exec (.collComplete n) s = .next s) ∧
    (∀ p u, q.parts = [p] → q.begun ≠ none → q.counted = false → q.todo = [] → p.late = false → (∀ k ∈ q.wanted, (q.chunk k).final = true) →
      (∀ st ∈ q.stamps, s.appliedAll st = true) → s.gateClear n = true → s.doneCtr p.world p.ctr = .ok u → ∃ t, exec (.collComplete n) s = .next t ∧
        t.dies = u.dies ∧ (q.dropped = false → ∃ r, NMap.get? t.gates n = some r ∧ r.counted = true) ∧
        (q.dropped = true → NMap.get? t.gates n = none)) ∧
    (q.begun ≠ none → q.counted = true → q.todo = [] → s.gateClear n = true → (∀ k ∈ q.allChunks, (q.chunk k).passed = true) →
      ∃ t, exec (.collComplete n) s = .next t ∧ NMap.get? t.gates n = none ∧ t.dies = s.dies))

/-- R337, R338, R408, R409, R422 to R429. A step of the clock is taken at an edge after its window's end, one in
a window, and is logged as the window in which it was taken ends (R429, log 12). That SVSTART's ENTRY and ARG words stand per page is log 15's reading, and what a PREEMPT of a context
that does not run does log 21's choice. What a job entry's word 0 keeps after V = 0 (log 38), the DOE identifier (log 39) and the CLAIM word's
other bits as the host reads them are the model's. -/
def Obligations.HostRegisters : Prop := ∀ (s : State) (tdi : Nat) (val : BitVec 64) (w n : Nat),
  let me := s.hostWorld tdi
  let free := fun (off : Nat) => s.ready = true ∧ s.watcher off = none
  let denied := fun (i : Instr) (off : Nat) => exec i s = .next (s.unsup off tdi)
  let mine := w < 64 ∧ (w = 0 ∨ me = w)
  let v := val.toNat
  (∀ off, (s.unsup off tdi).unsupported = s.unsupported + 1) ∧
  (s.ready = false → exec (.hostRegisterWrite tdi n val) s = .next s ∧ ∀ q, 0 < q → s.barRead q = 0) ∧
  (∀ u, s.ready = true → s.watcher (n / 8 * 8) = some u → s.tdi u ≠ .error → ∃ t, exec (.hostRegisterWrite tdi n val) s = .next t ∧
    t.tdi u = .error ∧ t.regq = s.regq ++ [.kwipe u] ∧ t.unsupported = s.unsupported + 1 ∧ t.cores = s.cores ∧ t.jobs = s.jobs) ∧
  (free 8 → exec (.hostRegisterWrite tdi 8 val) s = .next { s with node := v % 2 ^ 20 }) ∧
  (free 0x1000 → exec (.pcapWrite val) s = .next { s with pcap := max 600 (min 2800 (v % 2 ^ 12)) }) ∧
  (0 < w → w < 64 → me ≠ w → free (pageBase w) → denied (.hinv tdi w val) (pageBase w)) ∧
  (0 < w → w < 64 → me ≠ w → s.ready = true → exec (.hostRegisterRead tdi ⟨0, pageBase w⟩) s = .next (s.unsup (pageBase w) tdi)) ∧
  (n % 8 = 0 → pageOf n = none → exec (.hostRegisterRead tdi ⟨0, n⟩) s = .next { s with lastRead := s.barRead n }) ∧
  (∀ k, n < 1024 → k < 32 → s.ready = true → ∃ r : Word, exec (.hostRegisterRead tdi ⟨2, 256 * n + 8 * k⟩) s = .next { s with lastRead := r } ∧
    (k < 31 → r = (s.slotAt n).rec_.getD k 0) ∧ (k = 31 → r.getLsbD 0 = (s.slotAt n).claim)) ∧
  (∃ r : Word, exec (.hostRegisterRead tdi ⟨1, 0x200⟩) s = .next { s with lastRead := r } ∧ r.toNat % 2 ^ 16 = 0x2E) ∧
  (s.ready = true → s.barRead 0x1000 = BitVec.ofNat 64 s.pcap ∧ s.barRead 0x10 = s.caps ∧
    (s.regionMiB ≤ 64 → s.bootStep < 16 → s.barRead 0 = BitVec.ofNat 64 (2 ^ 63 + s.regionMiB * 2 ^ 16 + s.bootStep))) ∧
  (mine → free (pageBase w) →
    (v / 2 ^ 52 % 2 ^ 6 ≠ w → denied (.hinv tdi w val) (pageBase w)) ∧
    (v / 2 ^ 52 % 2 ^ 6 = w → ∃ t, exec (.hinv tdi w val) s = .next t ∧
      (∀ c, (v / 2 ^ 58 % 2 ^ 4).testBit (dieOf c) = false → (t.core c).tlb = (s.core c).tlb) ∧
      (∀ c, ∀ e ∈ (s.core c).tlb, e.world ≠ w ∨ e.formedBy (65536 * (v / 2 ^ 16 % 2 ^ 36)) = false → e ∈ (t.core c).tlb) ∧
      ∀ d, d < s.nDies → (v / 2 ^ 58 % 2 ^ 4).testBit d = true →
      (∀ c, dieOf c = d → ∀ e ∈ (t.core c).tlb, e.world = w → e.formedBy (65536 * (v / 2 ^ 16 % 2 ^ 36)) = true → e.dead ≠ none) ∧
      ∀ i k, i < 64 → k < 4 →
        (∀ e ∈ (t.chan (64 * d + i) k).map, e.world = w → e.formedBy (65536 * (v / 2 ^ 16 % 2 ^ 36)) = false) ∧
        ∃ (q : Tracked) (f : Tracked → Tracked), (t.chan (64 * d + i) k).queue = (s.chan (64 * d + i) k).queue.map f ++ [q] ∧
          q.marker = some (w, 2 ^ 48 + v / 2 ^ 16 % 2 ^ 36) ∧ ∀ r, f r = { r with map := (f r).map, holes := (f r).holes })) ∧
  (mine → free (pageBase w + 8) →
    let c := v % 2 ^ 10
    let x := v / 2 ^ 10 % 2 ^ 3
    (s.worldOf c x ≠ w → denied (.preempt tdi w val) (pageBase w + 8)) ∧
    (s.worldOf c x = w → (s.core c).run = some x → (s.ctx c x).save ≠ none →
      exec (.preempt tdi w val) s = .next (s.modCore c fun k => { k with hostPre := some x })) ∧
    (s.worldOf c x = w → (s.core c).run ≠ some x ∨ (s.ctx c x).save = none →
      exec (.preempt tdi w val) s = .next (s.logAt 0x26 c x w (BitVec.ofNat 64 c) (BitVec.ofNat 64 x)))) ∧
  (∀ d k, mine → d < s.nDies → d < 4 → k < 16 → free (pageBase w + 0x108 + 16 * (16 * d + k)) →
    let c := 256 * d + 4 * (62 + k / 8)
    let x := k % 8
    let sv := NMap.getD s.sv (w * 64 + 16 * d + k) {}
    let ns := v / 2 ^ 16 % 2 ^ 6
    let nv := v / 2 ^ 22 % 2 ^ 6
    let r := v / 2 ^ 32 % 2 ^ 6
    let m := v / 2 ^ 40 % 2 ^ 3
    let bad := 48 < ns ∨ 48 < nv ∨ 47 < r ∨ 4 < m ∨ 0 < m ∧ ns < r + m
    ((s.ctx c x).st = .free ∨ (s.ctx c x).world = w →
      (bad → denied (.svstartGo tdi w d k val) (pageBase w + 0x108 + 16 * (16 * d + k))) ∧
      (¬bad → ∃ t, exec (.svstartGo tdi w d k val) s = .next t ∧ (t.ctx c x).st = .ready ∧
        (t.ctx c x).pc = sv.entry.toNat / 2 ^ 4 % 2 ^ 53 * 16 ∧ (t.ctx c x).world = w ∧ (t.ctx c x).proc = true ∧
        (t.ctx c x).allocS = ns ∧ (t.ctx c x).allocV = nv ∧ (t.ctx c x).gen = (s.ctx c x).gen + 1 ∧
        ∀ i, i < m → (t.ctx c x).sAt (r + i) = NMap.getD sv.args i 0) ∧
      ∃ t, exec (.svstartStop tdi w d k) s = .next t ∧ (t.ctx c x).st = .free) ∧
    ((s.ctx c x).st ≠ .free → (s.ctx c x).world ≠ w → denied (.svstartStop tdi w d k) (pageBase w + 0x108 + 16 * (16 * d + k)))) ∧
  (n < 256 → free (0x10000 + 32 * n) →
    let i := Instr.jobEntryWrite tdi n val
    let old := NMap.get? s.jobs n
    let e : Job := { job := v % 2 ^ 16, wtag := v / 2 ^ 16 % 2 ^ 6, def_ := v.testBit 22, v := v.testBit 23 }
    let oldW := match old with | some o => o.wtag | none => NMap.getD s.cleared n 0 / 2 ^ 16 % 2 ^ 6
    let mineOld := oldW = 0 ∨ oldW = me
    let clash := ∃ p ∈ s.jobs, p.1 ≠ n ∧ (p.2.job = e.job ∨ e.def_ = true ∧ p.2.v = true ∧ p.2.def_ = true ∧ p.2.wtag = e.wtag)
    (¬mineOld ∨ e.wtag ≠ 0 ∧ e.wtag ≠ me ∨ e.v = true ∧ clash → denied i (0x10000 + 32 * n)) ∧
    (mineOld → e.wtag = 0 ∨ e.wtag = me →
      (e.v = false → ∃ t, exec i s = .next t ∧ t.jobs = NMap.erase s.jobs n ∧ t.cores = s.cores ∧ t.dies = s.dies ∧
        NMap.getD t.cleared n 0 = v % 2 ^ 23) ∧
      (e.v = true → ¬clash → ∃ t q, exec i s = .next t ∧ NMap.get? t.jobs n = some q ∧ q.job = e.job ∧ q.wtag = e.wtag ∧ q.def_ = e.def_ ∧ q.v = true ∧
        (∀ o, old = some o → o.job = e.job → q.inj = o.inj ∧ q.cons = o.cons) ∧ (∀ o, old = some o → o.job ≠ e.job → q.inj = [] ∧ q.cons = []) ∧
        (old = none → q.inj = [] ∧ q.cons = []) ∧ ∀ k, k ≠ n → NMap.get? t.jobs k = NMap.get? s.jobs k))) ∧
  (n < 256 → free (0x12000 + 8 * n) →
    let oldW := match NMap.get? s.windows n with | some o => s.jobWorld o.job | none => 0
    let newW := s.jobWorld (v / 2 ^ 20 % 2 ^ 16)
    (oldW ≠ 0 ∧ oldW ≠ me ∨ newW ≠ 0 ∧ newW ≠ me → denied (.windowEntryWrite tdi n val) (0x12000 + 8 * n)) ∧
    ((oldW = 0 ∨ oldW = me) → (newW = 0 ∨ newW = me) → exec (.windowEntryWrite tdi n val) s = .next
      { s with windows := NMap.set s.windows n ⟨v % 2 ^ 20, v / 2 ^ 20 % 2 ^ 16, v.testBit 63⟩ })) ∧
  (n < 1024 → s.ready = true →
    let p := s.slotAt n
    let rec_ := fun (ws : List Word) => lrFor ((List.range 32).map fun i => ws.getD i 0) 0
    (∀ off, off < 256 → p.claim = true → denied (.launchWindowWrite tdi n off val) (256 * n + off)) ∧
    (∀ off, off < 248 → p.claim = false → ∃ t, exec (.launchWindowWrite tdi n off val) s = .next t ∧
      (t.slotAt n).rec_.length = 32 ∧ (∀ i, i < 32 → (t.slotAt n).rec_.getD i 0 = if i = off / 8 then val else p.rec_.getD i 0) ∧
      (t.slotAt n).claim = false ∧ t.cores = s.cores) ∧
    (p.claim = true → denied (.launchClaim tdi n) (256 * n + 0xF8)) ∧
    (p.claim = false → s.lrBad (rec_ p.rec_) me = none → ∃ t, exec (.launchClaim tdi n) s = .next t ∧ (t.slotAt n).claim = true ∧
      (t.slotAt n).rec_ = rec_ p.rec_ ∧ (t.slotAt n).world = me ∧ (t.slotAt n).order = s.nextOrder ∧ t.nextOrder = s.nextOrder + 1) ∧
    (∀ rule u, p.claim = false → s.lrBad (rec_ p.rec_) me = some (rule, u) → ∃ t, exec (.launchClaim tdi n) s = .next t ∧
      NMap.get? t.pool n = none ∧ ∀ q, { s with pool := NMap.erase s.pool n }.arbWrite me (lw (rec_ p.rec_) 0xC0)
        (leBytes 8 (3 + rule * 2 ^ 8) ++ List.replicate 248 0) = .ok q → t = q.1)) ∧
  (∀ draw tj, ∃ t, exec (.powerWindowEnd draw tj) s = .next t ∧ t.draw = draw ∧ t.tj = tj ∧ t.pcapNow = s.pcap ∧
    t.clk = s.clk ∧ t.stepped = none ∧ (tj < 115 → s.stepped = none → t.evlog = s.evlog) ∧
    (∀ clk d, tj < 115 → s.stepped = some (clk, d) → (s.evwidx + 2 ^ 32 - s.evridx) % 2 ^ 32 < 1024 → ∃ e, t.evlog.getLast? = some e ∧
      e.code = 0x30 ∧ e.a = BitVec.ofNat 64 clk ∧ e.b = BitVec.ofNat 64 d) ∧
    (s.pcapNow < draw ∨ 105 ≤ tj → t.clkNext = max 6 (s.clkNext - 1)) ∧
    (draw + 100 ≤ s.pcapNow → tj < 105 → 9 ≤ s.okWindows → t.clkNext = min 12 (s.clkNext + 1) ∧ t.okWindows = 0) ∧
    (draw + 100 ≤ s.pcapNow → tj < 105 → s.okWindows < 9 → t.clkNext = s.clkNext ∧ t.okWindows = s.okWindows + 1) ∧
    (s.pcapNow < draw + 100 → draw ≤ s.pcapNow → tj < 105 → t.clkNext = s.clkNext ∧ t.okWindows = 0) ∧
    (t.power = if 115 ≤ tj then false else s.power) ∧ (s.ready = true → s.clk < 32 →
      let x := t.barRead 0x1008
      x.getLsbD 31 = decide (s.pcapNow < draw ∧ s.clk = 6) ∧ x.toNat % 2 ^ 5 = s.clk ∧ x.toNat / 2 ^ 16 % 2 ^ 12 = draw % 2 ^ 12 ∧
      x.toNat / 2 ^ 40 % 2 ^ 8 = tj % 2 ^ 8)) ∧
  (s.clkSteps = [] ∨ s.stepped ≠ none ∨ (∃ q ∈ s.cores, q.2.first ≠ none) → s.reclock = s) ∧
  (∀ clk draw rest, s.clkSteps = (clk, draw) :: rest → s.stepped = none → (∀ q ∈ s.cores, q.2.first = none) →
    let t := s.reclock
    t.clk = clk ∧ t.clkSteps = rest ∧ t.stepped = some (clk, draw) ∧ t.cores = s.cores ∧ t.evlog = s.evlog)

/-- R405 to R407, R409. The bytes of the answers, and the indices 0 and 0xFF, are the model's choice (log 4). -/
def Obligations.SpdmTdisp : Prop := ∀ (s : State) (n w : Nat) (data : List (BitVec 8)),
  let said := fun (bs : List Byte) => ({ s with spdmOut := s.spdmOut ++ [(n, bs)] } : State)
  let x := s.session n
  let plain := fun (i : Instr) => ∃ bs, exec i s = .next (said bs)
  let refused := fun (i : Instr) => exec i s = .next (said [1])
  let mb := fun (k : Nat) => if k = 1 then s.mb1 else if k = 2 then s.mb2 else if k = 3 then s.mb3 else if k = 4 then s.mb4
    else (s.world (k - 0x10)).mb
  let block := fun (k : Nat) => leBytes 1 k ++ leBytes 32 (mb k).toNat
  let real := fun (k : Nat) => (1 ≤ k ∧ k ≤ 4) ∨ (0x11 ≤ k ∧ k ≤ 0x4F)
  let all := ([1, 2, 3, 4] ++ (List.range 63).map (0x11 + ·)).flatMap block
  let signed := fun (i : Instr) (out : List Byte) => exec i s = .next (said (out ++ Config.sign Config.identityKey (data ++ out)))
  exec (.getVersion n data) s = .next (said [0x13]) ∧ plain (.getCapabilities n data) ∧
  exec (.negotiateAlgorithms n data) s = .next (said (leBytes 4 0x10 ++ leBytes 4 1 ++ leBytes 2 2)) ∧
  exec (.getDigests n data) s = .next (said (sha256 Config.certChain)) ∧ exec (.getCertificate n data) s = .next (said Config.certChain) ∧
  signed (.challenge n data) (sha256 Config.certChain ++ sha256 all) ∧ signed (.getMeasurements n ⟨0, data⟩) (leBytes 1 67) ∧
  signed (.getMeasurements n ⟨0xFF, data⟩) all ∧
  (∀ k, (real k → signed (.getMeasurements n ⟨k, data⟩) (block k)) ∧ (¬real k → k ≠ 0 → k ≠ 0xFF → refused (.getMeasurements n ⟨k, data⟩))) ∧
  (64 ≤ s.sessions.length ∨ NMap.get? s.sessions n ≠ none → refused (.keyExchange n data)) ∧
  (s.sessions.length < 64 → NMap.get? s.sessions n = none → ∃ t, exec (.keyExchange n data) s = .next t ∧ t.worlds = s.worlds ∧
    (t.session n).keyed = true ∧ (t.session n).live = false) ∧
  (x.keyed = true → x.live = false → ∃ t, exec (.finish n) s = .next t ∧ (t.session n).live = true ∧ (t.session n).world = x.world) ∧
  (x.keyed = false ∨ x.live = true → refused (.finish n)) ∧
  (NMap.get? s.sessions n = none → refused (.endSession n)) ∧
  (NMap.get? s.sessions n ≠ none → ∃ t, exec (.endSession n) s = .next t ∧ NMap.get? t.sessions n = none ∧
    (0 < x.world → (t.world x.world).imageKey = none)) ∧
  (let held := ∃ p ∈ s.sessions, p.1 ≠ n ∧ p.2.live = true ∧ p.2.world = w
   (x.live = true → 0 < w → w < 64 → ¬held → ∃ t, exec (.bind n w) s = .next t ∧ (t.session n).world = w ∧ (t.session n).live = true) ∧
   (x.live = false ∨ w = 0 ∨ 64 ≤ w ∨ held → refused (.bind n w))) ∧
  (∀ key, (x.live = true → 0 < x.world → ∃ t, exec (.keyImage n key) s = .next t ∧ (t.world x.world).imageKey = some key ∧
      (t.world x.world).mb = (s.world x.world).mb) ∧ (x.live = false ∨ x.world = 0 → refused (.keyImage n key))) ∧
  (∀ va expect blob, (x.live = false ∨ x.world = 0 ∨ (s.world x.world).mb ≠ expect → refused (.keyEval n va expect blob)) ∧
    (∀ u, x.live = true → 0 < x.world → (s.world x.world).mb = expect → s.writePages x.world va blob = some u →
      exec (.keyEval n va expect blob) s = .next { u with spdmOut := u.spdmOut ++ [(n, [0])] })) ∧
  (let bound := x.live = true ∧ x.world = w
   (s.tdi w = .unlocked → bound → 0 < w → s.wstate w = 2 → ∃ t, exec (.lockInterfaceRequest n w) s = .next t ∧ t.tdi w = .locked ∧
     ∃ regs, NMap.get? t.watch w = some regs ∧ (∀ p ∈ s.jobs, p.2.wtag = w → ∀ k, k < 4 → 0x10000 + 32 * p.1 + 8 * k ∈ regs) ∧
       ∀ p ∈ s.windows, s.jobWorld p.2.job = w → 0x12000 + 8 * p.1 ∈ regs) ∧
   (s.tdi w ≠ .unlocked ∨ ¬bound ∨ w = 0 ∨ s.wstate w ≠ 2 → refused (.lockInterfaceRequest n w)) ∧
   (s.tdi w = .locked → ∃ t, exec (.startInterfaceRequest n w) s = .next t ∧ t.tdi w = .run ∧ t.worlds = s.worlds) ∧
   (s.tdi w ≠ .locked → refused (.startInterfaceRequest n w))) ∧
  (0 < w → w < 64 → ∃ t, exec (.stopInterfaceRequest n w) s = .next t ∧ t.tdi w = .unlocked ∧ NMap.get? t.watch w = none ∧
    t.regq = s.regq ++ if s.tdi w ≠ .unlocked ∧ s.worldExists w = true then [.kwipe w] else []) ∧
  refused (.tdispOtherRequest n w)

/-- R412, R426. -/
def Obligations.Resets : Prop :=
  (State.reset.cyc = 0 ∧ State.reset.nDies = 4 ∧ State.reset.hasRes = true ∧ State.reset.hasCmp = true ∧ State.reset.pcap = 2800 ∧
    State.reset.pcapNow = 2800 ∧ State.reset.clk = 12 ∧ State.reset.ready = true ∧ State.reset.bootStep = 7 ∧ State.reset.power = true ∧
    State.reset.worlds = [] ∧ State.reset.sessions = [] ∧ State.reset.jobs = [] ∧ State.reset.windows = [] ∧ State.reset.evwidx = 0 ∧ State.reset.canon = true ∧
    (∀ c, (State.reset.core c).world = 0 ∧ ∀ x, (State.reset.ctx c x).st = .free ∧ (State.reset.ctx c x).sreg = [])) ∧
  ∀ s : State,
    (∀ ok, ∃ t, exec (.coldReset ok) s = .next t ∧ t.cyc = 0 ∧ t.ready = false ∧ t.bootStep = 1 ∧ t.refusedFw = !ok ∧ t.caps = s.caps ∧
      t.mb1 = (if ok then Config.measured 1 else 0) ∧ t.mb3 = 0 ∧ t.mb4 = 0 ∧ t.regionMiB = 0 ∧
      t.nonce = Config.random s.draws ∧
      t.worlds = [] ∧ t.sessions = [] ∧ t.tdis = [] ∧ t.pool = [] ∧ t.mb2 = 0 ∧ t.hbm = [] ∧ t.dbg = decide (Config.lcs = 1) ∧
      (∀ d, (t.die d).view = [] ∧ (t.die d).l2 = []) ∧
      ∀ c, (t.core c).seat = (s.core c).seat ∧ (t.core c).world = 0 ∧ (t.core c).spad = [] ∧ ∀ x, (t.ctx c x).st = .free) ∧
    (s.power = true → s.ready = false → s.refusedFw = false → s.inbox = [] →
      let n := s.bootStep + 1
      step s = .next { s with
        bootStep := n, ready := decide (7 ≤ n), mb3 := if n = 2 then Config.measured 3 else s.mb3, mb4 := if n = 3 then Config.measured 4 else s.mb4
        regionMiB := if n = 4 then Config.regionMiB % 65 else s.regionMiB, cyc := if n = 6 then 0 else s.cyc
        boots := if n = 6 then s.boots + 1 else s.boots }) ∧
    (s.power = true → s.ready = false → s.refusedFw = true → s.inbox = [] → step s = .fault .heldAtBoot) ∧
    (s.power = false → s.inbox = [] → step s = .fault .unpowered) ∧
    (∃ t, exec .hotReset s = .next t ∧ exec .linkDown s = .next t ∧ t.cyc = 0 ∧ t.ready = false ∧ t.bootStep = 6 ∧ t.caps = s.caps ∧
      t.mb1 = s.mb1 ∧ t.mb2 = s.mb2 ∧ t.mb3 = s.mb3 ∧ t.mb4 = s.mb4 ∧ t.dbg = s.dbg ∧ t.nonce = Config.random s.draws ∧
      t.worlds = [] ∧ t.sessions = [] ∧ t.tdis = [] ∧ t.pool = [] ∧ t.launches = [] ∧
      ∀ c, (t.core c).seat = (s.core c).seat ∧ (t.core c).world = 0 ∧ ∀ x, (t.ctx c x).st = .free ∧ (t.ctx c x).sreg = [])

/-- R29, R45, R46, R48. -/
def Obligations.StepRunsDecoded : Prop := ∀ (s : State) (c x : Nat) (ws : List (BitVec 32)),
  let b := bundleOf ws
  let s0 : State := { s with turn := s.turn.tail }
  let pre := s0.modCtx c x fun y => { y with snapped := false }
  let u := s.issued c x ws
  s.atIssue c x = true → s0.fetchClear c x (s.ctx c x).pc = true → s0.fetch c x (s.ctx c x).pc = .ok ws →
  (s0.begin c x (s.ctx c x).pc ws).bundleWaits b = false → partsOf (s.core c).seat.toNat b.ops ≤ 1 →
  (∀ t, runOps b.slots u = .next t → step s = .next (pre.close t c x b).settled) ∧
  (∀ w i t, ws = [w, 0, 0, 0] → isHeader w = false → decodeWord none w = some i →
    exec i { u with iss := { u.iss with pos := 0 } } = .next t →
    (t.iss.held = false → step s = .next (pre.close { t with iss := { t.iss with pos := 3, ops := t.iss.ops ++ [i, .nop, .nop, .nop] } } c x b).settled) ∧
    (t.iss.held = true → step s = .next (pre.close { t with iss := { t.iss with ops := t.iss.ops ++ [i] } } c x b).settled))

/-- R30, R33, R35, R62, R63. -/
def Obligations.DecodeWords : Prop :=
  decodeWord none 0x00000000#32 = some .nop ∧
  decodeWord none 0x10FFFFFF#32 = some (.bkpt 0) ∧
  -- class 1, guard 3, minor 0, j 5, offset -2 bundles
  decodeWord none 0b0001_0011_000000_000101_111111_111110#32 = some (.prep 3 5 0xFFE#12 none) ∧
  -- class 2, guard 0, minor 1, d 7, a 8, b 48
  decodeWord none 0b0010_0000_000001_000111_001000_110000#32 = some (.add 0 7 8 48) ∧
  -- class 3, guard 15, minor 2, d 63, a 1, immediate -1
  decodeWord none 0b0011_1111_000010_111111_000001_111111#32 = some (.addi 15 63 1 63 none) ∧
  decodeWord (some 0x01#8) 0b0011_1111_000010_111111_000001_111111#32 = some (.addi 15 63 1 63 (some 0x01#8)) ∧
  -- class 4, guard 0, minor 3, d 2, a 4, offset 1
  decodeWord none 0b0100_0000_000011_000010_000100_000001#32 = some (.ldW64 0 2 4 1 none) ∧
  -- class 5, guard 0, minor 1, d 3, a 1, b 2, type code 1
  decodeWord (some 0x01#8) 0b0101_0000_000001_000011_000001_000010#32 = some (.vadd 0 3 1 2 (some 0x01#8)) ∧
  -- class 6, guard 2, minor 0 (RNE), d 3, a 4; and minor 0x13, d 1, a 2, shift 5
  decodeWord none 0b0110_0010_000000_000011_000100_000000#32 = some (.vcvt 2 0 3 4 none) ∧
  decodeWord none 0b0110_0000_010011_000001_000010_000101#32 = some (.vshlI 0 1 2 5 none) ∧
  -- class 7, the worked encoding's XBEAT.acc.filt 9, 0x012: guard 0, minor 0x14, f1 9, f2 0, f3 0x12; and its bundle
  decodeWord none 0b0111_0000_010100_001001_000000_010010#32 = some (.xbeat 0 2 2 0 9 0x012#12 none) ∧
  (let b := decodeBundle 0xC0040091#32 0x50045187#32 0x70509012#32 0x40840000#32
   b.word 1 = some (.vadd 0 5 6 7 (some 0x91#8)) ∧ b.word 2 = some (.xbeat 0 2 2 0 9 0x012#12 (some 0#8)) ∧
   b.word 3 = some (.fenceRel 0 (some 4#8))) ∧
  -- class 8, guard 1, minor 0, d 9, a 6, offset 2
  decodeWord none 0b1000_0001_000000_001001_000110_000010#32 = some (.lds 1 9 6 2 none) ∧
  -- class 9, guard 0, minor 1, d 5, records 1 and 2
  decodeWord none 0b1001_0000_000001_000101_000001_000010#32 = some (.cpy 0 5 1 2 none) ∧
  -- class 10, guard 0, minor 0, a 3, n 1
  decodeWord none 0b1010_0000_000000_000000_000011_000001#32 = some (.gload 0 3 1) ∧
  decodeWord none 0xB0080000#32 = some (.wquiet 0) ∧
  decodeWord none (0xB0400000#32 ||| 5#32 <<< 12 ||| 6#32 <<< 6) = some (.launch 0 5 6) ∧
  decodeWord none 0x00000001#32 = none ∧ decodeWord none 0xD0000000#32 = none ∧ decodeWord none 0xE0000000#32 = none ∧
  decodeWord none 0xF0000000#32 = none ∧ decodeWord none 0xC0000000#32 = none ∧ decodeWord none 0x10FFFFFE#32 = none ∧
  decodeWord none 0b0010_0000_000001_110000_001000_110000#32 = none ∧ decodeWord (some 1) 0x00000000#32 = none ∧
  decodeWord none 0b0010_0000_111110_000111_001000_110000#32 = none

/-- R30, R62: decode and encode agree, both ways. -/
def Obligations.RoundTrip : Prop :=
  (∀ (i : Instr) (x : Ext), i.isSlot = true → i.wf = true → i.extAgrees x = true → decodeWord x (encode i) = some i) ∧
  (∀ (w : BitVec 32) (x : Ext) (i : Instr), decodeWord x w = some i → encode i = w ∧ i.wf = true ∧ i.extAgrees x = true ∧ i.isSlot = true) ∧
  ∀ (i : Instr) (b : Bundle) (w0 w1 w2 w3 : BitVec 32), b = decodeBundle w0 w1 w2 w3 → isHeader w0 = true → b.word 1 = some i →
    encode i = w1 ∧ i.extAgrees (some (w0.extractLsb' 0 8)) = true

/-- The canonical form of memory is an invariant of the step. -/
def Obligations.MemoryCanonical : Prop :=
  ∀ s t : State, s.canon = true → step s = .next t → t.canon = true

/-- R37, R48, R62, R106. -/
def Obligations.EncodingFaults : Prop := ∀ (s : State) (i : Instr), i.isSlot = true → i ≠ .nop →
  let encodingFault := exec i s = s.illegal ∨ exec i s = s.absent ∨ ∃ w0 w1, exec i s = s.raise fREGALLOT w0 w1
  (i.wf = false ∨ s.iss.over i = true → exec i s = s.illegal) ∧
  (s.guardOn i = false → exec i s = .next s ∨ encodingFault) ∧
  ((s.overAllot i).isSome = true → encodingFault)

end
end

