-- ==== Sys2Proof/Laws/Memory.lean ====
section
/-! SUPPORT. Laws of memory: a read after a write, what a write leaves alone, and the canonical form that every operation keeps. -/

namespace Sys2Proof.Machine

theorem Memory.above_mono {lo hi : Nat} {m : Memory} (h : lo ≤ hi) (w : Memory.above hi m = true) : Memory.above lo m = true := by
  cases m with
  | nil => rfl
  | cons p m =>
    obtain ⟨a, v⟩ := p
    simp only [Memory.above, Bool.and_eq_true, decide_eq_true_eq] at w ⊢
    exact ⟨⟨by omega, w.1.2⟩, w.2⟩

/-- A byte below every listed address reads zero. -/
theorem Memory.read_below {lo a : Nat} {m : Memory} (w : Memory.above lo m = true) (h : a < lo) : Memory.read m a = 0 := by
  cases m with
  | nil => rfl
  | cons p m =>
    obtain ⟨b, v⟩ := p
    simp only [Memory.above, Bool.and_eq_true, decide_eq_true_eq] at w
    have h1 : a ≠ b := by omega
    have h2 : a < b := by omega
    simp [Memory.read, h1, h2]

theorem Memory.above_write {lo : Nat} {m : Memory} {a : Nat} {v : Byte} (h : lo ≤ a) (w : Memory.above lo m = true) :
    Memory.above lo (Memory.write m a v) = true := by
  induction m generalizing lo with
  | nil =>
    rw [Memory.write]
    split_ifs with hv
    · rfl
    · simp only [Memory.above, Bool.and_eq_true, decide_eq_true_eq]
      exact ⟨⟨h, hv⟩, trivial⟩
  | cons p m ih =>
    obtain ⟨b, u⟩ := p
    simp only [Memory.above, Bool.and_eq_true, decide_eq_true_eq] at w
    simp only [Memory.write]
    split_ifs with h1 h2 h3 h4
    · simp only [Memory.above, Bool.and_eq_true, decide_eq_true_eq]
      exact w
    · simp only [Memory.above, Bool.and_eq_true, decide_eq_true_eq]
      exact ⟨⟨h, h2⟩, ⟨⟨by omega, w.1.2⟩, w.2⟩⟩
    · exact Memory.above_mono (by omega) w.2
    · simp only [Memory.above, Bool.and_eq_true, decide_eq_true_eq]
      exact ⟨⟨h, h4⟩, h3 ▸ w.2⟩
    · simp only [Memory.above, Bool.and_eq_true, decide_eq_true_eq]
      exact ⟨w.1, ih (by omega) w.2⟩

/-- A write keeps the canonical form. -/
theorem Memory.wf_write {m : Memory} (a : Nat) (v : Byte) (w : m.wf = true) : (Memory.write m a v).wf = true :=
  Memory.above_write (Nat.zero_le a) w

theorem Memory.read_write_above {lo : Nat} {m : Memory} {a b : Nat} {v : Byte} (h : lo ≤ a) (w : Memory.above lo m = true) :
    Memory.read (Memory.write m a v) b = if b = a then v else Memory.read m b := by
  induction m generalizing lo with
  | nil =>
    rw [Memory.write]
    split_ifs with hv hb hb <;> simp only [Memory.read]
    · exact hv.symm
    · rw [if_pos hb]
    · rw [if_neg hb]
      split_ifs <;> rfl
  | cons p m ih =>
    obtain ⟨c, u⟩ := p
    simp only [Memory.above, Bool.and_eq_true, decide_eq_true_eq] at w
    simp only [Memory.write]
    rcases Nat.lt_trichotomy a c with hac | hac | hac
    · rw [if_pos hac]
      have tail : b = a → Memory.read ((c, u) :: m) b = 0 := fun e => by
        simp only [Memory.read]
        rw [if_neg (by omega), if_pos (by omega)]
      split_ifs with h2 h3 h3
      · rw [tail h3, h2]
      · rfl
      · simp only [Memory.read]
        rw [if_pos h3]
      · simp only [Memory.read]
        rw [if_neg h3]
        split_ifs <;> first | rfl | omega
    · subst hac
      rw [if_neg (lt_irrefl _), if_pos rfl]
      split_ifs with h2 h3 h3
      · rw [h2, h3]
        exact Memory.read_below w.2 (by omega)
      · simp only [Memory.read]
        rw [if_neg h3]
        split_ifs with h4
        · exact Memory.read_below w.2 (by omega)
        · rfl
      · simp only [Memory.read]
        rw [if_pos h3]
      · simp only [Memory.read]
        rw [if_neg h3, if_neg h3]
    · rw [if_neg (by omega), if_neg (by omega)]
      simp only [Memory.read]
      rw [ih (by omega) w.2]
      split_ifs <;> first | rfl | omega

/-- A byte after a write: what was written at its address, what stood there elsewhere. -/
theorem Memory.read_write {m : Memory} (w : m.wf = true) (a b : Nat) (v : Byte) :
    Memory.read (Memory.write m a v) b = if b = a then v else Memory.read m b :=
  Memory.read_write_above (Nat.zero_le a) w

theorem Memory.wf_writeVia {m : Memory} (f : Nat → Nat) (a : Nat) (vs : List Byte) (w : m.wf = true) :
    (Memory.writeVia m f a vs).wf = true := by
  induction vs generalizing m a with
  | nil => exact w
  | cons v vs ih => exact ih (a + 1) (Memory.wf_write (f a) v w)

/-- Writing bytes leaves every byte alone whose address is none of theirs. -/
theorem Memory.read_writeVia_other {m : Memory} (f : Nat → Nat) (a : Nat) (vs : List Byte) (w : m.wf = true) (b : Nat)
    (h : ∀ i, i < vs.length → b ≠ f (a + i)) : Memory.read (Memory.writeVia m f a vs) b = Memory.read m b := by
  induction vs generalizing m a with
  | nil => rfl
  | cons v vs ih =>
    have h0 : b ≠ f a := h 0 (by simp)
    have hs : ∀ i, i < vs.length → b ≠ f (a + 1 + i) := fun i hi => by
      have := h (i + 1) (by simpa using hi)
      rwa [← Nat.add_assoc, Nat.add_right_comm] at this
    rw [Memory.writeVia, ih (a + 1) (Memory.wf_write (f a) v w) hs, Memory.read_write w]
    simp [h0]

theorem Memory.wf_writeN {m : Memory} (a : Nat) (vs : List Byte) (w : m.wf = true) : (Memory.writeN m a vs).wf = true :=
  Memory.wf_writeVia id a vs w
theorem Memory.wf_spadWrite {m : Memory} (a : Nat) (vs : List Byte) (w : m.wf = true) : (spadWrite m a vs).wf = true :=
  Memory.wf_writeVia spadAddr a vs w

end Sys2Proof.Machine
end

