-- ==== Sys2Proof/Laws/State.lean ====
section
/-! SUPPORT. One lemma for each field of the state and each update of it: what an update leaves alone. -/

namespace Sys2Proof.Machine

-- what a core holds, under an update of one of its contexts
@[simp] theorem Core.modCtx_run (k : Core) (x : Nat) (f : Ctx → Ctx) : (k.modCtx x f).run = k.run := rfl
@[simp] theorem Core.modCtx_lastRun (k : Core) (x : Nat) (f : Ctx → Ctx) : (k.modCtx x f).lastRun = k.lastRun := rfl
@[simp] theorem Core.modCtx_ccyc (k : Core) (x : Nat) (f : Ctx → Ctx) : (k.modCtx x f).ccyc = k.ccyc := rfl
@[simp] theorem Core.modCtx_hold (k : Core) (x : Nat) (f : Ctx → Ctx) : (k.modCtx x f).hold = k.hold := rfl
@[simp] theorem Core.modCtx_held (k : Core) (x : Nat) (f : Ctx → Ctx) : (k.modCtx x f).held = k.held := rfl
@[simp] theorem Core.modCtx_hostPre (k : Core) (x : Nat) (f : Ctx → Ctx) : (k.modCtx x f).hostPre = k.hostPre := rfl
@[simp] theorem Core.modCtx_first (k : Core) (x : Nat) (f : Ctx → Ctx) : (k.modCtx x f).first = k.first := rfl
@[simp] theorem Core.modCtx_world (k : Core) (x : Nat) (f : Ctx → Ctx) : (k.modCtx x f).world = k.world := rfl
@[simp] theorem Core.modCtx_seat (k : Core) (x : Nat) (f : Ctx → Ctx) : (k.modCtx x f).seat = k.seat := rfl
@[simp] theorem Core.modCtx_spad (k : Core) (x : Nat) (f : Ctx → Ctx) : (k.modCtx x f).spad = k.spad := rfl
@[simp] theorem Core.modCtx_bankfmt (k : Core) (x : Nat) (f : Ctx → Ctx) : (k.modCtx x f).bankfmt = k.bankfmt := rfl
@[simp] theorem Core.modCtx_ports (k : Core) (x : Nat) (f : Ctx → Ctx) : (k.modCtx x f).ports = k.ports := rfl
@[simp] theorem Core.modCtx_flight (k : Core) (x : Nat) (f : Ctx → Ctx) : (k.modCtx x f).flight = k.flight := rfl
@[simp] theorem Core.modCtx_lists (k : Core) (x : Nat) (f : Ctx → Ctx) : (k.modCtx x f).lists = k.lists := rfl
@[simp] theorem Core.modCtx_busy (k : Core) (x : Nat) (f : Ctx → Ctx) : (k.modCtx x f).busy = k.busy := rfl
@[simp] theorem Core.modCtx_divBusy (k : Core) (x : Nat) (f : Ctx → Ctx) : (k.modCtx x f).divBusy = k.divBusy := rfl
@[simp] theorem Core.modCtx_access (k : Core) (x : Nat) (f : Ctx → Ctx) : (k.modCtx x f).access = k.access := rfl
@[simp] theorem Core.modCtx_nextAccess (k : Core) (x : Nat) (f : Ctx → Ctx) : (k.modCtx x f).nextAccess = k.nextAccess := rfl
@[simp] theorem Core.modCtx_tlb (k : Core) (x : Nat) (f : Ctx → Ctx) : (k.modCtx x f).tlb = k.tlb := rfl
@[simp] theorem Core.modCtx_walk (k : Core) (x : Nat) (f : Ctx → Ctx) : (k.modCtx x f).walk = k.walk := rfl
@[simp] theorem Core.modCtx_failed (k : Core) (x : Nat) (f : Ctx → Ctx) : (k.modCtx x f).failed = k.failed := rfl
@[simp] theorem Core.modCtx_prefs (k : Core) (x : Nat) (f : Ctx → Ctx) : (k.modCtx x f).prefs = k.prefs := rfl
@[simp] theorem Core.modCtx_l1 (k : Core) (x : Nat) (f : Ctx → Ctx) : (k.modCtx x f).l1 = k.l1 := rfl
@[simp] theorem Core.modCtx_fills (k : Core) (x : Nat) (f : Ctx → Ctx) : (k.modCtx x f).fills = k.fills := rfl
@[simp] theorem Core.modCtx_amo (k : Core) (x : Nat) (f : Ctx → Ctx) : (k.modCtx x f).amo = k.amo := rfl
@[simp] theorem Core.modCtx_sendq (k : Core) (x : Nat) (f : Ctx → Ctx) : (k.modCtx x f).sendq = k.sendq := rfl
@[simp] theorem Core.modCtx_inq (k : Core) (x : Nat) (f : Ctx → Ctx) : (k.modCtx x f).inq = k.inq := rfl
@[simp] theorem Core.modCtx_handlers (k : Core) (x : Nat) (f : Ctx → Ctx) : (k.modCtx x f).handlers = k.handlers := rfl

-- setCore
@[simp] theorem State.setCore_caps (s : State) (c : Nat) (k : Core) : (s.setCore c k).caps = s.caps := rfl
@[simp] theorem State.setCore_cyc (s : State) (c : Nat) (k : Core) : (s.setCore c k).cyc = s.cyc := rfl
@[simp] theorem State.setCore_arrs (s : State) (c : Nat) (k : Core) : (s.setCore c k).arrs = s.arrs := rfl
@[simp] theorem State.setCore_dies (s : State) (c : Nat) (k : Core) : (s.setCore c k).dies = s.dies := rfl
@[simp] theorem State.setCore_clusters (s : State) (c : Nat) (k : Core) : (s.setCore c k).clusters = s.clusters := rfl
@[simp] theorem State.setCore_hbm (s : State) (c : Nat) (k : Core) : (s.setCore c k).hbm = s.hbm := rfl
@[simp] theorem State.setCore_sealed (s : State) (c : Nat) (k : Core) : (s.setCore c k).sealed = s.sealed := rfl
@[simp] theorem State.setCore_wcounts (s : State) (c : Nat) (k : Core) : (s.setCore c k).wcounts = s.wcounts := rfl
@[simp] theorem State.setCore_tags (s : State) (c : Nat) (k : Core) : (s.setCore c k).tags = s.tags := rfl
@[simp] theorem State.setCore_badTag (s : State) (c : Nat) (k : Core) : (s.setCore c k).badTag = s.badTag := rfl
@[simp] theorem State.setCore_worlds (s : State) (c : Nat) (k : Core) : (s.setCore c k).worlds = s.worlds := rfl
@[simp] theorem State.setCore_inbox (s : State) (c : Nat) (k : Core) : (s.setCore c k).inbox = s.inbox := rfl
@[simp] theorem State.setCore_turn (s : State) (c : Nat) (k : Core) : (s.setCore c k).turn = s.turn := rfl
@[simp] theorem State.setCore_picks (s : State) (c : Nat) (k : Core) : (s.setCore c k).picks = s.picks := rfl
@[simp] theorem State.setCore_boots (s : State) (c : Nat) (k : Core) : (s.setCore c k).boots = s.boots := rfl
@[simp] theorem State.setCore_iss (s : State) (c : Nat) (k : Core) : (s.setCore c k).iss = s.iss := rfl
@[simp] theorem State.setCore_paths (s : State) (c : Nat) (k : Core) : (s.setCore c k).paths = s.paths := rfl
@[simp] theorem State.setCore_granted (s : State) (c : Nat) (k : Core) : (s.setCore c k).granted = s.granted := rfl
@[simp] theorem State.setCore_queues (s : State) (c : Nat) (k : Core) : (s.setCore c k).queues = s.queues := rfl
@[simp] theorem State.setCore_offers (s : State) (c : Nat) (k : Core) : (s.setCore c k).offers = s.offers := rfl
@[simp] theorem State.setCore_overflow (s : State) (c : Nat) (k : Core) : (s.setCore c k).overflow = s.overflow := rfl
@[simp] theorem State.setCore_evlog (s : State) (c : Nat) (k : Core) : (s.setCore c k).evlog = s.evlog := rfl
@[simp] theorem State.setCore_evwidx (s : State) (c : Nat) (k : Core) : (s.setCore c k).evwidx = s.evwidx := rfl
@[simp] theorem State.setCore_evridx (s : State) (c : Nat) (k : Core) : (s.setCore c k).evridx = s.evridx := rfl
@[simp] theorem State.setCore_evdrop (s : State) (c : Nat) (k : Core) : (s.setCore c k).evdrop = s.evdrop := rfl
@[simp] theorem State.setCore_pool (s : State) (c : Nat) (k : Core) : (s.setCore c k).pool = s.pool := rfl
@[simp] theorem State.setCore_nextOrder (s : State) (c : Nat) (k : Core) : (s.setCore c k).nextOrder = s.nextOrder := rfl
@[simp] theorem State.setCore_launches (s : State) (c : Nat) (k : Core) : (s.setCore c k).launches = s.launches := rfl
@[simp] theorem State.setCore_nextLaunch (s : State) (c : Nat) (k : Core) : (s.setCore c k).nextLaunch = s.nextLaunch := rfl
@[simp] theorem State.setCore_gangs (s : State) (c : Nat) (k : Core) : (s.setCore c k).gangs = s.gangs := rfl
@[simp] theorem State.setCore_nextGang (s : State) (c : Nat) (k : Core) : (s.setCore c k).nextGang = s.nextGang := rfl
@[simp] theorem State.setCore_consWait (s : State) (c : Nat) (k : Core) : (s.setCore c k).consWait = s.consWait := rfl
@[simp] theorem State.setCore_arrivals (s : State) (c : Nat) (k : Core) : (s.setCore c k).arrivals = s.arrivals := rfl
@[simp] theorem State.setCore_seen (s : State) (c : Nat) (k : Core) : (s.setCore c k).seen = s.seen := rfl
@[simp] theorem State.setCore_node (s : State) (c : Nat) (k : Core) : (s.setCore c k).node = s.node := rfl
@[simp] theorem State.setCore_links (s : State) (c : Nat) (k : Core) : (s.setCore c k).links = s.links := rfl
@[simp] theorem State.setCore_jobs (s : State) (c : Nat) (k : Core) : (s.setCore c k).jobs = s.jobs := rfl
@[simp] theorem State.setCore_cleared (s : State) (c : Nat) (k : Core) : (s.setCore c k).cleared = s.cleared := rfl
@[simp] theorem State.setCore_goneJobs (s : State) (c : Nat) (k : Core) : (s.setCore c k).goneJobs = s.goneJobs := rfl
@[simp] theorem State.setCore_windows (s : State) (c : Nat) (k : Core) : (s.setCore c k).windows = s.windows := rfl
@[simp] theorem State.setCore_packets (s : State) (c : Nat) (k : Core) : (s.setCore c k).packets = s.packets := rfl
@[simp] theorem State.setCore_nextPacket (s : State) (c : Nat) (k : Core) : (s.setCore c k).nextPacket = s.nextPacket := rfl
@[simp] theorem State.setCore_gates (s : State) (c : Nat) (k : Core) : (s.setCore c k).gates = s.gates := rfl
@[simp] theorem State.setCore_nextGate (s : State) (c : Nat) (k : Core) : (s.setCore c k).nextGate = s.nextGate := rfl
@[simp] theorem State.setCore_nextWrite (s : State) (c : Nat) (k : Core) : (s.setCore c k).nextWrite = s.nextWrite := rfl
@[simp] theorem State.setCore_mb1 (s : State) (c : Nat) (k : Core) : (s.setCore c k).mb1 = s.mb1 := rfl
@[simp] theorem State.setCore_mb2 (s : State) (c : Nat) (k : Core) : (s.setCore c k).mb2 = s.mb2 := rfl
@[simp] theorem State.setCore_mb3 (s : State) (c : Nat) (k : Core) : (s.setCore c k).mb3 = s.mb3 := rfl
@[simp] theorem State.setCore_mb4 (s : State) (c : Nat) (k : Core) : (s.setCore c k).mb4 = s.mb4 := rfl
@[simp] theorem State.setCore_dbg (s : State) (c : Nat) (k : Core) : (s.setCore c k).dbg = s.dbg := rfl
@[simp] theorem State.setCore_debugPort (s : State) (c : Nat) (k : Core) : (s.setCore c k).debugPort = s.debugPort := rfl
@[simp] theorem State.setCore_nonce (s : State) (c : Nat) (k : Core) : (s.setCore c k).nonce = s.nonce := rfl
@[simp] theorem State.setCore_draws (s : State) (c : Nat) (k : Core) : (s.setCore c k).draws = s.draws := rfl
@[simp] theorem State.setCore_regq (s : State) (c : Nat) (k : Core) : (s.setCore c k).regq = s.regq := rfl
@[simp] theorem State.setCore_asks (s : State) (c : Nat) (k : Core) : (s.setCore c k).asks = s.asks := rfl
@[simp] theorem State.setCore_sessions (s : State) (c : Nat) (k : Core) : (s.setCore c k).sessions = s.sessions := rfl
@[simp] theorem State.setCore_spdmOut (s : State) (c : Nat) (k : Core) : (s.setCore c k).spdmOut = s.spdmOut := rfl
@[simp] theorem State.setCore_tdis (s : State) (c : Nat) (k : Core) : (s.setCore c k).tdis = s.tdis := rfl
@[simp] theorem State.setCore_watch (s : State) (c : Nat) (k : Core) : (s.setCore c k).watch = s.watch := rfl
@[simp] theorem State.setCore_bootStep (s : State) (c : Nat) (k : Core) : (s.setCore c k).bootStep = s.bootStep := rfl
@[simp] theorem State.setCore_ready (s : State) (c : Nat) (k : Core) : (s.setCore c k).ready = s.ready := rfl
@[simp] theorem State.setCore_refusedFw (s : State) (c : Nat) (k : Core) : (s.setCore c k).refusedFw = s.refusedFw := rfl
@[simp] theorem State.setCore_regionMiB (s : State) (c : Nat) (k : Core) : (s.setCore c k).regionMiB = s.regionMiB := rfl
@[simp] theorem State.setCore_sv (s : State) (c : Nat) (k : Core) : (s.setCore c k).sv = s.sv := rfl
@[simp] theorem State.setCore_pcap (s : State) (c : Nat) (k : Core) : (s.setCore c k).pcap = s.pcap := rfl
@[simp] theorem State.setCore_pcapNow (s : State) (c : Nat) (k : Core) : (s.setCore c k).pcapNow = s.pcapNow := rfl
@[simp] theorem State.setCore_clk (s : State) (c : Nat) (k : Core) : (s.setCore c k).clk = s.clk := rfl
@[simp] theorem State.setCore_clkSteps (s : State) (c : Nat) (k : Core) : (s.setCore c k).clkSteps = s.clkSteps := rfl
@[simp] theorem State.setCore_stepped (s : State) (c : Nat) (k : Core) : (s.setCore c k).stepped = s.stepped := rfl
@[simp] theorem State.setCore_draw (s : State) (c : Nat) (k : Core) : (s.setCore c k).draw = s.draw := rfl
@[simp] theorem State.setCore_tj (s : State) (c : Nat) (k : Core) : (s.setCore c k).tj = s.tj := rfl
@[simp] theorem State.setCore_throt (s : State) (c : Nat) (k : Core) : (s.setCore c k).throt = s.throt := rfl
@[simp] theorem State.setCore_okWindows (s : State) (c : Nat) (k : Core) : (s.setCore c k).okWindows = s.okWindows := rfl
@[simp] theorem State.setCore_power (s : State) (c : Nat) (k : Core) : (s.setCore c k).power = s.power := rfl
@[simp] theorem State.setCore_lastRead (s : State) (c : Nat) (k : Core) : (s.setCore c k).lastRead = s.lastRead := rfl
@[simp] theorem State.setCore_unsupported (s : State) (c : Nat) (k : Core) : (s.setCore c k).unsupported = s.unsupported := rfl
@[simp] theorem State.setCore_msix (s : State) (c : Nat) (k : Core) : (s.setCore c k).msix = s.msix := rfl

-- modCore
@[simp] theorem State.modCore_caps (s : State) (c : Nat) (f : Core → Core) : (s.modCore c f).caps = s.caps := rfl
@[simp] theorem State.modCore_cyc (s : State) (c : Nat) (f : Core → Core) : (s.modCore c f).cyc = s.cyc := rfl
@[simp] theorem State.modCore_arrs (s : State) (c : Nat) (f : Core → Core) : (s.modCore c f).arrs = s.arrs := rfl
@[simp] theorem State.modCore_dies (s : State) (c : Nat) (f : Core → Core) : (s.modCore c f).dies = s.dies := rfl
@[simp] theorem State.modCore_clusters (s : State) (c : Nat) (f : Core → Core) : (s.modCore c f).clusters = s.clusters := rfl
@[simp] theorem State.modCore_hbm (s : State) (c : Nat) (f : Core → Core) : (s.modCore c f).hbm = s.hbm := rfl
@[simp] theorem State.modCore_sealed (s : State) (c : Nat) (f : Core → Core) : (s.modCore c f).sealed = s.sealed := rfl
@[simp] theorem State.modCore_wcounts (s : State) (c : Nat) (f : Core → Core) : (s.modCore c f).wcounts = s.wcounts := rfl
@[simp] theorem State.modCore_tags (s : State) (c : Nat) (f : Core → Core) : (s.modCore c f).tags = s.tags := rfl
@[simp] theorem State.modCore_badTag (s : State) (c : Nat) (f : Core → Core) : (s.modCore c f).badTag = s.badTag := rfl
@[simp] theorem State.modCore_worlds (s : State) (c : Nat) (f : Core → Core) : (s.modCore c f).worlds = s.worlds := rfl
@[simp] theorem State.modCore_inbox (s : State) (c : Nat) (f : Core → Core) : (s.modCore c f).inbox = s.inbox := rfl
@[simp] theorem State.modCore_turn (s : State) (c : Nat) (f : Core → Core) : (s.modCore c f).turn = s.turn := rfl
@[simp] theorem State.modCore_picks (s : State) (c : Nat) (f : Core → Core) : (s.modCore c f).picks = s.picks := rfl
@[simp] theorem State.modCore_boots (s : State) (c : Nat) (f : Core → Core) : (s.modCore c f).boots = s.boots := rfl
@[simp] theorem State.modCore_iss (s : State) (c : Nat) (f : Core → Core) : (s.modCore c f).iss = s.iss := rfl
@[simp] theorem State.modCore_paths (s : State) (c : Nat) (f : Core → Core) : (s.modCore c f).paths = s.paths := rfl
@[simp] theorem State.modCore_granted (s : State) (c : Nat) (f : Core → Core) : (s.modCore c f).granted = s.granted := rfl
@[simp] theorem State.modCore_queues (s : State) (c : Nat) (f : Core → Core) : (s.modCore c f).queues = s.queues := rfl
@[simp] theorem State.modCore_offers (s : State) (c : Nat) (f : Core → Core) : (s.modCore c f).offers = s.offers := rfl
@[simp] theorem State.modCore_overflow (s : State) (c : Nat) (f : Core → Core) : (s.modCore c f).overflow = s.overflow := rfl
@[simp] theorem State.modCore_evlog (s : State) (c : Nat) (f : Core → Core) : (s.modCore c f).evlog = s.evlog := rfl
@[simp] theorem State.modCore_evwidx (s : State) (c : Nat) (f : Core → Core) : (s.modCore c f).evwidx = s.evwidx := rfl
@[simp] theorem State.modCore_evridx (s : State) (c : Nat) (f : Core → Core) : (s.modCore c f).evridx = s.evridx := rfl
@[simp] theorem State.modCore_evdrop (s : State) (c : Nat) (f : Core → Core) : (s.modCore c f).evdrop = s.evdrop := rfl
@[simp] theorem State.modCore_pool (s : State) (c : Nat) (f : Core → Core) : (s.modCore c f).pool = s.pool := rfl
@[simp] theorem State.modCore_nextOrder (s : State) (c : Nat) (f : Core → Core) : (s.modCore c f).nextOrder = s.nextOrder := rfl
@[simp] theorem State.modCore_launches (s : State) (c : Nat) (f : Core → Core) : (s.modCore c f).launches = s.launches := rfl
@[simp] theorem State.modCore_nextLaunch (s : State) (c : Nat) (f : Core → Core) : (s.modCore c f).nextLaunch = s.nextLaunch := rfl
@[simp] theorem State.modCore_gangs (s : State) (c : Nat) (f : Core → Core) : (s.modCore c f).gangs = s.gangs := rfl
@[simp] theorem State.modCore_nextGang (s : State) (c : Nat) (f : Core → Core) : (s.modCore c f).nextGang = s.nextGang := rfl
@[simp] theorem State.modCore_consWait (s : State) (c : Nat) (f : Core → Core) : (s.modCore c f).consWait = s.consWait := rfl
@[simp] theorem State.modCore_arrivals (s : State) (c : Nat) (f : Core → Core) : (s.modCore c f).arrivals = s.arrivals := rfl
@[simp] theorem State.modCore_seen (s : State) (c : Nat) (f : Core → Core) : (s.modCore c f).seen = s.seen := rfl
@[simp] theorem State.modCore_node (s : State) (c : Nat) (f : Core → Core) : (s.modCore c f).node = s.node := rfl
@[simp] theorem State.modCore_links (s : State) (c : Nat) (f : Core → Core) : (s.modCore c f).links = s.links := rfl
@[simp] theorem State.modCore_jobs (s : State) (c : Nat) (f : Core → Core) : (s.modCore c f).jobs = s.jobs := rfl
@[simp] theorem State.modCore_cleared (s : State) (c : Nat) (f : Core → Core) : (s.modCore c f).cleared = s.cleared := rfl
@[simp] theorem State.modCore_goneJobs (s : State) (c : Nat) (f : Core → Core) : (s.modCore c f).goneJobs = s.goneJobs := rfl
@[simp] theorem State.modCore_windows (s : State) (c : Nat) (f : Core → Core) : (s.modCore c f).windows = s.windows := rfl
@[simp] theorem State.modCore_packets (s : State) (c : Nat) (f : Core → Core) : (s.modCore c f).packets = s.packets := rfl
@[simp] theorem State.modCore_nextPacket (s : State) (c : Nat) (f : Core → Core) : (s.modCore c f).nextPacket = s.nextPacket := rfl
@[simp] theorem State.modCore_gates (s : State) (c : Nat) (f : Core → Core) : (s.modCore c f).gates = s.gates := rfl
@[simp] theorem State.modCore_nextGate (s : State) (c : Nat) (f : Core → Core) : (s.modCore c f).nextGate = s.nextGate := rfl
@[simp] theorem State.modCore_nextWrite (s : State) (c : Nat) (f : Core → Core) : (s.modCore c f).nextWrite = s.nextWrite := rfl
@[simp] theorem State.modCore_mb1 (s : State) (c : Nat) (f : Core → Core) : (s.modCore c f).mb1 = s.mb1 := rfl
@[simp] theorem State.modCore_mb2 (s : State) (c : Nat) (f : Core → Core) : (s.modCore c f).mb2 = s.mb2 := rfl
@[simp] theorem State.modCore_mb3 (s : State) (c : Nat) (f : Core → Core) : (s.modCore c f).mb3 = s.mb3 := rfl
@[simp] theorem State.modCore_mb4 (s : State) (c : Nat) (f : Core → Core) : (s.modCore c f).mb4 = s.mb4 := rfl
@[simp] theorem State.modCore_dbg (s : State) (c : Nat) (f : Core → Core) : (s.modCore c f).dbg = s.dbg := rfl
@[simp] theorem State.modCore_debugPort (s : State) (c : Nat) (f : Core → Core) : (s.modCore c f).debugPort = s.debugPort := rfl
@[simp] theorem State.modCore_nonce (s : State) (c : Nat) (f : Core → Core) : (s.modCore c f).nonce = s.nonce := rfl
@[simp] theorem State.modCore_draws (s : State) (c : Nat) (f : Core → Core) : (s.modCore c f).draws = s.draws := rfl
@[simp] theorem State.modCore_regq (s : State) (c : Nat) (f : Core → Core) : (s.modCore c f).regq = s.regq := rfl
@[simp] theorem State.modCore_asks (s : State) (c : Nat) (f : Core → Core) : (s.modCore c f).asks = s.asks := rfl
@[simp] theorem State.modCore_sessions (s : State) (c : Nat) (f : Core → Core) : (s.modCore c f).sessions = s.sessions := rfl
@[simp] theorem State.modCore_spdmOut (s : State) (c : Nat) (f : Core → Core) : (s.modCore c f).spdmOut = s.spdmOut := rfl
@[simp] theorem State.modCore_tdis (s : State) (c : Nat) (f : Core → Core) : (s.modCore c f).tdis = s.tdis := rfl
@[simp] theorem State.modCore_watch (s : State) (c : Nat) (f : Core → Core) : (s.modCore c f).watch = s.watch := rfl
@[simp] theorem State.modCore_bootStep (s : State) (c : Nat) (f : Core → Core) : (s.modCore c f).bootStep = s.bootStep := rfl
@[simp] theorem State.modCore_ready (s : State) (c : Nat) (f : Core → Core) : (s.modCore c f).ready = s.ready := rfl
@[simp] theorem State.modCore_refusedFw (s : State) (c : Nat) (f : Core → Core) : (s.modCore c f).refusedFw = s.refusedFw := rfl
@[simp] theorem State.modCore_regionMiB (s : State) (c : Nat) (f : Core → Core) : (s.modCore c f).regionMiB = s.regionMiB := rfl
@[simp] theorem State.modCore_sv (s : State) (c : Nat) (f : Core → Core) : (s.modCore c f).sv = s.sv := rfl
@[simp] theorem State.modCore_pcap (s : State) (c : Nat) (f : Core → Core) : (s.modCore c f).pcap = s.pcap := rfl
@[simp] theorem State.modCore_pcapNow (s : State) (c : Nat) (f : Core → Core) : (s.modCore c f).pcapNow = s.pcapNow := rfl
@[simp] theorem State.modCore_clk (s : State) (c : Nat) (f : Core → Core) : (s.modCore c f).clk = s.clk := rfl
@[simp] theorem State.modCore_clkSteps (s : State) (c : Nat) (f : Core → Core) : (s.modCore c f).clkSteps = s.clkSteps := rfl
@[simp] theorem State.modCore_stepped (s : State) (c : Nat) (f : Core → Core) : (s.modCore c f).stepped = s.stepped := rfl
@[simp] theorem State.modCore_draw (s : State) (c : Nat) (f : Core → Core) : (s.modCore c f).draw = s.draw := rfl
@[simp] theorem State.modCore_tj (s : State) (c : Nat) (f : Core → Core) : (s.modCore c f).tj = s.tj := rfl
@[simp] theorem State.modCore_throt (s : State) (c : Nat) (f : Core → Core) : (s.modCore c f).throt = s.throt := rfl
@[simp] theorem State.modCore_okWindows (s : State) (c : Nat) (f : Core → Core) : (s.modCore c f).okWindows = s.okWindows := rfl
@[simp] theorem State.modCore_power (s : State) (c : Nat) (f : Core → Core) : (s.modCore c f).power = s.power := rfl
@[simp] theorem State.modCore_lastRead (s : State) (c : Nat) (f : Core → Core) : (s.modCore c f).lastRead = s.lastRead := rfl
@[simp] theorem State.modCore_unsupported (s : State) (c : Nat) (f : Core → Core) : (s.modCore c f).unsupported = s.unsupported := rfl
@[simp] theorem State.modCore_msix (s : State) (c : Nat) (f : Core → Core) : (s.modCore c f).msix = s.msix := rfl

-- modCtx
@[simp] theorem State.modCtx_caps (s : State) (c x : Nat) (f : Ctx → Ctx) : (s.modCtx c x f).caps = s.caps := rfl
@[simp] theorem State.modCtx_cyc (s : State) (c x : Nat) (f : Ctx → Ctx) : (s.modCtx c x f).cyc = s.cyc := rfl
@[simp] theorem State.modCtx_arrs (s : State) (c x : Nat) (f : Ctx → Ctx) : (s.modCtx c x f).arrs = s.arrs := rfl
@[simp] theorem State.modCtx_dies (s : State) (c x : Nat) (f : Ctx → Ctx) : (s.modCtx c x f).dies = s.dies := rfl
@[simp] theorem State.modCtx_clusters (s : State) (c x : Nat) (f : Ctx → Ctx) : (s.modCtx c x f).clusters = s.clusters := rfl
@[simp] theorem State.modCtx_hbm (s : State) (c x : Nat) (f : Ctx → Ctx) : (s.modCtx c x f).hbm = s.hbm := rfl
@[simp] theorem State.modCtx_sealed (s : State) (c x : Nat) (f : Ctx → Ctx) : (s.modCtx c x f).sealed = s.sealed := rfl
@[simp] theorem State.modCtx_wcounts (s : State) (c x : Nat) (f : Ctx → Ctx) : (s.modCtx c x f).wcounts = s.wcounts := rfl
@[simp] theorem State.modCtx_tags (s : State) (c x : Nat) (f : Ctx → Ctx) : (s.modCtx c x f).tags = s.tags := rfl
@[simp] theorem State.modCtx_badTag (s : State) (c x : Nat) (f : Ctx → Ctx) : (s.modCtx c x f).badTag = s.badTag := rfl
@[simp] theorem State.modCtx_worlds (s : State) (c x : Nat) (f : Ctx → Ctx) : (s.modCtx c x f).worlds = s.worlds := rfl
@[simp] theorem State.modCtx_inbox (s : State) (c x : Nat) (f : Ctx → Ctx) : (s.modCtx c x f).inbox = s.inbox := rfl
@[simp] theorem State.modCtx_turn (s : State) (c x : Nat) (f : Ctx → Ctx) : (s.modCtx c x f).turn = s.turn := rfl
@[simp] theorem State.modCtx_picks (s : State) (c x : Nat) (f : Ctx → Ctx) : (s.modCtx c x f).picks = s.picks := rfl
@[simp] theorem State.modCtx_boots (s : State) (c x : Nat) (f : Ctx → Ctx) : (s.modCtx c x f).boots = s.boots := rfl
@[simp] theorem State.modCtx_iss (s : State) (c x : Nat) (f : Ctx → Ctx) : (s.modCtx c x f).iss = s.iss := rfl
@[simp] theorem State.modCtx_paths (s : State) (c x : Nat) (f : Ctx → Ctx) : (s.modCtx c x f).paths = s.paths := rfl
@[simp] theorem State.modCtx_granted (s : State) (c x : Nat) (f : Ctx → Ctx) : (s.modCtx c x f).granted = s.granted := rfl
@[simp] theorem State.modCtx_queues (s : State) (c x : Nat) (f : Ctx → Ctx) : (s.modCtx c x f).queues = s.queues := rfl
@[simp] theorem State.modCtx_offers (s : State) (c x : Nat) (f : Ctx → Ctx) : (s.modCtx c x f).offers = s.offers := rfl
@[simp] theorem State.modCtx_overflow (s : State) (c x : Nat) (f : Ctx → Ctx) : (s.modCtx c x f).overflow = s.overflow := rfl
@[simp] theorem State.modCtx_evlog (s : State) (c x : Nat) (f : Ctx → Ctx) : (s.modCtx c x f).evlog = s.evlog := rfl
@[simp] theorem State.modCtx_evwidx (s : State) (c x : Nat) (f : Ctx → Ctx) : (s.modCtx c x f).evwidx = s.evwidx := rfl
@[simp] theorem State.modCtx_evridx (s : State) (c x : Nat) (f : Ctx → Ctx) : (s.modCtx c x f).evridx = s.evridx := rfl
@[simp] theorem State.modCtx_evdrop (s : State) (c x : Nat) (f : Ctx → Ctx) : (s.modCtx c x f).evdrop = s.evdrop := rfl
@[simp] theorem State.modCtx_pool (s : State) (c x : Nat) (f : Ctx → Ctx) : (s.modCtx c x f).pool = s.pool := rfl
@[simp] theorem State.modCtx_nextOrder (s : State) (c x : Nat) (f : Ctx → Ctx) : (s.modCtx c x f).nextOrder = s.nextOrder := rfl
@[simp] theorem State.modCtx_launches (s : State) (c x : Nat) (f : Ctx → Ctx) : (s.modCtx c x f).launches = s.launches := rfl
@[simp] theorem State.modCtx_nextLaunch (s : State) (c x : Nat) (f : Ctx → Ctx) : (s.modCtx c x f).nextLaunch = s.nextLaunch := rfl
@[simp] theorem State.modCtx_gangs (s : State) (c x : Nat) (f : Ctx → Ctx) : (s.modCtx c x f).gangs = s.gangs := rfl
@[simp] theorem State.modCtx_nextGang (s : State) (c x : Nat) (f : Ctx → Ctx) : (s.modCtx c x f).nextGang = s.nextGang := rfl
@[simp] theorem State.modCtx_consWait (s : State) (c x : Nat) (f : Ctx → Ctx) : (s.modCtx c x f).consWait = s.consWait := rfl
@[simp] theorem State.modCtx_arrivals (s : State) (c x : Nat) (f : Ctx → Ctx) : (s.modCtx c x f).arrivals = s.arrivals := rfl
@[simp] theorem State.modCtx_seen (s : State) (c x : Nat) (f : Ctx → Ctx) : (s.modCtx c x f).seen = s.seen := rfl
@[simp] theorem State.modCtx_node (s : State) (c x : Nat) (f : Ctx → Ctx) : (s.modCtx c x f).node = s.node := rfl
@[simp] theorem State.modCtx_links (s : State) (c x : Nat) (f : Ctx → Ctx) : (s.modCtx c x f).links = s.links := rfl
@[simp] theorem State.modCtx_jobs (s : State) (c x : Nat) (f : Ctx → Ctx) : (s.modCtx c x f).jobs = s.jobs := rfl
@[simp] theorem State.modCtx_cleared (s : State) (c x : Nat) (f : Ctx → Ctx) : (s.modCtx c x f).cleared = s.cleared := rfl
@[simp] theorem State.modCtx_goneJobs (s : State) (c x : Nat) (f : Ctx → Ctx) : (s.modCtx c x f).goneJobs = s.goneJobs := rfl
@[simp] theorem State.modCtx_windows (s : State) (c x : Nat) (f : Ctx → Ctx) : (s.modCtx c x f).windows = s.windows := rfl
@[simp] theorem State.modCtx_packets (s : State) (c x : Nat) (f : Ctx → Ctx) : (s.modCtx c x f).packets = s.packets := rfl
@[simp] theorem State.modCtx_nextPacket (s : State) (c x : Nat) (f : Ctx → Ctx) : (s.modCtx c x f).nextPacket = s.nextPacket := rfl
@[simp] theorem State.modCtx_gates (s : State) (c x : Nat) (f : Ctx → Ctx) : (s.modCtx c x f).gates = s.gates := rfl
@[simp] theorem State.modCtx_nextGate (s : State) (c x : Nat) (f : Ctx → Ctx) : (s.modCtx c x f).nextGate = s.nextGate := rfl
@[simp] theorem State.modCtx_nextWrite (s : State) (c x : Nat) (f : Ctx → Ctx) : (s.modCtx c x f).nextWrite = s.nextWrite := rfl
@[simp] theorem State.modCtx_mb1 (s : State) (c x : Nat) (f : Ctx → Ctx) : (s.modCtx c x f).mb1 = s.mb1 := rfl
@[simp] theorem State.modCtx_mb2 (s : State) (c x : Nat) (f : Ctx → Ctx) : (s.modCtx c x f).mb2 = s.mb2 := rfl
@[simp] theorem State.modCtx_mb3 (s : State) (c x : Nat) (f : Ctx → Ctx) : (s.modCtx c x f).mb3 = s.mb3 := rfl
@[simp] theorem State.modCtx_mb4 (s : State) (c x : Nat) (f : Ctx → Ctx) : (s.modCtx c x f).mb4 = s.mb4 := rfl
@[simp] theorem State.modCtx_dbg (s : State) (c x : Nat) (f : Ctx → Ctx) : (s.modCtx c x f).dbg = s.dbg := rfl
@[simp] theorem State.modCtx_debugPort (s : State) (c x : Nat) (f : Ctx → Ctx) : (s.modCtx c x f).debugPort = s.debugPort := rfl
@[simp] theorem State.modCtx_nonce (s : State) (c x : Nat) (f : Ctx → Ctx) : (s.modCtx c x f).nonce = s.nonce := rfl
@[simp] theorem State.modCtx_draws (s : State) (c x : Nat) (f : Ctx → Ctx) : (s.modCtx c x f).draws = s.draws := rfl
@[simp] theorem State.modCtx_regq (s : State) (c x : Nat) (f : Ctx → Ctx) : (s.modCtx c x f).regq = s.regq := rfl
@[simp] theorem State.modCtx_asks (s : State) (c x : Nat) (f : Ctx → Ctx) : (s.modCtx c x f).asks = s.asks := rfl
@[simp] theorem State.modCtx_sessions (s : State) (c x : Nat) (f : Ctx → Ctx) : (s.modCtx c x f).sessions = s.sessions := rfl
@[simp] theorem State.modCtx_spdmOut (s : State) (c x : Nat) (f : Ctx → Ctx) : (s.modCtx c x f).spdmOut = s.spdmOut := rfl
@[simp] theorem State.modCtx_tdis (s : State) (c x : Nat) (f : Ctx → Ctx) : (s.modCtx c x f).tdis = s.tdis := rfl
@[simp] theorem State.modCtx_watch (s : State) (c x : Nat) (f : Ctx → Ctx) : (s.modCtx c x f).watch = s.watch := rfl
@[simp] theorem State.modCtx_bootStep (s : State) (c x : Nat) (f : Ctx → Ctx) : (s.modCtx c x f).bootStep = s.bootStep := rfl
@[simp] theorem State.modCtx_ready (s : State) (c x : Nat) (f : Ctx → Ctx) : (s.modCtx c x f).ready = s.ready := rfl
@[simp] theorem State.modCtx_refusedFw (s : State) (c x : Nat) (f : Ctx → Ctx) : (s.modCtx c x f).refusedFw = s.refusedFw := rfl
@[simp] theorem State.modCtx_regionMiB (s : State) (c x : Nat) (f : Ctx → Ctx) : (s.modCtx c x f).regionMiB = s.regionMiB := rfl
@[simp] theorem State.modCtx_sv (s : State) (c x : Nat) (f : Ctx → Ctx) : (s.modCtx c x f).sv = s.sv := rfl
@[simp] theorem State.modCtx_pcap (s : State) (c x : Nat) (f : Ctx → Ctx) : (s.modCtx c x f).pcap = s.pcap := rfl
@[simp] theorem State.modCtx_pcapNow (s : State) (c x : Nat) (f : Ctx → Ctx) : (s.modCtx c x f).pcapNow = s.pcapNow := rfl
@[simp] theorem State.modCtx_clk (s : State) (c x : Nat) (f : Ctx → Ctx) : (s.modCtx c x f).clk = s.clk := rfl
@[simp] theorem State.modCtx_clkSteps (s : State) (c x : Nat) (f : Ctx → Ctx) : (s.modCtx c x f).clkSteps = s.clkSteps := rfl
@[simp] theorem State.modCtx_stepped (s : State) (c x : Nat) (f : Ctx → Ctx) : (s.modCtx c x f).stepped = s.stepped := rfl
@[simp] theorem State.modCtx_draw (s : State) (c x : Nat) (f : Ctx → Ctx) : (s.modCtx c x f).draw = s.draw := rfl
@[simp] theorem State.modCtx_tj (s : State) (c x : Nat) (f : Ctx → Ctx) : (s.modCtx c x f).tj = s.tj := rfl
@[simp] theorem State.modCtx_throt (s : State) (c x : Nat) (f : Ctx → Ctx) : (s.modCtx c x f).throt = s.throt := rfl
@[simp] theorem State.modCtx_okWindows (s : State) (c x : Nat) (f : Ctx → Ctx) : (s.modCtx c x f).okWindows = s.okWindows := rfl
@[simp] theorem State.modCtx_power (s : State) (c x : Nat) (f : Ctx → Ctx) : (s.modCtx c x f).power = s.power := rfl
@[simp] theorem State.modCtx_lastRead (s : State) (c x : Nat) (f : Ctx → Ctx) : (s.modCtx c x f).lastRead = s.lastRead := rfl
@[simp] theorem State.modCtx_unsupported (s : State) (c x : Nat) (f : Ctx → Ctx) : (s.modCtx c x f).unsupported = s.unsupported := rfl
@[simp] theorem State.modCtx_msix (s : State) (c x : Nat) (f : Ctx → Ctx) : (s.modCtx c x f).msix = s.msix := rfl

-- modCur
@[simp] theorem State.modCur_caps (s : State) (f : Ctx → Ctx) : (s.modCur f).caps = s.caps := rfl
@[simp] theorem State.modCur_cyc (s : State) (f : Ctx → Ctx) : (s.modCur f).cyc = s.cyc := rfl
@[simp] theorem State.modCur_arrs (s : State) (f : Ctx → Ctx) : (s.modCur f).arrs = s.arrs := rfl
@[simp] theorem State.modCur_dies (s : State) (f : Ctx → Ctx) : (s.modCur f).dies = s.dies := rfl
@[simp] theorem State.modCur_clusters (s : State) (f : Ctx → Ctx) : (s.modCur f).clusters = s.clusters := rfl
@[simp] theorem State.modCur_hbm (s : State) (f : Ctx → Ctx) : (s.modCur f).hbm = s.hbm := rfl
@[simp] theorem State.modCur_sealed (s : State) (f : Ctx → Ctx) : (s.modCur f).sealed = s.sealed := rfl
@[simp] theorem State.modCur_wcounts (s : State) (f : Ctx → Ctx) : (s.modCur f).wcounts = s.wcounts := rfl
@[simp] theorem State.modCur_tags (s : State) (f : Ctx → Ctx) : (s.modCur f).tags = s.tags := rfl
@[simp] theorem State.modCur_badTag (s : State) (f : Ctx → Ctx) : (s.modCur f).badTag = s.badTag := rfl
@[simp] theorem State.modCur_worlds (s : State) (f : Ctx → Ctx) : (s.modCur f).worlds = s.worlds := rfl
@[simp] theorem State.modCur_inbox (s : State) (f : Ctx → Ctx) : (s.modCur f).inbox = s.inbox := rfl
@[simp] theorem State.modCur_turn (s : State) (f : Ctx → Ctx) : (s.modCur f).turn = s.turn := rfl
@[simp] theorem State.modCur_picks (s : State) (f : Ctx → Ctx) : (s.modCur f).picks = s.picks := rfl
@[simp] theorem State.modCur_boots (s : State) (f : Ctx → Ctx) : (s.modCur f).boots = s.boots := rfl
@[simp] theorem State.modCur_iss (s : State) (f : Ctx → Ctx) : (s.modCur f).iss = s.iss := rfl
@[simp] theorem State.modCur_paths (s : State) (f : Ctx → Ctx) : (s.modCur f).paths = s.paths := rfl
@[simp] theorem State.modCur_granted (s : State) (f : Ctx → Ctx) : (s.modCur f).granted = s.granted := rfl
@[simp] theorem State.modCur_queues (s : State) (f : Ctx → Ctx) : (s.modCur f).queues = s.queues := rfl
@[simp] theorem State.modCur_offers (s : State) (f : Ctx → Ctx) : (s.modCur f).offers = s.offers := rfl
@[simp] theorem State.modCur_overflow (s : State) (f : Ctx → Ctx) : (s.modCur f).overflow = s.overflow := rfl
@[simp] theorem State.modCur_evlog (s : State) (f : Ctx → Ctx) : (s.modCur f).evlog = s.evlog := rfl
@[simp] theorem State.modCur_evwidx (s : State) (f : Ctx → Ctx) : (s.modCur f).evwidx = s.evwidx := rfl
@[simp] theorem State.modCur_evridx (s : State) (f : Ctx → Ctx) : (s.modCur f).evridx = s.evridx := rfl
@[simp] theorem State.modCur_evdrop (s : State) (f : Ctx → Ctx) : (s.modCur f).evdrop = s.evdrop := rfl
@[simp] theorem State.modCur_pool (s : State) (f : Ctx → Ctx) : (s.modCur f).pool = s.pool := rfl
@[simp] theorem State.modCur_nextOrder (s : State) (f : Ctx → Ctx) : (s.modCur f).nextOrder = s.nextOrder := rfl
@[simp] theorem State.modCur_launches (s : State) (f : Ctx → Ctx) : (s.modCur f).launches = s.launches := rfl
@[simp] theorem State.modCur_nextLaunch (s : State) (f : Ctx → Ctx) : (s.modCur f).nextLaunch = s.nextLaunch := rfl
@[simp] theorem State.modCur_gangs (s : State) (f : Ctx → Ctx) : (s.modCur f).gangs = s.gangs := rfl
@[simp] theorem State.modCur_nextGang (s : State) (f : Ctx → Ctx) : (s.modCur f).nextGang = s.nextGang := rfl
@[simp] theorem State.modCur_consWait (s : State) (f : Ctx → Ctx) : (s.modCur f).consWait = s.consWait := rfl
@[simp] theorem State.modCur_arrivals (s : State) (f : Ctx → Ctx) : (s.modCur f).arrivals = s.arrivals := rfl
@[simp] theorem State.modCur_seen (s : State) (f : Ctx → Ctx) : (s.modCur f).seen = s.seen := rfl
@[simp] theorem State.modCur_node (s : State) (f : Ctx → Ctx) : (s.modCur f).node = s.node := rfl
@[simp] theorem State.modCur_links (s : State) (f : Ctx → Ctx) : (s.modCur f).links = s.links := rfl
@[simp] theorem State.modCur_jobs (s : State) (f : Ctx → Ctx) : (s.modCur f).jobs = s.jobs := rfl
@[simp] theorem State.modCur_cleared (s : State) (f : Ctx → Ctx) : (s.modCur f).cleared = s.cleared := rfl
@[simp] theorem State.modCur_goneJobs (s : State) (f : Ctx → Ctx) : (s.modCur f).goneJobs = s.goneJobs := rfl
@[simp] theorem State.modCur_windows (s : State) (f : Ctx → Ctx) : (s.modCur f).windows = s.windows := rfl
@[simp] theorem State.modCur_packets (s : State) (f : Ctx → Ctx) : (s.modCur f).packets = s.packets := rfl
@[simp] theorem State.modCur_nextPacket (s : State) (f : Ctx → Ctx) : (s.modCur f).nextPacket = s.nextPacket := rfl
@[simp] theorem State.modCur_gates (s : State) (f : Ctx → Ctx) : (s.modCur f).gates = s.gates := rfl
@[simp] theorem State.modCur_nextGate (s : State) (f : Ctx → Ctx) : (s.modCur f).nextGate = s.nextGate := rfl
@[simp] theorem State.modCur_nextWrite (s : State) (f : Ctx → Ctx) : (s.modCur f).nextWrite = s.nextWrite := rfl
@[simp] theorem State.modCur_mb1 (s : State) (f : Ctx → Ctx) : (s.modCur f).mb1 = s.mb1 := rfl
@[simp] theorem State.modCur_mb2 (s : State) (f : Ctx → Ctx) : (s.modCur f).mb2 = s.mb2 := rfl
@[simp] theorem State.modCur_mb3 (s : State) (f : Ctx → Ctx) : (s.modCur f).mb3 = s.mb3 := rfl
@[simp] theorem State.modCur_mb4 (s : State) (f : Ctx → Ctx) : (s.modCur f).mb4 = s.mb4 := rfl
@[simp] theorem State.modCur_dbg (s : State) (f : Ctx → Ctx) : (s.modCur f).dbg = s.dbg := rfl
@[simp] theorem State.modCur_debugPort (s : State) (f : Ctx → Ctx) : (s.modCur f).debugPort = s.debugPort := rfl
@[simp] theorem State.modCur_nonce (s : State) (f : Ctx → Ctx) : (s.modCur f).nonce = s.nonce := rfl
@[simp] theorem State.modCur_draws (s : State) (f : Ctx → Ctx) : (s.modCur f).draws = s.draws := rfl
@[simp] theorem State.modCur_regq (s : State) (f : Ctx → Ctx) : (s.modCur f).regq = s.regq := rfl
@[simp] theorem State.modCur_asks (s : State) (f : Ctx → Ctx) : (s.modCur f).asks = s.asks := rfl
@[simp] theorem State.modCur_sessions (s : State) (f : Ctx → Ctx) : (s.modCur f).sessions = s.sessions := rfl
@[simp] theorem State.modCur_spdmOut (s : State) (f : Ctx → Ctx) : (s.modCur f).spdmOut = s.spdmOut := rfl
@[simp] theorem State.modCur_tdis (s : State) (f : Ctx → Ctx) : (s.modCur f).tdis = s.tdis := rfl
@[simp] theorem State.modCur_watch (s : State) (f : Ctx → Ctx) : (s.modCur f).watch = s.watch := rfl
@[simp] theorem State.modCur_bootStep (s : State) (f : Ctx → Ctx) : (s.modCur f).bootStep = s.bootStep := rfl
@[simp] theorem State.modCur_ready (s : State) (f : Ctx → Ctx) : (s.modCur f).ready = s.ready := rfl
@[simp] theorem State.modCur_refusedFw (s : State) (f : Ctx → Ctx) : (s.modCur f).refusedFw = s.refusedFw := rfl
@[simp] theorem State.modCur_regionMiB (s : State) (f : Ctx → Ctx) : (s.modCur f).regionMiB = s.regionMiB := rfl
@[simp] theorem State.modCur_sv (s : State) (f : Ctx → Ctx) : (s.modCur f).sv = s.sv := rfl
@[simp] theorem State.modCur_pcap (s : State) (f : Ctx → Ctx) : (s.modCur f).pcap = s.pcap := rfl
@[simp] theorem State.modCur_pcapNow (s : State) (f : Ctx → Ctx) : (s.modCur f).pcapNow = s.pcapNow := rfl
@[simp] theorem State.modCur_clk (s : State) (f : Ctx → Ctx) : (s.modCur f).clk = s.clk := rfl
@[simp] theorem State.modCur_clkSteps (s : State) (f : Ctx → Ctx) : (s.modCur f).clkSteps = s.clkSteps := rfl
@[simp] theorem State.modCur_stepped (s : State) (f : Ctx → Ctx) : (s.modCur f).stepped = s.stepped := rfl
@[simp] theorem State.modCur_draw (s : State) (f : Ctx → Ctx) : (s.modCur f).draw = s.draw := rfl
@[simp] theorem State.modCur_tj (s : State) (f : Ctx → Ctx) : (s.modCur f).tj = s.tj := rfl
@[simp] theorem State.modCur_throt (s : State) (f : Ctx → Ctx) : (s.modCur f).throt = s.throt := rfl
@[simp] theorem State.modCur_okWindows (s : State) (f : Ctx → Ctx) : (s.modCur f).okWindows = s.okWindows := rfl
@[simp] theorem State.modCur_power (s : State) (f : Ctx → Ctx) : (s.modCur f).power = s.power := rfl
@[simp] theorem State.modCur_lastRead (s : State) (f : Ctx → Ctx) : (s.modCur f).lastRead = s.lastRead := rfl
@[simp] theorem State.modCur_unsupported (s : State) (f : Ctx → Ctx) : (s.modCur f).unsupported = s.unsupported := rfl
@[simp] theorem State.modCur_msix (s : State) (f : Ctx → Ctx) : (s.modCur f).msix = s.msix := rfl

-- later
@[simp] theorem State.later_caps (s : State) (n : Nat) (q : Causes) (e : Eff) : (s.later n q e).caps = s.caps := rfl
@[simp] theorem State.later_cyc (s : State) (n : Nat) (q : Causes) (e : Eff) : (s.later n q e).cyc = s.cyc := rfl
@[simp] theorem State.later_arrs (s : State) (n : Nat) (q : Causes) (e : Eff) : (s.later n q e).arrs = s.arrs := rfl
@[simp] theorem State.later_dies (s : State) (n : Nat) (q : Causes) (e : Eff) : (s.later n q e).dies = s.dies := rfl
@[simp] theorem State.later_clusters (s : State) (n : Nat) (q : Causes) (e : Eff) : (s.later n q e).clusters = s.clusters := rfl
@[simp] theorem State.later_hbm (s : State) (n : Nat) (q : Causes) (e : Eff) : (s.later n q e).hbm = s.hbm := rfl
@[simp] theorem State.later_sealed (s : State) (n : Nat) (q : Causes) (e : Eff) : (s.later n q e).sealed = s.sealed := rfl
@[simp] theorem State.later_wcounts (s : State) (n : Nat) (q : Causes) (e : Eff) : (s.later n q e).wcounts = s.wcounts := rfl
@[simp] theorem State.later_tags (s : State) (n : Nat) (q : Causes) (e : Eff) : (s.later n q e).tags = s.tags := rfl
@[simp] theorem State.later_badTag (s : State) (n : Nat) (q : Causes) (e : Eff) : (s.later n q e).badTag = s.badTag := rfl
@[simp] theorem State.later_worlds (s : State) (n : Nat) (q : Causes) (e : Eff) : (s.later n q e).worlds = s.worlds := rfl
@[simp] theorem State.later_inbox (s : State) (n : Nat) (q : Causes) (e : Eff) : (s.later n q e).inbox = s.inbox := rfl
@[simp] theorem State.later_turn (s : State) (n : Nat) (q : Causes) (e : Eff) : (s.later n q e).turn = s.turn := rfl
@[simp] theorem State.later_picks (s : State) (n : Nat) (q : Causes) (e : Eff) : (s.later n q e).picks = s.picks := rfl
@[simp] theorem State.later_boots (s : State) (n : Nat) (q : Causes) (e : Eff) : (s.later n q e).boots = s.boots := rfl
@[simp] theorem State.later_iss (s : State) (n : Nat) (q : Causes) (e : Eff) : (s.later n q e).iss = s.iss := rfl
@[simp] theorem State.later_paths (s : State) (n : Nat) (q : Causes) (e : Eff) : (s.later n q e).paths = s.paths := rfl
@[simp] theorem State.later_granted (s : State) (n : Nat) (q : Causes) (e : Eff) : (s.later n q e).granted = s.granted := rfl
@[simp] theorem State.later_queues (s : State) (n : Nat) (q : Causes) (e : Eff) : (s.later n q e).queues = s.queues := rfl
@[simp] theorem State.later_offers (s : State) (n : Nat) (q : Causes) (e : Eff) : (s.later n q e).offers = s.offers := rfl
@[simp] theorem State.later_overflow (s : State) (n : Nat) (q : Causes) (e : Eff) : (s.later n q e).overflow = s.overflow := rfl
@[simp] theorem State.later_evlog (s : State) (n : Nat) (q : Causes) (e : Eff) : (s.later n q e).evlog = s.evlog := rfl
@[simp] theorem State.later_evwidx (s : State) (n : Nat) (q : Causes) (e : Eff) : (s.later n q e).evwidx = s.evwidx := rfl
@[simp] theorem State.later_evridx (s : State) (n : Nat) (q : Causes) (e : Eff) : (s.later n q e).evridx = s.evridx := rfl
@[simp] theorem State.later_evdrop (s : State) (n : Nat) (q : Causes) (e : Eff) : (s.later n q e).evdrop = s.evdrop := rfl
@[simp] theorem State.later_pool (s : State) (n : Nat) (q : Causes) (e : Eff) : (s.later n q e).pool = s.pool := rfl
@[simp] theorem State.later_nextOrder (s : State) (n : Nat) (q : Causes) (e : Eff) : (s.later n q e).nextOrder = s.nextOrder := rfl
@[simp] theorem State.later_launches (s : State) (n : Nat) (q : Causes) (e : Eff) : (s.later n q e).launches = s.launches := rfl
@[simp] theorem State.later_nextLaunch (s : State) (n : Nat) (q : Causes) (e : Eff) : (s.later n q e).nextLaunch = s.nextLaunch := rfl
@[simp] theorem State.later_gangs (s : State) (n : Nat) (q : Causes) (e : Eff) : (s.later n q e).gangs = s.gangs := rfl
@[simp] theorem State.later_nextGang (s : State) (n : Nat) (q : Causes) (e : Eff) : (s.later n q e).nextGang = s.nextGang := rfl
@[simp] theorem State.later_consWait (s : State) (n : Nat) (q : Causes) (e : Eff) : (s.later n q e).consWait = s.consWait := rfl
@[simp] theorem State.later_arrivals (s : State) (n : Nat) (q : Causes) (e : Eff) : (s.later n q e).arrivals = s.arrivals := rfl
@[simp] theorem State.later_seen (s : State) (n : Nat) (q : Causes) (e : Eff) : (s.later n q e).seen = s.seen := rfl
@[simp] theorem State.later_node (s : State) (n : Nat) (q : Causes) (e : Eff) : (s.later n q e).node = s.node := rfl
@[simp] theorem State.later_links (s : State) (n : Nat) (q : Causes) (e : Eff) : (s.later n q e).links = s.links := rfl
@[simp] theorem State.later_jobs (s : State) (n : Nat) (q : Causes) (e : Eff) : (s.later n q e).jobs = s.jobs := rfl
@[simp] theorem State.later_cleared (s : State) (n : Nat) (q : Causes) (e : Eff) : (s.later n q e).cleared = s.cleared := rfl
@[simp] theorem State.later_goneJobs (s : State) (n : Nat) (q : Causes) (e : Eff) : (s.later n q e).goneJobs = s.goneJobs := rfl
@[simp] theorem State.later_windows (s : State) (n : Nat) (q : Causes) (e : Eff) : (s.later n q e).windows = s.windows := rfl
@[simp] theorem State.later_packets (s : State) (n : Nat) (q : Causes) (e : Eff) : (s.later n q e).packets = s.packets := rfl
@[simp] theorem State.later_nextPacket (s : State) (n : Nat) (q : Causes) (e : Eff) : (s.later n q e).nextPacket = s.nextPacket := rfl
@[simp] theorem State.later_gates (s : State) (n : Nat) (q : Causes) (e : Eff) : (s.later n q e).gates = s.gates := rfl
@[simp] theorem State.later_nextGate (s : State) (n : Nat) (q : Causes) (e : Eff) : (s.later n q e).nextGate = s.nextGate := rfl
@[simp] theorem State.later_nextWrite (s : State) (n : Nat) (q : Causes) (e : Eff) : (s.later n q e).nextWrite = s.nextWrite := rfl
@[simp] theorem State.later_mb1 (s : State) (n : Nat) (q : Causes) (e : Eff) : (s.later n q e).mb1 = s.mb1 := rfl
@[simp] theorem State.later_mb2 (s : State) (n : Nat) (q : Causes) (e : Eff) : (s.later n q e).mb2 = s.mb2 := rfl
@[simp] theorem State.later_mb3 (s : State) (n : Nat) (q : Causes) (e : Eff) : (s.later n q e).mb3 = s.mb3 := rfl
@[simp] theorem State.later_mb4 (s : State) (n : Nat) (q : Causes) (e : Eff) : (s.later n q e).mb4 = s.mb4 := rfl
@[simp] theorem State.later_dbg (s : State) (n : Nat) (q : Causes) (e : Eff) : (s.later n q e).dbg = s.dbg := rfl
@[simp] theorem State.later_debugPort (s : State) (n : Nat) (q : Causes) (e : Eff) : (s.later n q e).debugPort = s.debugPort := rfl
@[simp] theorem State.later_nonce (s : State) (n : Nat) (q : Causes) (e : Eff) : (s.later n q e).nonce = s.nonce := rfl
@[simp] theorem State.later_draws (s : State) (n : Nat) (q : Causes) (e : Eff) : (s.later n q e).draws = s.draws := rfl
@[simp] theorem State.later_regq (s : State) (n : Nat) (q : Causes) (e : Eff) : (s.later n q e).regq = s.regq := rfl
@[simp] theorem State.later_asks (s : State) (n : Nat) (q : Causes) (e : Eff) : (s.later n q e).asks = s.asks := rfl
@[simp] theorem State.later_sessions (s : State) (n : Nat) (q : Causes) (e : Eff) : (s.later n q e).sessions = s.sessions := rfl
@[simp] theorem State.later_spdmOut (s : State) (n : Nat) (q : Causes) (e : Eff) : (s.later n q e).spdmOut = s.spdmOut := rfl
@[simp] theorem State.later_tdis (s : State) (n : Nat) (q : Causes) (e : Eff) : (s.later n q e).tdis = s.tdis := rfl
@[simp] theorem State.later_watch (s : State) (n : Nat) (q : Causes) (e : Eff) : (s.later n q e).watch = s.watch := rfl
@[simp] theorem State.later_bootStep (s : State) (n : Nat) (q : Causes) (e : Eff) : (s.later n q e).bootStep = s.bootStep := rfl
@[simp] theorem State.later_ready (s : State) (n : Nat) (q : Causes) (e : Eff) : (s.later n q e).ready = s.ready := rfl
@[simp] theorem State.later_refusedFw (s : State) (n : Nat) (q : Causes) (e : Eff) : (s.later n q e).refusedFw = s.refusedFw := rfl
@[simp] theorem State.later_regionMiB (s : State) (n : Nat) (q : Causes) (e : Eff) : (s.later n q e).regionMiB = s.regionMiB := rfl
@[simp] theorem State.later_sv (s : State) (n : Nat) (q : Causes) (e : Eff) : (s.later n q e).sv = s.sv := rfl
@[simp] theorem State.later_pcap (s : State) (n : Nat) (q : Causes) (e : Eff) : (s.later n q e).pcap = s.pcap := rfl
@[simp] theorem State.later_pcapNow (s : State) (n : Nat) (q : Causes) (e : Eff) : (s.later n q e).pcapNow = s.pcapNow := rfl
@[simp] theorem State.later_clk (s : State) (n : Nat) (q : Causes) (e : Eff) : (s.later n q e).clk = s.clk := rfl
@[simp] theorem State.later_clkSteps (s : State) (n : Nat) (q : Causes) (e : Eff) : (s.later n q e).clkSteps = s.clkSteps := rfl
@[simp] theorem State.later_stepped (s : State) (n : Nat) (q : Causes) (e : Eff) : (s.later n q e).stepped = s.stepped := rfl
@[simp] theorem State.later_draw (s : State) (n : Nat) (q : Causes) (e : Eff) : (s.later n q e).draw = s.draw := rfl
@[simp] theorem State.later_tj (s : State) (n : Nat) (q : Causes) (e : Eff) : (s.later n q e).tj = s.tj := rfl
@[simp] theorem State.later_throt (s : State) (n : Nat) (q : Causes) (e : Eff) : (s.later n q e).throt = s.throt := rfl
@[simp] theorem State.later_okWindows (s : State) (n : Nat) (q : Causes) (e : Eff) : (s.later n q e).okWindows = s.okWindows := rfl
@[simp] theorem State.later_power (s : State) (n : Nat) (q : Causes) (e : Eff) : (s.later n q e).power = s.power := rfl
@[simp] theorem State.later_lastRead (s : State) (n : Nat) (q : Causes) (e : Eff) : (s.later n q e).lastRead = s.lastRead := rfl
@[simp] theorem State.later_unsupported (s : State) (n : Nat) (q : Causes) (e : Eff) : (s.later n q e).unsupported = s.unsupported := rfl
@[simp] theorem State.later_msix (s : State) (n : Nat) (q : Causes) (e : Eff) : (s.later n q e).msix = s.msix := rfl

-- modArr
@[simp] theorem State.modArr_caps (s : State) (p : Nat) (f : Arr → Arr) : (s.modArr p f).caps = s.caps := rfl
@[simp] theorem State.modArr_cyc (s : State) (p : Nat) (f : Arr → Arr) : (s.modArr p f).cyc = s.cyc := rfl
@[simp] theorem State.modArr_cores (s : State) (p : Nat) (f : Arr → Arr) : (s.modArr p f).cores = s.cores := rfl
@[simp] theorem State.modArr_dies (s : State) (p : Nat) (f : Arr → Arr) : (s.modArr p f).dies = s.dies := rfl
@[simp] theorem State.modArr_clusters (s : State) (p : Nat) (f : Arr → Arr) : (s.modArr p f).clusters = s.clusters := rfl
@[simp] theorem State.modArr_hbm (s : State) (p : Nat) (f : Arr → Arr) : (s.modArr p f).hbm = s.hbm := rfl
@[simp] theorem State.modArr_sealed (s : State) (p : Nat) (f : Arr → Arr) : (s.modArr p f).sealed = s.sealed := rfl
@[simp] theorem State.modArr_wcounts (s : State) (p : Nat) (f : Arr → Arr) : (s.modArr p f).wcounts = s.wcounts := rfl
@[simp] theorem State.modArr_tags (s : State) (p : Nat) (f : Arr → Arr) : (s.modArr p f).tags = s.tags := rfl
@[simp] theorem State.modArr_badTag (s : State) (p : Nat) (f : Arr → Arr) : (s.modArr p f).badTag = s.badTag := rfl
@[simp] theorem State.modArr_worlds (s : State) (p : Nat) (f : Arr → Arr) : (s.modArr p f).worlds = s.worlds := rfl
@[simp] theorem State.modArr_inbox (s : State) (p : Nat) (f : Arr → Arr) : (s.modArr p f).inbox = s.inbox := rfl
@[simp] theorem State.modArr_turn (s : State) (p : Nat) (f : Arr → Arr) : (s.modArr p f).turn = s.turn := rfl
@[simp] theorem State.modArr_picks (s : State) (p : Nat) (f : Arr → Arr) : (s.modArr p f).picks = s.picks := rfl
@[simp] theorem State.modArr_boots (s : State) (p : Nat) (f : Arr → Arr) : (s.modArr p f).boots = s.boots := rfl
@[simp] theorem State.modArr_iss (s : State) (p : Nat) (f : Arr → Arr) : (s.modArr p f).iss = s.iss := rfl
@[simp] theorem State.modArr_paths (s : State) (p : Nat) (f : Arr → Arr) : (s.modArr p f).paths = s.paths := rfl
@[simp] theorem State.modArr_granted (s : State) (p : Nat) (f : Arr → Arr) : (s.modArr p f).granted = s.granted := rfl
@[simp] theorem State.modArr_queues (s : State) (p : Nat) (f : Arr → Arr) : (s.modArr p f).queues = s.queues := rfl
@[simp] theorem State.modArr_offers (s : State) (p : Nat) (f : Arr → Arr) : (s.modArr p f).offers = s.offers := rfl
@[simp] theorem State.modArr_overflow (s : State) (p : Nat) (f : Arr → Arr) : (s.modArr p f).overflow = s.overflow := rfl
@[simp] theorem State.modArr_evlog (s : State) (p : Nat) (f : Arr → Arr) : (s.modArr p f).evlog = s.evlog := rfl
@[simp] theorem State.modArr_evwidx (s : State) (p : Nat) (f : Arr → Arr) : (s.modArr p f).evwidx = s.evwidx := rfl
@[simp] theorem State.modArr_evridx (s : State) (p : Nat) (f : Arr → Arr) : (s.modArr p f).evridx = s.evridx := rfl
@[simp] theorem State.modArr_evdrop (s : State) (p : Nat) (f : Arr → Arr) : (s.modArr p f).evdrop = s.evdrop := rfl
@[simp] theorem State.modArr_pool (s : State) (p : Nat) (f : Arr → Arr) : (s.modArr p f).pool = s.pool := rfl
@[simp] theorem State.modArr_nextOrder (s : State) (p : Nat) (f : Arr → Arr) : (s.modArr p f).nextOrder = s.nextOrder := rfl
@[simp] theorem State.modArr_launches (s : State) (p : Nat) (f : Arr → Arr) : (s.modArr p f).launches = s.launches := rfl
@[simp] theorem State.modArr_nextLaunch (s : State) (p : Nat) (f : Arr → Arr) : (s.modArr p f).nextLaunch = s.nextLaunch := rfl
@[simp] theorem State.modArr_gangs (s : State) (p : Nat) (f : Arr → Arr) : (s.modArr p f).gangs = s.gangs := rfl
@[simp] theorem State.modArr_nextGang (s : State) (p : Nat) (f : Arr → Arr) : (s.modArr p f).nextGang = s.nextGang := rfl
@[simp] theorem State.modArr_consWait (s : State) (p : Nat) (f : Arr → Arr) : (s.modArr p f).consWait = s.consWait := rfl
@[simp] theorem State.modArr_arrivals (s : State) (p : Nat) (f : Arr → Arr) : (s.modArr p f).arrivals = s.arrivals := rfl
@[simp] theorem State.modArr_seen (s : State) (p : Nat) (f : Arr → Arr) : (s.modArr p f).seen = s.seen := rfl
@[simp] theorem State.modArr_node (s : State) (p : Nat) (f : Arr → Arr) : (s.modArr p f).node = s.node := rfl
@[simp] theorem State.modArr_links (s : State) (p : Nat) (f : Arr → Arr) : (s.modArr p f).links = s.links := rfl
@[simp] theorem State.modArr_jobs (s : State) (p : Nat) (f : Arr → Arr) : (s.modArr p f).jobs = s.jobs := rfl
@[simp] theorem State.modArr_cleared (s : State) (p : Nat) (f : Arr → Arr) : (s.modArr p f).cleared = s.cleared := rfl
@[simp] theorem State.modArr_goneJobs (s : State) (p : Nat) (f : Arr → Arr) : (s.modArr p f).goneJobs = s.goneJobs := rfl
@[simp] theorem State.modArr_windows (s : State) (p : Nat) (f : Arr → Arr) : (s.modArr p f).windows = s.windows := rfl
@[simp] theorem State.modArr_packets (s : State) (p : Nat) (f : Arr → Arr) : (s.modArr p f).packets = s.packets := rfl
@[simp] theorem State.modArr_nextPacket (s : State) (p : Nat) (f : Arr → Arr) : (s.modArr p f).nextPacket = s.nextPacket := rfl
@[simp] theorem State.modArr_gates (s : State) (p : Nat) (f : Arr → Arr) : (s.modArr p f).gates = s.gates := rfl
@[simp] theorem State.modArr_nextGate (s : State) (p : Nat) (f : Arr → Arr) : (s.modArr p f).nextGate = s.nextGate := rfl
@[simp] theorem State.modArr_nextWrite (s : State) (p : Nat) (f : Arr → Arr) : (s.modArr p f).nextWrite = s.nextWrite := rfl
@[simp] theorem State.modArr_mb1 (s : State) (p : Nat) (f : Arr → Arr) : (s.modArr p f).mb1 = s.mb1 := rfl
@[simp] theorem State.modArr_mb2 (s : State) (p : Nat) (f : Arr → Arr) : (s.modArr p f).mb2 = s.mb2 := rfl
@[simp] theorem State.modArr_mb3 (s : State) (p : Nat) (f : Arr → Arr) : (s.modArr p f).mb3 = s.mb3 := rfl
@[simp] theorem State.modArr_mb4 (s : State) (p : Nat) (f : Arr → Arr) : (s.modArr p f).mb4 = s.mb4 := rfl
@[simp] theorem State.modArr_dbg (s : State) (p : Nat) (f : Arr → Arr) : (s.modArr p f).dbg = s.dbg := rfl
@[simp] theorem State.modArr_debugPort (s : State) (p : Nat) (f : Arr → Arr) : (s.modArr p f).debugPort = s.debugPort := rfl
@[simp] theorem State.modArr_nonce (s : State) (p : Nat) (f : Arr → Arr) : (s.modArr p f).nonce = s.nonce := rfl
@[simp] theorem State.modArr_draws (s : State) (p : Nat) (f : Arr → Arr) : (s.modArr p f).draws = s.draws := rfl
@[simp] theorem State.modArr_regq (s : State) (p : Nat) (f : Arr → Arr) : (s.modArr p f).regq = s.regq := rfl
@[simp] theorem State.modArr_asks (s : State) (p : Nat) (f : Arr → Arr) : (s.modArr p f).asks = s.asks := rfl
@[simp] theorem State.modArr_sessions (s : State) (p : Nat) (f : Arr → Arr) : (s.modArr p f).sessions = s.sessions := rfl
@[simp] theorem State.modArr_spdmOut (s : State) (p : Nat) (f : Arr → Arr) : (s.modArr p f).spdmOut = s.spdmOut := rfl
@[simp] theorem State.modArr_tdis (s : State) (p : Nat) (f : Arr → Arr) : (s.modArr p f).tdis = s.tdis := rfl
@[simp] theorem State.modArr_watch (s : State) (p : Nat) (f : Arr → Arr) : (s.modArr p f).watch = s.watch := rfl
@[simp] theorem State.modArr_bootStep (s : State) (p : Nat) (f : Arr → Arr) : (s.modArr p f).bootStep = s.bootStep := rfl
@[simp] theorem State.modArr_ready (s : State) (p : Nat) (f : Arr → Arr) : (s.modArr p f).ready = s.ready := rfl
@[simp] theorem State.modArr_refusedFw (s : State) (p : Nat) (f : Arr → Arr) : (s.modArr p f).refusedFw = s.refusedFw := rfl
@[simp] theorem State.modArr_regionMiB (s : State) (p : Nat) (f : Arr → Arr) : (s.modArr p f).regionMiB = s.regionMiB := rfl
@[simp] theorem State.modArr_sv (s : State) (p : Nat) (f : Arr → Arr) : (s.modArr p f).sv = s.sv := rfl
@[simp] theorem State.modArr_pcap (s : State) (p : Nat) (f : Arr → Arr) : (s.modArr p f).pcap = s.pcap := rfl
@[simp] theorem State.modArr_pcapNow (s : State) (p : Nat) (f : Arr → Arr) : (s.modArr p f).pcapNow = s.pcapNow := rfl
@[simp] theorem State.modArr_clk (s : State) (p : Nat) (f : Arr → Arr) : (s.modArr p f).clk = s.clk := rfl
@[simp] theorem State.modArr_clkSteps (s : State) (p : Nat) (f : Arr → Arr) : (s.modArr p f).clkSteps = s.clkSteps := rfl
@[simp] theorem State.modArr_stepped (s : State) (p : Nat) (f : Arr → Arr) : (s.modArr p f).stepped = s.stepped := rfl
@[simp] theorem State.modArr_draw (s : State) (p : Nat) (f : Arr → Arr) : (s.modArr p f).draw = s.draw := rfl
@[simp] theorem State.modArr_tj (s : State) (p : Nat) (f : Arr → Arr) : (s.modArr p f).tj = s.tj := rfl
@[simp] theorem State.modArr_throt (s : State) (p : Nat) (f : Arr → Arr) : (s.modArr p f).throt = s.throt := rfl
@[simp] theorem State.modArr_okWindows (s : State) (p : Nat) (f : Arr → Arr) : (s.modArr p f).okWindows = s.okWindows := rfl
@[simp] theorem State.modArr_power (s : State) (p : Nat) (f : Arr → Arr) : (s.modArr p f).power = s.power := rfl
@[simp] theorem State.modArr_lastRead (s : State) (p : Nat) (f : Arr → Arr) : (s.modArr p f).lastRead = s.lastRead := rfl
@[simp] theorem State.modArr_unsupported (s : State) (p : Nat) (f : Arr → Arr) : (s.modArr p f).unsupported = s.unsupported := rfl
@[simp] theorem State.modArr_msix (s : State) (p : Nat) (f : Arr → Arr) : (s.modArr p f).msix = s.msix := rfl

-- modDie
@[simp] theorem State.modDie_caps (s : State) (d : Nat) (f : Die → Die) : (s.modDie d f).caps = s.caps := rfl
@[simp] theorem State.modDie_cyc (s : State) (d : Nat) (f : Die → Die) : (s.modDie d f).cyc = s.cyc := rfl
@[simp] theorem State.modDie_cores (s : State) (d : Nat) (f : Die → Die) : (s.modDie d f).cores = s.cores := rfl
@[simp] theorem State.modDie_arrs (s : State) (d : Nat) (f : Die → Die) : (s.modDie d f).arrs = s.arrs := rfl
@[simp] theorem State.modDie_clusters (s : State) (d : Nat) (f : Die → Die) : (s.modDie d f).clusters = s.clusters := rfl
@[simp] theorem State.modDie_hbm (s : State) (d : Nat) (f : Die → Die) : (s.modDie d f).hbm = s.hbm := rfl
@[simp] theorem State.modDie_sealed (s : State) (d : Nat) (f : Die → Die) : (s.modDie d f).sealed = s.sealed := rfl
@[simp] theorem State.modDie_wcounts (s : State) (d : Nat) (f : Die → Die) : (s.modDie d f).wcounts = s.wcounts := rfl
@[simp] theorem State.modDie_tags (s : State) (d : Nat) (f : Die → Die) : (s.modDie d f).tags = s.tags := rfl
@[simp] theorem State.modDie_badTag (s : State) (d : Nat) (f : Die → Die) : (s.modDie d f).badTag = s.badTag := rfl
@[simp] theorem State.modDie_worlds (s : State) (d : Nat) (f : Die → Die) : (s.modDie d f).worlds = s.worlds := rfl
@[simp] theorem State.modDie_inbox (s : State) (d : Nat) (f : Die → Die) : (s.modDie d f).inbox = s.inbox := rfl
@[simp] theorem State.modDie_turn (s : State) (d : Nat) (f : Die → Die) : (s.modDie d f).turn = s.turn := rfl
@[simp] theorem State.modDie_picks (s : State) (d : Nat) (f : Die → Die) : (s.modDie d f).picks = s.picks := rfl
@[simp] theorem State.modDie_boots (s : State) (d : Nat) (f : Die → Die) : (s.modDie d f).boots = s.boots := rfl
@[simp] theorem State.modDie_iss (s : State) (d : Nat) (f : Die → Die) : (s.modDie d f).iss = s.iss := rfl
@[simp] theorem State.modDie_paths (s : State) (d : Nat) (f : Die → Die) : (s.modDie d f).paths = s.paths := rfl
@[simp] theorem State.modDie_granted (s : State) (d : Nat) (f : Die → Die) : (s.modDie d f).granted = s.granted := rfl
@[simp] theorem State.modDie_queues (s : State) (d : Nat) (f : Die → Die) : (s.modDie d f).queues = s.queues := rfl
@[simp] theorem State.modDie_offers (s : State) (d : Nat) (f : Die → Die) : (s.modDie d f).offers = s.offers := rfl
@[simp] theorem State.modDie_overflow (s : State) (d : Nat) (f : Die → Die) : (s.modDie d f).overflow = s.overflow := rfl
@[simp] theorem State.modDie_evlog (s : State) (d : Nat) (f : Die → Die) : (s.modDie d f).evlog = s.evlog := rfl
@[simp] theorem State.modDie_evwidx (s : State) (d : Nat) (f : Die → Die) : (s.modDie d f).evwidx = s.evwidx := rfl
@[simp] theorem State.modDie_evridx (s : State) (d : Nat) (f : Die → Die) : (s.modDie d f).evridx = s.evridx := rfl
@[simp] theorem State.modDie_evdrop (s : State) (d : Nat) (f : Die → Die) : (s.modDie d f).evdrop = s.evdrop := rfl
@[simp] theorem State.modDie_pool (s : State) (d : Nat) (f : Die → Die) : (s.modDie d f).pool = s.pool := rfl
@[simp] theorem State.modDie_nextOrder (s : State) (d : Nat) (f : Die → Die) : (s.modDie d f).nextOrder = s.nextOrder := rfl
@[simp] theorem State.modDie_launches (s : State) (d : Nat) (f : Die → Die) : (s.modDie d f).launches = s.launches := rfl
@[simp] theorem State.modDie_nextLaunch (s : State) (d : Nat) (f : Die → Die) : (s.modDie d f).nextLaunch = s.nextLaunch := rfl
@[simp] theorem State.modDie_gangs (s : State) (d : Nat) (f : Die → Die) : (s.modDie d f).gangs = s.gangs := rfl
@[simp] theorem State.modDie_nextGang (s : State) (d : Nat) (f : Die → Die) : (s.modDie d f).nextGang = s.nextGang := rfl
@[simp] theorem State.modDie_consWait (s : State) (d : Nat) (f : Die → Die) : (s.modDie d f).consWait = s.consWait := rfl
@[simp] theorem State.modDie_arrivals (s : State) (d : Nat) (f : Die → Die) : (s.modDie d f).arrivals = s.arrivals := rfl
@[simp] theorem State.modDie_seen (s : State) (d : Nat) (f : Die → Die) : (s.modDie d f).seen = s.seen := rfl
@[simp] theorem State.modDie_node (s : State) (d : Nat) (f : Die → Die) : (s.modDie d f).node = s.node := rfl
@[simp] theorem State.modDie_links (s : State) (d : Nat) (f : Die → Die) : (s.modDie d f).links = s.links := rfl
@[simp] theorem State.modDie_jobs (s : State) (d : Nat) (f : Die → Die) : (s.modDie d f).jobs = s.jobs := rfl
@[simp] theorem State.modDie_cleared (s : State) (d : Nat) (f : Die → Die) : (s.modDie d f).cleared = s.cleared := rfl
@[simp] theorem State.modDie_goneJobs (s : State) (d : Nat) (f : Die → Die) : (s.modDie d f).goneJobs = s.goneJobs := rfl
@[simp] theorem State.modDie_windows (s : State) (d : Nat) (f : Die → Die) : (s.modDie d f).windows = s.windows := rfl
@[simp] theorem State.modDie_packets (s : State) (d : Nat) (f : Die → Die) : (s.modDie d f).packets = s.packets := rfl
@[simp] theorem State.modDie_nextPacket (s : State) (d : Nat) (f : Die → Die) : (s.modDie d f).nextPacket = s.nextPacket := rfl
@[simp] theorem State.modDie_gates (s : State) (d : Nat) (f : Die → Die) : (s.modDie d f).gates = s.gates := rfl
@[simp] theorem State.modDie_nextGate (s : State) (d : Nat) (f : Die → Die) : (s.modDie d f).nextGate = s.nextGate := rfl
@[simp] theorem State.modDie_nextWrite (s : State) (d : Nat) (f : Die → Die) : (s.modDie d f).nextWrite = s.nextWrite := rfl
@[simp] theorem State.modDie_mb1 (s : State) (d : Nat) (f : Die → Die) : (s.modDie d f).mb1 = s.mb1 := rfl
@[simp] theorem State.modDie_mb2 (s : State) (d : Nat) (f : Die → Die) : (s.modDie d f).mb2 = s.mb2 := rfl
@[simp] theorem State.modDie_mb3 (s : State) (d : Nat) (f : Die → Die) : (s.modDie d f).mb3 = s.mb3 := rfl
@[simp] theorem State.modDie_mb4 (s : State) (d : Nat) (f : Die → Die) : (s.modDie d f).mb4 = s.mb4 := rfl
@[simp] theorem State.modDie_dbg (s : State) (d : Nat) (f : Die → Die) : (s.modDie d f).dbg = s.dbg := rfl
@[simp] theorem State.modDie_debugPort (s : State) (d : Nat) (f : Die → Die) : (s.modDie d f).debugPort = s.debugPort := rfl
@[simp] theorem State.modDie_nonce (s : State) (d : Nat) (f : Die → Die) : (s.modDie d f).nonce = s.nonce := rfl
@[simp] theorem State.modDie_draws (s : State) (d : Nat) (f : Die → Die) : (s.modDie d f).draws = s.draws := rfl
@[simp] theorem State.modDie_regq (s : State) (d : Nat) (f : Die → Die) : (s.modDie d f).regq = s.regq := rfl
@[simp] theorem State.modDie_asks (s : State) (d : Nat) (f : Die → Die) : (s.modDie d f).asks = s.asks := rfl
@[simp] theorem State.modDie_sessions (s : State) (d : Nat) (f : Die → Die) : (s.modDie d f).sessions = s.sessions := rfl
@[simp] theorem State.modDie_spdmOut (s : State) (d : Nat) (f : Die → Die) : (s.modDie d f).spdmOut = s.spdmOut := rfl
@[simp] theorem State.modDie_tdis (s : State) (d : Nat) (f : Die → Die) : (s.modDie d f).tdis = s.tdis := rfl
@[simp] theorem State.modDie_watch (s : State) (d : Nat) (f : Die → Die) : (s.modDie d f).watch = s.watch := rfl
@[simp] theorem State.modDie_bootStep (s : State) (d : Nat) (f : Die → Die) : (s.modDie d f).bootStep = s.bootStep := rfl
@[simp] theorem State.modDie_ready (s : State) (d : Nat) (f : Die → Die) : (s.modDie d f).ready = s.ready := rfl
@[simp] theorem State.modDie_refusedFw (s : State) (d : Nat) (f : Die → Die) : (s.modDie d f).refusedFw = s.refusedFw := rfl
@[simp] theorem State.modDie_regionMiB (s : State) (d : Nat) (f : Die → Die) : (s.modDie d f).regionMiB = s.regionMiB := rfl
@[simp] theorem State.modDie_sv (s : State) (d : Nat) (f : Die → Die) : (s.modDie d f).sv = s.sv := rfl
@[simp] theorem State.modDie_pcap (s : State) (d : Nat) (f : Die → Die) : (s.modDie d f).pcap = s.pcap := rfl
@[simp] theorem State.modDie_pcapNow (s : State) (d : Nat) (f : Die → Die) : (s.modDie d f).pcapNow = s.pcapNow := rfl
@[simp] theorem State.modDie_clk (s : State) (d : Nat) (f : Die → Die) : (s.modDie d f).clk = s.clk := rfl
@[simp] theorem State.modDie_clkSteps (s : State) (d : Nat) (f : Die → Die) : (s.modDie d f).clkSteps = s.clkSteps := rfl
@[simp] theorem State.modDie_stepped (s : State) (d : Nat) (f : Die → Die) : (s.modDie d f).stepped = s.stepped := rfl
@[simp] theorem State.modDie_draw (s : State) (d : Nat) (f : Die → Die) : (s.modDie d f).draw = s.draw := rfl
@[simp] theorem State.modDie_tj (s : State) (d : Nat) (f : Die → Die) : (s.modDie d f).tj = s.tj := rfl
@[simp] theorem State.modDie_throt (s : State) (d : Nat) (f : Die → Die) : (s.modDie d f).throt = s.throt := rfl
@[simp] theorem State.modDie_okWindows (s : State) (d : Nat) (f : Die → Die) : (s.modDie d f).okWindows = s.okWindows := rfl
@[simp] theorem State.modDie_power (s : State) (d : Nat) (f : Die → Die) : (s.modDie d f).power = s.power := rfl
@[simp] theorem State.modDie_lastRead (s : State) (d : Nat) (f : Die → Die) : (s.modDie d f).lastRead = s.lastRead := rfl
@[simp] theorem State.modDie_unsupported (s : State) (d : Nat) (f : Die → Die) : (s.modDie d f).unsupported = s.unsupported := rfl
@[simp] theorem State.modDie_msix (s : State) (d : Nat) (f : Die → Die) : (s.modDie d f).msix = s.msix := rfl

-- modIss
@[simp] theorem State.modIss_caps (s : State) (f : Iss → Iss) : (s.modIss f).caps = s.caps := rfl
@[simp] theorem State.modIss_cyc (s : State) (f : Iss → Iss) : (s.modIss f).cyc = s.cyc := rfl
@[simp] theorem State.modIss_cores (s : State) (f : Iss → Iss) : (s.modIss f).cores = s.cores := rfl
@[simp] theorem State.modIss_arrs (s : State) (f : Iss → Iss) : (s.modIss f).arrs = s.arrs := rfl
@[simp] theorem State.modIss_dies (s : State) (f : Iss → Iss) : (s.modIss f).dies = s.dies := rfl
@[simp] theorem State.modIss_clusters (s : State) (f : Iss → Iss) : (s.modIss f).clusters = s.clusters := rfl
@[simp] theorem State.modIss_hbm (s : State) (f : Iss → Iss) : (s.modIss f).hbm = s.hbm := rfl
@[simp] theorem State.modIss_sealed (s : State) (f : Iss → Iss) : (s.modIss f).sealed = s.sealed := rfl
@[simp] theorem State.modIss_wcounts (s : State) (f : Iss → Iss) : (s.modIss f).wcounts = s.wcounts := rfl
@[simp] theorem State.modIss_tags (s : State) (f : Iss → Iss) : (s.modIss f).tags = s.tags := rfl
@[simp] theorem State.modIss_badTag (s : State) (f : Iss → Iss) : (s.modIss f).badTag = s.badTag := rfl
@[simp] theorem State.modIss_worlds (s : State) (f : Iss → Iss) : (s.modIss f).worlds = s.worlds := rfl
@[simp] theorem State.modIss_inbox (s : State) (f : Iss → Iss) : (s.modIss f).inbox = s.inbox := rfl
@[simp] theorem State.modIss_turn (s : State) (f : Iss → Iss) : (s.modIss f).turn = s.turn := rfl
@[simp] theorem State.modIss_picks (s : State) (f : Iss → Iss) : (s.modIss f).picks = s.picks := rfl
@[simp] theorem State.modIss_boots (s : State) (f : Iss → Iss) : (s.modIss f).boots = s.boots := rfl
@[simp] theorem State.modIss_paths (s : State) (f : Iss → Iss) : (s.modIss f).paths = s.paths := rfl
@[simp] theorem State.modIss_granted (s : State) (f : Iss → Iss) : (s.modIss f).granted = s.granted := rfl
@[simp] theorem State.modIss_queues (s : State) (f : Iss → Iss) : (s.modIss f).queues = s.queues := rfl
@[simp] theorem State.modIss_offers (s : State) (f : Iss → Iss) : (s.modIss f).offers = s.offers := rfl
@[simp] theorem State.modIss_overflow (s : State) (f : Iss → Iss) : (s.modIss f).overflow = s.overflow := rfl
@[simp] theorem State.modIss_evlog (s : State) (f : Iss → Iss) : (s.modIss f).evlog = s.evlog := rfl
@[simp] theorem State.modIss_evwidx (s : State) (f : Iss → Iss) : (s.modIss f).evwidx = s.evwidx := rfl
@[simp] theorem State.modIss_evridx (s : State) (f : Iss → Iss) : (s.modIss f).evridx = s.evridx := rfl
@[simp] theorem State.modIss_evdrop (s : State) (f : Iss → Iss) : (s.modIss f).evdrop = s.evdrop := rfl
@[simp] theorem State.modIss_pool (s : State) (f : Iss → Iss) : (s.modIss f).pool = s.pool := rfl
@[simp] theorem State.modIss_nextOrder (s : State) (f : Iss → Iss) : (s.modIss f).nextOrder = s.nextOrder := rfl
@[simp] theorem State.modIss_launches (s : State) (f : Iss → Iss) : (s.modIss f).launches = s.launches := rfl
@[simp] theorem State.modIss_nextLaunch (s : State) (f : Iss → Iss) : (s.modIss f).nextLaunch = s.nextLaunch := rfl
@[simp] theorem State.modIss_gangs (s : State) (f : Iss → Iss) : (s.modIss f).gangs = s.gangs := rfl
@[simp] theorem State.modIss_nextGang (s : State) (f : Iss → Iss) : (s.modIss f).nextGang = s.nextGang := rfl
@[simp] theorem State.modIss_consWait (s : State) (f : Iss → Iss) : (s.modIss f).consWait = s.consWait := rfl
@[simp] theorem State.modIss_arrivals (s : State) (f : Iss → Iss) : (s.modIss f).arrivals = s.arrivals := rfl
@[simp] theorem State.modIss_seen (s : State) (f : Iss → Iss) : (s.modIss f).seen = s.seen := rfl
@[simp] theorem State.modIss_node (s : State) (f : Iss → Iss) : (s.modIss f).node = s.node := rfl
@[simp] theorem State.modIss_links (s : State) (f : Iss → Iss) : (s.modIss f).links = s.links := rfl
@[simp] theorem State.modIss_jobs (s : State) (f : Iss → Iss) : (s.modIss f).jobs = s.jobs := rfl
@[simp] theorem State.modIss_cleared (s : State) (f : Iss → Iss) : (s.modIss f).cleared = s.cleared := rfl
@[simp] theorem State.modIss_goneJobs (s : State) (f : Iss → Iss) : (s.modIss f).goneJobs = s.goneJobs := rfl
@[simp] theorem State.modIss_windows (s : State) (f : Iss → Iss) : (s.modIss f).windows = s.windows := rfl
@[simp] theorem State.modIss_packets (s : State) (f : Iss → Iss) : (s.modIss f).packets = s.packets := rfl
@[simp] theorem State.modIss_nextPacket (s : State) (f : Iss → Iss) : (s.modIss f).nextPacket = s.nextPacket := rfl
@[simp] theorem State.modIss_gates (s : State) (f : Iss → Iss) : (s.modIss f).gates = s.gates := rfl
@[simp] theorem State.modIss_nextGate (s : State) (f : Iss → Iss) : (s.modIss f).nextGate = s.nextGate := rfl
@[simp] theorem State.modIss_nextWrite (s : State) (f : Iss → Iss) : (s.modIss f).nextWrite = s.nextWrite := rfl
@[simp] theorem State.modIss_mb1 (s : State) (f : Iss → Iss) : (s.modIss f).mb1 = s.mb1 := rfl
@[simp] theorem State.modIss_mb2 (s : State) (f : Iss → Iss) : (s.modIss f).mb2 = s.mb2 := rfl
@[simp] theorem State.modIss_mb3 (s : State) (f : Iss → Iss) : (s.modIss f).mb3 = s.mb3 := rfl
@[simp] theorem State.modIss_mb4 (s : State) (f : Iss → Iss) : (s.modIss f).mb4 = s.mb4 := rfl
@[simp] theorem State.modIss_dbg (s : State) (f : Iss → Iss) : (s.modIss f).dbg = s.dbg := rfl
@[simp] theorem State.modIss_debugPort (s : State) (f : Iss → Iss) : (s.modIss f).debugPort = s.debugPort := rfl
@[simp] theorem State.modIss_nonce (s : State) (f : Iss → Iss) : (s.modIss f).nonce = s.nonce := rfl
@[simp] theorem State.modIss_draws (s : State) (f : Iss → Iss) : (s.modIss f).draws = s.draws := rfl
@[simp] theorem State.modIss_regq (s : State) (f : Iss → Iss) : (s.modIss f).regq = s.regq := rfl
@[simp] theorem State.modIss_asks (s : State) (f : Iss → Iss) : (s.modIss f).asks = s.asks := rfl
@[simp] theorem State.modIss_sessions (s : State) (f : Iss → Iss) : (s.modIss f).sessions = s.sessions := rfl
@[simp] theorem State.modIss_spdmOut (s : State) (f : Iss → Iss) : (s.modIss f).spdmOut = s.spdmOut := rfl
@[simp] theorem State.modIss_tdis (s : State) (f : Iss → Iss) : (s.modIss f).tdis = s.tdis := rfl
@[simp] theorem State.modIss_watch (s : State) (f : Iss → Iss) : (s.modIss f).watch = s.watch := rfl
@[simp] theorem State.modIss_bootStep (s : State) (f : Iss → Iss) : (s.modIss f).bootStep = s.bootStep := rfl
@[simp] theorem State.modIss_ready (s : State) (f : Iss → Iss) : (s.modIss f).ready = s.ready := rfl
@[simp] theorem State.modIss_refusedFw (s : State) (f : Iss → Iss) : (s.modIss f).refusedFw = s.refusedFw := rfl
@[simp] theorem State.modIss_regionMiB (s : State) (f : Iss → Iss) : (s.modIss f).regionMiB = s.regionMiB := rfl
@[simp] theorem State.modIss_sv (s : State) (f : Iss → Iss) : (s.modIss f).sv = s.sv := rfl
@[simp] theorem State.modIss_pcap (s : State) (f : Iss → Iss) : (s.modIss f).pcap = s.pcap := rfl
@[simp] theorem State.modIss_pcapNow (s : State) (f : Iss → Iss) : (s.modIss f).pcapNow = s.pcapNow := rfl
@[simp] theorem State.modIss_clk (s : State) (f : Iss → Iss) : (s.modIss f).clk = s.clk := rfl
@[simp] theorem State.modIss_clkSteps (s : State) (f : Iss → Iss) : (s.modIss f).clkSteps = s.clkSteps := rfl
@[simp] theorem State.modIss_stepped (s : State) (f : Iss → Iss) : (s.modIss f).stepped = s.stepped := rfl
@[simp] theorem State.modIss_draw (s : State) (f : Iss → Iss) : (s.modIss f).draw = s.draw := rfl
@[simp] theorem State.modIss_tj (s : State) (f : Iss → Iss) : (s.modIss f).tj = s.tj := rfl
@[simp] theorem State.modIss_throt (s : State) (f : Iss → Iss) : (s.modIss f).throt = s.throt := rfl
@[simp] theorem State.modIss_okWindows (s : State) (f : Iss → Iss) : (s.modIss f).okWindows = s.okWindows := rfl
@[simp] theorem State.modIss_power (s : State) (f : Iss → Iss) : (s.modIss f).power = s.power := rfl
@[simp] theorem State.modIss_lastRead (s : State) (f : Iss → Iss) : (s.modIss f).lastRead = s.lastRead := rfl
@[simp] theorem State.modIss_unsupported (s : State) (f : Iss → Iss) : (s.modIss f).unsupported = s.unsupported := rfl
@[simp] theorem State.modIss_msix (s : State) (f : Iss → Iss) : (s.modIss f).msix = s.msix := rfl

@[simp] theorem State.modIss_iss (s : State) (f : Iss → Iss) : (s.modIss f).iss = f s.iss := rfl
@[simp] theorem State.setCore_cores (s : State) (c : Nat) (k : Core) : (s.setCore c k).cores = NMap.set s.cores c k := rfl
@[simp] theorem State.modArr_arrs (s : State) (p : Nat) (f : Arr → Arr) : (s.modArr p f).arrs = NMap.set s.arrs p (f (s.arr p)) := rfl
@[simp] theorem State.modDie_dies (s : State) (d : Nat) (f : Die → Die) : (s.modDie d f).dies = NMap.set s.dies d (f (s.die d)) := rfl

-- an update of what the bundle in issue belongs to is one of its core or its array
@[simp] theorem State.modCurCore_eq (s : State) (f : Core → Core) : s.modCurCore f = s.modCore s.iss.core f := rfl
@[simp] theorem State.modCurArr_eq (s : State) (f : Arr → Arr) : s.modCurArr f = s.modArr (pairOf s.iss.core) f := rfl

-- ## Sparse maps

/-- What a sparse map reads after a write. -/
theorem NMap.get?_set {α : Type} (m : NMap α) (k j : Nat) (v : α) :
    NMap.get? (NMap.set m k v) j = if j = k then some v else NMap.get? m j := by
  induction m with
  | nil => by_cases h : j = k <;> simp [NMap.set, NMap.get?, h, eq_comm (a := k)]
  | cons p m ih =>
    obtain ⟨i, u⟩ := p
    simp only [NMap.set]
    split_ifs with h1 h2 <;> simp only [NMap.get?, ih] <;> split_ifs <;> first | rfl | omega

theorem NMap.getD_set {α : Type} (m : NMap α) (k j : Nat) (v d : α) :
    NMap.getD (NMap.set m k v) j d = if j = k then v else NMap.getD m j d := by
  simp only [NMap.getD, NMap.get?_set]
  split_ifs <;> rfl

@[simp] theorem NMap.getD_set_same {α : Type} (m : NMap α) (k : Nat) (v d : α) : NMap.getD (NMap.set m k v) k d = v := by
  simp [NMap.getD_set]

theorem NMap.getD_set_other {α : Type} (m : NMap α) {k j : Nat} (h : j ≠ k) (v d : α) :
    NMap.getD (NMap.set m k v) j d = NMap.getD m j d := by
  simp [NMap.getD_set, h]

/-- What stands in a map after a write stood there before or is what was written. -/
theorem NMap.mem_set {α : Type} {m : NMap α} {k : Nat} {v : α} {q : Nat × α} (h : q ∈ NMap.set m k v) : q ∈ m ∨ q = (k, v) := by
  induction m with
  | nil => exact Or.inr (by simpa [NMap.set] using h)
  | cons p m ih =>
    obtain ⟨i, u⟩ := p
    simp only [NMap.set] at h
    split_ifs at h with h1 h2
    · rcases List.mem_cons.1 h with h | h
      · exact Or.inr h
      · exact Or.inl h
    · rcases List.mem_cons.1 h with h | h
      · exact Or.inr h
      · exact Or.inl (List.mem_cons_of_mem _ h)
    · rcases List.mem_cons.1 h with h | h
      · exact Or.inl (h ▸ List.mem_cons_self)
      · exact (ih h).imp (List.mem_cons_of_mem _) id

-- ## Cores, contexts, arrays and dies after an update

@[simp] theorem State.core_setCore (s : State) (c : Nat) (k : Core) : (s.setCore c k).core c = k := by
  simp [State.core]
theorem State.core_setCore_other (s : State) {c d : Nat} (h : d ≠ c) (k : Core) : (s.setCore c k).core d = s.core d := by
  simp [State.core, NMap.getD_set_other _ h]
@[simp] theorem State.core_modCore (s : State) (c : Nat) (f : Core → Core) : (s.modCore c f).core c = f (s.core c) := by
  simp [State.modCore]
theorem State.core_modCore_other (s : State) {c d : Nat} (h : d ≠ c) (f : Core → Core) : (s.modCore c f).core d = s.core d := by
  simp [State.modCore, State.core_setCore_other s h]
@[simp] theorem Core.ctx_modCtx (k : Core) (x : Nat) (f : Ctx → Ctx) : (k.modCtx x f).ctx x = f (k.ctx x) := by
  simp [Core.ctx, Core.modCtx]
theorem Core.ctx_modCtx_other (k : Core) {x y : Nat} (h : y ≠ x) (f : Ctx → Ctx) : (k.modCtx x f).ctx y = k.ctx y := by
  simp [Core.ctx, Core.modCtx, NMap.getD_set_other _ h]
@[simp] theorem State.ctx_modCtx (s : State) (c x : Nat) (f : Ctx → Ctx) : (s.modCtx c x f).ctx c x = f (s.ctx c x) := by
  simp [State.ctx, State.modCtx]
/-- Another context is not touched. -/
theorem State.ctx_modCtx_other (s : State) {c x d y : Nat} (h : ¬(d = c ∧ y = x)) (f : Ctx → Ctx) :
    (s.modCtx c x f).ctx d y = s.ctx d y := by
  by_cases hd : d = c
  · subst hd
    have hy : y ≠ x := fun e => h ⟨rfl, e⟩
    simp [State.ctx, State.modCtx, Core.ctx_modCtx_other _ hy]
  · simp [State.ctx, State.modCtx, State.core_modCore_other s hd]
@[simp] theorem State.cur_modCur (s : State) (f : Ctx → Ctx) : (s.modCur f).cur = f s.cur := by
  simp [State.cur, State.modCur]
/-- A core keeps everything but its contexts under an update of a context. -/
theorem State.core_modCtx_of (s : State) {α : Type} (g : Core → α) (hg : ∀ (k : Core) (x : Nat) (f : Ctx → Ctx), g (k.modCtx x f) = g k)
    (c x d : Nat) (f : Ctx → Ctx) : g ((s.modCtx c x f).core d) = g (s.core d) := by
  by_cases hd : d = c
  · subst hd
    simp [State.modCtx, hg]
  · simp [State.modCtx, State.core_modCore_other s hd]
@[simp] theorem State.arr_modArr (s : State) (p : Nat) (f : Arr → Arr) : (s.modArr p f).arr p = f (s.arr p) := by
  simp [State.arr]
theorem State.arr_modArr_other (s : State) {p q : Nat} (h : q ≠ p) (f : Arr → Arr) : (s.modArr p f).arr q = s.arr q := by
  simp [State.arr, NMap.getD_set_other _ h]
@[simp] theorem State.die_modDie (s : State) (d : Nat) (f : Die → Die) : (s.modDie d f).die d = f (s.die d) := by
  simp [State.die]
theorem State.die_modDie_other (s : State) {d e : Nat} (h : e ≠ d) (f : Die → Die) : (s.modDie d f).die e = s.die e := by
  simp [State.die, NMap.getD_set_other _ h]

end Sys2Proof.Machine
end

