-- ==== Sys2Proof/Laws/Ops.lean ====
section
/-! SUPPORT. One lemma for each shared operation: the common frame of an operation (R37, R48), results in flight, faults. -/

namespace Sys2Proof.Machine

theorem State.runs_iff {s : State} {i : Instr} : s.runs i = true ↔
    i.wf = true ∧ s.iss.over i = false ∧ s.latchBad i = false ∧ s.overAllot i = none ∧ s.guardOn i = true := by
  simp only [State.runs, Bool.and_eq_true, Bool.not_eq_true', Option.isNone_iff_eq_none, and_assoc]

/-- An operation that may take effect takes it, on the state that records an empty latch. -/
theorem sop_runs {i : Instr} {s : State} (h : s.runs i = true) (k : State → Out3) : sop i false false s k = k (s.entered i) := by
  obtain ⟨h1, h2, h3, h4, h5⟩ := State.runs_iff.1 h
  simp only [sop, h1, h2, h3, h4, h5, State.entered]
  simp

/-- The same where the operation has conditions of its own that do not hold. -/
theorem sop_runs_of {i : Instr} {s : State} {bad gone : Bool} (h : s.runs i = true) (hb : bad = false) (hg : gone = false)
    (k : State → Out3) : sop i bad gone s k = k (s.entered i) := by
  subst hb hg
  exact sop_runs h k

/-- An operation whose guard reads false does nothing. -/
theorem sop_guardOff {i : Instr} {s : State} (h : s.guardOff i = true) (k : State → Out3) : sop i false false s k = .next s := by
  simp only [State.guardOff, Bool.and_eq_true, Bool.not_eq_true', Option.isNone_iff_eq_none] at h
  obtain ⟨⟨⟨h1, h2⟩, h4⟩, h5⟩ := h
  simp only [sop, h1, h2, h4, h5]
  simp

/-- An operation that breaks a limit of its encoding raises ILLEGAL_OP whatever its guard reads. -/
theorem sop_illegal {i : Instr} {s : State} {bad : Bool} (gone : Bool) (h : i.wf = false ∨ s.iss.over i = true ∨ bad = true)
    (k : State → Out3) : sop i bad gone s k = s.illegal := by
  rcases h with h | h | h <;> simp [sop, h]

/-- What an operation can do: raise one of the three encoding faults, nothing, or its effect. -/
theorem sop_cases (i : Instr) (bad gone : Bool) (s : State) (k : State → Out3) :
    sop i bad gone s k = s.illegal ∨ sop i bad gone s k = s.absent ∨
    (∃ w, sop i bad gone s k = s.raise fREGALLOT w s.allotDetail) ∨ sop i bad gone s k = .next s ∨
    (s.runs i = true ∧ bad = false ∧ gone = false ∧ sop i bad gone s k = k (s.entered i)) := by
  by_cases h1 : (!i.wf || s.iss.over i || bad || (s.guardOn i && s.latchBad i)) = true
  · exact Or.inl (by simp only [sop, h1, if_true])
  · cases gone
    · cases h3 : s.overAllot i with
      | some p =>
        obtain ⟨c, v⟩ := p
        exact Or.inr (Or.inr (Or.inl ⟨_, by simp only [sop, h1, h3]; rfl⟩))
      | none =>
        cases h4 : s.guardOn i with
        | false =>
          rw [h4] at h1
          exact Or.inr (Or.inr (Or.inr (Or.inl (by simp only [sop, h3, h4]; rw [if_neg h1]; rfl))))
        | true =>
          simp only [h4, Bool.true_and, Bool.or_eq_true, Bool.not_eq_true', not_or, Bool.not_eq_false, Bool.not_eq_true] at h1
          obtain ⟨⟨⟨a, b⟩, c⟩, d⟩ := h1
          have r : s.runs i = true := State.runs_iff.2 ⟨a, b, d, h3, h4⟩
          exact Or.inr (Or.inr (Or.inr (Or.inr ⟨r, c, rfl, by rw [c]; exact sop_runs r k⟩)))
    · exact Or.inr (Or.inl (by simp only [sop, h1]; rfl))

/-- A fault answers a next state. -/
theorem State.raise_next (s : State) (code : Nat) (d0 d1 : Word) : ∃ t, s.raise code d0 d1 = .next t := ⟨_, rfl⟩

/-- A result in flight: the context's list grows by it. -/
theorem State.cur_later (s : State) (n : Nat) (q : Causes) (e : Eff) :
    (s.later n q e).cur = { s.cur with flight := s.cur.flight ++ [⟨s.cur.clk + n, s.cur.clk, s.iss.pos, s.iss.addr, q, e⟩] } := by
  rw [State.later, State.cur_modCur]

/-- No other context changes when the current one gets a result. -/
theorem State.ctx_later_other (s : State) (n : Nat) (q : Causes) (e : Eff) {d y : Nat} (h : ¬(d = s.iss.core ∧ y = s.iss.ctx)) :
    (s.later n q e).ctx d y = s.ctx d y := State.ctx_modCtx_other s h _

/-- What a core holds beside its contexts does not change when the current context gets a result. -/
theorem State.core_later (s : State) {α : Type} (g : Core → α) (hg : ∀ (k : Core) (x : Nat) (f : Ctx → Ctx), g (k.modCtx x f) = g k)
    (n : Nat) (q : Causes) (e : Eff) (d : Nat) : g ((s.later n q e).core d) = g (s.core d) := State.core_modCtx_of s g hg _ _ _ _

end Sys2Proof.Machine
end

