-- ==== Sys2Proof/Laws/Paths.lean ====
section
/-! SUPPORT. What the shared operations of a die's path can do (R25, R317, R334): a request, the merges asked for, a grant, a packet of a
snapshot, a packet of a gateway. -/

namespace Sys2Proof.Machine

/-- A request changes the paths alone. -/
theorem State.request_frame (s : State) (d cls src left : Nat) (i : Instr) : { s.request d cls src left i with paths := s.paths } = s := by
  unfold State.request
  split <;> rfl

/-- After a request of `i`, one for `i` waits at that path. -/
theorem State.request_waits (s : State) (d cls src left : Nat) (i : Instr) : ∃ r ∈ (s.request d cls src left i).path d, r.what = i := by
  unfold State.request
  split
  · next h => simpa using h
  · simp [State.path]

/-- What waits at a path goes on waiting there when another request comes. -/
theorem State.path_request (s : State) (d cls src left : Nat) (i : Instr) {e : Nat} {r : Req} (h : r ∈ s.path e) :
    r ∈ (s.request d cls src left i).path e := by
  unfold State.request
  split
  · exact h
  · simp only [State.path, NMap.getD_set]
    split
    · next he => subst he; exact List.mem_append_left _ h
    · exact h

/-- Asking for merges changes the paths alone. -/
theorem State.askMerges_frame (s : State) (core : Nat) (p : AmoBuf → Bool) : { s.askMerges core p with paths := s.paths } = s := by
  have go : ∀ (bs : List AmoBuf) (t : State), { t with paths := s.paths } = s →
      { bs.foldl (fun t b => t.request (dieOf core) 2 (core + 1) 0 (.bufferedAmoMerge core b.pa)) t with paths := s.paths } = s := by
    intro bs
    induction bs with
    | nil => exact fun _ h => h
    | cons b bs ih =>
      intro t h
      refine ih _ (Eq.trans ?_ h)
      have hr := State.request_frame t (dieOf core) 2 (core + 1) 0 (.bufferedAmoMerge core b.pa)
      exact congrArg (fun u : State => { u with paths := s.paths }) hr
  exact go _ s rfl

/-- Each update that was asked for has a request at its die's path. -/
theorem State.askMerges_waits (s : State) (core : Nat) (p : AmoBuf → Bool) {b : AmoBuf} (hb : b ∈ (s.core core).amo) (hp : p b = true) :
    ∃ r ∈ (s.askMerges core p).path (dieOf core), r.what = .bufferedAmoMerge core b.pa := by
  have stay : ∀ (bs : List AmoBuf) (t : State) (r : Req), r ∈ t.path (dieOf core) →
      r ∈ (bs.foldl (fun t b => t.request (dieOf core) 2 (core + 1) 0 (.bufferedAmoMerge core b.pa)) t).path (dieOf core) := by
    intro bs
    induction bs with
    | nil => exact fun _ _ h => h
    | cons c bs ih => exact fun t r h => ih _ _ (State.path_request t _ _ _ _ _ h)
  have go : ∀ (bs : List AmoBuf) (t : State), b ∈ bs → ∃ r ∈
      (bs.foldl (fun t b => t.request (dieOf core) 2 (core + 1) 0 (.bufferedAmoMerge core b.pa)) t).path (dieOf core),
      r.what = .bufferedAmoMerge core b.pa := by
    intro bs
    induction bs with
    | nil => exact fun _ h => absurd h (List.not_mem_nil)
    | cons c bs ih =>
      intro t h
      rcases List.mem_cons.1 h with h | h
      · subst h
        obtain ⟨r, hr, hw⟩ := State.request_waits t (dieOf core) 2 (core + 1) 0 (.bufferedAmoMerge core b.pa)
        exact ⟨r, stay bs _ r hr, hw⟩
      · exact ih _ h
  exact go _ s (List.mem_filter.2 ⟨hb, hp⟩)

/-- All that a grant can do: nothing where nothing waits; else the request leaves, and what it asked for has gone, or one packet moves, or it takes
its effect. -/
theorem State.grant_cases (s : State) (d : Nat) : (s.nextReq d = none ∧ s.grant d = .next s) ∨
    ∃ r, s.nextReq d = some r ∧
      let t := { s with paths := NMap.set s.paths d ((s.path d).erase r) }.served d r.cls r.src
      (t.stale r.what = true ∧ s.grant d = .next t) ∨
      (t.stale r.what = false ∧ 0 < r.left ∧ s.grant d = .next (t.request d r.cls r.src (r.left - 1) r.what)) ∨
      (t.stale r.what = false ∧ r.left = 0 ∧ s.grant d = exec r.what t) := by
  unfold State.grant
  cases s.nextReq d with
  | none => exact Or.inl ⟨rfl, rfl⟩
  | some r =>
    refine Or.inr ⟨r, rfl, ?_⟩
    dsimp only
    split
    · next h => exact Or.inl ⟨h, rfl⟩
    · next h =>
      have hs := Bool.eq_false_iff.2 h
      split
      · next h0 => exact Or.inr (Or.inl ⟨hs, h0, rfl⟩)
      · next h0 => exact Or.inr (Or.inr ⟨hs, Nat.eq_zero_of_not_pos h0, rfl⟩)

/-- A packet of a snapshot leaves every other core as it was. -/
theorem State.core_spill_other (s : State) (c x base : Nat) {d : Nat} (h : d ≠ c) : (s.spill c x base).core d = s.core d := by
  simp only [State.spill, State.modCtx]
  rw [State.core_modCore_other _ h, State.core_modCore_other _ h]

/-- What a gateway has still to write keeps its participant and its chunk when the status entry follows the data. -/
@[simp] theorem Deliv.ready_part (d : Deliv) : d.ready.part = d.part := by unfold Deliv.ready; split <;> rfl
@[simp] theorem Deliv.ready_chunk (d : Deliv) : d.ready.chunk = d.chunk := by unfold Deliv.ready; split <;> rfl

end Sys2Proof.Machine
end

