-- ==== Sys2Proof/Laws/PerInstr.lean ====
section
/-! SUPPORT. Laws that hold of every instruction, one lemma per constructor: encoding and decoding agree (R30 to R36, R62). -/

namespace Sys2Proof.Laws

/-- The fields of a packed word are the fields it was packed from (R30). -/
theorem unpackFields_packFields (f : Fields) : unpackFields (packFields f) = f := by
  obtain ⟨a, b, c, d, e, h⟩ := f
  have key : ∀ w : BitVec (4 + 4 + 6 + 6 + 6 + 6), w = a ++ b ++ c ++ d ++ e ++ h →
      w.extractLsb' 28 4 = a ∧ w.extractLsb' 24 4 = b ∧ w.extractLsb' 18 6 = c ∧ w.extractLsb' 12 6 = d ∧
        w.extractLsb' 6 6 = e ∧ w.extractLsb' 0 6 = h := by
    intro w hw
    subst hw
    refine ⟨?_, ?_, ?_, ?_, ?_, ?_⟩ <;>
      (apply BitVec.eq_of_getLsbD_eq
       intro i hi
       simp only [BitVec.getLsbD_append, BitVec.getLsbD_extractLsb', hi, decide_true, Bool.true_and]
       repeat (first | rw [if_neg (by omega)] | rw [if_pos (by omega)])
       congr 1
       omega)
  obtain ⟨h1, h2, h3, h4, h5, h6⟩ := key _ rfl
  simp only [unpackFields, packFields, Fields.mk.injEq]
  exact ⟨h1, h2, h3, h4, h5, h6⟩

/-- A 12-bit immediate is its two halves. -/
theorem halves12 (i : BitVec 12) : i.extractLsb' 6 6 ++ i.extractLsb' 0 6 = i := by
  apply BitVec.eq_of_getLsbD_eq
  intro k hk
  by_cases h : k < 6
  · rw [BitVec.getLsbD_append]
    simp [h]
  · have : k - 6 < 6 := by omega
    rw [BitVec.getLsbD_append]
    simp [h, this]
    congr 1
    omega

/-- The halves of a 6-bit field. -/
theorem halves6 : ∀ k n : BitVec 3, (k ++ n : Code).extractLsb' 3 3 = k ∧ (k ++ n : Code).extractLsb' 0 3 = n := by decide

/-- A minor code of VCVT (R74). -/
theorem vcvtMinor : ∀ r : BitVec 3, ((0#3 ++ r : Code).extractLsb' 3 3 = 0#3) ∧ (0#3 ++ r : Code).extractLsb' 0 3 = r := by decide

/-- A minor code of XBEAT (R74). -/
theorem xbeatMinor : ∀ (s w : BitVec 2) (p : BitVec 1), (0#1 ++ s ++ w ++ p : Code).extractLsb' 5 1 = 0#1 ∧
    (0#1 ++ s ++ w ++ p : Code).extractLsb' 3 2 = s ∧ (0#1 ++ s ++ w ++ p : Code).extractLsb' 1 2 = w ∧
    (0#1 ++ s ++ w ++ p : Code).extractLsb' 0 1 = p := by decide

/-- The register numbers of the moduli and of the report cards (R79). -/
theorem modulusReg : ∀ k : BitVec 2, (12#4 ++ k : Code) ≠ 9#6 ∧ (12#4 ++ k : Code).extractLsb' 2 4 = 12#4 ∧
    (12#4 ++ k : Code).extractLsb' 0 2 = k := by decide
theorem rptcardReg : ∀ k : BitVec 2, (4#4 ++ k : Code) ≠ 9#6 ∧ (4#4 ++ k : Code).extractLsb' 2 4 = 4#4 ∧
    (4#4 ++ k : Code).extractLsb' 0 2 = k := by decide

/-- A 6-bit field is its upper four bits and its lower two. -/
theorem split42 (c : Code) : (c.extractLsb' 2 4 ++ c.extractLsb' 0 2 : Code) = c := by
  revert c
  decide

/-- A control register that the rows of its own name has one of their numbers (R79). -/
theorem ownRow_of_fields (r : BitVec 12) (h : crOwnRow r.toNat = false) (h0 : r.extractLsb' 6 6 = 0#6) :
    r.extractLsb' 0 6 ≠ 9#6 ∧ r.extractLsb' 2 4 ≠ 12#4 ∧ r.extractLsb' 2 4 ≠ 4#4 := by
  have h1 := congrArg BitVec.toNat h0
  simp only [crOwnRow, Bool.or_eq_false_iff, Bool.and_eq_false_iff, decide_eq_false_iff_not] at h
  simp only [ne_eq, ← BitVec.toNat_inj, BitVec.extractLsb'_toNat, Nat.shiftRight_eq_div_pow, BitVec.toNat_ofNat] at h1 ⊢
  have := r.isLt
  omega

/-- A word decodes to its instruction where the fields name it, its limits hold and the extension byte is its own (R33, R62). -/
theorem decodeWord_encode {i : Instr} {x : Ext} {f : Fields} (hf : i.fields = f) (hraw : decodeRaw f x = some i)
    (hw : i.wf = true) (hx : i.extAgrees x = true) : decodeWord x (encode i) = some i := by
  subst hf
  simp only [decodeWord, encode, unpackFields_packFields, hraw, hw, hx]
  rfl

/-- The instruction, encoded and decoded beside the extension byte that it takes, is itself. -/
def RoundTrip.Statement (i : Instr) : Prop :=
  ∀ x : Ext, i.isSlot = true → i.wf = true → i.extAgrees x = true → decodeWord x (encode i) = some i

namespace RoundTrip

theorem nop : Statement .nop := fun _ _ hw hx => decodeWord_encode rfl rfl hw hx
theorem prep (g : Guard) (j : Code) (i : BitVec 12) (x : Ext) : Statement (.prep g j i x) := by
  intro z _ hw hx
  obtain rfl : x = z := of_decide_eq_true hx
  exact decodeWord_encode (f := ⟨1, g, 0, j, (i.extractLsb' 6 6), (i.extractLsb' 0 6)⟩) rfl (by simp [decodeRaw, decodeK, halves12]) hw hx
theorem prepr (g : Guard) (j : Code) (a : Code) : Statement (.prepr g j a) :=
  fun _ _ hw hx => decodeWord_encode (f := ⟨1, g, 1, j, a, 0⟩) rfl (by simp [decodeRaw, decodeK]) hw hx
theorem br (g : Guard) (j : Code) : Statement (.br g j) :=
  fun _ _ hw hx => decodeWord_encode (f := ⟨1, g, 2, j, 0, 0⟩) rfl (by simp [decodeRaw, decodeK]) hw hx
theorem brl (g : Guard) (j : Code) (d : Code) : Statement (.brl g j d) :=
  fun _ _ hw hx => decodeWord_encode (f := ⟨1, g, 3, j, d, 0⟩) rfl (by simp [decodeRaw, decodeK]) hw hx
theorem ret (g : Guard) (a : Code) : Statement (.ret g a) :=
  fun _ _ hw hx => decodeWord_encode (f := ⟨1, g, 4, 0, a, 0⟩) rfl (by simp [decodeRaw, decodeK]) hw hx
theorem loop (g : Guard) (a : Code) (l : BitVec 12) (x : Ext) : Statement (.loop g a l x) := by
  intro z _ hw hx
  obtain rfl : x = z := of_decide_eq_true hx
  exact decodeWord_encode (f := ⟨1, g, 8, a, (l.extractLsb' 6 6), (l.extractLsb' 0 6)⟩) rfl (by simp [decodeRaw, decodeK, halves12]) hw hx
theorem loopi (g : Guard) (l : Code) (n : BitVec 12) (x : Ext) : Statement (.loopi g l n x) := by
  intro z _ hw hx
  obtain rfl : x = z := of_decide_eq_true hx
  exact decodeWord_encode (f := ⟨1, g, 9, l, (n.extractLsb' 6 6), (n.extractLsb' 0 6)⟩) rfl (by simp [decodeRaw, decodeK, halves12]) hw hx
theorem loopr (g : Guard) (a : Code) (l : BitVec 12) (x : Ext) : Statement (.loopr g a l x) := by
  intro z _ hw hx
  obtain rfl : x = z := of_decide_eq_true hx
  exact decodeWord_encode (f := ⟨1, g, 10, a, (l.extractLsb' 6 6), (l.extractLsb' 0 6)⟩) rfl (by simp [decodeRaw, decodeK, halves12]) hw hx
theorem lbrk (g : Guard) : Statement (.lbrk g) :=
  fun _ _ hw hx => decodeWord_encode (f := ⟨1, g, 12, 0, 0, 0⟩) rfl (by simp [decodeRaw, decodeK]) hw hx
theorem yield (g : Guard) : Statement (.yield g) :=
  fun _ _ hw hx => decodeWord_encode (f := ⟨1, g, 16, 0, 0, 0⟩) rfl (by simp [decodeRaw, decodeK]) hw hx
theorem done (g : Guard) : Statement (.done g) :=
  fun _ _ hw hx => decodeWord_encode (f := ⟨1, g, 17, 0, 0, 0⟩) rfl (by simp [decodeRaw, decodeK]) hw hx
theorem trap (g : Guard) (i : BitVec 12) : Statement (.trap g i) :=
  fun _ _ hw hx => decodeWord_encode (f := ⟨1, g, 18, 0, (i.extractLsb' 6 6), (i.extractLsb' 0 6)⟩) rfl (by simp [decodeRaw, decodeK, halves12]) hw hx
theorem waitc (g : Guard) (a : Code) : Statement (.waitc g a) :=
  fun _ _ hw hx => decodeWord_encode (f := ⟨1, g, 19, 0, a, 0⟩) rfl (by simp [decodeRaw, decodeK]) hw hx
theorem waitcWake (core ctx : Nat) : Statement (.waitcWake core ctx) := fun _ h => nomatch (h : false = true)
theorem defer (g : Guard) (a : Code) (k : BitVec 3) (n : BitVec 3) (p : Code) : Statement (.defer g a k n p) :=
  fun _ _ hw hx => decodeWord_encode (f := ⟨1, g, 24, a, (k ++ n), p⟩) rfl (by simp [decodeRaw, decodeK, halves6]) hw hx
theorem defdr (g : Guard) (d : Code) (n : BitVec 3) (p : Code) : Statement (.defdr g d n p) :=
  fun _ _ hw hx => decodeWord_encode (f := ⟨1, g, 25, d, (0#3 ++ n), p⟩) rfl (by simp [decodeRaw, decodeK, halves6]) hw hx
theorem defct (g : Guard) (d : Code) (p : Code) : Statement (.defct g d p) :=
  fun _ _ hw hx => decodeWord_encode (f := ⟨1, g, 26, d, 0, p⟩) rfl (by simp [decodeRaw, decodeK]) hw hx
theorem tcur (g : Guard) (d : Code) : Statement (.tcur g d) :=
  fun _ _ hw hx => decodeWord_encode (f := ⟨1, g, 32, d, 0, 0⟩) rfl (by simp [decodeRaw, decodeK]) hw hx
theorem ctxid (g : Guard) (d : Code) : Statement (.ctxid g d) :=
  fun _ _ hw hx => decodeWord_encode (f := ⟨1, g, 33, d, 0, 0⟩) rfl (by simp [decodeRaw, decodeK]) hw hx
theorem prio (g : Guard) (p : Code) : Statement (.prio g p) :=
  fun _ _ hw hx => decodeWord_encode (f := ⟨1, g, 34, 0, 0, p⟩) rfl (by simp [decodeRaw, decodeK]) hw hx
theorem bkpt (g : Guard) : Statement (.bkpt g) :=
  fun _ _ hw hx => decodeWord_encode (f := ⟨1, g, 63, 63, 63, 63⟩) rfl (by simp [decodeRaw, decodeK]) hw hx
theorem mov (g : Guard) (d : Code) (a : Code) : Statement (.mov g d a) :=
  fun _ _ hw hx => decodeWord_encode (f := ⟨2, g, 0, d, a, 0⟩) rfl (by simp [decodeRaw, decodeS]) hw hx
theorem add (g : Guard) (d : Code) (a : Code) (b : Code) : Statement (.add g d a b) :=
  fun _ _ hw hx => decodeWord_encode (f := ⟨2, g, 1, d, a, b⟩) rfl (by simp [decodeRaw, decodeS]) hw hx
theorem sub (g : Guard) (d : Code) (a : Code) (b : Code) : Statement (.sub g d a b) :=
  fun _ _ hw hx => decodeWord_encode (f := ⟨2, g, 2, d, a, b⟩) rfl (by simp [decodeRaw, decodeS]) hw hx
theorem mul (g : Guard) (d : Code) (a : Code) (b : Code) : Statement (.mul g d a b) :=
  fun _ _ hw hx => decodeWord_encode (f := ⟨2, g, 3, d, a, b⟩) rfl (by simp [decodeRaw, decodeS]) hw hx
theorem mulh (g : Guard) (d : Code) (a : Code) (b : Code) : Statement (.mulh g d a b) :=
  fun _ _ hw hx => decodeWord_encode (f := ⟨2, g, 4, d, a, b⟩) rfl (by simp [decodeRaw, decodeS]) hw hx
theorem mulhu (g : Guard) (d : Code) (a : Code) (b : Code) : Statement (.mulhu g d a b) :=
  fun _ _ hw hx => decodeWord_encode (f := ⟨2, g, 5, d, a, b⟩) rfl (by simp [decodeRaw, decodeS]) hw hx
theorem divs (g : Guard) (d : Code) (a : Code) (b : Code) : Statement (.divs g d a b) :=
  fun _ _ hw hx => decodeWord_encode (f := ⟨2, g, 6, d, a, b⟩) rfl (by simp [decodeRaw, decodeS]) hw hx
theorem divu (g : Guard) (d : Code) (a : Code) (b : Code) : Statement (.divu g d a b) :=
  fun _ _ hw hx => decodeWord_encode (f := ⟨2, g, 7, d, a, b⟩) rfl (by simp [decodeRaw, decodeS]) hw hx
theorem and (g : Guard) (d : Code) (a : Code) (b : Code) : Statement (.and g d a b) :=
  fun _ _ hw hx => decodeWord_encode (f := ⟨2, g, 8, d, a, b⟩) rfl (by simp [decodeRaw, decodeS]) hw hx
theorem or (g : Guard) (d : Code) (a : Code) (b : Code) : Statement (.or g d a b) :=
  fun _ _ hw hx => decodeWord_encode (f := ⟨2, g, 9, d, a, b⟩) rfl (by simp [decodeRaw, decodeS]) hw hx
theorem xor (g : Guard) (d : Code) (a : Code) (b : Code) : Statement (.xor g d a b) :=
  fun _ _ hw hx => decodeWord_encode (f := ⟨2, g, 10, d, a, b⟩) rfl (by simp [decodeRaw, decodeS]) hw hx
theorem andn (g : Guard) (d : Code) (a : Code) (b : Code) : Statement (.andn g d a b) :=
  fun _ _ hw hx => decodeWord_encode (f := ⟨2, g, 11, d, a, b⟩) rfl (by simp [decodeRaw, decodeS]) hw hx
theorem shl (g : Guard) (d : Code) (a : Code) (b : Code) : Statement (.shl g d a b) :=
  fun _ _ hw hx => decodeWord_encode (f := ⟨2, g, 12, d, a, b⟩) rfl (by simp [decodeRaw, decodeS]) hw hx
theorem shr (g : Guard) (d : Code) (a : Code) (b : Code) : Statement (.shr g d a b) :=
  fun _ _ hw hx => decodeWord_encode (f := ⟨2, g, 13, d, a, b⟩) rfl (by simp [decodeRaw, decodeS]) hw hx
theorem sar (g : Guard) (d : Code) (a : Code) (b : Code) : Statement (.sar g d a b) :=
  fun _ _ hw hx => decodeWord_encode (f := ⟨2, g, 14, d, a, b⟩) rfl (by simp [decodeRaw, decodeS]) hw hx
theorem rotl (g : Guard) (d : Code) (a : Code) (b : Code) : Statement (.rotl g d a b) :=
  fun _ _ hw hx => decodeWord_encode (f := ⟨2, g, 15, d, a, b⟩) rfl (by simp [decodeRaw, decodeS]) hw hx
theorem clz (g : Guard) (d : Code) (a : Code) : Statement (.clz g d a) :=
  fun _ _ hw hx => decodeWord_encode (f := ⟨2, g, 16, d, a, 0⟩) rfl (by simp [decodeRaw, decodeS]) hw hx
theorem popc (g : Guard) (d : Code) (a : Code) : Statement (.popc g d a) :=
  fun _ _ hw hx => decodeWord_encode (f := ⟨2, g, 17, d, a, 0⟩) rfl (by simp [decodeRaw, decodeS]) hw hx
theorem min (g : Guard) (d : Code) (a : Code) (b : Code) : Statement (.min g d a b) :=
  fun _ _ hw hx => decodeWord_encode (f := ⟨2, g, 18, d, a, b⟩) rfl (by simp [decodeRaw, decodeS]) hw hx
theorem max (g : Guard) (d : Code) (a : Code) (b : Code) : Statement (.max g d a b) :=
  fun _ _ hw hx => decodeWord_encode (f := ⟨2, g, 19, d, a, b⟩) rfl (by simp [decodeRaw, decodeS]) hw hx
theorem minu (g : Guard) (d : Code) (a : Code) (b : Code) : Statement (.minu g d a b) :=
  fun _ _ hw hx => decodeWord_encode (f := ⟨2, g, 20, d, a, b⟩) rfl (by simp [decodeRaw, decodeS]) hw hx
theorem maxu (g : Guard) (d : Code) (a : Code) (b : Code) : Statement (.maxu g d a b) :=
  fun _ _ hw hx => decodeWord_encode (f := ⟨2, g, 21, d, a, b⟩) rfl (by simp [decodeRaw, decodeS]) hw hx
theorem sel (g : Guard) (d : Code) (a : Code) (b : Code) (x : Ext) : Statement (.sel g d a b x) := by
  intro z _ hw hx
  obtain rfl : x = z := of_decide_eq_true hx
  exact decodeWord_encode (f := ⟨2, g, 22, d, a, b⟩) rfl (by simp [decodeRaw, decodeS]) hw hx
theorem extb (g : Guard) (d : Code) (a : Code) (p : Code) (x : Ext) : Statement (.extb g d a p x) := by
  intro z _ hw hx
  obtain rfl : x = z := of_decide_eq_true hx
  exact decodeWord_encode (f := ⟨2, g, 23, d, a, p⟩) rfl (by simp [decodeRaw, decodeS]) hw hx
theorem insb (g : Guard) (d : Code) (a : Code) (p : Code) (x : Ext) : Statement (.insb g d a p x) := by
  intro z _ hw hx
  obtain rfl : x = z := of_decide_eq_true hx
  exact decodeWord_encode (f := ⟨2, g, 24, d, a, p⟩) rfl (by simp [decodeRaw, decodeS]) hw hx
theorem lea (g : Guard) (d : Code) (a : Code) (b : Code) (x : Ext) : Statement (.lea g d a b x) := by
  intro z _ hw hx
  obtain rfl : x = z := of_decide_eq_true hx
  exact decodeWord_encode (f := ⟨2, g, 25, d, a, b⟩) rfl (by simp [decodeRaw, decodeS]) hw hx
theorem ceq (g : Guard) (c : Code) (a : Code) (b : Code) : Statement (.ceq g c a b) :=
  fun _ _ hw hx => decodeWord_encode (f := ⟨2, g, 32, c, a, b⟩) rfl (by simp [decodeRaw, decodeS]) hw hx
theorem cne (g : Guard) (c : Code) (a : Code) (b : Code) : Statement (.cne g c a b) :=
  fun _ _ hw hx => decodeWord_encode (f := ⟨2, g, 33, c, a, b⟩) rfl (by simp [decodeRaw, decodeS]) hw hx
theorem clt (g : Guard) (c : Code) (a : Code) (b : Code) : Statement (.clt g c a b) :=
  fun _ _ hw hx => decodeWord_encode (f := ⟨2, g, 34, c, a, b⟩) rfl (by simp [decodeRaw, decodeS]) hw hx
theorem cltu (g : Guard) (c : Code) (a : Code) (b : Code) : Statement (.cltu g c a b) :=
  fun _ _ hw hx => decodeWord_encode (f := ⟨2, g, 35, c, a, b⟩) rfl (by simp [decodeRaw, decodeS]) hw hx
theorem cle (g : Guard) (c : Code) (a : Code) (b : Code) : Statement (.cle g c a b) :=
  fun _ _ hw hx => decodeWord_encode (f := ⟨2, g, 36, c, a, b⟩) rfl (by simp [decodeRaw, decodeS]) hw hx
theorem cleu (g : Guard) (c : Code) (a : Code) (b : Code) : Statement (.cleu g c a b) :=
  fun _ _ hw hx => decodeWord_encode (f := ⟨2, g, 37, c, a, b⟩) rfl (by simp [decodeRaw, decodeS]) hw hx
theorem qset (g : Guard) (c : Code) (a : Code) : Statement (.qset g c a) :=
  fun _ _ hw hx => decodeWord_encode (f := ⟨2, g, 40, c, a, 0⟩) rfl (by simp [decodeRaw, decodeS]) hw hx
theorem qand (g : Guard) (c : Code) (y : Code) (z : Code) : Statement (.qand g c y z) :=
  fun _ _ hw hx => decodeWord_encode (f := ⟨2, g, 41, c, y, z⟩) rfl (by simp [decodeRaw, decodeS]) hw hx
theorem qor (g : Guard) (c : Code) (y : Code) (z : Code) : Statement (.qor g c y z) :=
  fun _ _ hw hx => decodeWord_encode (f := ⟨2, g, 42, c, y, z⟩) rfl (by simp [decodeRaw, decodeS]) hw hx
theorem qnot (g : Guard) (c : Code) (y : Code) : Statement (.qnot g c y) :=
  fun _ _ hw hx => decodeWord_encode (f := ⟨2, g, 43, c, y, 0⟩) rfl (by simp [decodeRaw, decodeS]) hw hx
theorem crd (g : Guard) (d : Code) (r : BitVec 12) : Statement (.crd g d r) :=
  fun _ _ hw hx => decodeWord_encode (f := ⟨2, g, 48, d, (r.extractLsb' 6 6), (r.extractLsb' 0 6)⟩) rfl (by simp [decodeRaw, decodeS, halves12]) hw hx
theorem cwr (g : Guard) (a : Code) (r : BitVec 12) : Statement (.cwr g a r) := by
  intro x _ hw hx
  have own : crOwnRow r.toNat = false := by
    have hw' : (crListed r.toNat && !crOwnRow r.toNat) = true := hw
    generalize crListed r.toNat = p at hw'
    generalize crOwnRow r.toNat = q at hw' ⊢
    revert p q
    decide
  refine decodeWord_encode (f := ⟨2, g, 49, a, (r.extractLsb' 6 6), (r.extractLsb' 0 6)⟩) rfl ?_ hw hx
  by_cases h0 : r.extractLsb' 6 6 = 0#6
  · obtain ⟨h1, h2, h3⟩ := ownRow_of_fields r own h0
    have e := halves12 r
    rw [h0] at e
    simp [decodeRaw, decodeS, h0, h1, h2, h3, e]
  · simp [decodeRaw, decodeS, h0, halves12]
theorem cwrArrmode (g : Guard) (a : Code) : Statement (.cwrArrmode g a) :=
  fun _ _ hw hx => decodeWord_encode (f := ⟨2, g, 49, a, 0, 9⟩) rfl (by simp [decodeRaw, decodeS]) hw hx
theorem cwrModulus (g : Guard) (a : Code) (k : BitVec 2) : Statement (.cwrModulus g a k) :=
  fun _ _ hw hx => decodeWord_encode (f := ⟨2, g, 49, a, 0, (0xC#4 ++ k)⟩) rfl (by simp [decodeRaw, decodeS, modulusReg]) hw hx
theorem cwrRptcard (g : Guard) (a : Code) (n : BitVec 2) : Statement (.cwrRptcard g a n) :=
  fun _ _ hw hx => decodeWord_encode (f := ⟨2, g, 49, a, 0, (0x4#4 ++ n)⟩) rfl (by simp [decodeRaw, decodeS, rptcardReg]) hw hx
theorem allot (g : Guard) (m : Code) (n : Code) : Statement (.allot g m n) :=
  fun _ _ hw hx => decodeWord_encode (f := ⟨2, g, 56, 0, m, n⟩) rfl (by simp [decodeRaw, decodeS]) hw hx
theorem shrink (g : Guard) (m : Code) (n : Code) : Statement (.shrink g m n) :=
  fun _ _ hw hx => decodeWord_encode (f := ⟨2, g, 57, 0, m, n⟩) rfl (by simp [decodeRaw, decodeS]) hw hx
theorem movi (g : Guard) (d : Code) (i : BitVec 12) (x : Ext) : Statement (.movi g d i x) := by
  intro z _ hw hx
  obtain rfl : x = z := of_decide_eq_true hx
  exact decodeWord_encode (f := ⟨3, g, 0, d, (i.extractLsb' 6 6), (i.extractLsb' 0 6)⟩) rfl (by simp [decodeRaw, decodeSI, halves12]) hw hx
theorem movhi (g : Guard) (d : Code) (i : BitVec 12) (x : Ext) : Statement (.movhi g d i x) := by
  intro z _ hw hx
  obtain rfl : x = z := of_decide_eq_true hx
  exact decodeWord_encode (f := ⟨3, g, 1, d, (i.extractLsb' 6 6), (i.extractLsb' 0 6)⟩) rfl (by simp [decodeRaw, decodeSI, halves12]) hw hx
theorem addi (g : Guard) (d : Code) (a : Code) (i : Code) (x : Ext) : Statement (.addi g d a i x) := by
  intro z _ hw hx
  obtain rfl : x = z := of_decide_eq_true hx
  exact decodeWord_encode (f := ⟨3, g, 2, d, a, i⟩) rfl (by simp [decodeRaw, decodeSI]) hw hx
theorem ceqi (g : Guard) (c : Code) (a : Code) (i : Code) (x : Ext) : Statement (.ceqi g c a i x) := by
  intro z _ hw hx
  obtain rfl : x = z := of_decide_eq_true hx
  exact decodeWord_encode (f := ⟨3, g, 8, c, a, i⟩) rfl (by simp [decodeRaw, decodeSI]) hw hx
theorem clti (g : Guard) (c : Code) (a : Code) (i : Code) (x : Ext) : Statement (.clti g c a i x) := by
  intro z _ hw hx
  obtain rfl : x = z := of_decide_eq_true hx
  exact decodeWord_encode (f := ⟨3, g, 9, c, a, i⟩) rfl (by simp [decodeRaw, decodeSI]) hw hx
theorem ldW8 (g : Guard) (d : Code) (a : Code) (o : Code) (x : Ext) : Statement (.ldW8 g d a o x) := by
  intro z _ hw hx
  obtain rfl : x = z := of_decide_eq_true hx
  exact decodeWord_encode (f := ⟨4, g, 0, d, a, o⟩) rfl (by simp [decodeRaw, decodeM]) hw hx
theorem ldW16 (g : Guard) (d : Code) (a : Code) (o : Code) (x : Ext) : Statement (.ldW16 g d a o x) := by
  intro z _ hw hx
  obtain rfl : x = z := of_decide_eq_true hx
  exact decodeWord_encode (f := ⟨4, g, 1, d, a, o⟩) rfl (by simp [decodeRaw, decodeM]) hw hx
theorem ldW32 (g : Guard) (d : Code) (a : Code) (o : Code) (x : Ext) : Statement (.ldW32 g d a o x) := by
  intro z _ hw hx
  obtain rfl : x = z := of_decide_eq_true hx
  exact decodeWord_encode (f := ⟨4, g, 2, d, a, o⟩) rfl (by simp [decodeRaw, decodeM]) hw hx
theorem ldW64 (g : Guard) (d : Code) (a : Code) (o : Code) (x : Ext) : Statement (.ldW64 g d a o x) := by
  intro z _ hw hx
  obtain rfl : x = z := of_decide_eq_true hx
  exact decodeWord_encode (f := ⟨4, g, 3, d, a, o⟩) rfl (by simp [decodeRaw, decodeM]) hw hx
theorem stW8 (g : Guard) (v : Code) (a : Code) (o : Code) (x : Ext) : Statement (.stW8 g v a o x) := by
  intro z _ hw hx
  obtain rfl : x = z := of_decide_eq_true hx
  exact decodeWord_encode (f := ⟨4, g, 4, v, a, o⟩) rfl (by simp [decodeRaw, decodeM]) hw hx
theorem stW16 (g : Guard) (v : Code) (a : Code) (o : Code) (x : Ext) : Statement (.stW16 g v a o x) := by
  intro z _ hw hx
  obtain rfl : x = z := of_decide_eq_true hx
  exact decodeWord_encode (f := ⟨4, g, 5, v, a, o⟩) rfl (by simp [decodeRaw, decodeM]) hw hx
theorem stW32 (g : Guard) (v : Code) (a : Code) (o : Code) (x : Ext) : Statement (.stW32 g v a o x) := by
  intro z _ hw hx
  obtain rfl : x = z := of_decide_eq_true hx
  exact decodeWord_encode (f := ⟨4, g, 6, v, a, o⟩) rfl (by simp [decodeRaw, decodeM]) hw hx
theorem stW64 (g : Guard) (v : Code) (a : Code) (o : Code) (x : Ext) : Statement (.stW64 g v a o x) := by
  intro z _ hw hx
  obtain rfl : x = z := of_decide_eq_true hx
  exact decodeWord_encode (f := ⟨4, g, 7, v, a, o⟩) rfl (by simp [decodeRaw, decodeM]) hw hx
theorem ldv (g : Guard) (d : Code) (a : Code) (o : Code) (x : Ext) : Statement (.ldv g d a o x) := by
  intro z _ hw hx
  obtain rfl : x = z := of_decide_eq_true hx
  exact decodeWord_encode (f := ⟨4, g, 8, d, a, o⟩) rfl (by simp [decodeRaw, decodeM]) hw hx
theorem stv (g : Guard) (v : Code) (a : Code) (o : Code) (x : Ext) : Statement (.stv g v a o x) := by
  intro z _ hw hx
  obtain rfl : x = z := of_decide_eq_true hx
  exact decodeWord_encode (f := ⟨4, g, 9, v, a, o⟩) rfl (by simp [decodeRaw, decodeM]) hw hx
theorem amoAdd (g : Guard) (d : Code) (a : Code) (b : Code) (x : Ext) : Statement (.amoAdd g d a b x) := by
  intro z _ hw hx
  obtain rfl : x = z := of_decide_eq_true hx
  exact decodeWord_encode (f := ⟨4, g, 16, d, a, b⟩) rfl (by simp [decodeRaw, decodeM]) hw hx
theorem amoMin (g : Guard) (d : Code) (a : Code) (b : Code) (x : Ext) : Statement (.amoMin g d a b x) := by
  intro z _ hw hx
  obtain rfl : x = z := of_decide_eq_true hx
  exact decodeWord_encode (f := ⟨4, g, 17, d, a, b⟩) rfl (by simp [decodeRaw, decodeM]) hw hx
theorem amoMax (g : Guard) (d : Code) (a : Code) (b : Code) (x : Ext) : Statement (.amoMax g d a b x) := by
  intro z _ hw hx
  obtain rfl : x = z := of_decide_eq_true hx
  exact decodeWord_encode (f := ⟨4, g, 18, d, a, b⟩) rfl (by simp [decodeRaw, decodeM]) hw hx
theorem amoAnd (g : Guard) (d : Code) (a : Code) (b : Code) (x : Ext) : Statement (.amoAnd g d a b x) := by
  intro z _ hw hx
  obtain rfl : x = z := of_decide_eq_true hx
  exact decodeWord_encode (f := ⟨4, g, 19, d, a, b⟩) rfl (by simp [decodeRaw, decodeM]) hw hx
theorem amoOr (g : Guard) (d : Code) (a : Code) (b : Code) (x : Ext) : Statement (.amoOr g d a b x) := by
  intro z _ hw hx
  obtain rfl : x = z := of_decide_eq_true hx
  exact decodeWord_encode (f := ⟨4, g, 20, d, a, b⟩) rfl (by simp [decodeRaw, decodeM]) hw hx
theorem amoXor (g : Guard) (d : Code) (a : Code) (b : Code) (x : Ext) : Statement (.amoXor g d a b x) := by
  intro z _ hw hx
  obtain rfl : x = z := of_decide_eq_true hx
  exact decodeWord_encode (f := ⟨4, g, 21, d, a, b⟩) rfl (by simp [decodeRaw, decodeM]) hw hx
theorem cas (g : Guard) (d : Code) (a : Code) (b : Code) (x : Ext) : Statement (.cas g d a b x) := by
  intro z _ hw hx
  obtain rfl : x = z := of_decide_eq_true hx
  exact decodeWord_encode (f := ⟨4, g, 24, d, a, b⟩) rfl (by simp [decodeRaw, decodeM]) hw hx
theorem fenceAcq (g : Guard) (x : Ext) : Statement (.fenceAcq g x) := by
  intro z _ hw hx
  obtain rfl : x = z := of_decide_eq_true hx
  exact decodeWord_encode (f := ⟨4, g, 32, 0, 0, 0⟩) rfl (by simp [decodeRaw, decodeM]) hw hx
theorem fenceRel (g : Guard) (x : Ext) : Statement (.fenceRel g x) := by
  intro z _ hw hx
  obtain rfl : x = z := of_decide_eq_true hx
  exact decodeWord_encode (f := ⟨4, g, 33, 0, 0, 0⟩) rfl (by simp [decodeRaw, decodeM]) hw hx
theorem fenceFull (g : Guard) (x : Ext) : Statement (.fenceFull g x) := by
  intro z _ hw hx
  obtain rfl : x = z := of_decide_eq_true hx
  exact decodeWord_encode (f := ⟨4, g, 34, 0, 0, 0⟩) rfl (by simp [decodeRaw, decodeM]) hw hx
theorem fenceWaitEnd (core ctx : Nat) : Statement (.fenceWaitEnd core ctx) := fun _ h => nomatch (h : false = true)
theorem pref (g : Guard) (a : Code) (o : Code) (x : Ext) : Statement (.pref g a o x) := by
  intro z _ hw hx
  obtain rfl : x = z := of_decide_eq_true hx
  exact decodeWord_encode (f := ⟨4, g, 40, 0, a, o⟩) rfl (by simp [decodeRaw, decodeM]) hw hx
theorem vmov (g : Guard) (d : Code) (a : Code) (x : Ext) : Statement (.vmov g d a x) := by
  intro z _ hw hx
  obtain rfl : x = z := of_decide_eq_true hx
  exact decodeWord_encode (f := ⟨5, g, 0, d, a, 0⟩) rfl (by simp [decodeRaw, decodeV]) hw hx
theorem vadd (g : Guard) (d : Code) (a : Code) (b : Code) (x : Ext) : Statement (.vadd g d a b x) := by
  intro z _ hw hx
  obtain rfl : x = z := of_decide_eq_true hx
  exact decodeWord_encode (f := ⟨5, g, 1, d, a, b⟩) rfl (by simp [decodeRaw, decodeV]) hw hx
theorem vsub (g : Guard) (d : Code) (a : Code) (b : Code) (x : Ext) : Statement (.vsub g d a b x) := by
  intro z _ hw hx
  obtain rfl : x = z := of_decide_eq_true hx
  exact decodeWord_encode (f := ⟨5, g, 2, d, a, b⟩) rfl (by simp [decodeRaw, decodeV]) hw hx
theorem vmul (g : Guard) (d : Code) (a : Code) (b : Code) (x : Ext) : Statement (.vmul g d a b x) := by
  intro z _ hw hx
  obtain rfl : x = z := of_decide_eq_true hx
  exact decodeWord_encode (f := ⟨5, g, 3, d, a, b⟩) rfl (by simp [decodeRaw, decodeV]) hw hx
theorem vfma (g : Guard) (d : Code) (a : Code) (b : Code) (x : Ext) : Statement (.vfma g d a b x) := by
  intro z _ hw hx
  obtain rfl : x = z := of_decide_eq_true hx
  exact decodeWord_encode (f := ⟨5, g, 4, d, a, b⟩) rfl (by simp [decodeRaw, decodeV]) hw hx
theorem vfms (g : Guard) (d : Code) (a : Code) (b : Code) (x : Ext) : Statement (.vfms g d a b x) := by
  intro z _ hw hx
  obtain rfl : x = z := of_decide_eq_true hx
  exact decodeWord_encode (f := ⟨5, g, 5, d, a, b⟩) rfl (by simp [decodeRaw, decodeV]) hw hx
theorem vmin (g : Guard) (d : Code) (a : Code) (b : Code) (x : Ext) : Statement (.vmin g d a b x) := by
  intro z _ hw hx
  obtain rfl : x = z := of_decide_eq_true hx
  exact decodeWord_encode (f := ⟨5, g, 6, d, a, b⟩) rfl (by simp [decodeRaw, decodeV]) hw hx
theorem vmax (g : Guard) (d : Code) (a : Code) (b : Code) (x : Ext) : Statement (.vmax g d a b x) := by
  intro z _ hw hx
  obtain rfl : x = z := of_decide_eq_true hx
  exact decodeWord_encode (f := ⟨5, g, 7, d, a, b⟩) rfl (by simp [decodeRaw, decodeV]) hw hx
theorem vabs (g : Guard) (d : Code) (a : Code) (x : Ext) : Statement (.vabs g d a x) := by
  intro z _ hw hx
  obtain rfl : x = z := of_decide_eq_true hx
  exact decodeWord_encode (f := ⟨5, g, 8, d, a, 0⟩) rfl (by simp [decodeRaw, decodeV]) hw hx
theorem vneg (g : Guard) (d : Code) (a : Code) (x : Ext) : Statement (.vneg g d a x) := by
  intro z _ hw hx
  obtain rfl : x = z := of_decide_eq_true hx
  exact decodeWord_encode (f := ⟨5, g, 9, d, a, 0⟩) rfl (by simp [decodeRaw, decodeV]) hw hx
theorem vrcp (g : Guard) (d : Code) (a : Code) (x : Ext) : Statement (.vrcp g d a x) := by
  intro z _ hw hx
  obtain rfl : x = z := of_decide_eq_true hx
  exact decodeWord_encode (f := ⟨5, g, 10, d, a, 0⟩) rfl (by simp [decodeRaw, decodeV]) hw hx
theorem vrsq (g : Guard) (d : Code) (a : Code) (x : Ext) : Statement (.vrsq g d a x) := by
  intro z _ hw hx
  obtain rfl : x = z := of_decide_eq_true hx
  exact decodeWord_encode (f := ⟨5, g, 11, d, a, 0⟩) rfl (by simp [decodeRaw, decodeV]) hw hx
theorem vexp2 (g : Guard) (d : Code) (a : Code) (x : Ext) : Statement (.vexp2 g d a x) := by
  intro z _ hw hx
  obtain rfl : x = z := of_decide_eq_true hx
  exact decodeWord_encode (f := ⟨5, g, 12, d, a, 0⟩) rfl (by simp [decodeRaw, decodeV]) hw hx
theorem vlog2 (g : Guard) (d : Code) (a : Code) (x : Ext) : Statement (.vlog2 g d a x) := by
  intro z _ hw hx
  obtain rfl : x = z := of_decide_eq_true hx
  exact decodeWord_encode (f := ⟨5, g, 13, d, a, 0⟩) rfl (by simp [decodeRaw, decodeV]) hw hx
theorem vand (g : Guard) (d : Code) (a : Code) (b : Code) (x : Ext) : Statement (.vand g d a b x) := by
  intro z _ hw hx
  obtain rfl : x = z := of_decide_eq_true hx
  exact decodeWord_encode (f := ⟨5, g, 16, d, a, b⟩) rfl (by simp [decodeRaw, decodeV]) hw hx
theorem vor (g : Guard) (d : Code) (a : Code) (b : Code) (x : Ext) : Statement (.vor g d a b x) := by
  intro z _ hw hx
  obtain rfl : x = z := of_decide_eq_true hx
  exact decodeWord_encode (f := ⟨5, g, 17, d, a, b⟩) rfl (by simp [decodeRaw, decodeV]) hw hx
theorem vxor (g : Guard) (d : Code) (a : Code) (b : Code) (x : Ext) : Statement (.vxor g d a b x) := by
  intro z _ hw hx
  obtain rfl : x = z := of_decide_eq_true hx
  exact decodeWord_encode (f := ⟨5, g, 18, d, a, b⟩) rfl (by simp [decodeRaw, decodeV]) hw hx
theorem vshl (g : Guard) (d : Code) (a : Code) (b : Code) (x : Ext) : Statement (.vshl g d a b x) := by
  intro z _ hw hx
  obtain rfl : x = z := of_decide_eq_true hx
  exact decodeWord_encode (f := ⟨5, g, 19, d, a, b⟩) rfl (by simp [decodeRaw, decodeV]) hw hx
theorem vshr (g : Guard) (d : Code) (a : Code) (b : Code) (x : Ext) : Statement (.vshr g d a b x) := by
  intro z _ hw hx
  obtain rfl : x = z := of_decide_eq_true hx
  exact decodeWord_encode (f := ⟨5, g, 20, d, a, b⟩) rfl (by simp [decodeRaw, decodeV]) hw hx
theorem vsar (g : Guard) (d : Code) (a : Code) (b : Code) (x : Ext) : Statement (.vsar g d a b x) := by
  intro z _ hw hx
  obtain rfl : x = z := of_decide_eq_true hx
  exact decodeWord_encode (f := ⟨5, g, 21, d, a, b⟩) rfl (by simp [decodeRaw, decodeV]) hw hx
theorem vcmpEq (g : Guard) (m : Code) (a : Code) (b : Code) (x : Ext) : Statement (.vcmpEq g m a b x) := by
  intro z _ hw hx
  obtain rfl : x = z := of_decide_eq_true hx
  exact decodeWord_encode (f := ⟨5, g, 24, m, a, b⟩) rfl (by simp [decodeRaw, decodeV]) hw hx
theorem vcmpNe (g : Guard) (m : Code) (a : Code) (b : Code) (x : Ext) : Statement (.vcmpNe g m a b x) := by
  intro z _ hw hx
  obtain rfl : x = z := of_decide_eq_true hx
  exact decodeWord_encode (f := ⟨5, g, 25, m, a, b⟩) rfl (by simp [decodeRaw, decodeV]) hw hx
theorem vcmpLt (g : Guard) (m : Code) (a : Code) (b : Code) (x : Ext) : Statement (.vcmpLt g m a b x) := by
  intro z _ hw hx
  obtain rfl : x = z := of_decide_eq_true hx
  exact decodeWord_encode (f := ⟨5, g, 26, m, a, b⟩) rfl (by simp [decodeRaw, decodeV]) hw hx
theorem vcmpLe (g : Guard) (m : Code) (a : Code) (b : Code) (x : Ext) : Statement (.vcmpLe g m a b x) := by
  intro z _ hw hx
  obtain rfl : x = z := of_decide_eq_true hx
  exact decodeWord_encode (f := ⟨5, g, 27, m, a, b⟩) rfl (by simp [decodeRaw, decodeV]) hw hx
theorem vcmpGt (g : Guard) (m : Code) (a : Code) (b : Code) (x : Ext) : Statement (.vcmpGt g m a b x) := by
  intro z _ hw hx
  obtain rfl : x = z := of_decide_eq_true hx
  exact decodeWord_encode (f := ⟨5, g, 28, m, a, b⟩) rfl (by simp [decodeRaw, decodeV]) hw hx
theorem vcmpGe (g : Guard) (m : Code) (a : Code) (b : Code) (x : Ext) : Statement (.vcmpGe g m a b x) := by
  intro z _ hw hx
  obtain rfl : x = z := of_decide_eq_true hx
  exact decodeWord_encode (f := ⟨5, g, 29, m, a, b⟩) rfl (by simp [decodeRaw, decodeV]) hw hx
theorem vcmpUn (g : Guard) (m : Code) (a : Code) (b : Code) (x : Ext) : Statement (.vcmpUn g m a b x) := by
  intro z _ hw hx
  obtain rfl : x = z := of_decide_eq_true hx
  exact decodeWord_encode (f := ⟨5, g, 30, m, a, b⟩) rfl (by simp [decodeRaw, decodeV]) hw hx
theorem vsel (g : Guard) (d : Code) (a : Code) (b : Code) (x : Ext) : Statement (.vsel g d a b x) := by
  intro z _ hw hx
  obtain rfl : x = z := of_decide_eq_true hx
  exact decodeWord_encode (f := ⟨5, g, 32, d, a, b⟩) rfl (by simp [decodeRaw, decodeV]) hw hx
theorem vbcast (g : Guard) (d : Code) (a : Code) (x : Ext) : Statement (.vbcast g d a x) := by
  intro z _ hw hx
  obtain rfl : x = z := of_decide_eq_true hx
  exact decodeWord_encode (f := ⟨5, g, 33, d, a, 0⟩) rfl (by simp [decodeRaw, decodeV]) hw hx
theorem vredAdd (g : Guard) (d : Code) (a : Code) (x : Ext) : Statement (.vredAdd g d a x) := by
  intro z _ hw hx
  obtain rfl : x = z := of_decide_eq_true hx
  exact decodeWord_encode (f := ⟨5, g, 34, d, a, 0⟩) rfl (by simp [decodeRaw, decodeV]) hw hx
theorem vredMax (g : Guard) (d : Code) (a : Code) (x : Ext) : Statement (.vredMax g d a x) := by
  intro z _ hw hx
  obtain rfl : x = z := of_decide_eq_true hx
  exact decodeWord_encode (f := ⟨5, g, 35, d, a, 0⟩) rfl (by simp [decodeRaw, decodeV]) hw hx
theorem vredMin (g : Guard) (d : Code) (a : Code) (x : Ext) : Statement (.vredMin g d a x) := by
  intro z _ hw hx
  obtain rfl : x = z := of_decide_eq_true hx
  exact decodeWord_encode (f := ⟨5, g, 36, d, a, 0⟩) rfl (by simp [decodeRaw, decodeV]) hw hx
theorem vperm (g : Guard) (d : Code) (a : Code) (b : Code) (x : Ext) : Statement (.vperm g d a b x) := by
  intro z _ hw hx
  obtain rfl : x = z := of_decide_eq_true hx
  exact decodeWord_encode (f := ⟨5, g, 37, d, a, b⟩) rfl (by simp [decodeRaw, decodeV]) hw hx
theorem vshuf (g : Guard) (d : Code) (a : Code) (p : Code) (x : Ext) : Statement (.vshuf g d a p x) := by
  intro z _ hw hx
  obtain rfl : x = z := of_decide_eq_true hx
  exact decodeWord_encode (f := ⟨5, g, 38, d, a, p⟩) rfl (by simp [decodeRaw, decodeV]) hw hx
theorem vmodadd (g : Guard) (d : Code) (a : Code) (b : Code) (x : Ext) : Statement (.vmodadd g d a b x) := by
  intro z _ hw hx
  obtain rfl : x = z := of_decide_eq_true hx
  exact decodeWord_encode (f := ⟨5, g, 40, d, a, b⟩) rfl (by simp [decodeRaw, decodeV]) hw hx
theorem vmodsub (g : Guard) (d : Code) (a : Code) (b : Code) (x : Ext) : Statement (.vmodsub g d a b x) := by
  intro z _ hw hx
  obtain rfl : x = z := of_decide_eq_true hx
  exact decodeWord_encode (f := ⟨5, g, 41, d, a, b⟩) rfl (by simp [decodeRaw, decodeV]) hw hx
theorem vmodmul (g : Guard) (d : Code) (a : Code) (b : Code) (x : Ext) : Statement (.vmodmul g d a b x) := by
  intro z _ hw hx
  obtain rfl : x = z := of_decide_eq_true hx
  exact decodeWord_encode (f := ⟨5, g, 42, d, a, b⟩) rfl (by simp [decodeRaw, decodeV]) hw hx
theorem vbfly (g : Guard) (d : Code) (a : Code) (b : Code) (x : Ext) : Statement (.vbfly g d a b x) := by
  intro z _ hw hx
  obtain rfl : x = z := of_decide_eq_true hx
  exact decodeWord_encode (f := ⟨5, g, 43, d, a, b⟩) rfl (by simp [decodeRaw, decodeV]) hw hx
theorem vibfly (g : Guard) (d : Code) (a : Code) (b : Code) (x : Ext) : Statement (.vibfly g d a b x) := by
  intro z _ hw hx
  obtain rfl : x = z := of_decide_eq_true hx
  exact decodeWord_encode (f := ⟨5, g, 44, d, a, b⟩) rfl (by simp [decodeRaw, decodeV]) hw hx
theorem vmaskAnd (g : Guard) (m : Code) (y : Code) (z : Code) : Statement (.vmaskAnd g m y z) :=
  fun _ _ hw hx => decodeWord_encode (f := ⟨5, g, 48, m, y, z⟩) rfl (by simp [decodeRaw, decodeV]) hw hx
theorem vmaskOr (g : Guard) (m : Code) (y : Code) (z : Code) : Statement (.vmaskOr g m y z) :=
  fun _ _ hw hx => decodeWord_encode (f := ⟨5, g, 49, m, y, z⟩) rfl (by simp [decodeRaw, decodeV]) hw hx
theorem vmaskXor (g : Guard) (m : Code) (y : Code) (z : Code) : Statement (.vmaskXor g m y z) :=
  fun _ _ hw hx => decodeWord_encode (f := ⟨5, g, 50, m, y, z⟩) rfl (by simp [decodeRaw, decodeV]) hw hx
theorem vmaskAndn (g : Guard) (m : Code) (y : Code) (z : Code) : Statement (.vmaskAndn g m y z) :=
  fun _ _ hw hx => decodeWord_encode (f := ⟨5, g, 51, m, y, z⟩) rfl (by simp [decodeRaw, decodeV]) hw hx
theorem vmaskNot (g : Guard) (m : Code) (y : Code) : Statement (.vmaskNot g m y) :=
  fun _ _ hw hx => decodeWord_encode (f := ⟨5, g, 52, m, y, 0⟩) rfl (by simp [decodeRaw, decodeV]) hw hx
theorem vlane (g : Guard) (d : Code) (x : Ext) : Statement (.vlane g d x) := by
  intro z _ hw hx
  obtain rfl : x = z := of_decide_eq_true hx
  exact decodeWord_encode (f := ⟨5, g, 56, d, 0, 0⟩) rfl (by simp [decodeRaw, decodeV]) hw hx
theorem vcvt (g : Guard) (r : BitVec 3) (d : Code) (a : Code) (x : Ext) : Statement (.vcvt g r d a x) := by
  intro z _ hw hx
  obtain rfl : x = z := of_decide_eq_true hx
  exact decodeWord_encode (f := ⟨6, g, (0#3 ++ r), d, a, 0⟩) rfl (by simp [decodeRaw, decodeVI, vcvtMinor]) hw hx
theorem vbcastI (g : Guard) (d : Code) (i : BitVec 12) (x : Ext) : Statement (.vbcastI g d i x) := by
  intro z _ hw hx
  obtain rfl : x = z := of_decide_eq_true hx
  exact decodeWord_encode (f := ⟨6, g, 16, d, (i.extractLsb' 6 6), (i.extractLsb' 0 6)⟩) rfl (by simp [decodeRaw, decodeVI, halves12]) hw hx
theorem vshlI (g : Guard) (d : Code) (a : Code) (n : Code) (x : Ext) : Statement (.vshlI g d a n x) := by
  intro z _ hw hx
  obtain rfl : x = z := of_decide_eq_true hx
  exact decodeWord_encode (f := ⟨6, g, 19, d, a, n⟩) rfl (by simp [decodeRaw, decodeVI]) hw hx
theorem vshrI (g : Guard) (d : Code) (a : Code) (n : Code) (x : Ext) : Statement (.vshrI g d a n x) := by
  intro z _ hw hx
  obtain rfl : x = z := of_decide_eq_true hx
  exact decodeWord_encode (f := ⟨6, g, 20, d, a, n⟩) rfl (by simp [decodeRaw, decodeVI]) hw hx
theorem vsarI (g : Guard) (d : Code) (a : Code) (n : Code) (x : Ext) : Statement (.vsarI g d a n x) := by
  intro z _ hw hx
  obtain rfl : x = z := of_decide_eq_true hx
  exact decodeWord_encode (f := ⟨6, g, 21, d, a, n⟩) rfl (by simp [decodeRaw, decodeVI]) hw hx
theorem xbeat (g : Guard) (s : BitVec 2) (w : BitVec 2) (p : BitVec 1) (r : Code) (o : BitVec 12) (x : Ext) : Statement (.xbeat g s w p r o x) := by
  intro z _ hw hx
  obtain rfl : x = z := of_decide_eq_true hx
  exact decodeWord_encode (f := ⟨7, g, (0#1 ++ s ++ w ++ p), r, (o.extractLsb' 6 6), (o.extractLsb' 0 6)⟩) rfl (by simp [decodeRaw, decodeX, halves12, xbeatMinor]) hw hx
theorem xmode (g : Guard) (a : Code) : Statement (.xmode g a) :=
  fun _ _ hw hx => decodeWord_encode (f := ⟨7, g, 32, 0, a, 0⟩) rfl (by simp [decodeRaw, decodeX]) hw hx
theorem xzero (g : Guard) (r : Code) : Statement (.xzero g r) :=
  fun _ _ hw hx => decodeWord_encode (f := ⟨7, g, 33, r, 0, 0⟩) rfl (by simp [decodeRaw, decodeX]) hw hx
theorem xcks (g : Guard) (d : Code) (a : Code) (b : Code) : Statement (.xcks g d a b) :=
  fun _ _ hw hx => decodeWord_encode (f := ⟨7, g, 34, d, a, b⟩) rfl (by simp [decodeRaw, decodeX]) hw hx
theorem xfix (g : Guard) (d : Code) (a : Code) : Statement (.xfix g d a) :=
  fun _ _ hw hx => decodeWord_encode (f := ⟨7, g, 35, d, a, 0⟩) rfl (by simp [decodeRaw, decodeX]) hw hx
theorem xres (g : Guard) (k : Code) : Statement (.xres g k) :=
  fun _ _ hw hx => decodeWord_encode (f := ⟨7, g, 36, 0, 0, k⟩) rfl (by simp [decodeRaw, decodeX]) hw hx
theorem xwin (g : Guard) (a : Code) : Statement (.xwin g a) :=
  fun _ _ hw hx => decodeWord_encode (f := ⟨7, g, 37, 0, a, 0⟩) rfl (by simp [decodeRaw, decodeX]) hw hx
theorem xwinWake (core ctx : Nat) : Statement (.xwinWake core ctx) := fun _ h => nomatch (h : false = true)
theorem xinj (g : Guard) (r : Code) (a : Code) (b : Code) : Statement (.xinj g r a b) :=
  fun _ _ hw hx => decodeWord_encode (f := ⟨7, g, 63, r, a, b⟩) rfl (by simp [decodeRaw, decodeX]) hw hx
theorem lds (g : Guard) (d : Code) (a : Code) (o : Code) (x : Ext) : Statement (.lds g d a o x) := by
  intro z _ hw hx
  obtain rfl : x = z := of_decide_eq_true hx
  exact decodeWord_encode (f := ⟨8, g, 0, d, a, o⟩) rfl (by simp [decodeRaw, decodeT]) hw hx
theorem ldsTag (g : Guard) (d : Code) (a : Code) (t : Code) : Statement (.ldsTag g d a t) :=
  fun _ _ hw hx => decodeWord_encode (f := ⟨8, g, 1, d, a, t⟩) rfl (by simp [decodeRaw, decodeT]) hw hx
theorem sts (g : Guard) (v : Code) (a : Code) (o : Code) (x : Ext) : Statement (.sts g v a o x) := by
  intro z _ hw hx
  obtain rfl : x = z := of_decide_eq_true hx
  exact decodeWord_encode (f := ⟨8, g, 2, v, a, o⟩) rfl (by simp [decodeRaw, decodeT]) hw hx
theorem ldss (g : Guard) (d : Code) (a : Code) (o : Code) (x : Ext) : Statement (.ldss g d a o x) := by
  intro z _ hw hx
  obtain rfl : x = z := of_decide_eq_true hx
  exact decodeWord_encode (f := ⟨8, g, 4, d, a, o⟩) rfl (by simp [decodeRaw, decodeT]) hw hx
theorem stss (g : Guard) (v : Code) (a : Code) (o : Code) (x : Ext) : Statement (.stss g v a o x) := by
  intro z _ hw hx
  obtain rfl : x = z := of_decide_eq_true hx
  exact decodeWord_encode (f := ⟨8, g, 5, v, a, o⟩) rfl (by simp [decodeRaw, decodeT]) hw hx
theorem scratchpadStorePerform (core ctx : Nat) : Statement (.scratchpadStorePerform core ctx) := fun _ h => nomatch (h : false = true)
theorem bfmt (g : Guard) (k : Code) (a : Code) : Statement (.bfmt g k a) :=
  fun _ _ hw hx => decodeWord_encode (f := ⟨8, g, 8, k, a, 0⟩) rfl (by simp [decodeRaw, decodeT]) hw hx
theorem mv (g : Guard) (d : Code) (s : Code) (x : Ext) : Statement (.mv g d s x) := by
  intro z _ hw hx
  obtain rfl : x = z := of_decide_eq_true hx
  exact decodeWord_encode (f := ⟨8, g, 16, d, s, 0⟩) rfl (by simp [decodeRaw, decodeT]) hw hx
theorem mvi (g : Guard) (d : Code) (i : BitVec 12) (x : Ext) : Statement (.mvi g d i x) := by
  intro z _ hw hx
  obtain rfl : x = z := of_decide_eq_true hx
  exact decodeWord_encode (f := ⟨8, g, 17, d, (i.extractLsb' 6 6), (i.extractLsb' 0 6)⟩) rfl (by simp [decodeRaw, decodeT, halves12]) hw hx
theorem unitResultLanding (core : Nat) : Statement (.unitResultLanding core) := fun _ h => nomatch (h : false = true)
theorem fpeek (g : Guard) (d : Code) (f : Code) : Statement (.fpeek g d f) :=
  fun _ _ hw hx => decodeWord_encode (f := ⟨8, g, 24, d, 0, f⟩) rfl (by simp [decodeRaw, decodeT]) hw hx
theorem flev (g : Guard) (d : Code) (f : Code) : Statement (.flev g d f) :=
  fun _ _ hw hx => decodeWord_encode (f := ⟨8, g, 25, d, 0, f⟩) rfl (by simp [decodeRaw, decodeT]) hw hx
theorem lrec (g : Guard) (k : Code) (a : Code) : Statement (.lrec g k a) :=
  fun _ _ hw hx => decodeWord_encode (f := ⟨9, g, 0, k, a, 0⟩) rfl (by simp [decodeRaw, decodeC]) hw hx
theorem cpy (g : Guard) (d : Code) (l : Code) (m : Code) (x : Ext) : Statement (.cpy g d l m x) := by
  intro z _ hw hx
  obtain rfl : x = z := of_decide_eq_true hx
  exact decodeWord_encode (f := ⟨9, g, 1, d, l, m⟩) rfl (by simp [decodeRaw, decodeC]) hw hx
theorem cpyx (g : Guard) (d : Code) (l : Code) (m : Code) (x : Ext) : Statement (.cpyx g d l m x) := by
  intro z _ hw hx
  obtain rfl : x = z := of_decide_eq_true hx
  exact decodeWord_encode (f := ⟨9, g, 2, d, l, m⟩) rfl (by simp [decodeRaw, decodeC]) hw hx
theorem cpyt (g : Guard) (a : Code) (l : Code) (m : Code) (x : Ext) : Statement (.cpyt g a l m x) := by
  intro z _ hw hx
  obtain rfl : x = z := of_decide_eq_true hx
  exact decodeWord_encode (f := ⟨9, g, 3, a, l, m⟩) rfl (by simp [decodeRaw, decodeC]) hw hx
theorem timedPacketRead (cl ch id : Nat) : Statement (.timedPacketRead cl ch id) := fun _ h => nomatch (h : false = true)
theorem timedPacketWrite (cl ch id : Nat) : Statement (.timedPacketWrite cl ch id) := fun _ h => nomatch (h : false = true)
theorem trackedCopyStart (cl ch : Nat) : Statement (.trackedCopyStart cl ch) := fun _ h => nomatch (h : false = true)
theorem trackedCopyElement (cl ch : Nat) : Statement (.trackedCopyElement cl ch) := fun _ h => nomatch (h : false = true)
theorem trackedCopyComplete (cl ch : Nat) : Statement (.trackedCopyComplete cl ch) := fun _ h => nomatch (h : false = true)
theorem cidw (g : Guard) (a : Code) (x : Ext) : Statement (.cidw g a x) := by
  intro z _ hw hx
  obtain rfl : x = z := of_decide_eq_true hx
  exact decodeWord_encode (f := ⟨9, g, 8, 0, a, 0⟩) rfl (by simp [decodeRaw, decodeC]) hw hx
theorem cidwWake (core ctx : Nat) : Statement (.cidwWake core ctx) := fun _ h => nomatch (h : false = true)
theorem cidr (g : Guard) (d : Code) (x : Ext) : Statement (.cidr g d x) := by
  intro z _ hw hx
  obtain rfl : x = z := of_decide_eq_true hx
  exact decodeWord_encode (f := ⟨9, g, 9, d, 0, 0⟩) rfl (by simp [decodeRaw, decodeC]) hw hx
theorem cinv (g : Guard) (a : Code) (x : Ext) : Statement (.cinv g a x) := by
  intro z _ hw hx
  obtain rfl : x = z := of_decide_eq_true hx
  exact decodeWord_encode (f := ⟨9, g, 10, 0, a, 0⟩) rfl (by simp [decodeRaw, decodeC]) hw hx
theorem chalt (g : Guard) (x : Ext) : Statement (.chalt g x) := by
  intro z _ hw hx
  obtain rfl : x = z := of_decide_eq_true hx
  exact decodeWord_encode (f := ⟨9, g, 11, 0, 0, 0⟩) rfl (by simp [decodeRaw, decodeC]) hw hx
theorem gload (g : Guard) (a : Code) (n : Code) : Statement (.gload g a n) :=
  fun _ _ hw hx => decodeWord_encode (f := ⟨10, g, 0, 0, a, n⟩) rfl (by simp [decodeRaw, decodeG]) hw hx
theorem groupLoadLanding (pair : Nat) : Statement (.groupLoadLanding pair) := fun _ h => nomatch (h : false = true)
theorem gchk (g : Guard) (d : Code) : Statement (.gchk g d) :=
  fun _ _ hw hx => decodeWord_encode (f := ⟨10, g, 1, d, 0, 0⟩) rfl (by simp [decodeRaw, decodeG]) hw hx
theorem gchkVerdict (pair : Nat) : Statement (.gchkVerdict pair) := fun _ h => nomatch (h : false = true)
theorem gsel (g : Guard) (a : Code) : Statement (.gsel g a) :=
  fun _ _ hw hx => decodeWord_encode (f := ⟨10, g, 2, 0, a, 0⟩) rfl (by simp [decodeRaw, decodeG]) hw hx
theorem gorb (g : Guard) (r : Code) (a : Code) : Statement (.gorb g r a) :=
  fun _ _ hw hx => decodeWord_encode (f := ⟨10, g, 3, r, a, 0⟩) rfl (by simp [decodeRaw, decodeG]) hw hx
theorem gstat (g : Guard) (d : Code) : Statement (.gstat g d) :=
  fun _ _ hw hx => decodeWord_encode (f := ⟨10, g, 4, d, 0, 0⟩) rfl (by simp [decodeRaw, decodeG]) hw hx
theorem resultLanding (core ctx : Nat) : Statement (.resultLanding core ctx) := fun _ h => nomatch (h : false = true)
theorem contributionLanding (pair : Nat) : Statement (.contributionLanding pair) := fun _ h => nomatch (h : false = true)
theorem arrayEffectLanding (pair : Nat) : Statement (.arrayEffectLanding pair) := fun _ h => nomatch (h : false = true)
theorem gorbLanding (pair : Nat) : Statement (.gorbLanding pair) := fun _ h => nomatch (h : false = true)
theorem msend (g : Guard) (a : Code) (b : Code) : Statement (.msend g a b) :=
  fun _ _ hw hx => decodeWord_encode (f := ⟨11, g, 0, 0, a, b⟩) rfl (by simp [decodeRaw, decodeF]) hw hx
theorem mhnd (g : Guard) (a : Code) : Statement (.mhnd g a) :=
  fun _ _ hw hx => decodeWord_encode (f := ⟨11, g, 1, 0, a, 0⟩) rfl (by simp [decodeRaw, decodeF]) hw hx
theorem wquiet (g : Guard) : Statement (.wquiet g) :=
  fun _ _ hw hx => decodeWord_encode (f := ⟨11, g, 2, 0, 0, 0⟩) rfl (by simp [decodeRaw, decodeF]) hw hx
theorem rcstat (g : Guard) (d : Code) : Statement (.rcstat g d) :=
  fun _ _ hw hx => decodeWord_encode (f := ⟨11, g, 3, d, 0, 0⟩) rfl (by simp [decodeRaw, decodeF]) hw hx
theorem collAr (g : Guard) (d : Code) (a : Code) : Statement (.collAr g d a) :=
  fun _ _ hw hx => decodeWord_encode (f := ⟨11, g, 4, d, a, 0⟩) rfl (by simp [decodeRaw, decodeF]) hw hx
theorem collRs (g : Guard) (d : Code) (a : Code) : Statement (.collRs g d a) :=
  fun _ _ hw hx => decodeWord_encode (f := ⟨11, g, 5, d, a, 0⟩) rfl (by simp [decodeRaw, decodeF]) hw hx
theorem collAg (g : Guard) (d : Code) (a : Code) : Statement (.collAg g d a) :=
  fun _ _ hw hx => decodeWord_encode (f := ⟨11, g, 6, d, a, 0⟩) rfl (by simp [decodeRaw, decodeF]) hw hx
theorem collBc (g : Guard) (d : Code) (a : Code) : Statement (.collBc g d a) :=
  fun _ _ hw hx => decodeWord_encode (f := ⟨11, g, 7, d, a, 0⟩) rfl (by simp [decodeRaw, decodeF]) hw hx
theorem bar (g : Guard) (n : Code) : Statement (.bar g n) :=
  fun _ _ hw hx => decodeWord_encode (f := ⟨11, g, 8, 0, 0, n⟩) rfl (by simp [decodeRaw, decodeF]) hw hx
theorem gbar (g : Guard) (n : Code) : Statement (.gbar g n) :=
  fun _ _ hw hx => decodeWord_encode (f := ⟨11, g, 9, 0, 0, n⟩) rfl (by simp [decodeRaw, decodeF]) hw hx
theorem barrierRelease (key : Nat) : Statement (.barrierRelease key) := fun _ h => nomatch (h : false = true)
theorem ctrinc (g : Guard) (a : Code) (b : Code) : Statement (.ctrinc g a b) :=
  fun _ _ hw hx => decodeWord_encode (f := ⟨11, g, 10, 0, a, b⟩) rfl (by simp [decodeRaw, decodeF]) hw hx
theorem ctrwait (g : Guard) (a : Code) (b : Code) : Statement (.ctrwait g a b) :=
  fun _ _ hw hx => decodeWord_encode (f := ⟨11, g, 11, 0, a, b⟩) rfl (by simp [decodeRaw, decodeF]) hw hx
theorem counterWaitWake (core ctx : Nat) : Statement (.counterWaitWake core ctx) := fun _ h => nomatch (h : false = true)
theorem launch (g : Guard) (d : Code) (a : Code) : Statement (.launch g d a) :=
  fun _ _ hw hx => decodeWord_encode (f := ⟨11, g, 16, d, a, 0⟩) rfl (by simp [decodeRaw, decodeF]) hw hx
theorem launchn (g : Guard) (d : Code) (a : Code) : Statement (.launchn g d a) :=
  fun _ _ hw hx => decodeWord_encode (f := ⟨11, g, 17, d, a, 0⟩) rfl (by simp [decodeRaw, decodeF]) hw hx
theorem glaunch (g : Guard) (d : Code) (a : Code) : Statement (.glaunch g d a) :=
  fun _ _ hw hx => decodeWord_encode (f := ⟨11, g, 18, d, a, 0⟩) rfl (by simp [decodeRaw, decodeF]) hw hx
theorem launchWaitSlot (core ctx : Nat) : Statement (.launchWaitSlot core ctx) := fun _ h => nomatch (h : false = true)
theorem fwait (g : Guard) (d : Code) : Statement (.fwait g d) :=
  fun _ _ hw hx => decodeWord_encode (f := ⟨11, g, 24, d, 0, 0⟩) rfl (by simp [decodeRaw, decodeF]) hw hx
theorem frget (g : Guard) (d : Code) (a : Code) (b : Code) : Statement (.frget g d a b) :=
  fun _ _ hw hx => decodeWord_encode (f := ⟨11, g, 25, d, a, b⟩) rfl (by simp [decodeRaw, decodeF]) hw hx
theorem frput (g : Guard) (c : Code) (a : Code) (b : Code) : Statement (.frput g c a b) :=
  fun _ _ hw hx => decodeWord_encode (f := ⟨11, g, 26, c, a, b⟩) rfl (by simp [decodeRaw, decodeF]) hw hx
theorem frres (g : Guard) (a : Code) : Statement (.frres g a) :=
  fun _ _ hw hx => decodeWord_encode (f := ⟨11, g, 27, 0, a, 0⟩) rfl (by simp [decodeRaw, decodeF]) hw hx
theorem frskip (g : Guard) (a : Code) : Statement (.frskip g a) :=
  fun _ _ hw hx => decodeWord_encode (f := ⟨11, g, 28, 0, a, 0⟩) rfl (by simp [decodeRaw, decodeF]) hw hx
theorem frkill (g : Guard) (a : Code) : Statement (.frkill g a) :=
  fun _ _ hw hx => decodeWord_encode (f := ⟨11, g, 29, 0, a, 0⟩) rfl (by simp [decodeRaw, decodeF]) hw hx
theorem frexc (g : Guard) (a : Code) : Statement (.frexc g a) :=
  fun _ _ hw hx => decodeWord_encode (f := ⟨11, g, 30, 0, a, 0⟩) rfl (by simp [decodeRaw, decodeF]) hw hx
theorem wload (g : Guard) (a : Code) : Statement (.wload g a) :=
  fun _ _ hw hx => decodeWord_encode (f := ⟨11, g, 32, 0, a, 0⟩) rfl (by simp [decodeRaw, decodeF]) hw hx
theorem wloadService : Statement (.wloadService) := fun _ h => absurd h (by decide)
theorem kwipe (g : Guard) (a : Code) : Statement (.kwipe g a) :=
  fun _ _ hw hx => decodeWord_encode (f := ⟨11, g, 33, 0, a, 0⟩) rfl (by simp [decodeRaw, decodeF]) hw hx
theorem fuserd (g : Guard) (d : Code) (a : Code) : Statement (.fuserd g d a) :=
  fun _ _ hw hx => decodeWord_encode (f := ⟨11, g, 34, d, a, 0⟩) rfl (by simp [decodeRaw, decodeF]) hw hx
theorem mext (g : Guard) (a : Code) (b : Code) : Statement (.mext g a b) :=
  fun _ _ hw hx => decodeWord_encode (f := ⟨11, g, 35, 0, a, b⟩) rfl (by simp [decodeRaw, decodeF]) hw hx
theorem dbgopen (g : Guard) (a : Code) : Statement (.dbgopen g a) :=
  fun _ _ hw hx => decodeWord_encode (f := ⟨11, g, 36, 0, a, 0⟩) rfl (by simp [decodeRaw, decodeF]) hw hx
theorem nullifierSkip (core ctx : Nat) : Statement (.nullifierSkip core ctx) := fun _ h => nomatch (h : false = true)
theorem bundleSplit (core parts : Nat) : Statement (.bundleSplit core parts) := fun _ h => nomatch (h : false = true)
theorem deferredFaultRaise (core ctx : Nat) : Statement (.deferredFaultRaise core ctx) := fun _ h => nomatch (h : false = true)
theorem preemption (core ctx : Nat) : Statement (.preemption core ctx) := fun _ h => nomatch (h : false = true)
theorem preemptedResume (core ctx : Nat) : Statement (.preemptedResume core ctx) := fun _ h => nomatch (h : false = true)
theorem translationWalk (core : Nat) : Statement (.translationWalk core) := fun _ h => nomatch (h : false = true)
theorem globalLoadLanding (core ctx id : Nat) : Statement (.globalLoadLanding core ctx id) := fun _ h => nomatch (h : false = true)
theorem l1Fill (core line : Nat) : Statement (.l1Fill core line) := fun _ h => nomatch (h : false = true)
theorem sealedLineFill (die line : Nat) (ok : Bool) : Statement (.sealedLineFill die line ok) := fun _ h => nomatch (h : false = true)
theorem bufferedAmoMerge (core pa : Nat) : Statement (.bufferedAmoMerge core pa) := fun _ h => nomatch (h : false = true)
theorem bufferedAmoTimeout (core pa : Nat) : Statement (.bufferedAmoTimeout core pa) := fun _ h => nomatch (h : false = true)
theorem crossDieWriteApply (die id : Nat) : Statement (.crossDieWriteApply die id) := fun _ h => nomatch (h : false = true)
theorem arbiterAging (id : Nat) : Statement (.arbiterAging id) := fun _ h => nomatch (h : false = true)
theorem launchPlacement (slot : Nat) : Statement (.launchPlacement slot) := fun _ h => nomatch (h : false = true)
theorem completionTreeReport (launch level node : Nat) : Statement (.completionTreeReport launch level node) := fun _ h => nomatch (h : false = true)
theorem launchComplete (launch : Nat) : Statement (.launchComplete launch) := fun _ h => nomatch (h : false = true)
theorem messageTransmit (core : Nat) : Statement (.messageTransmit core) := fun _ h => nomatch (h : false = true)
theorem linkFlitRetry (link : Nat) : Statement (.linkFlitRetry link) := fun _ h => nomatch (h : false = true)
theorem messageArrival (core : Nat) (job : Origin) (hdr : (BitVec 64)) (payload : Vec) : Statement (.messageArrival core job hdr payload) := fun _ h => nomatch (h : false = true)
theorem handlerPlacement (core : Nat) : Statement (.handlerPlacement core) := fun _ h => nomatch (h : false = true)
theorem windowWriteArrival (job : Origin) (wtag pa size : Nat) (val : Vec) : Statement (.windowWriteArrival job wtag pa size val) := fun _ h => nomatch (h : false = true)
theorem packetAcknowledge (id : Nat) : Statement (.packetAcknowledge id) := fun _ h => nomatch (h : false = true)
theorem endToEndRetransmit (id : Nat) (lost : Bool) : Statement (.endToEndRetransmit id lost) := fun _ h => nomatch (h : false = true)
theorem repairNoticeApply (die job : Nat) : Statement (.repairNoticeApply die job) := fun _ h => nomatch (h : false = true)
theorem rollCallWave (wave : Nat) : Statement (.rollCallWave wave) := fun _ h => nomatch (h : false = true)
theorem rollCallPass2 (wave : Nat) : Statement (.rollCallPass2 wave) := fun _ h => nomatch (h : false = true)
theorem rollCallVerdict (die wave job : Nat) (quiet : Finding) (sumi : Nat) : Statement (.rollCallVerdict die wave job quiet sumi) := fun _ h => nomatch (h : false = true)
theorem gangArm (src wtag depth : Nat) (rec : (BitVec 2048)) (job npkg index : Nat) : Statement (.gangArm src wtag depth rec job npkg index) := fun _ h => nomatch (h : false = true)
theorem gangArmAck (slot index : Nat) (ok : Bool) : Statement (.gangArmAck slot index ok) := fun _ h => nomatch (h : false = true)
theorem gangArmTimeout (slot : Nat) : Statement (.gangArmTimeout slot) := fun _ h => nomatch (h : false = true)
theorem gangGo (src job : Nat) : Statement (.gangGo src job) := fun _ h => nomatch (h : false = true)
theorem gangGoAck (slot index : Nat) : Statement (.gangGoAck slot index) := fun _ h => nomatch (h : false = true)
theorem gangGoTimeout (slot : Nat) : Statement (.gangGoTimeout slot) := fun _ h => nomatch (h : false = true)
theorem gangIncompleteNotice (job index count slot : Nat) : Statement (.gangIncompleteNotice job index count slot) := fun _ h => nomatch (h : false = true)
theorem collRingStep (slot chunk phase bitmap flags : Nat) (data : RingData) : Statement (.collRingStep slot chunk phase bitmap flags data) := fun _ h => nomatch (h : false = true)
theorem collJoinTimeout (slot : Nat) : Statement (.collJoinTimeout slot) := fun _ h => nomatch (h : false = true)
theorem collRingTimeout (slot chunk : Nat) : Statement (.collRingTimeout slot chunk) := fun _ h => nomatch (h : false = true)
theorem collComplete (slot : Nat) : Statement (.collComplete slot) := fun _ h => nomatch (h : false = true)
theorem hostRegisterWrite (tdi off : Nat) (val : (BitVec 64)) : Statement (.hostRegisterWrite tdi off val) := fun _ h => nomatch (h : false = true)
theorem launchWindowWrite (tdi slot off : Nat) (val : (BitVec 64)) : Statement (.launchWindowWrite tdi slot off val) := fun _ h => nomatch (h : false = true)
theorem launchClaim (tdi slot : Nat) : Statement (.launchClaim tdi slot) := fun _ h => nomatch (h : false = true)
theorem hinv (tdi page : Nat) (val : (BitVec 64)) : Statement (.hinv tdi page val) := fun _ h => nomatch (h : false = true)
theorem preempt (tdi page : Nat) (val : (BitVec 64)) : Statement (.preempt tdi page val) := fun _ h => nomatch (h : false = true)
theorem svstartGo (tdi page die k : Nat) (val : (BitVec 64)) : Statement (.svstartGo tdi page die k val) := fun _ h => nomatch (h : false = true)
theorem svstartStop (tdi page die k : Nat) : Statement (.svstartStop tdi page die k) := fun _ h => nomatch (h : false = true)
theorem jobEntryWrite (tdi index : Nat) (val : (BitVec 64)) : Statement (.jobEntryWrite tdi index val) := fun _ h => nomatch (h : false = true)
theorem windowEntryWrite (tdi index : Nat) (val : (BitVec 64)) : Statement (.windowEntryWrite tdi index val) := fun _ h => nomatch (h : false = true)
theorem pcapWrite (val : (BitVec 64)) : Statement (.pcapWrite val) := fun _ h => nomatch (h : false = true)
theorem powerWindowEnd (draw tj : Nat) : Statement (.powerWindowEnd draw tj) := fun _ h => nomatch (h : false = true)
theorem getVersion (session : Nat) (data : (List (BitVec 8))) : Statement (.getVersion session data) := fun _ h => nomatch (h : false = true)
theorem getCapabilities (session : Nat) (data : (List (BitVec 8))) : Statement (.getCapabilities session data) := fun _ h => nomatch (h : false = true)
theorem negotiateAlgorithms (session : Nat) (data : (List (BitVec 8))) : Statement (.negotiateAlgorithms session data) := fun _ h => nomatch (h : false = true)
theorem getDigests (session : Nat) (data : (List (BitVec 8))) : Statement (.getDigests session data) := fun _ h => nomatch (h : false = true)
theorem getCertificate (session : Nat) (data : (List (BitVec 8))) : Statement (.getCertificate session data) := fun _ h => nomatch (h : false = true)
theorem challenge (session : Nat) (data : (List (BitVec 8))) : Statement (.challenge session data) := fun _ h => nomatch (h : false = true)
theorem getMeasurements (session : Nat) (data : Measure) : Statement (.getMeasurements session data) := fun _ h => nomatch (h : false = true)
theorem keyExchange (session : Nat) (data : (List (BitVec 8))) : Statement (.keyExchange session data) := fun _ h => nomatch (h : false = true)
theorem finish (session : Nat) : Statement (.finish session) := fun _ h => nomatch (h : false = true)
theorem endSession (session : Nat) : Statement (.endSession session) := fun _ h => nomatch (h : false = true)
theorem bind (session w : Nat) : Statement (.bind session w) := fun _ h => nomatch (h : false = true)
theorem keyImage (session : Nat) (key : (BitVec 256)) : Statement (.keyImage session key) := fun _ h => nomatch (h : false = true)
theorem keyEval (session va : Nat) (expect : (BitVec 256)) (blob : (List (BitVec 8))) : Statement (.keyEval session va expect blob) := fun _ h => nomatch (h : false = true)
theorem lockInterfaceRequest (session w : Nat) : Statement (.lockInterfaceRequest session w) := fun _ h => nomatch (h : false = true)
theorem startInterfaceRequest (session w : Nat) : Statement (.startInterfaceRequest session w) := fun _ h => nomatch (h : false = true)
theorem stopInterfaceRequest (session w : Nat) : Statement (.stopInterfaceRequest session w) := fun _ h => nomatch (h : false = true)
theorem tdispOtherRequest (session w : Nat) : Statement (.tdispOtherRequest session w) := fun _ h => nomatch (h : false = true)
theorem worldTeardown (w : Nat) : Statement (.worldTeardown w) := fun _ h => nomatch (h : false = true)
theorem coldReset (fwOk : Bool) : Statement (.coldReset fwOk) := fun _ h => nomatch (h : false = true)
theorem hotReset : Statement (.hotReset) := fun _ h => absurd h (by decide)
theorem linkDown : Statement (.linkDown) := fun _ h => absurd h (by decide)
theorem illegalEncoding : Statement (.illegalEncoding) := fun _ h => absurd h (by decide)
theorem writePerform (core ctx id : Nat) : Statement (.writePerform core ctx id) := fun _ h => nomatch (h : false = true)
theorem dirtySectorWriteBack (die sector : Nat) : Statement (.dirtySectorWriteBack die sector) := fun _ h => nomatch (h : false = true)
theorem frgetFrputComplete (core ctx : Nat) : Statement (.frgetFrputComplete core ctx) := fun _ h => nomatch (h : false = true)
theorem registrarAnswer (core : Nat) : Statement (.registrarAnswer core) := fun _ h => nomatch (h : false = true)
theorem hostRegisterRead (tdi : Nat) (off : HostAddr) : Statement (.hostRegisterRead tdi off) := fun _ h => nomatch (h : false = true)
theorem crebyLinkLost (link : Nat) : Statement (.crebyLinkLost link) := fun _ h => nomatch (h : false = true)
theorem crebyLinkTrained (link : Nat) : Statement (.crebyLinkTrained link) := fun _ h => nomatch (h : false = true)

end RoundTrip

end Sys2Proof.Laws
end

