-- ==== Sys2Proof/Laws/Vector.lean ====
section
/-! SUPPORT. What stands in each lane, residue or mask bit of a packed vector, and the frame of a masked vector operation (R175, R177). -/

namespace Sys2Proof.Machine

theorem packNat_lt (w : Nat) (f : Nat → Nat) (n : Nat) : packNat w f n < 2 ^ (w * n) := by
  induction n with
  | zero => simp [packNat]
  | succ n ih =>
    have h1 : f n % 2 ^ w < 2 ^ w := Nat.mod_lt _ (by positivity)
    have : 2 ^ (w * (n + 1)) = 2 ^ w * 2 ^ (w * n) := by rw [← pow_add]; ring_nf
    simp only [packNat]
    rw [this]
    nlinarith [Nat.mul_le_mul_right (2 ^ (w * n)) (Nat.succ_le_of_lt h1)]

/-- Field `i` of packed numbers. -/
theorem packNat_field (w : Nat) (f : Nat → Nat) {n i : Nat} (h : i < n) : packNat w f n / 2 ^ (w * i) % 2 ^ w = f i % 2 ^ w := by
  induction n with
  | zero => omega
  | succ n ih =>
    simp only [packNat]
    rcases Nat.lt_succ_iff_lt_or_eq.1 h with h | rfl
    · obtain ⟨k, rfl⟩ : ∃ k, n = i + 1 + k := ⟨n - (i + 1), by omega⟩
      have e : 2 ^ (w * (i + 1 + k)) = 2 ^ (w * i) * (2 ^ w * 2 ^ (w * k)) := by rw [← pow_add, ← pow_add]; ring_nf
      rw [e, show ∀ a, a * (2 ^ (w * i) * (2 ^ w * 2 ^ (w * k))) = 2 ^ (w * i) * (2 ^ w * (a * 2 ^ (w * k))) by intro a; ring,
        Nat.add_mul_div_left _ _ (by positivity), Nat.add_mul_mod_self_left, ih h]
    · rw [Nat.add_mul_div_right _ _ (by positivity), Nat.div_eq_of_lt (packNat_lt w f i), Nat.zero_add, Nat.mod_mod]

/-- Lane `l` of lanes given as numbers. -/
theorem lane_ofLanesN (f : Nat → Nat) {l : Nat} (h : l < 128) : (ofLanesN f).lane l = BitVec.ofNat 32 (f l) := by
  apply BitVec.eq_of_toNat_eq
  have b : packNat 32 f 128 < 2 ^ 4096 := packNat_lt 32 f 128
  rw [ofLanesN, Vec.lane, BitVec.extractLsb'_toNat, BitVec.toNat_ofNat, BitVec.toNat_ofNat, Nat.mod_eq_of_lt b,
    Nat.shiftRight_eq_div_pow, packNat_field 32 f h]

/-- Residue `j` of residues given as numbers. -/
theorem residue_ofResidues (f : Nat → Nat) {j : Nat} (h : j < 64) : residue (ofResidues f) j = f j % 2 ^ 64 := by
  have b : packNat 64 f 64 < 2 ^ 4096 := packNat_lt 64 f 64
  rw [ofResidues, residue, BitVec.extractLsb'_toNat, BitVec.toNat_ofNat, Nat.mod_eq_of_lt b, Nat.shiftRight_eq_div_pow,
    packNat_field 64 f h]

/-- Bit `l` of a mask given by a predicate. -/
theorem maskOf_bit (f : Nat → Bool) {l : Nat} (h : l < 128) : (maskOf f).getLsbD l = f l := by
  have b : packNat 1 (fun i => if f i then 1 else 0) 128 < 2 ^ 128 := packNat_lt 1 _ 128
  have e := packNat_field 1 (fun i => if f i then 1 else 0) h
  rw [maskOf, BitVec.getLsbD_ofNat, Nat.testBit_eq_decide_div_mod_eq]
  simp only [one_mul, pow_one] at e
  rw [e]
  cases f l <;> simp [h]

theorem foldr_pack (rs : List (Nat × Causes)) (l : Nat) :
    rs.foldr (fun r acc => r.1 % 2 ^ 32 + 2 ^ 32 * acc) 0 / 2 ^ (32 * l) % 2 ^ 32 = ((rs[l]?.map (·.1)).getD 0) % 2 ^ 32 := by
  induction rs generalizing l with
  | nil => simp
  | cons r rs ih =>
    cases l with
    | zero => simp
    | succ l =>
      have e : 2 ^ (32 * (l + 1)) = 2 ^ 32 * 2 ^ (32 * l) := by rw [← pow_add]; ring_nf
      rw [List.foldr_cons, e, ← Nat.div_div_eq_div_mul, Nat.add_mul_div_left _ _ (by positivity),
        Nat.div_eq_of_lt (Nat.mod_lt _ (by positivity)), Nat.zero_add, ih]
      simp

theorem foldr_pack_lt (rs : List (Nat × Causes)) : rs.foldr (fun r acc => r.1 % 2 ^ 32 + 2 ^ 32 * acc) 0 < 2 ^ (32 * rs.length) := by
  induction rs with
  | nil => simp
  | cons r rs ih =>
    have e : 2 ^ (32 * (r :: rs).length) = 2 ^ 32 * 2 ^ (32 * rs.length) := by rw [← pow_add, List.length_cons]; ring_nf
    have h := Nat.mod_lt r.1 (show 0 < 2 ^ 32 by positivity)
    rw [List.foldr_cons, e]
    omega

theorem foldl_or_bit (rs : List (Nat × Causes)) (c : Causes) (k : Nat) :
    (rs.foldl (fun c r => c ||| r.2) c).getLsbD k = true ↔ c.getLsbD k = true ∨ ∃ r ∈ rs, r.2.getLsbD k = true := by
  induction rs generalizing c with
  | nil => simp
  | cons r rs ih => rw [List.foldl_cons, ih]; simp [or_assoc]

/-- The frame of R177: what each lane of the result holds. -/
theorem vframe_lane (old : Vec) (m : Mask) (f : Nat → Nat × Causes) {l : Nat} (h : l < 128) :
    (vframe old m f).1.lane l = if m.getLsbD l then BitVec.ofNat 32 (f l).1 else old.lane l := by
  apply BitVec.eq_of_toNat_eq
  have b := foldr_pack_lt ((List.range 128).map fun i => if m.getLsbD i then f i else ((old.lane i).toNat, 0))
  simp only [List.length_map, List.length_range] at b
  simp only [vframe]
  rw [Vec.lane, BitVec.extractLsb'_toNat, BitVec.toNat_ofNat, Nat.mod_eq_of_lt b, Nat.shiftRight_eq_div_pow, foldr_pack]
  simp only [List.getElem?_map, List.getElem?_range h, Option.map_some, Option.getD_some]
  split
  · simp
  · exact Nat.mod_eq_of_lt (old.lane l).isLt

/-- The frame of R177: the causes of the selected lanes. -/
theorem vframe_causes (old : Vec) (m : Mask) (f : Nat → Nat × Causes) (k : Nat) :
    (vframe old m f).2.getLsbD k = true ↔ ∃ l, l < 128 ∧ m.getLsbD l = true ∧ (f l).2.getLsbD k = true := by
  simp only [vframe]
  rw [foldl_or_bit]
  have z : (0 : Causes).getLsbD k = false := by simp
  simp only [z, Bool.false_eq_true, false_or, List.mem_map, List.mem_range]
  constructor
  · rintro ⟨r, ⟨l, hl, rfl⟩, h⟩
    by_cases hm : m.getLsbD l = true
    · rw [if_pos hm] at h; exact ⟨l, hl, hm, h⟩
    · rw [if_neg hm, z] at h; cases h
  · rintro ⟨l, hl, hm, h⟩
    exact ⟨_, ⟨l, hl, rfl⟩, by rw [if_pos hm]; exact h⟩

end Sys2Proof.Machine
end

