-- ==== Sys2Proof/Tests/Slice0.lean ====
section
/-! SUPPORT. The model's own tests: words written from the opcode table, ill-formed terms refused, a witness for the hypotheses of every
statement, and single steps whose results are worked out by hand from the rule named. -/

open Sys2Proof Sys2Proof.Machine

namespace Sys2Proof.Tests

set_option maxRecDepth 100000


-- ## States for the tests

/-- A context able to issue, with 48 scalar and 48 vector registers, and every guard true. -/
def tCtx : Ctx := { st := .ready, allocS := 48, allocV := 48, q := 0xFFFF }
/-- A core on which context 0 issues. -/
def tCore (x : Ctx) : Core := { run := some 0, ctxs := [(0, x)] }
/-- Core `c`, and the first word of a bundle of its context 0 in issue. -/
def tOn (c : Nat) (k : Core) : State :=
  { caps := capsTorham9, cores := [(c, k)], iss := { core := c, allocS := 48, allocV := 48, words := [0, 0, 0, 0] } }
def tS : State := tOn 0 (tCore tCtx)
/-- The same with two scalar registers. -/
def tS2 (m : Nat) (v : Word) (n : Nat) (w : Word) : State := tOn 0 (tCore { tCtx with sreg := [(m, v), (n, w)] })
/-- The same with every guard but g0 false. -/
def tOff : State := tOn 0 (tCore { tCtx with q := 1 })
/-- The context of a proctor. -/
def tProc : State := tOn 0 (tCore { tCtx with proc := true })
/-- A supervisor core. -/
def tSup : State := tOn 248 (tCore { tCtx with proc := true })
def tLevel (kind : Nat) : Level := ⟨16, 32, 3, kind, 5, 0⟩
/-- Inside one loop. -/
def tLoop (kind : Nat) : State := tOn 0 (tCore { tCtx with loops := [tLevel kind] })
/-- Core pair 0's array. -/
def tArr (a : Arr) (x : Ctx) : State := { tOn 0 (tCore x) with arrs := [(0, a)] }


-- ## Decoding: each word is the table's MATCH with its fields laid in by hand (R30, R62 to R78; guard 9); and every one of these
-- operations may take effect in `tS`, which is the hypothesis of its completion statement

def famK : List (Ext × BitVec 32 × Instr) := [
  (some 0x5a#8, 0x19005155#32, .prep 9 5 341 (some 0x5a#8)),
  (none, 0x19045180#32, .prepr 9 5 6),
  (none, 0x19085000#32, .br 9 5),
  (none, 0x190c5100#32, .brl 9 5 4),
  (none, 0x19100180#32, .ret 9 6),
  (some 0x03#8, 0x19206007#32, .loop 9 6 7 (some 0x03#8)),
  (some 0x03#8, 0x19247014#32, .loopi 9 7 20 (some 0x03#8)),
  (some 0x03#8, 0x19286007#32, .loopr 9 6 7 (some 0x03#8)),
  (none, 0x19300000#32, .lbrk 9),
  (none, 0x19400000#32, .yield 9),
  (none, 0x19440000#32, .done 9),
  (none, 0x19480155#32, .trap 9 341),
  (none, 0x194c0180#32, .waitc 9 6),
  (none, 0x19606282#32, .defer 9 6 1 2 2),
  (none, 0x19644082#32, .defdr 9 4 2 2),
  (none, 0x19684002#32, .defct 9 4 2),
  (none, 0x19804000#32, .tcur 9 4),
  (none, 0x19844000#32, .ctxid 9 4),
  (none, 0x19880002#32, .prio 9 2),
  (none, 0x19ffffff#32, .bkpt 9)]
theorem test_decode_K : (famK.all fun p => decide (decodeWord p.1 p.2.1 = some p.2.2)) = true := by decide
theorem test_runs_K : (famK.all fun p => tS.runs p.2.2) = true := by decide

def famS : List (Ext × BitVec 32 × Instr) := [
  (none, 0x29004180#32, .mov 9 4 6),
  (none, 0x2904418a#32, .add 9 4 6 10),
  (none, 0x2908418a#32, .sub 9 4 6 10),
  (none, 0x290c418a#32, .mul 9 4 6 10),
  (none, 0x2910418a#32, .mulh 9 4 6 10),
  (none, 0x2914418a#32, .mulhu 9 4 6 10),
  (none, 0x2918418a#32, .divs 9 4 6 10),
  (none, 0x291c418a#32, .divu 9 4 6 10),
  (none, 0x2920418a#32, .and 9 4 6 10),
  (none, 0x2924418a#32, .or 9 4 6 10),
  (none, 0x2928418a#32, .xor 9 4 6 10),
  (none, 0x292c418a#32, .andn 9 4 6 10),
  (none, 0x2930418a#32, .shl 9 4 6 10),
  (none, 0x2934418a#32, .shr 9 4 6 10),
  (none, 0x2938418a#32, .sar 9 4 6 10),
  (none, 0x293c418a#32, .rotl 9 4 6 10),
  (none, 0x29404180#32, .clz 9 4 6),
  (none, 0x29444180#32, .popc 9 4 6),
  (none, 0x2948418a#32, .min 9 4 6 10),
  (none, 0x294c418a#32, .max 9 4 6 10),
  (none, 0x2950418a#32, .minu 9 4 6 10),
  (none, 0x2954418a#32, .maxu 9 4 6 10),
  (some 0x09#8, 0x2958418a#32, .sel 9 4 6 10 (some 0x09#8)),
  (some 0x07#8, 0x295c4189#32, .extb 9 4 6 9 (some 0x07#8))]
theorem test_decode_S : (famS.all fun p => decide (decodeWord p.1 p.2.1 = some p.2.2)) = true := by decide
theorem test_runs_S : (famS.all fun p => tS.runs p.2.2) = true := by decide

def famSB : List (Ext × BitVec 32 × Instr) := [
  (some 0x07#8, 0x29604189#32, .insb 9 4 6 9 (some 0x07#8)),
  (some 0x03#8, 0x2964418a#32, .lea 9 4 6 10 (some 0x03#8)),
  (none, 0x2981418a#32, .ceq 9 20 6 10),
  (none, 0x2985418a#32, .cne 9 20 6 10),
  (none, 0x2989418a#32, .clt 9 20 6 10),
  (none, 0x298d418a#32, .cltu 9 20 6 10),
  (none, 0x2991418a#32, .cle 9 20 6 10),
  (none, 0x2995418a#32, .cleu 9 20 6 10),
  (none, 0x29a14180#32, .qset 9 20 6),
  (none, 0x29a540d5#32, .qand 9 20 3 21),
  (none, 0x29a940d5#32, .qor 9 20 3 21),
  (none, 0x29ad40c0#32, .qnot 9 20 3),
  (none, 0x29c04001#32, .crd 9 4 1),
  (none, 0x29c46001#32, .cwr 9 6 1),
  (none, 0x29c46009#32, .cwrArrmode 9 6),
  (none, 0x29c46031#32, .cwrModulus 9 6 1),
  (none, 0x29c46012#32, .cwrRptcard 9 6 2),
  (none, 0x29e000c2#32, .allot 9 3 2),
  (none, 0x29e400c2#32, .shrink 9 3 2)]
theorem test_decode_SB : (famSB.all fun p => decide (decodeWord p.1 p.2.1 = some p.2.2)) = true := by decide
theorem test_runs_SB : (famSB.all fun p => tS.runs p.2.2) = true := by decide

def famSImm : List (Ext × BitVec 32 × Instr) := [
  (some 0x5a#8, 0x39004155#32, .movi 9 4 341 (some 0x5a#8)),
  (some 0x5a#8, 0x39044155#32, .movhi 9 4 341 (some 0x5a#8)),
  (some 0x5a#8, 0x390841aa#32, .addi 9 4 6 42 (some 0x5a#8)),
  (some 0x5a#8, 0x392141aa#32, .ceqi 9 20 6 42 (some 0x5a#8)),
  (some 0x5a#8, 0x392541aa#32, .clti 9 20 6 42 (some 0x5a#8))]
theorem test_decode_SImm : (famSImm.all fun p => decide (decodeWord p.1 p.2.1 = some p.2.2)) = true := by decide
theorem test_runs_SImm : (famSImm.all fun p => tS.runs p.2.2) = true := by decide

def famM : List (Ext × BitVec 32 × Instr) := [
  (some 0x08#8, 0x49004183#32, .ldW8 9 4 6 3 (some 0x08#8)),
  (some 0x08#8, 0x49044183#32, .ldW16 9 4 6 3 (some 0x08#8)),
  (some 0x08#8, 0x49084183#32, .ldW32 9 4 6 3 (some 0x08#8)),
  (some 0x08#8, 0x490c4183#32, .ldW64 9 4 6 3 (some 0x08#8)),
  (none, 0x4910c183#32, .stW8 9 12 6 3 none),
  (none, 0x4914c183#32, .stW16 9 12 6 3 none),
  (none, 0x4918c183#32, .stW32 9 12 6 3 none),
  (none, 0x491cc183#32, .stW64 9 12 6 3 none),
  (some 0x08#8, 0x49204183#32, .ldv 9 4 6 3 (some 0x08#8)),
  (none, 0x4924c183#32, .stv 9 12 6 3 none),
  (some 0x03#8, 0x4940418a#32, .amoAdd 9 4 6 10 (some 0x03#8)),
  (some 0x03#8, 0x4944418a#32, .amoMin 9 4 6 10 (some 0x03#8)),
  (some 0x03#8, 0x4948418a#32, .amoMax 9 4 6 10 (some 0x03#8)),
  (some 0x03#8, 0x494c418a#32, .amoAnd 9 4 6 10 (some 0x03#8)),
  (some 0x03#8, 0x4950418a#32, .amoOr 9 4 6 10 (some 0x03#8)),
  (some 0x03#8, 0x4954418a#32, .amoXor 9 4 6 10 (some 0x03#8)),
  (some 0x03#8, 0x4960418a#32, .cas 9 4 6 10 (some 0x03#8)),
  (some 0x03#8, 0x49800000#32, .fenceAcq 9 (some 0x03#8)),
  (some 0x03#8, 0x49840000#32, .fenceRel 9 (some 0x03#8)),
  (some 0x03#8, 0x49880000#32, .fenceFull 9 (some 0x03#8)),
  (some 0x08#8, 0x49a00183#32, .pref 9 6 3 (some 0x08#8))]
theorem test_decode_M : (famM.all fun p => decide (decodeWord p.1 p.2.1 = some p.2.2)) = true := by decide
theorem test_runs_M : (famM.all fun p => tS.runs p.2.2) = true := by decide

def famV : List (Ext × BitVec 32 × Instr) := [
  (some 0x18#8, 0x59004180#32, .vmov 9 4 6 (some 0x18#8)),
  (some 0x49#8, 0x5904418a#32, .vadd 9 4 6 10 (some 0x49#8)),
  (some 0x49#8, 0x5908418a#32, .vsub 9 4 6 10 (some 0x49#8)),
  (some 0x49#8, 0x590c418a#32, .vmul 9 4 6 10 (some 0x49#8)),
  (some 0x49#8, 0x5910418a#32, .vfma 9 4 6 10 (some 0x49#8)),
  (some 0x49#8, 0x5914418a#32, .vfms 9 4 6 10 (some 0x49#8)),
  (some 0x49#8, 0x5918418a#32, .vmin 9 4 6 10 (some 0x49#8)),
  (some 0x49#8, 0x591c418a#32, .vmax 9 4 6 10 (some 0x49#8)),
  (some 0x49#8, 0x59204180#32, .vabs 9 4 6 (some 0x49#8)),
  (some 0x49#8, 0x59244180#32, .vneg 9 4 6 (some 0x49#8)),
  (some 0x11#8, 0x59284180#32, .vrcp 9 4 6 (some 0x11#8)),
  (some 0x11#8, 0x592c4180#32, .vrsq 9 4 6 (some 0x11#8)),
  (some 0x11#8, 0x59304180#32, .vexp2 9 4 6 (some 0x11#8)),
  (some 0x11#8, 0x59344180#32, .vlog2 9 4 6 (some 0x11#8)),
  (some 0x18#8, 0x5940418a#32, .vand 9 4 6 10 (some 0x18#8)),
  (some 0x18#8, 0x5944418a#32, .vor 9 4 6 10 (some 0x18#8)),
  (some 0x18#8, 0x5948418a#32, .vxor 9 4 6 10 (some 0x18#8)),
  (some 0x0c#8, 0x594c418a#32, .vshl 9 4 6 10 (some 0x0c#8)),
  (some 0x0c#8, 0x5950418a#32, .vshr 9 4 6 10 (some 0x0c#8)),
  (some 0x0c#8, 0x5954418a#32, .vsar 9 4 6 10 (some 0x0c#8)),
  (some 0x0a#8, 0x5960318a#32, .vcmpEq 9 3 6 10 (some 0x0a#8)),
  (some 0x0a#8, 0x5964318a#32, .vcmpNe 9 3 6 10 (some 0x0a#8)),
  (some 0x0a#8, 0x5968318a#32, .vcmpLt 9 3 6 10 (some 0x0a#8)),
  (some 0x0a#8, 0x596c318a#32, .vcmpLe 9 3 6 10 (some 0x0a#8))]
theorem test_decode_V : (famV.all fun p => decide (decodeWord p.1 p.2.1 = some p.2.2)) = true := by decide
theorem test_runs_V : (famV.all fun p => tS.runs p.2.2) = true := by decide

def famVB : List (Ext × BitVec 32 × Instr) := [
  (some 0x0a#8, 0x5970318a#32, .vcmpGt 9 3 6 10 (some 0x0a#8)),
  (some 0x0a#8, 0x5974318a#32, .vcmpGe 9 3 6 10 (some 0x0a#8)),
  (some 0x0a#8, 0x5978318a#32, .vcmpUn 9 3 6 10 (some 0x0a#8)),
  (some 0x18#8, 0x5980418a#32, .vsel 9 4 6 10 (some 0x18#8)),
  (some 0x18#8, 0x59844180#32, .vbcast 9 4 6 (some 0x18#8)),
  (some 0x11#8, 0x59884180#32, .vredAdd 9 4 6 (some 0x11#8)),
  (some 0x11#8, 0x598c4180#32, .vredMax 9 4 6 (some 0x11#8)),
  (some 0x11#8, 0x59904180#32, .vredMin 9 4 6 (some 0x11#8)),
  (some 0x18#8, 0x5994418a#32, .vperm 9 4 6 10 (some 0x18#8)),
  (some 0x18#8, 0x59984182#32, .vshuf 9 4 6 2 (some 0x18#8)),
  (some 0x85#8, 0x59a0418a#32, .vmodadd 9 4 6 10 (some 0x85#8)),
  (some 0x85#8, 0x59a4418a#32, .vmodsub 9 4 6 10 (some 0x85#8)),
  (some 0x85#8, 0x59a8418a#32, .vmodmul 9 4 6 10 (some 0x85#8)),
  (some 0x85#8, 0x59ac418a#32, .vbfly 9 4 6 10 (some 0x85#8)),
  (some 0x85#8, 0x59b0418a#32, .vibfly 9 4 6 10 (some 0x85#8)),
  (none, 0x59c030c5#32, .vmaskAnd 9 3 3 5),
  (none, 0x59c430c5#32, .vmaskOr 9 3 3 5),
  (none, 0x59c830c5#32, .vmaskXor 9 3 3 5),
  (none, 0x59cc30c5#32, .vmaskAndn 9 3 3 5),
  (none, 0x59d030c0#32, .vmaskNot 9 3 3),
  (some 0x18#8, 0x59e04000#32, .vlane 9 4 (some 0x18#8))]
theorem test_decode_VB : (famVB.all fun p => decide (decodeWord p.1 p.2.1 = some p.2.2)) = true := by decide
theorem test_runs_VB : (famVB.all fun p => tS.runs p.2.2) = true := by decide

def famVImm : List (Ext × BitVec 32 × Instr) := [
  (some 0x0b#8, 0x69084180#32, .vcvt 9 2 4 6 (some 0x0b#8)),
  (some 0x5a#8, 0x69404155#32, .vbcastI 9 4 341 (some 0x5a#8)),
  (some 0x0c#8, 0x694c4182#32, .vshlI 9 4 6 2 (some 0x0c#8)),
  (some 0x0c#8, 0x69504182#32, .vshrI 9 4 6 2 (some 0x0c#8)),
  (some 0x0c#8, 0x69544182#32, .vsarI 9 4 6 2 (some 0x0c#8))]
theorem test_decode_VImm : (famVImm.all fun p => decide (decodeWord p.1 p.2.1 = some p.2.2)) = true := by decide
theorem test_runs_VImm : (famVImm.all fun p => tS.runs p.2.2) = true := by decide

def famX : List (Ext × BitVec 32 × Instr) := [
  (some 0x02#8, 0x796e1004#32, .xbeat 9 3 1 1 33 4 (some 0x02#8)),
  (none, 0x79800180#32, .xmode 9 6),
  (none, 0x79861000#32, .xzero 9 33),
  (none, 0x7988418a#32, .xcks 9 4 6 10),
  (none, 0x798c4180#32, .xfix 9 4 6),
  (none, 0x79900001#32, .xres 9 1),
  (none, 0x79940180#32, .xwin 9 6),
  (none, 0x79fe118a#32, .xinj 9 33 6 10)]
theorem test_decode_X : (famX.all fun p => decide (decodeWord p.1 p.2.1 = some p.2.2)) = true := by decide
theorem test_runs_X : (famX.all fun p => tS.runs p.2.2) = true := by decide

def famT : List (Ext × BitVec 32 × Instr) := [
  (none, 0x89004183#32, .lds 9 4 6 3 none),
  (none, 0x89044182#32, .ldsTag 9 4 6 2),
  (none, 0x8908c183#32, .sts 9 12 6 3 none),
  (none, 0x89104183#32, .ldss 9 4 6 3 none),
  (none, 0x8914c183#32, .stss 9 12 6 3 none),
  (none, 0x8920b180#32, .bfmt 9 11 6),
  (some 0x01#8, 0x89401180#32, .mv 9 1 6 (some 0x01#8)),
  (some 0x01#8, 0x89441155#32, .mvi 9 1 341 (some 0x01#8)),
  (none, 0x89604001#32, .fpeek 9 4 1),
  (none, 0x89644001#32, .flev 9 4 1)]
theorem test_decode_T : (famT.all fun p => decide (decodeWord p.1 p.2.1 = some p.2.2)) = true := by decide
theorem test_runs_T : (famT.all fun p => tS.runs p.2.2) = true := by decide

def famC : List (Ext × BitVec 32 × Instr) := [
  (none, 0x9900b180#32, .lrec 9 11 6),
  (some 0x02#8, 0x990441c9#32, .cpy 9 4 7 9 (some 0x02#8)),
  (some 0x02#8, 0x990841c9#32, .cpyx 9 4 7 9 (some 0x02#8)),
  (some 0x02#8, 0x990c61c9#32, .cpyt 9 6 7 9 (some 0x02#8)),
  (some 0x02#8, 0x99200180#32, .cidw 9 6 (some 0x02#8)),
  (some 0x02#8, 0x99244000#32, .cidr 9 4 (some 0x02#8)),
  (some 0x02#8, 0x99280180#32, .cinv 9 6 (some 0x02#8)),
  (some 0x02#8, 0x992c0000#32, .chalt 9 (some 0x02#8))]
theorem test_decode_C : (famC.all fun p => decide (decodeWord p.1 p.2.1 = some p.2.2)) = true := by decide
theorem test_runs_C : (famC.all fun p => tS.runs p.2.2) = true := by decide

def famG : List (Ext × BitVec 32 × Instr) := [
  (none, 0xa9000185#32, .gload 9 6 5),
  (none, 0xa9044000#32, .gchk 9 4),
  (none, 0xa9080180#32, .gsel 9 6),
  (none, 0xa90e1180#32, .gorb 9 33 6),
  (none, 0xa9104000#32, .gstat 9 4)]
theorem test_decode_G : (famG.all fun p => decide (decodeWord p.1 p.2.1 = some p.2.2)) = true := by decide
theorem test_runs_G : (famG.all fun p => tS.runs p.2.2) = true := by decide

def famF : List (Ext × BitVec 32 × Instr) := [
  (none, 0xb900018a#32, .msend 9 6 10),
  (none, 0xb9040180#32, .mhnd 9 6),
  (none, 0xb9080000#32, .wquiet 9),
  (none, 0xb90c4000#32, .rcstat 9 4),
  (none, 0xb9104180#32, .collAr 9 4 6),
  (none, 0xb9144180#32, .collRs 9 4 6),
  (none, 0xb9184180#32, .collAg 9 4 6),
  (none, 0xb91c4180#32, .collBc 9 4 6),
  (none, 0xb9200002#32, .bar 9 2),
  (none, 0xb9240002#32, .gbar 9 2),
  (none, 0xb928018a#32, .ctrinc 9 6 10),
  (none, 0xb92c018a#32, .ctrwait 9 6 10),
  (none, 0xb9404180#32, .launch 9 4 6),
  (none, 0xb9444180#32, .launchn 9 4 6),
  (none, 0xb9484180#32, .glaunch 9 4 6),
  (none, 0xb9604000#32, .fwait 9 4),
  (none, 0xb964418a#32, .frget 9 4 6 10),
  (none, 0xb969418a#32, .frput 9 20 6 10),
  (none, 0xb96c0180#32, .frres 9 6),
  (none, 0xb9700180#32, .frskip 9 6),
  (none, 0xb9740180#32, .frkill 9 6),
  (none, 0xb9780180#32, .frexc 9 6),
  (none, 0xb9800180#32, .wload 9 6),
  (none, 0xb9840180#32, .kwipe 9 6)]
theorem test_decode_F : (famF.all fun p => decide (decodeWord p.1 p.2.1 = some p.2.2)) = true := by decide
theorem test_runs_F : (famF.all fun p => tS.runs p.2.2) = true := by decide

def famFB : List (Ext × BitVec 32 × Instr) := [
  (none, 0xb9884180#32, .fuserd 9 4 6),
  (none, 0xb98c018a#32, .mext 9 6 10),
  (none, 0xb9900180#32, .dbgopen 9 6)]
theorem test_decode_FB : (famFB.all fun p => decide (decodeWord p.1 p.2.1 = some p.2.2)) = true := by decide
theorem test_runs_FB : (famFB.all fun p => tS.runs p.2.2) = true := by decide

/-- Words that are no instruction: an unused field set, a minor without a row, classes 12 to 15, a NOP in a bundle with an extension byte. -/
theorem test_decode_refuses :
    ([0x20000001#32, 0x20F80000#32, 0xC0000000#32, 0xD0000000#32, 0xE0000000#32, 0xF0000000#32, 0x00000001#32, 0x10B00000#32].all fun w =>
      decide (decodeWord none w = none)) = true ∧ decodeWord (some 1) 0 = none ∧ decodeTableWord 32 0x20040000 = some (.add 0 0 0 0) ∧
    decodeTableWord 0 0 = none := by decide

-- ## Well-formedness: one ill-formed term for each check, refused

def ill1 : List Instr := [
  .prep 9 12 341 (some 0x5a#8), .prepr 9 12 6, .br 9 12, .brl 9 12 4,
  .brl 9 5 48, .loop 9 6 0 none, .loopi 9 0 20 none, .loopr 9 6 7 (some 0x08#8),
  .loopr 9 6 0 (some 0x03#8), .defer 9 48 1 0 2, .defer 9 6 1 5 2, .defer 9 46 1 3 2,
  .defer 9 6 1 0 2, .defdr 9 48 0 2, .defdr 9 4 5 2, .defdr 9 46 3 2,
  .defdr 9 4 0 2, .defct 9 48 2, .tcur 9 48, .ctxid 9 48,
  .prio 9 8, .mov 9 48 6, .add 9 48 6 10, .sub 9 48 6 10,
  .mul 9 48 6 10, .mulh 9 48 6 10, .mulhu 9 48 6 10, .divs 9 48 6 10,
  .divu 9 48 6 10, .and 9 48 6 10, .or 9 48 6 10, .xor 9 48 6 10,
  .andn 9 48 6 10, .shl 9 48 6 10, .shr 9 48 6 10, .sar 9 48 6 10,
  .rotl 9 48 6 10, .clz 9 48 6, .popc 9 48 6, .min 9 48 6 10]
theorem test_illFormed_1 : (ill1.all fun i => !i.wf) = true := by decide
def ill2 : List Instr := [
  .max 9 48 6 10, .minu 9 48 6 10, .maxu 9 48 6 10, .sel 9 48 6 10 (some 0x09#8),
  .sel 9 4 6 10 (some 0x10#8), .extb 9 48 6 9 (some 0x07#8), .extb 9 4 6 9 (some 0x40#8), .extb 9 4 6 60 (some 0x07#8),
  .insb 9 63 6 9 (some 0x07#8), .insb 9 4 6 9 (some 0x40#8), .insb 9 4 6 60 (some 0x07#8), .lea 9 48 6 10 (some 0x03#8),
  .lea 9 4 6 10 (some 0x08#8), .ceq 9 12 6 10, .ceq 9 32 6 10, .cne 9 12 6 10,
  .cne 9 32 6 10, .clt 9 12 6 10, .clt 9 32 6 10, .cltu 9 12 6 10,
  .cltu 9 32 6 10, .cle 9 12 6 10, .cle 9 32 6 10, .cleu 9 12 6 10,
  .cleu 9 32 6 10, .qset 9 12 6, .qset 9 32 6, .qand 9 12 3 21,
  .qand 9 32 3 21, .qand 9 20 12 21, .qand 9 20 3 40, .qor 9 12 3 21,
  .qor 9 32 3 21, .qor 9 20 12 21, .qor 9 20 3 40, .qnot 9 12 3,
  .qnot 9 32 3, .qnot 9 20 12, .crd 9 48 1, .crd 9 4 5]
theorem test_illFormed_2 : (ill2.all fun i => !i.wf) = true := by decide
def ill3 : List Instr := [
  .cwr 9 6 5, .cwr 9 6 9, .allot 9 49 2, .allot 9 3 49,
  .shrink 9 49 2, .shrink 9 3 49, .movi 9 48 341 (some 0x5a#8), .movhi 9 63 341 (some 0x5a#8),
  .addi 9 48 6 42 (some 0x5a#8), .ceqi 9 12 6 42 (some 0x5a#8), .ceqi 9 32 6 42 (some 0x5a#8), .clti 9 12 6 42 (some 0x5a#8),
  .clti 9 32 6 42 (some 0x5a#8), .ldW8 9 48 6 3 (some 0x08#8), .ldW8 9 4 6 3 (some 0x20#8), .ldW16 9 48 6 3 (some 0x08#8),
  .ldW16 9 4 6 3 (some 0x20#8), .ldW32 9 48 6 3 (some 0x08#8), .ldW32 9 4 6 3 (some 0x20#8), .ldW64 9 48 6 3 (some 0x08#8),
  .ldW64 9 4 6 3 (some 0x20#8), .stW8 9 12 6 3 (some 0x08#8), .stW16 9 12 6 3 (some 0x08#8), .stW32 9 12 6 3 (some 0x08#8),
  .stW64 9 12 6 3 (some 0x08#8), .ldv 9 48 6 3 (some 0x08#8), .ldv 9 4 6 3 (some 0x20#8), .stv 9 12 6 3 (some 0x08#8),
  .amoAdd 9 48 6 10 (some 0x03#8), .amoAdd 9 4 6 10 (some 0x06#8), .amoMin 9 48 6 10 (some 0x03#8), .amoMin 9 4 6 10 (some 0x06#8),
  .amoMax 9 48 6 10 (some 0x03#8), .amoMax 9 4 6 10 (some 0x06#8), .amoAnd 9 48 6 10 (some 0x03#8), .amoAnd 9 4 6 10 (some 0x06#8),
  .amoOr 9 48 6 10 (some 0x03#8), .amoOr 9 4 6 10 (some 0x06#8), .amoXor 9 48 6 10 (some 0x03#8), .amoXor 9 4 6 10 (some 0x06#8)]
theorem test_illFormed_3 : (ill3.all fun i => !i.wf) = true := by decide
def ill4 : List Instr := [
  .cas 9 63 6 10 (some 0x03#8), .cas 9 4 6 10 (some 0x06#8), .fenceAcq 9 (some 0x06#8), .fenceRel 9 (some 0x06#8),
  .fenceFull 9 (some 0x06#8), .pref 9 6 3 (some 0x10#8), .vmov 9 48 6 (some 0x18#8), .vmov 9 4 6 (some 0x01#8),
  .vadd 9 48 6 10 (some 0x49#8), .vadd 9 4 6 10 (some 0x4d#8), .vsub 9 48 6 10 (some 0x49#8), .vsub 9 4 6 10 (some 0x4d#8),
  .vmul 9 48 6 10 (some 0x49#8), .vmul 9 4 6 10 (some 0x4d#8), .vfma 9 63 6 10 (some 0x49#8), .vfma 9 4 6 10 (some 0x4d#8),
  .vfms 9 63 6 10 (some 0x49#8), .vfms 9 4 6 10 (some 0x4d#8), .vmin 9 48 6 10 (some 0x49#8), .vmin 9 4 6 10 (some 0x4d#8),
  .vmax 9 48 6 10 (some 0x49#8), .vmax 9 4 6 10 (some 0x4d#8), .vabs 9 48 6 (some 0x49#8), .vabs 9 4 6 (some 0x4d#8),
  .vneg 9 48 6 (some 0x49#8), .vneg 9 4 6 (some 0x4d#8), .vrcp 9 48 6 (some 0x11#8), .vrcp 9 4 6 (some 0x13#8),
  .vrsq 9 48 6 (some 0x11#8), .vrsq 9 4 6 (some 0x13#8), .vexp2 9 48 6 (some 0x11#8), .vexp2 9 4 6 (some 0x13#8),
  .vlog2 9 48 6 (some 0x11#8), .vlog2 9 4 6 (some 0x13#8), .vand 9 48 6 10 (some 0x18#8), .vand 9 4 6 10 (some 0x01#8),
  .vor 9 48 6 10 (some 0x18#8), .vor 9 4 6 10 (some 0x01#8), .vxor 9 48 6 10 (some 0x18#8), .vxor 9 4 6 10 (some 0x01#8)]
theorem test_illFormed_4 : (ill4.all fun i => !i.wf) = true := by decide
def ill5 : List Instr := [
  .vshl 9 48 6 10 (some 0x0c#8), .vshl 9 4 6 10 (some 0x40#8), .vshl 9 4 6 10 (some 0x09#8), .vshr 9 48 6 10 (some 0x0c#8),
  .vshr 9 4 6 10 (some 0x40#8), .vshr 9 4 6 10 (some 0x09#8), .vsar 9 48 6 10 (some 0x0c#8), .vsar 9 4 6 10 (some 0x40#8),
  .vsar 9 4 6 10 (some 0x09#8), .vcmpEq 9 0 6 10 (some 0x0a#8), .vcmpEq 9 8 6 10 (some 0x0a#8), .vcmpEq 9 3 6 10 (some 0x40#8),
  .vcmpEq 9 3 6 10 (some 0x0d#8), .vcmpNe 9 0 6 10 (some 0x0a#8), .vcmpNe 9 8 6 10 (some 0x0a#8), .vcmpNe 9 3 6 10 (some 0x40#8),
  .vcmpNe 9 3 6 10 (some 0x0d#8), .vcmpLt 9 0 6 10 (some 0x0a#8), .vcmpLt 9 8 6 10 (some 0x0a#8), .vcmpLt 9 3 6 10 (some 0x40#8),
  .vcmpLt 9 3 6 10 (some 0x0d#8), .vcmpLe 9 0 6 10 (some 0x0a#8), .vcmpLe 9 8 6 10 (some 0x0a#8), .vcmpLe 9 3 6 10 (some 0x40#8),
  .vcmpLe 9 3 6 10 (some 0x0d#8), .vcmpGt 9 0 6 10 (some 0x0a#8), .vcmpGt 9 8 6 10 (some 0x0a#8), .vcmpGt 9 3 6 10 (some 0x40#8),
  .vcmpGt 9 3 6 10 (some 0x0d#8), .vcmpGe 9 0 6 10 (some 0x0a#8), .vcmpGe 9 8 6 10 (some 0x0a#8), .vcmpGe 9 3 6 10 (some 0x40#8),
  .vcmpGe 9 3 6 10 (some 0x0d#8), .vcmpUn 9 0 6 10 (some 0x0a#8), .vcmpUn 9 8 6 10 (some 0x0a#8), .vcmpUn 9 3 6 10 (some 0x40#8),
  .vcmpUn 9 3 6 10 (some 0x0d#8), .vsel 9 48 6 10 (some 0x18#8), .vsel 9 4 6 10 (some 0x01#8), .vbcast 9 48 6 (some 0x18#8)]
theorem test_illFormed_5 : (ill5.all fun i => !i.wf) = true := by decide
def ill6 : List Instr := [
  .vbcast 9 4 6 (some 0x01#8), .vredAdd 9 48 6 (some 0x11#8), .vredAdd 9 4 6 (some 0x15#8), .vredMax 9 48 6 (some 0x11#8),
  .vredMax 9 4 6 (some 0x15#8), .vredMin 9 48 6 (some 0x11#8), .vredMin 9 4 6 (some 0x15#8), .vperm 9 48 6 10 (some 0x18#8),
  .vperm 9 4 6 10 (some 0x01#8), .vshuf 9 48 6 2 (some 0x18#8), .vshuf 9 4 6 2 (some 0x01#8), .vmodadd 9 48 6 10 (some 0x85#8),
  .vmodadd 9 4 6 10 (some 0x84#8), .vmodsub 9 48 6 10 (some 0x85#8), .vmodsub 9 4 6 10 (some 0x84#8), .vmodmul 9 48 6 10 (some 0x85#8),
  .vmodmul 9 4 6 10 (some 0x84#8), .vbfly 9 48 6 10 (some 0x85#8), .vbfly 9 4 6 10 (some 0x84#8), .vibfly 9 48 6 10 (some 0x85#8),
  .vibfly 9 4 6 10 (some 0x84#8), .vmaskAnd 9 0 3 5, .vmaskAnd 9 8 3 5, .vmaskAnd 9 3 8 5,
  .vmaskAnd 9 3 3 8, .vmaskOr 9 0 3 5, .vmaskOr 9 8 3 5, .vmaskOr 9 3 8 5,
  .vmaskOr 9 3 3 8, .vmaskXor 9 0 3 5, .vmaskXor 9 8 3 5, .vmaskXor 9 3 8 5,
  .vmaskXor 9 3 3 8, .vmaskAndn 9 0 3 5, .vmaskAndn 9 8 3 5, .vmaskAndn 9 3 8 5,
  .vmaskAndn 9 3 3 8, .vmaskNot 9 0 3, .vmaskNot 9 8 3, .vmaskNot 9 3 8]
theorem test_illFormed_6 : (ill6.all fun i => !i.wf) = true := by decide
def ill7 : List Instr := [
  .vlane 9 48 (some 0x18#8), .vlane 9 4 (some 0x01#8), .vcvt 9 2 48 6 (some 0x0b#8), .vcvt 9 2 4 6 (some 0x40#8),
  .vcvt 9 5 4 6 (some 0x0b#8), .vcvt 9 2 4 6 (some 0x05#8), .vbcastI 9 48 341 (some 0x5a#8), .vshlI 9 48 6 2 (some 0x0c#8),
  .vshlI 9 4 6 32 (some 0x0c#8), .vshlI 9 4 6 2 (some 0x40#8), .vshlI 9 4 6 2 (some 0x09#8), .vshrI 9 48 6 2 (some 0x0c#8),
  .vshrI 9 4 6 32 (some 0x0c#8), .vshrI 9 4 6 2 (some 0x40#8), .vshrI 9 4 6 2 (some 0x09#8), .vsarI 9 48 6 2 (some 0x0c#8),
  .vsarI 9 4 6 32 (some 0x0c#8), .vsarI 9 4 6 2 (some 0x40#8), .vsarI 9 4 6 2 (some 0x09#8), .xbeat 9 3 3 1 33 4 (some 0x02#8),
  .xbeat 9 3 1 1 33 68 (some 0x02#8), .xbeat 9 3 1 1 33 48 (some 0x02#8), .xbeat 9 3 1 1 33 4 (some 0x06#8), .xbeat 9 0 0 1 1 0 none,
  .xbeat 9 1 0 1 1 1 none, .xbeat 9 1 2 1 33 4 (some 0x01#8), .xcks 9 48 6 10, .xfix 9 48 6,
  .xres 9 4, .lds 9 48 6 3 none, .ldsTag 9 48 6 2, .ldss 9 48 6 3 none,
  .bfmt 9 16 6, .mv 9 1 6 (some 0x40#8), .mv 9 48 6 none, .mv 9 1 1 (some 0x09#8),
  .mvi 9 1 341 (some 0x08#8), .mvi 9 48 341 none, .fpeek 9 48 1, .fpeek 9 4 2]
theorem test_illFormed_7 : (ill7.all fun i => !i.wf) = true := by decide
def ill8 : List Instr := [
  .flev 9 48 1, .flev 9 4 2, .lrec 9 16 6, .lrec 9 11 37,
  .cpy 9 48 7 9 (some 0x02#8), .cpy 9 4 16 9 (some 0x02#8), .cpy 9 4 7 16 (some 0x02#8), .cpy 9 4 7 9 (some 0x04#8),
  .cpyx 9 48 7 9 (some 0x02#8), .cpyx 9 4 16 9 (some 0x02#8), .cpyx 9 4 7 16 (some 0x02#8), .cpyx 9 4 7 9 (some 0x04#8),
  .cpyt 9 6 16 9 (some 0x02#8), .cpyt 9 6 7 16 (some 0x02#8), .cpyt 9 6 7 9 (some 0x04#8), .cidw 9 6 (some 0x04#8),
  .cidr 9 48 (some 0x02#8), .cidr 9 4 (some 0x04#8), .cinv 9 6 (some 0x04#8), .chalt 9 (some 0x04#8),
  .gchk 9 48, .gstat 9 48, .rcstat 9 48, .collAr 9 48 6,
  .collRs 9 48 6, .collAg 9 48 6, .collBc 9 48 6, .bar 9 8,
  .gbar 9 8, .launch 9 48 6, .launchn 9 48 6, .glaunch 9 48 6,
  .fwait 9 63, .frget 9 63 6 10, .fuserd 9 48 6]
theorem test_illFormed_8 : (ill8.all fun i => !i.wf) = true := by decide
-- ## The hypotheses of the statements are met: scalar and control

theorem test_meets_ScalarDivide :
    tS.runs (.divs 9 4 6 10) = true ∧ tS.divBusy = false ∧ tS.rdS 10 = 0 ∧ tS.cur.rnd.getLsbD 4 = false ∧
    (let s := tOn 0 (tCore { tCtx with rnd := 0x10 }); s.runs (.divu 9 4 6 10) = true ∧ s.rdS 10 = 0 ∧ s.cur.rnd.getLsbD 4 = true) ∧
    (let s := tS2 6 (BitVec.ofInt 64 (-2 ^ 63)) 10 (-1); s.runs (.divs 9 4 6 10) = true ∧ (s.rdS 6).toInt = -2 ^ 63 ∧ (s.rdS 10).toInt = -1) ∧
    tOff.guardOff (.divs 9 4 6 10) = true ∧ tOff.guardOff (.divu 9 4 6 10) = true ∧ tOff.divBusy = false ∧
    (tOn 0 { tCore tCtx with divBusy := [(0, 5)] }).divBusy = true := by decide

theorem test_meets_ScalarFields :
    tS.runs (.insb 9 4 6 57 (some 6)) = true ∧ 64 < (58 : Code).toNat + (Ext.byte (some 6) |>.toNat) % 64 + 1 ∧
    tS.runs (.extb 9 63 6 0 (some 63)) = true ∧ (63 : Code).toNat = 63 := by decide

theorem test_meets_Conditions :
    tS.runs (.ceq 9 11 6 10) = true ∧ tS.runs (.ceq 9 17 6 10) = true ∧ tS.runs (.clti 9 31 6 10 none) = true ∧ tS.cur.inLoopr = false ∧
    tS.runs (.qset 9 16 6) = true ∧ (tLoop 2).runs (.qnot 9 24 31) = true ∧ (tLoop 2).cur.inLoopr = true ∧
    tS.runs (.qand 9 0 16 11) = true ∧ tS.runs (.qor 9 23 31 0) = true ∧
    ((12 : Code).toNat = 12 ∧ (15 : Code).toNat ≤ 15 ∧ 32 ≤ (32 : Code).toNat) := by decide

theorem test_meets_ControlRegisterAccess :
    tS.runs (.crd 9 4 0x37) = true ∧ tS.runs (.cwr 9 6 8) = true ∧ tS.runs (.cwr 9 6 0x20) = true ∧ tS.runs (.cwr 9 6 0x2F) = true ∧
    tS.runs (.cwr 9 6 0) = true ∧ tS.runs (.cwr 9 6 4) = true ∧ tS.runs (.cwr 9 6 0x14) = true ∧ tS.runs (.cwr 9 6 0x1B) = true ∧
    tS.runs (.cwr 9 6 0x34) = true ∧ tS.hasRes = true ∧ tS.runs (.cwrModulus 9 6 3) = true ∧
    ({ tS with caps := 0x18414 }).hasRes = false ∧ ({ tS with caps := 0x18414 }).runs (.cwrModulus 9 6 0) = true ∧
    tS.runs (.cwrRptcard 9 6 3) = true ∧ crListed 5 = false ∧ crListed 0x38 = false := by decide

theorem test_meets_ArrayModeWrite :
    tS.runs (.cwrArrmode 9 6) = true ∧ isSupervisor tS.iss.core = false ∧ (tS.rdS 6).toNat % 4 ≠ 3 ∧ tS.curArr.mode = tS.iss.core % 2 ∧
    tS.curArr.inFlight 0 = false ∧ tS.curArr.inFlight 1 = false ∧ (tS2 6 3 7 0).runs (.cwrArrmode 9 6) = true ∧ (tS2 6 3 7 0).rdS 6 = 3 ∧
    (tArr { mode := 1 } tCtx).runs (.cwrArrmode 9 6) = true ∧ (tArr { mode := 1 } tCtx).curArr.mode ≠ 2 ∧
    tSup.runs (.cwrArrmode 9 6) = true ∧ isSupervisor tSup.iss.core = true := by decide

theorem test_meets_AllotAndShrink :
    tS.runs (.allot 9 48 48) = true ∧ tS.allotBad = false ∧ 48 - tS.iss.allocS ≤ tS.curCore.freeS ∧ 48 - tS.iss.allocV ≤ tS.curCore.freeV ∧
    tS.runs (.shrink 9 0 47) = true ∧
    (let s : State := { tOn 0 { run := some 0, ctxs := (List.range 8).map fun n => (n, { tCtx with allocS := if n = 0 then 0 else 48 }) } with
        iss := { words := [0, 0, 0, 0] } }
     s.runs (.allot 0 48 48) = true ∧ s.allotBad = false ∧ s.curCore.freeS = 176 ∧ s.curCore.freeV = 0 ∧
      s.curCore.freeV < 48 - s.iss.allocV) := by decide

theorem test_meets_Branches :
    tS.runs (.prep 9 11 0 none) = true ∧ tS.runs (.prepr 9 0 6) = true ∧ (tS.rdS 6).toNat % 16 = 0 ∧ (tS2 6 8 7 0).runs (.prepr 9 0 6) = true ∧
    (tS2 6 8 7 0).rdS 6 = 8 ∧ tS.runs (.br 9 5) = true ∧ tS.runs (.brl 9 5 4) = true ∧ tS.runs (.ret 9 6) = true ∧ tS.iss.xferBad = false ∧
    tS.iss.xfer = none ∧ tS.iss.lbrk = false ∧ (NMap.getD tS.cur.cond 5 (false, 0)).1 = false ∧
    (let s := tOn 0 (tCore { tCtx with cond := [(5, true, 0)], target := [(5, 7)], prep := [(5, 2)], issued := 4 })
     s.runs (.br 9 5) = true ∧ (NMap.getD s.cur.cond 5 (false, 0)).1 = true) ∧
    ({ tS with iss := { tS.iss with ops := [.loop 0 0 1 none] } }).iss.xferBad = true := by decide

theorem test_meets_Loops :
    tS.runs (.loop 9 6 1 none) = true ∧ tS.iss.ops = [] ∧ tS.cur.loops = [] ∧ (tS.rdS 6).toNat % 2 ^ 32 = 0 ∧ (tS2 6 3 7 0).runs (.loopr 9 6 7 (some 7)) = true ∧
    ((tS2 6 3 7 0).rdS 6).toNat % 2 ^ 32 ≠ 0 ∧ tS.runs (.loopi 9 63 0 (some 0xF0)) = true ∧
    (tLoop 2).cur.inLoopr = true ∧ (tLoop 0).runs (.lbrk 9) = true ∧ (tLoop 0).iss.xferBad = false ∧ (tLoop 0).cur.loops ≠ [] ∧
    ({ tCtx with loops := [tLevel 2, tLevel 0] } : Ctx).loops = tLevel 2 :: [tLevel 0] ∧ (tLevel 2).last = 32 ∧ 1 < (tLevel 2).left ∧
    (⟨16, 32, 1, 2, 5, 0⟩ : Level).left ≤ 1 ∧ ¬((tLevel 0).first ≤ 48 ∧ 48 ≤ (tLevel 0).last) ∧
    (let s := tOn 0 (tCore { tCtx with loops := [tLevel 0, tLevel 0, tLevel 0, tLevel 0] })
     s.runs (.loop 9 6 1 none) = true ∧ 4 ≤ s.cur.loops.length) := by decide

theorem test_meets_YieldAndWaits :
    tS.runs (.yield 9) = true ∧ tS.runs (.done 9) = true ∧ tS.runs (.waitc 9 6) = true ∧ tOff.guardOff (.yield 9) = true ∧
    tOff.guardOff (.done 9) = true ∧ tOff.guardOff (.waitc 9 6) = true ∧
    (let s := tOn 0 (tCore { tCtx with st := .wait [.cyc 0] }); (s.ctx 0 0).st = .wait [.cyc 0] ∧ 0 ≤ s.cyc) ∧
    (let s := tOn 0 (tCore { tCtx with st := .wait [.cyc 1] }); (s.ctx 0 0).st = .wait [.cyc 1] ∧ s.cyc < 1) := by decide

theorem test_meets_TrapsAndDeferral :
    tS.runs (.trap 9 0xFFF) = true ∧ tS.runs (.bkpt 9) = true ∧ tS.clean = true ∧ tOff.guardOff (.trap 9 1) = true ∧ tOff.guardOff (.bkpt 9) = true ∧
    tS.runs (.defer 9 44 7 4 63) = true ∧ tS.iss.ops.any isDeferOp = false ∧ tS.runs (.defdr 9 44 4 0) = true ∧
    tS.runs (.ctxid 9 63) = true ∧ tS.runs (.prio 9 7) = true ∧ tS.runs (.tcur 9 4) = true ∧
    (if tS.cur.cursor ≤ 255 then tS.cur.ttab.getD tS.cur.cursor (BitVec.allOnes 64) else BitVec.allOnes 64) = BitVec.allOnes 64 ∧
    (let s := tOn 0 (tCore { tCtx with ttab := [5] }); s.runs (.tcur 9 4) = true ∧ s.cur.ttab.getD s.cur.cursor (BitVec.allOnes 64) = 5) := by decide


-- ## The hypotheses are met: vectors, scratchpad, moves

theorem test_meets_VectorBitsAndMoves :
    31 < (32 : Code).toNat ∧ tS.runs (.vsel 9 4 6 10 none) = true ∧ tS.runs (.vbcastI 9 63 0x800 none) = true ∧
    (let s := tOn 0 (tCore { tCtx with latch := [⟨0, 0, .v 0⟩] })
     s.guardOn (.vbcast 9 4 48 none) = true ∧ s.cur.latchAt 48 = some (.v 0)) := by decide

theorem test_meets_VectorMasks :
    tS.runs (.vcmpUn 9 7 6 10 (some 4)) = true ∧ tS.runs (.vcmpEq 9 1 6 10 none) = true ∧ tS.runs (.vmaskAndn 9 7 7 0) = true ∧
    tS.runs (.vmaskNot 9 1 0) = true ∧ ((0 : Code) = 0 ∧ 8 ≤ (8 : Code).toNat) := by decide

theorem test_meets_VectorReduceAndConvert :
    tS.runs (.vredAdd 9 4 6 (some 0x04)) = true ∧ tS.runs (.vredAdd 9 4 6 (some 0x03)) = true ∧ tS.runs (.vredAdd 9 4 6 (some 0x02)) = true ∧
    tS.runs (.vredMax 9 4 6 (some 0x08)) = true ∧ tS.maskAt 1 = 0 ∧ tS.maskAt 0 ≠ 0 ∧ isNaN (decodeTy 0 0x7FC00000) = true ∧
    isNaN (decodeTy 0 (elem 0 (tS.rdV 6) 0)) = false ∧ tS.runs (.vredMin 9 4 6 none) = true ∧ tS.runs (.vcvt 9 7 4 6 (some 0x24)) = true ∧
    tS.runs (.vcvt 9 0 4 6 none) = true := by decide

theorem test_meets_ResidueArithmetic :
    tS.runs (.vbfly 9 4 6 10 none) = true ∧ tS.hasRes = true ∧ (NMap.getD tS.cur.md 0 0).toNat % 2 = 0 ∧
    (let s := tOn 0 (tCore { tCtx with md := [(3, 3)] })
     s.runs (.vmodmul 9 4 6 10 (some 0xC0)) = true ∧ (NMap.getD s.cur.md 3 0).toNat % 2 = 1 ∧ 3 ≤ (NMap.getD s.cur.md 3 0).toNat ∧
      (s.maskAt 0).getLsbD 0 = true ∧ (s.maskAt 1).getLsbD 0 = false) ∧
    (Instr.vmodadd 9 4 6 10 none).wf = true ∧ tS.iss.over (.vmodadd 9 4 6 10 none) = false ∧ tS.latchBad (.vmodadd 9 4 6 10 none) = false ∧
    ({ tS with caps := 0x18414 } : State).hasRes = false := by decide

theorem test_meets_ScratchpadAccess :
    tS.runs (.lds 9 4 6 63 none) = true ∧ (tS.rdS 6).toNat % 512 = 0 ∧ tS.runs (.ldss 9 63 6 32 (some 0xFF)) = true ∧ tS.runs (.sts 9 47 6 0 none) = true ∧
    tS.runs (.stss 9 47 6 0 none) = true ∧ (tS2 6 4 7 0).runs (.ldss 9 4 6 0 none) = true ∧ ((tS2 6 4 7 0).rdS 6).toNat % 2 ^ 20 % 8 ≠ 0 ∧
    tOff.guardOff (.lds 9 4 6 0 none) = true ∧ tOff.guardOff (.stss 9 4 6 0 none) = true := by decide

/-- Two stores that are due together, one a port, and a landing. -/
def tFlights : List Flight :=
  [⟨0, 0, 0, 0, 0, .store 0 0xFFFFC [1, 2, 3, 4, 5, 6, 7, 8]⟩, ⟨0, 0, 1, 0, 0, .store 1 0 [9, 9]⟩, ⟨0, 0, 2, 0, 1, .sreg (some 3) 7⟩,
   ⟨0, 0, 3, 0, 0, .vreg (some 3) 7⟩, ⟨1, 0, 3, 0, 0, .cond 3 true 1⟩]
def tFly : State := tOn 0 (tCore { tCtx with flight := tFlights })

theorem test_meets_Landings :
    ((tFly.ctx 0 0).flight.filter fun f => decide (f.due ≤ 0) && f.isStore) =
      [⟨0, 0, 0, 0, 0, .store 0 0xFFFFC [1, 2, 3, 4, 5, 6, 7, 8]⟩, ⟨0, 0, 1, 0, 0, .store 1 0 [9, 9]⟩] ∧
    (let s := tOn 0 (tCore { tCtx with flight := tFlights.take 1 })
     ((s.ctx 0 0).flight.filter fun f => decide (f.due ≤ (s.ctx 0 0).clk) && f.isStore) = [⟨0, 0, 0, 0, 0, .store 0 0xFFFFC [1, 2, 3, 4, 5, 6, 7, 8]⟩]) ∧
    ((tFly.ctx 0 0).flight.filter fun f => decide (f.due ≤ (tFly.ctx 0 0).clk) && !f.isStore) =
      [⟨0, 0, 2, 0, 1, .sreg (some 3) 7⟩, ⟨0, 0, 3, 0, 0, .vreg (some 3) 7⟩] := by decide

theorem test_meets_TaggedLoadAndFormats :
    tS.runs (.ldsTag 9 4 6 10) = true ∧ (NMap.getD tS.curCore.bankfmt 0 0).testBit 3 = false ∧ (tS.rdS 6).toNat % 4096 = 0 ∧
    (Memory.read tS.issueSpad 0).toNat + 256 * (Memory.read tS.issueSpad 1).toNat = (tS.rdS 10).toNat % 2 ^ 16 ∧
    (tS2 6 0 10 1).runs (.ldsTag 9 4 6 10) = true ∧ (tS2 6 0 10 1).rdS 10 = 1 ∧ (tS2 6 2 10 0).runs (.ldsTag 9 4 6 10) = true ∧
    (tS2 6 2 10 0).rdS 6 = 2 ∧
    (let s := tOn 0 { tCore tCtx with bankfmt := [(0, 8)] }
     s.runs (.ldsTag 9 4 6 10) = true ∧ (NMap.getD s.curCore.bankfmt 0 0).testBit 3 = true) ∧
    tS.runs (.bfmt 9 15 6) = true ∧ (tS.rdS 6).getLsbD 3 = false ∧ tS.hasCmp = true ∧ (tS2 6 8 7 0).runs (.bfmt 9 0 6) = true ∧
    ((tS2 6 8 7 0).rdS 6).toNat.testBit 3 = true ∧ ({ tS2 6 8 7 0 with caps := 0x1840C } : State).hasCmp = false ∧
    ({ tS2 6 8 7 0 with caps := 0x1840C } : State).runs (.bfmt 9 0 6) = true ∧ tOff.guardOff (.bfmt 9 0 6) = true := by decide

theorem test_meets_FifoReads :
    tS.runs (.fpeek 9 4 1) = true ∧ tS.runs (.flev 9 63 0) = true ∧ isSupervisor tS.iss.core = false ∧ (tS.arr 0).mode = tS.iss.core % 2 ∧
    (tArr { mode := 1 } tCtx).runs (.flev 9 4 0) = true ∧ ((tArr { mode := 1 } tCtx).arr 0).mode = 1 ∧
    (tArr { mode := 2, p0 := { fa := ⟨[7], 1, 0⟩ } } tCtx).runs (.fpeek 9 4 0) = true ∧
    isSupervisor tSup.iss.core = true ∧ (Instr.flev 9 4 0).wf = true ∧ tSup.iss.over (.flev 9 4 0) = false ∧ 2 ≤ (2 : Code).toNat := by decide

theorem test_meets_Moves :
    tS.runs (.mv 9 47 63 none) = true ∧ mvDst 47 none < 0x30 ∧ mvSrc 63 none < 0x40 ∧ tS.runs (.mvi 9 16 0 (some 3)) = true ∧ mvDst 16 (some 3) = 0xD0 ∧
    tS.runs (.mvi 9 23 0 (some 3)) = true ∧ mvDst 23 (some 3) = 0xD7 ∧ tS.runs (.mvi 9 48 0 (some 3)) = true ∧ mvDst 48 (some 3) = 0xF0 ∧
    tS.runs (.mv 9 1 6 (some 3)) = true ∧ mvDst 1 (some 3) = 0xC1 ∧
    (let s := tOn 0 { tCore tCtx with world := 1 }; s.runs (.mvi 9 0 0 (some 4)) = true ∧ mvDst 0 (some 4) = 0x100 ∧ s.worldOf s.iss.core s.iss.ctx ≠ 0) ∧
    tS.runs (.mv 9 0 6 (some 1)) = true ∧ mvDst 0 (some 1) = 0x40 ∧ tS.runs (.mv 9 1 6 (some 1)) = true ∧ mvDst 1 (some 1) = 0x41 ∧
    tS.curArr.mode = tS.iss.core % 2 ∧ isSupervisor tS.iss.core = false ∧ ((tS.curArr.pos 0).fa.q).length < 64 ∧ mFmt (tS.curArr.pos 0).mode ≠ 5 ∧
    (let s := tArr { mode := 2, p0 := { fa := ⟨List.replicate 32 0, 32, 0⟩ } } tCtx
     s.runs (.mv 9 0 6 (some 1)) = true ∧ s.curArr.mode = 2 ∧ 32 ≤ (s.curArr.pos 0).fa.q.length) ∧
    (let s := tOn 0 { tCore tCtx with flight := [⟨0, 0xD0, .port 0xD0 5⟩] }
     (s.core 0).flight = [⟨0, 0xD0, .port 0xD0 5⟩] ∧ 0 ≤ (s.core 0).ccyc) ∧ tS.iss.ops = [] ∧
    (let s := tArr { flight := [⟨1, 0, .push 0 false 5 5⟩] } tCtx
     let s := { s with iss := { s.iss with ops := [.mv 9 0 6 (some 1)] } }
     let u := s.entered (.mv 9 0 7 (some 1))
     s.runs (.mv 9 0 7 (some 1)) = true ∧ isSupervisor s.iss.core = false ∧ s.curArr.mode = s.iss.core % 2 ∧
      (∃ o ∈ u.iss.ops, moveDst o = some 0x40 ∧ u.guardOn o = true) ∧ (u.unpush 0 false).curArr.flight = []) := by decide


-- ## The hypotheses are met: the array and the group engine

theorem test_meets_Beats :
    tS.runs (.xbeat 9 0 0 0 0 0 none) = true ∧ isSupervisor tS.iss.core = false ∧ (tS.arr 0).mode = tS.iss.core % 2 ∧ ((tS.arr 0).pos 0).lastRes = none ∧
    tS.runs (.xbeat 9 1 0 0 63 0 none) = true ∧ ((tS.arr 0).pos 0).fa.q.length < 1 ∧
    (let s := tArr { mode := 2, p0 := { fa := ⟨[7], 1, 0⟩, fb := ⟨[7], 1, 0⟩ } } tCtx
     s.runs (.xbeat 9 2 1 1 31 0 none) = true ∧ (s.arr 0).mode = 2 ∧ (s.arr 0).acyc % (2 * 2 ^ (s.arr 0).wsz) / 2 ^ (s.arr 0).wsz = s.iss.core % 2 ∧
      (31 : Code).toNat / 32 = s.iss.core % 2 ∧ 1 ≤ ((s.arr 0).pos 0).fa.q.length ∧ ((s.arr 0).pos 0).fb.q ≠ [] ∧ (32 : Code).toNat / 32 ≠ s.iss.core % 2) ∧
    (let s := tArr { p0 := { mode := 2, fa := ⟨[7, 8], 2, 0⟩ } } tCtx
     s.runs (.xbeat 9 1 2 0 62 0 none) = true ∧ mFmt ((s.arr 0).pos 0).mode = 2 ∧ (62 : Code).toNat % 2 = 0 ∧ 2 ≤ ((s.arr 0).pos 0).fa.q.length ∧
      s.runs (.xbeat 9 1 0 0 63 0 none) = true ∧ (63 : Code).toNat % 2 = 1) ∧
    tS.runs (.xbeat 9 3 0 0 5 4 (some 2)) = true ∧ mFmt ((tS.arr 0).pos 0).mode = 0 ∧
    (tArr { mode := 1 } tCtx).runs (.xbeat 9 0 0 0 0 0 none) = true ∧
    (Instr.xbeat 9 0 0 0 0 0 none).wf = true ∧ tSup.iss.over (.xbeat 9 0 0 0 0 0 none) = false ∧ tSup.latchBad (.xbeat 9 0 0 0 0 0 none) = false ∧
    isSupervisor tSup.iss.core = true := by decide

def tWin (m : Nat) (v : Word) : State := { tArr { mode := m } { tCtx with sreg := [(6, v)] } with dbg := true }

theorem test_meets_ArrayControls :
    tS.runs (.xmode 9 6) = true ∧ (tS.arr 0).inFlight 0 = false ∧ tS.hasRes = true ∧ tS.rdS 6 = 0 ∧ (tS.arr 0).mode = tS.iss.core % 2 ∧
    (tS2 6 4 7 0).runs (.xmode 9 6) = true ∧ ((tS2 6 4 7 0).rdS 6).toNat % 8 = 4 ∧ (tWin 1 0).runs (.xmode 9 6) = true ∧ ((tWin 1 0).arr 0).mode = 1 ∧
    ((tArr { clk := 1, flight := [⟨5, 0, .busy 0⟩] } tCtx).arr 0).inFlight 0 = true ∧
    tS.runs (.xzero 9 63) = true ∧ (tWin 2 0).runs (.xzero 9 31) = true ∧ (tWin 1 0).runs (.xzero 9 0) = true ∧ tS.runs (.xres 9 3) = true ∧
    (tWin 2 1).runs (.xwin 9 6) = true ∧ ((tWin 2 1).rdS 6).toNat % 16 = 1 ∧ (tWin 2 2).runs (.xwin 9 6) = true ∧ ((tWin 2 2).rdS 6).toNat % 16 = 2 ∧
    tS.runs (.xwin 9 6) = true ∧ (tWin 1 0).runs (.xwin 9 6) = true ∧
    ({ tS with dbg := false }).runs (.xinj 9 0 6 10) = true ∧ ({ tS with dbg := false } : State).cur.proc = false ∧
    (tWin 0 255).runs (.xinj 9 63 6 10) = true ∧ (tWin 0 255).dbg = true ∧ ((tWin 0 255).rdS 6).toNat < 256 ∧
    (tWin 0 256).runs (.xinj 9 63 6 10) = true ∧ 256 ≤ ((tWin 0 256).rdS 6).toNat ∧
    (let s := tArr { mode := 2 } { tCtx with st := .wait [.win 1] }
     (s.ctx 0 0).st = .wait [.win 1] ∧ (s.arr 0).acyc % (2 * 2 ^ (s.arr 0).wsz) ≠ 1) ∧
    (let s := tArr { mode := 2 } { tCtx with st := .wait [.win 0] }
     (s.ctx 0 0).st = .wait [.win 0] ∧ (s.arr 0).acyc % (2 * 2 ^ (s.arr 0).wsz) = 0) := by decide

/-- A position whose mode is checksummed, with the verdicts given. -/
def tCks (m : Nat) (fr : BitVec 64) (fc : BitVec 128) (ux : Bool) (v : Word) : State :=
  tArr { mode := m, p0 := { mode := 0x1000000, fr := fr, fc := fc, ux := ux } } { tCtx with sreg := [(6, v)] }

theorem test_meets_ChecksumVerdicts :
    (tCks 0 0 0 false 0).runs (.xcks 9 4 6 10) = true ∧ isSupervisor (tCks 0 0 0 false 0).iss.core = false ∧ mCk (((tCks 0 0 0 false 0).arr 0).pos 0).mode = true ∧
    ((tCks 0 0 0 false 0).arr 0).mode = 0 ∧ decodeBin 23 0 = .fin false 0 (-149) ∧ (tCks 0 0 0 false 63).runs (.xcks 9 4 6 10) = true ∧
    (63 : Nat) % 64 + (63 / 2 ^ 8 % 64 + 1) ≤ 64 ∧ ¬((319 : Nat) % 64 + (319 / 2 ^ 8 % 64 + 1) ≤ 64) ∧ (tCks 0 0 0 false 319).runs (.xcks 9 4 6 10) = true ∧
    tS.runs (.xcks 9 4 6 10) = true ∧ mCk ((tS.arr 0).pos 0).mode = false ∧ (tCks 2 0 0 false 32).runs (.xcks 9 4 6 10) = true ∧
    (tCks 0 0 0 false 0).runs (.xfix 9 4 6) = true ∧ (tCks 0 1 1 false 0).runs (.xfix 9 4 6) = true ∧ (tCks 0 1 3 false 0).runs (.xfix 9 4 6) = true ∧
    (tCks 0 1 0 false 0).runs (.xfix 9 4 6) = true ∧ (tCks 0 0 1 true 0).runs (.xfix 9 4 6) = true ∧
    ((List.range 128).filter fun c => (1 : BitVec 128).getLsbD c) = [0] ∧ ([0].filter fun k => (1 : BitVec 64).getLsbD k) = [0] ∧
    ((List.range 128).filter fun c => (3 : BitVec 128).getLsbD c) = [0, 1] := by decide

theorem test_meets_ArrayLandings :
    (let s := tArr { flight := [⟨0, 0, .contrib 0 63 true 0 1 0 [] false none 0⟩] } tCtx; ((s.arr 0).dueOf isContrib).isSome = true) ∧
    (let s := tArr { flight := [⟨0, 0, .xzero 5⟩] } tCtx; ((s.arr 0).dueOf fun e => isOther e && !isMode e).isSome = true) ∧
    (let s := tArr { flight := [⟨0, 0, .xmode 0 0⟩] } tCtx
     ((s.arr 0).dueOf isMode).isSome = true ∧ (s.arr 0).dueOf (fun e => isOther e && !isMode e) = none) ∧
    (let s := tArr { flight := [⟨0, 0, .gorb 0 1 0 []⟩] } tCtx; ((s.arr 0).dueOf isOrb).isSome = true) ∧
    (let s := tArr { flight := [⟨0, 0, .gloadStart⟩] } tCtx; ((s.arr 0).dueOf isGroupLoad).isSome = true) ∧
    (let s := tArr { flight := [⟨0, 0, .gchkEnd 0 0 2 0 0 0 0 16⟩] } tCtx
     (s.arr 0).dueOf isVerdict = some ⟨0, 0, .gchkEnd 0 0 2 0 0 0 0 16⟩ ∧ (2 : Word).getLsbD 0 = false ∧ (s.ctx 0 0).gen = 0 ∧
      (s.ctx 0 0).st ≠ .free) := by decide

theorem test_meets_GroupEngine :
    tS.runs (.gload 9 6 0) = true ∧ (tS.arr 0).gbusy = none ∧ isSupervisor tS.iss.core = false ∧ (tS.arr 0).mode = tS.iss.core % 2 ∧ tS.rdS 6 = 0 ∧
    (tS2 6 0x200000 7 0).runs (.gload 9 6 63) = true ∧ ((tS2 6 0x200000 7 0).rdS 6).toNat / 2 ^ 20 % 4 = 2 ∧
    (tS2 6 64512 7 0).runs (.gload 9 6 0) = true ∧ 64512 % 512 = 0 ∧ 64512 + 512 * (1 + (1 + 7) / 8) ≤ 2 ^ 16 ∧
    (tS2 6 0x300000 7 0).runs (.gload 9 6 0) = true ∧ 0x300000 / 2 ^ 20 % 4 = 3 ∧ (tS2 6 1 7 0).runs (.gload 9 6 0) = true ∧
    tS.runs (.gchk 9 4) = true ∧
    (let s := tArr { gbusy := some ⟨0, 0, 5⟩ } tCtx; (s.arr 0).gbusy = some ⟨0, 0, 5⟩ ∧ (s.arr 0).clk < 5 ∧ 0 = s.iss.core) ∧
    (let s := tArr { gbusy := some ⟨1, 0, 5⟩ } tCtx
     s.runs (.gload 9 6 0) = true ∧ s.runs (.gchk 9 4) = true ∧ (s.arr 0).clk < 5 ∧ 1 ≠ s.iss.core) ∧
    tS.runs (.gsel 9 6) = true ∧ (tS.rdS 6).toNat < (tS.arr 0).gn ∧ (tS2 6 1 7 0).runs (.gsel 9 6) = true ∧ ¬(1 < ((tS2 6 1 7 0).arr 0).gn) ∧
    (let s := tArr { gn := 2, chk := 0 } { tCtx with sreg := [(6, 1)] }
     s.runs (.gsel 9 6) = true ∧ (s.rdS 6).toNat < (s.arr 0).gn ∧ ((s.rdS 6).toNat ≠ 0 ∧ (s.arr 0).chk ≠ 1)) ∧
    (let s := tArr { gn := 2 } { tCtx with sreg := [(6, 1)] }
     s.runs (.gsel 9 6) = true ∧ (s.arr 0).chk = 1 ∧ (s.arr 0).krc = mKr ((s.arr 0).pos 0).mode - 1 ∧ (s.arr 0).inex = 0) ∧
    (let s := tS2 6 0x3F00 7 0
     s.runs (.gorb 9 62 6) = true ∧ (s.rdS 6).toNat / 2 ^ 8 % 64 + mKr ((s.arr 0).pos 0).mode ≤ 64 ∧ (s.arr 0).kind ≠ 1 ∧ mFmt ((s.arr 0).pos 0).mode = 0 ∧
      ¬(62 < 63 + mKr ((s.arr 0).pos 0).mode ∧ 63 < 62 + 1)) ∧
    tS.runs (.gstat 9 63) = true := by decide


-- ## The hypotheses are met: global memory and copies

/-- A translation of page 0, with every permission, and a core that holds it. -/
def tTr : TlbEntry := ⟨0, 65536, 0, 7, 0, 7, 0, 0, [(0, 65536)], 0, false, none⟩
def tMem (k : Core) : State := tOn 0 { k with tlb := [tTr] }
def tReach : State := tMem (tCore tCtx)
/-- The same on a supervisor core. -/
def tMgmt (v w : Word) : State := tOn 248 { tCore { tCtx with proc := true, sreg := [(6, v), (10, w)] } with tlb := [tTr] }
/-- A core whose prefetches hold every walk slot of its die. -/
def tFull : State := tOn 0 { tCore tCtx with prefs := List.replicate 4096 ⟨0, 0, false, false, 0, 0, 0, 0, 0, 0⟩ }
theorem tFull_slot : tFull.walkSlot (dieOf 0) = false := by
  have h : dieOf 0 = 0 := by decide
  simp [State.walkSlot, tFull, tOn, tCore, h, Config.maxWalks]

theorem test_meets_GlobalAccesses :
    tReach.runs (.ldW64 9 47 6 63 (some 0x18)) = true ∧ tReach.reaches 0 0 8 tTr = true ∧ tReach.loadRoom = true ∧ (tReach.rdS 6).toNat = 0 ∧
    tReach.runs (.ldv 9 63 6 0 none) = true ∧ tReach.reaches 65024 0 512 tTr = true ∧ tReach.runs (.stv 9 47 6 0 none) = true ∧
    tReach.reaches 0 1 512 tTr = true ∧ tReach.storeRoom = true ∧ tReach.runs (.stW8 9 4 6 0 none) = true ∧
    (tS2 6 1 7 0).runs (.ldW16 9 4 6 0 none) = true ∧ ((tS2 6 1 7 0).rdS 6).toNat % 2 ≠ 0 ∧ tS.runs (.ldW8 9 4 6 0 none) = true ∧
    tS.curCore.walk = none ∧ tS.tlbFind 0 0 (tS.worldOf 0 0) = none ∧ tS.walkSlot (dieOf 0) = true ∧
    tOff.guardOff (.ldv 9 4 6 0 none) = true ∧ tOff.guardOff (.stW64 9 4 6 0 none) = true := by decide
theorem test_meets_GlobalAccesses_held :
    (tFull.runs (.ldv 9 4 6 0 none) = true ∧ tFull.curCore.walk = none ∧ tFull.tlbFind 0 0 (tFull.worldOf 0 0) = none) ∧
    tFull.walkSlot (dieOf tFull.iss.core) = false := ⟨by decide, tFull_slot⟩

theorem test_meets_AmoAndCas :
    tReach.runs (.amoAdd 9 47 6 10 (some 5)) = true ∧ tReach.reaches 0 2 8 tTr = true ∧ tReach.rdS 6 % 8 = 0 ∧ tReach.loadRoom = true ∧
    (tS2 6 4 7 0).runs (.amoXor 9 4 6 10 none) = true ∧ (tS2 6 4 7 0).rdS 6 % 8 ≠ 0 ∧ tReach.runs (.amoMin 9 63 6 10 none) = true ∧
    isRegPage (tTr.phys 0) = false ∧ tReach.curCore.amo = [] ∧
    (let e : TlbEntry := { tTr with pa := 0xF000000000000 }
     let s := tOn 248 { tCore { tCtx with proc := true } with tlb := [e] }
     s.runs (.amoOr 9 63 6 10 none) = true ∧ s.reaches 0 2 8 e = true ∧ isRegPage (e.phys 0) = true ∧ s.loadRoom = true) ∧
    (let s := tMem { tCore tCtx with amo := [{ pa := 0, op := 2, value := 7, scope := 0, since := 0, ctx := 0, launch := 0 }] }
     s.runs (.amoMax 9 63 6 10 none) = true ∧ s.reaches 0 2 8 tTr = true ∧
      s.curCore.amo = [{ pa := 0, op := 2, value := 7, scope := 0, since := 0, ctx := 0, launch := 0 }] ∧ s.curCore.fenceAfter 0 0 0 = false) ∧
    tReach.runs (.cas 9 47 6 10 none) = true ∧ (tS2 6 4 7 0).runs (.cas 9 4 6 10 none) = true := by decide

theorem test_meets_FencesAndPrefetch :
    tS.runs (.fenceAcq 9 (some 5)) = true ∧ tS.runs (.fenceRel 9 none) = true ∧ tS.runs (.fenceFull 9 none) = true ∧
    (let s := tOn 0 (tCore { tCtx with st := .wait [.fence 0 1] })
     (s.ctx 0 0).st = .wait [.fence 0 1] ∧ ∀ q ∈ (s.core 0).access, q.of 0 (s.ctx 0 0).gen && q.landing = false) ∧
    (let s := tOn 0 { tCore { tCtx with st := .wait [.fence 0 1] } with access := [{ id := 0, ctx := 0, gen := 0, launch := 0, kind := 0, dest := some (false, 3) }] }
     (s.ctx 0 0).st = .wait [.fence 0 1] ∧ ∃ q ∈ (s.core 0).access, q.of 0 (s.ctx 0 0).gen = true ∧ q.landing = true) ∧
    (let s := tOn 0 (tCore { tCtx with st := .wait [.fence 2 0] })
     (s.ctx 0 0).st = .wait [.fence 2 0] ∧ s.settledAll 0 0 0 = true ∧ (s.core 0).amo = [] ∧ ∀ q ∈ (s.core 0).access, q.merged = true → s.performed q 0 = true) ∧
    (let s := tOn 0 { tCore { tCtx with st := .wait [.fence 2 0] } with nextAccess := 1, access := [{ id := 0, ctx := 0, gen := 0, launch := 0, kind := 1 }] }
     (s.ctx 0 0).st = .wait [.fence 2 0] ∧ s.settledAll 0 0 0 = false) ∧
    tReach.runs (.pref 9 6 0 (some 8)) = true ∧ tReach.runs (.pref 9 6 0 none) = true ∧ tReach.tlbFind 0 0 0 = some tTr ∧
    tReach.judge tTr 0 3 0 false = none ∧ (tReach.core (tReach.l1Core 0)).fills = [] ∧
    tReach.badLine tTr.wtag (tTr.phys 0) 128 = none ∧
    tS.runs (.pref 9 6 0 none) = true ∧ tS.tlbFind 0 0 0 = none ∧ tS.walkSlot (dieOf 0) = true ∧
    (let e : TlbEntry := { tTr with wtag := 1, world := 1 }
     let s : State := { tOn 0 { tCore { tCtx with world := 1 } with tlb := [e], world := 1 } with sealed := [(0, 2)] }
     s.runs (.pref 9 6 0 none) = true ∧ s.tlbFind 0 0 (s.worldOf 0 0) = some e ∧ s.judge e 0 3 (s.worldOf 0 0) (s.isMgmt 0 0) = none ∧
      s.badLine e.wtag (e.phys 0) 128 ≠ none) ∧
    (let s := tOn 0 { tCore tCtx with tlb := [{ tTr with tperm := 0 }] }
     s.runs (.pref 9 6 0 none) = true ∧ s.tlbFind 0 0 0 = some { tTr with tperm := 0 } ∧ s.judge { tTr with tperm := 0 } 0 3 0 false ≠ none) := by decide
theorem test_meets_FencesAndPrefetch_full :
    (tFull.runs (.pref 9 6 0 none) = true ∧ tFull.tlbFind 0 0 0 = none) ∧ tFull.walkSlot (dieOf tFull.iss.core) = false := ⟨by decide, tFull_slot⟩

def tAcc (kind : Nat) : Access := { id := 7, ctx := 0, gen := 0, launch := 0, kind := kind, pa := 64, len := 8, value := 5 }
def tWr (kind : Nat) : State := tOn 0 { tCore tCtx with access := [tAcc kind], nextAccess := 8 }

theorem test_meets_WritePerforms :
    (let waits := fun (q : Access) => decide (q.id = 7 ∧ q.ctx = 0) && !q.done && decide (1 ≤ q.kind ∧ q.kind ≤ 4)
     tS.curCore.access.find? waits = none ∧ (tWr 1).curCore.access.find? waits = some (tAcc 1) ∧ (tWr 2).curCore.access.find? waits = some (tAcc 2) ∧
     (tWr 3).curCore.access.find? waits = some (tAcc 3)) ∧
    (tWr 1).canPerform 0 (tAcc 1) = true ∧ (tWr 2).canPerform 0 (tAcc 2) = true ∧ (tWr 3).canPerform 0 (tAcc 3) = true ∧ isWindow 64 = false ∧
    isRegPage 64 = false ∧ (tAcc 1).len ≤ 512 ∧ (∀ l ∈ blocks 128 64 8, (tWr 1).sealer l = 0) ∧
    (let s := tOn 0 { tCore tCtx with access := [{ tAcc 1 with id := 6 }, tAcc 1] }
     s.curCore.access.find? (fun q => decide (q.id = 7 ∧ q.ctx = 0) && !q.done && decide (1 ≤ q.kind ∧ q.kind ≤ 4)) = some (tAcc 1) ∧
     s.canPerform 0 (tAcc 1) = false) ∧
    (let b : AmoBuf := { pa := 64, op := 0, value := 7, scope := 0, since := 0, ctx := 0, launch := 0 }
     let s := tOn 0 { tCore tCtx with amo := [b] }
     (s.core 0).amo.find? (fun q => decide (q.pa = 64)) = some b ∧ s.cyc < b.since + 65536 ∧ b.since + 65536 ≤ ({ s with cyc := 65536 } : State).cyc ∧
      s.fencesOpen 0 0 0 0 = true ∧ s.ownClear 0 0 0 0 64 8 [dieOf 0, amoDie 0 0 64] = true ∧
      isRegPage 64 = false) := by decide
theorem test_views_wf : ∀ d, ((tWr 1).die d).view.wf = true ∧ ((tOn 0 (tCore tCtx)).die d).view.wf = true := fun _ => ⟨rfl, rfl⟩


/-- Tables that map the first 32 GiB of world 0 to themselves. -/
def tMapped : State := { tOn 0 { tCore tCtx with walk := some ⟨0, 0⟩ } with dies := [(0, { view := [(0, 1), (1, 0x10), (0x1000, 0x1F)] })] }
def tLoad (done : Bool) : Access :=
  { id := 7, ctx := 0, gen := 0, launch := 0, kind := 0, pa := 64, len := 8, dest := some (false, 5), fresh := true, done := done }
def tXw (n : Nat) : XWrite := { id := 9, origin := 0, vc := [n, 0, 0, 0], pa := 64, data := [1, 2] }

theorem test_meets_MemoryEvents :
    (tMapped.core 0).walk = some ⟨0, 0⟩ ∧ (tMapped.core 0).run = some 0 ∧
    (match tMapped.walk (dieOf 0) (tMapped.worldOf 0 0) 0 0 (tMapped.isMgmt 0 0) with | .ok e => e.pa == 0 | .bad _ _ _ => false) = true ∧
    tMapped.walkClear (dieOf 0) (tMapped.worldOf 0 0) 0 = true ∧
    (match tS.walk 0 0 0 0 false with | .ok _ => false | .bad _ _ _ => true) = true ∧ tS.walkClear 0 0 0 = true ∧
    (let s : State := { tMapped with cores := [(0, tCore { tCtx with world := 0 })], dies := [(0, { view := [(0, 1), (1, 0x10), (0x1000, 0x1F)], inq := [tXw 1] })] }
     s.walkClear 0 0 0 = true) ∧
    (let p : PrefWalk := ⟨0, 0, false, false, 0, 0, 0, 0, 0, 0⟩
     let s : State := { tMapped with cores := [(0, { tCore tCtx with prefs := [p] })] }
     (s.core 0).walk = none ∧ (s.core 0).prefs = [p] ∧ s.walkClear (dieOf 0) 0 0 = true ∧ (∀ f ∈ (s.core (s.l1Core 0)).fills, f.line ≠ 0) ∧
      (match s.walk1 (dieOf 0) 0 0 with | .ok e => (s.judge e 0 3 0 false).isNone && (s.badLine e.wtag (e.phys 0) 128).isNone | .bad _ _ _ => false) = true ∧
      (let u : State := { s with dies := [(0, { view := [(0, 1), (1, 0x10), (0x1000, 0x1B)] })] }
       (match u.walk1 (dieOf 0) 0 0 with | .ok e => (u.judge e 0 3 0 false).isSome | .bad _ _ _ => false) = true) ∧
      (match ({ s with dies := [] } : State).walk1 (dieOf 0) 0 0 with | .ok _ => false | .bad _ _ _ => true) = true) ∧
    (let s := tOn 0 { tCore tCtx with access := [tLoad false], nextAccess := 8 }
     (s.core 0).access.filter (fun q => decide (q.id = 7 ∧ q.ctx = 0) && q.landing) = [tLoad false] ∧
      s.ownClear 0 0 0 7 64 8 [dieOf 0] = true ∧ s.lineClear (dieOf 0) 64 8 0 7 0 = true) ∧
    (let s := tOn 0 { tCore tCtx with access := [tLoad true], nextAccess := 8 }
     (s.core 0).access.filter (fun q => decide (q.id = 7 ∧ q.ctx = 0) && q.landing) = [tLoad true] ∧ (tLoad true).dest = some (false, 5)) ∧
    (let s := tOn 0 { tCore tCtx with fills := [⟨3, 0, 2⟩] }
     (s.core 0).fills.find? (fun f => decide (f.line = 3)) = some ⟨3, 0, 2⟩ ∧ (⟨3, 0, 2⟩ : Fill).cls ≠ 3 ∧ s.lineClear (dieOf 0) (128 * 3) 128 0 0 (s.cyc + 1) = true) ∧
    (let s : State := { tS with dies := [(1, { inq := [tXw 1] })] }
     (s.die 1).inq.find? (fun q => decide (q.id = 9)) = some (tXw 1) ∧ s.canApply 1 (tXw 1) = true ∧ (tXw 1).mark = false) ∧
    (let s : State := { tS with dies := [(1, { inq := [tXw 2] })] }
     (s.die 1).inq.find? (fun q => decide (q.id = 9)) = some (tXw 2) ∧ s.canApply 1 (tXw 2) = false) ∧
    NMap.get? (tS.die 0).marks 4 = none ∧ tS.hbm.wf = true ∧ (tS.die 0).view.wf = true ∧ tS.sealer 0 = 0 ∧
    ({ tS with sealed := [(0, 2)] } : State).sealer 0 ≠ 0 ∧
    NMap.get? (({ tS with dies := [(0, { marks := [(4, 9)] })] } : State).die 0).marks 4 = some 9 ∧ tS.nDies ≤ 4 ∧ 3 < tS.nDies := by decide
theorem test_views_wf_marked : ∀ e, ((({ tS with dies := [(0, { marks := [(4, 9)] })] } : State).die e).view.wf = true) := by
  intro e; cases e <;> rfl

/-- A layout record of one 32-bit element in the given space; of 8 by 8 such elements. -/
def tRec (space : Nat) : List Word := [BitVec.ofNat 64 (space * 2 ^ 57), 0x3000, 1, 0, 0x10000000001, 0, 0, 0, 0, 0, 0, 0]
def tRec2 (space : Nat) : List Word := [BitVec.ofNat 64 (space * 2 ^ 57), 0x3008, 0x800000008, 0, 0x80000000001, 0x80000000008, 0, 0, 0, 0, 0, 0]
/-- The two records in record slots 7 and 9. -/
def tCopy (a b : List Word) (x : Ctx) : State := tOn 0 (tCore { x with lrec := [(7, ⟨false, a⟩), (9, ⟨false, b⟩)] })
/-- The words in s0 to s11. -/
def tRecRegs (r : List Word) : State := tOn 0 (tCore { tCtx with sreg := (List.range 12).map fun i => (i, r.getD i 0) })
def tTrk (stopped : Bool) (a : List Word) : Tracked :=
  { id := 0, core := 0, ctx := 0, gen := 0, launch := 0, world := 0, x := false, src := a, dst := tRec 1, stopped := stopped }

theorem test_meets_LayoutRecords :
    (tRecRegs (tRec 0)).runs (.lrec 9 15 0) = true ∧ recBadWord (tRec 0) = none ∧ recWtag (tRec 0) = (tRecRegs (tRec 0)).worldOf 0 0 ∧ recRange (tRec 0) = none ∧
    tS.hasCmp = true ∧ recBadWord [0, 2 ^ 63] = some 1 ∧ recBadWord [0, 0x10000000003000] = none ∧ recWtag [0, 0x10000000003000] = 1 ∧
    recBadWord [0, 0x6] = none ∧ recRange [0, 0x6] = some 6 ∧ tS.runs (.lrec 9 0 36) = true := by decide

theorem test_meets_CopyCommands :
    (let s := tCopy (tRec 0) (tRec 1) tCtx
     s.runs (.cpy 9 47 7 9 (some 3)) = true ∧ s.copyBad false false (tRec 0) (tRec 1) = none ∧ (s.chan 0 3).qlev = 0) ∧
    (let s := tCopy (tRec2 0) (tRec2 1) tCtx
     s.runs (.cpyx 9 63 7 9 none) = true ∧ s.copyBad false true (tRec2 0) (tRec2 1) = none) ∧
    (let s := tCopy (tRec 1) (tRec 1) tCtx
     s.runs (.cpy 9 4 7 9 none) = true ∧ s.copyBad false false (tRec 1) (tRec 1) ≠ none) ∧
    (let s : State := { tCopy (tRec 0) (tRec 1) tCtx with clusters := [(0, { ch := [(0, { queue := List.replicate 64 (tTrk false (tRec 0)) })] })] }
     s.runs (.cpy 9 4 7 9 none) = true ∧ 64 ≤ (s.chan 0 0).qlev) ∧
    (let s := tCopy (tRec 1) (tRec 1) { tCtx with sreg := [(6, 8)] }
     s.runs (.cpyt 9 6 7 9 none) = true ∧ s.copyBad true false (tRec 1) (tRec 1) = none ∧ s.cyc + 8 ≤ (s.rdS 6).toNat ∧ (s.rdS 6).toNat ≤ s.cyc + 2 ^ 20 ∧
      (s.chan 0 0).tlev < 32 ∧ 0 < packetsOf (tRec 1) (tRec 1)) ∧
    (let s := tCopy (tRec 1) (tRec 1) { tCtx with sreg := [(6, 7)] }; s.runs (.cpyt 9 6 7 9 none) = true ∧ (s.rdS 6).toNat < s.cyc + 8) := by decide

theorem test_meets_CopyWaits :
    tS.runs (.cidw 9 6 (some 3)) = true ∧ (tS.chan 0 3).flagFor 0 0 0 0 = none ∧ (tS.chan 0 3).covered 0 = false ∧
    (let s : State := { tS with clusters := [(0, { ch := [(3, { next := 1, done_ := 1 })] })] }
     s.runs (.cidw 9 6 (some 3)) = true ∧ (s.chan 0 3).flagFor 0 0 0 0 = none ∧ (s.chan 0 3).covered 0 = true) ∧
    (let s : State := { tS with clusters := [(0, { ch := [(0, { flags := [⟨0, 8, 0, 64, 0, 0, 0, 0⟩] })] })] }
     s.runs (.cidw 9 6 none) = true ∧ (s.chan 0 0).flagFor 0 0 0 0 = some ⟨0, 8, 0, 64, 0, 0, 0, 0⟩) ∧
    (let s := tOn 0 (tCore { tCtx with st := .wait [.cid 0 0] })
     (s.ctx 0 0).st = .wait [.cid 0 0] ∧ (s.chan (clusterOf 0) 0).covered 0 = false ∧
      (({ s with clusters := [(0, { ch := [(0, { next := 1, done_ := 1 })] })] } : State).chan (clusterOf 0) 0).covered 0 = true) ∧
    tS.runs (.cidr 9 4 none) = true ∧ tS.runs (.cinv 9 6 none) = true ∧ tS.runs (.chalt 9 none) = true := by decide

def tTimed (read wrote : Nat) (d : List (Nat × List (Nat × Nat × Nat))) : Timed :=
  { id := 0, core := 0, ctx := 0, gen := 0, launch := 0, addr := 0, t := 8, packets := 1, per := 128, dly := 72, src := tRec 1, dst := tRec 1, read := read, wrote := wrote, data := d }
def tTime (n : Nat) (t : Timed) : State := { tS with cyc := n, clusters := [(0, { ch := [(0, { timed := [t] })] })] }
def tQueue (run : Option Tracked) (q : List Tracked) : State := { tS with clusters := [(0, { ch := [(0, { next := 1, run := run, queue := q })] })] }

theorem test_meets_CopyEvents :
    (let s := tTime 8 (tTimed 0 0 [])
     (s.chan 0 0).timed.find? (fun q => decide (q.id = 0)) = some (tTimed 0 0 []) ∧ (tTimed 0 0 []).read < 1 ∧ 8 + 0 ≤ s.cyc) ∧
    (let s := tTime 7 (tTimed 0 0 []); (s.chan 0 0).timed.find? (fun q => decide (q.id = 0)) = some (tTimed 0 0 []) ∧ s.cyc < 8 + 0) ∧
    (let t := tTimed 1 0 [(0, [(5, 0, 0)])]
     let s := tTime 80 t
     (s.chan 0 0).timed.find? (fun q => decide (q.id = 0)) = some t ∧ t.wrote < t.read ∧ t.t + t.wrote + t.dly ≤ s.cyc ∧ spadSpace (recSpace t.dst) = true ∧
      recTagen t.dst = false ∧ recXlen t.dst = 0 ∧ t.data.find? (fun r => decide (r.1 = t.wrote)) = some (t.wrote, [(5, 0, 0)])) ∧
    (let s := tQueue none [tTrk false (tRec 0)]
     (s.chan 0 0).queue = [tTrk false (tRec 0)] ∧ (s.chan 0 0).run = none ∧ s.copyReady (tTrk false (tRec 0)) = true) ∧
    (let s := tQueue none [{ tTrk false [] with marker := some (0, 0) }]; (s.chan 0 0).queue = [{ tTrk false [] with marker := some (0, 0) }]) ∧
    (let t := tTrk false (tRec 1)
     let s := tQueue (some t) []
     (s.chan 0 0).run = some t ∧ t.pos < recN t.dst ∧ recTagen t.dst = false ∧ recXlen t.dst = 0 ∧ fifoSpace (recSpace t.dst) = false ∧
      (match s.copyRead (s.chan 0 0).queue t (srcElem t.x t.src t.dst t.pos) with | .ok v => v == 0 | .error _ => false) = true ∧
      (match s.copyWrite 0 0 t (recElem t.dst t.pos) 0 with | .ok _ => true | .error _ => false) = true) ∧
    (let t := tTrk false (tRec 0)
     let s := tQueue (some t) []
     (match s.copyRead (s.chan 0 0).queue t (srcElem t.x t.src t.dst t.pos) with | .error (some _) => true | _ => false) = true ∧ t.acc = [] ∧ (s.ctx 0 0).gen = t.gen ∧ (s.ctx 0 0).st ≠ .free ∧
      (s.chan 0 0).flags.length < 16) ∧
    (let t := tTrk true (tRec 0); ((tQueue (some t) []).chan 0 0).run = some t ∧ t.stopped = true ∧ (tQueue (some t) []).packets = []) := by decide


-- ## The hypotheses are met: fabric, barriers, launches

def tBytes (ws : List Nat) : List Byte := (ws.map fun w => leBytes 8 w).flatten
/-- The image of a launch record of one task: word 1, and the package list's address. -/
def tImage (w1 list : Nat) : List Nat := [0, w1, 0x100010001, 0x3F] ++ List.replicate 25 0 ++ [list, 0, 0]
/-- Tables that map world 0 to itself; at 0x2000 a collective's descriptor, at 0x3000 a package list, from 0x4000 launch records. -/
def tView : Memory :=
  [(0x2000, tBytes [0, 0, 32, 0, 0x3000, 0, 0, 0]), (0x3000, tBytes [5, 0, 0]), (0x4000, tBytes (tImage 0x10020000 0)),
   (0x4100, tBytes (tImage 0x10020002 0x3000)), (0x4300, tBytes (tImage 0x110020000 0))].foldl (fun m p => Memory.writeN m p.1 p.2)
    [(0, 1), (1, 0x10), (0x1000, 0x1F)]
def tJob : Job := { job := 5, wtag := 0, def_ := true, v := true }
def tFab (k : Core) : State := { tMem k with dies := [(0, { view := tView })], jobs := [(0, tJob)] }
def tAt (v : Word) : State := tFab (tCore { tCtx with sreg := [(6, v)] })

theorem test_meets_FabricOps :
    (tAt 0).runs (.msend 9 6 10) = true ∧ (tAt 0).jobOf 0 0 = some 5 ∧ (tAt 0).curCore.sendq = [] ∧ (tAt 0x40000000).runs (.msend 9 6 10) = true ∧
    ((tAt 0x40000000).rdS 6).toNat / 2 ^ 30 % 4 ≠ 0 ∧
    (let s := tFab { tCore tCtx with sendq := List.replicate 16 ⟨0, 0, 0, 0, 0, 0, 0, 0, 0, 0, 0⟩ }; s.runs (.msend 9 6 10) = true ∧ 16 ≤ s.curCore.sendq.length) ∧
    tS.runs (.msend 9 6 10) = true ∧ tS.jobOf 0 0 = none ∧ tS.runs (.wquiet 9) = true ∧ tS.runs (.rcstat 9 4) = true ∧ tS.runs (.collAr 9 4 6) = true ∧
    (tS2 6 16 7 0).runs (.mhnd 9 6) = true ∧ (tS2 6 16 7 0).jobOf 0 0 = none ∧ (tAt 0).runs (.mhnd 9 6) = true ∧
    (tAt (2 ^ 57 - 16)).runs (.mhnd 9 6) = true ∧ ((tAt (2 ^ 57 - 16)).rdS 6).toNat % 16 = 0 ∧ (tAt (2 ^ 57)).runs (.mhnd 9 6) = true ∧ (tAt 8).runs (.mhnd 9 6) = true ∧
    (tAt 0).runs (.wquiet 9) = true ∧ (tAt 0).myGinc = none ∧ (tAt 0).runs (.rcstat 9 63) = true ∧ NMap.get? ((tAt 0).die 0).verdicts 5 = none ∧
    NMap.get? (({ tAt 0 with dies := [(0, { verdicts := [(5, ⟨true, 4095, 2 ^ 48 - 1, 1⟩)] })] } : State).die 0).verdicts 5 = some ⟨true, 4095, 2 ^ 48 - 1, 1⟩ ∧ 2 ^ 48 - 1 < 2 ^ 48 := by decide

/-- A launch of a gang of two packages that is known incomplete. -/
def tGang : Launch := { rec_ := [], slot := 0, depth := 0, world := 0, gang := some (5, 1, 0, 0), ginc := some (1, 2) }

theorem test_meets_Gang :
    (let s : State := { tFab (tCore { tCtx with launch := 1 }) with launches := [(1, tGang)] }
     s.runs (.wquiet 9) = true ∧ s.jobOf 0 0 = some 5 ∧ s.myGinc = some (1, 2)) ∧
    (let s : State := { tFab (tCore { tCtx with launch := 1, lvl := 2 }) with launches := [(1, tGang)] }
     s.runs (.gbar 9 7) = true ∧ s.cur.proc = false ∧ s.cur.handler = none ∧ s.cur.lvl = 2 ∧ s.multi s.cur.launch = true ∧ s.ginc s.cur.launch = some (1, 2)) ∧
    (let s := tOn 0 (tCore { tCtx with lvl := 2 }); s.runs (.gbar 9 0) = true ∧ s.multi s.cur.launch = false) ∧
    tS.runs (.gbar 9 0) = true ∧ tS.cur.lvl ≠ 2 ∧ tS.runs (.bar 9 7) = true ∧ tProc.runs (.bar 9 0) = true ∧ tProc.cur.proc = true := by decide

theorem test_meets_Collectives :
    (tAt 0x2000).runs (.collAr 9 4 6) = true ∧ (tAt 0x2000).readsFresh 0x2000 64 tTr = true ∧
    (let ws := words8 8 ((tAt 0x2000).freshBytes 0x2000 64 tTr)
     collBad ws = none ∧ (ws.getD 2 0).toNat = 32 ∧ (ws.getD 4 0).toNat = 0x3000) ∧
    (match (tAt 0x2000).readList 0x3000 with | .ok ls => ls == [5, 0, 0] | .error _ => false) = true ∧
    (match pkgList [5, 0, 0] 0 1 0 with | .ok r => r == (5, [0], false) | .error _ => false) = true ∧ (tAt 0x2000).gates = [] ∧ (32 / 2 ^ 48 % 2 ^ 12 < [0].length) ∧ 32 % (32 * [0].length) = 0 ∧
    (let q : Gateway := { job := 5, tag := 0, seq := 0, since := 0, self_ := 0, parts := [⟨1, 0, 32, 2, 0, [0], 0, 0, 0, 0, 0, 0, 0, 0, false⟩] }
     let s : State := { tAt 0x2000 with gates := [(3, q)] }
     (s.gates.find? fun q => decide (q.2.job = 5 ∧ q.2.tag = 0) && q.2.begun.isNone && !q.2.joined) = some (3, q) ∧ NMap.get? s.gates 3 = some q) ∧
    (tAt 0x2001).runs (.collBc 9 4 6) = true ∧ ((tAt 0x2001).rdS 6).toNat % 64 ≠ 0 := by decide

theorem test_meets_BarriersAndCounters :
    (tAt 4).runs (.ctrinc 9 6 10) = true ∧ ((tAt 4).rdS 6).toNat % 8 ≠ 0 ∧ (tAt 0).runs (.ctrinc 9 6 10) = true ∧ (tAt 0).reaches 0 2 8 tTr = true ∧
    (tAt 4).runs (.ctrwait 9 6 10) = true ∧ (tAt 0).runs (.ctrwait 9 6 10) = true ∧ (tAt 0).reaches 0 0 8 tTr = true ∧
    ((tAt 0).ownClear 0 0 0 0 0 8 [homeDie 0] && (tAt 0).lineClear (homeDie 0) 0 8 0 0 0) = true ∧
    (let s := tFab { tCore tCtx with access := [{ tAcc 1 with id := 6, pa := 0 }], nextAccess := 8 }
     s.runs (.ctrwait 9 6 10) = true ∧ s.reaches 0 0 8 tTr = true ∧ s.ownClear 0 0 0 s.iss.acc 0 8 [homeDie 0] = true ∧
       s.lineClear (homeDie 0) 0 8 0 s.iss.acc 0 = true ∧ s.ownClear 0 0 0 8 0 8 [homeDie 0] = false) ∧
    (let s : State := { tOn 0 (tCore { tCtx with st := .wait [.bar 0 true 0], launch := 1 }) with launches := [(1, { tGang with barriers := [(0, { release := some 0 })] })] }
     (∃ v, NMap.get? s.launches 1 = some v ∧ (v.bar 0).release = some 0) ∧ (s.ctx 0 0).st = .wait [.bar 0 true 0] ∧
      barKey (s.ctx 0 0).launch ((s.ctx 0 0).barSub 0 0) 0 = 1 * 2 ^ 64 + 0 ∧ s.loadsOut 0 0 = false ∧ 0 ≤ s.cyc) ∧
    (let s := tOn 0 (tCore { tCtx with st := .wait [.ctr 64 0 1 true] }); (s.ctx 0 0).st = .wait [.ctr 64 0 1 true] ∧ s.loadsOut 0 0 = false) := by
  refine ⟨?_, ?_, ?_, ?_, ?_, ?_, ?_, ?_, ?_, ⟨⟨_, rfl, ?_⟩, ?_⟩, ?_⟩ <;> decide
theorem test_meets_BarrierNews :
    (let s : State := { tS with launches := [(1, tGang)] }
     NMap.get? s.launches 1 = some tGang ∧ (tGang.bar 7).release = none ∧ 7 % 16 < 8 ∧ (tGang.bar 15).release = none ∧ 8 ≤ 15 % 16 ∧ s.multi 1 = true) ∧
    (let s := tOn 0 (tCore { tCtx with st := .wait [.ctr 64 0 1 false] }); (s.ctx 0 0).st = .wait [.ctr 64 0 1 false] ∧ s.loadsOut 0 0 = false) ∧
    (let s : State := { tOn 0 (tCore { tCtx with st := .wait [.gbar 7 true 0], launch := 1 }) with launches := [(1, { tGang with barriers := [(15, { release := some 0 })] })] }
     (s.ctx 0 0).st = .wait [.gbar 7 true 0] ∧ barKey (s.ctx 0 0).launch 0 (8 + 7) = 1 * 2 ^ 64 + 15 ∧ s.loadsOut 0 0 = false) := by decide

theorem test_meets_LaunchOps :
    (tAt 0x4000).runs (.launch 9 4 6) = true ∧ (tAt 0x4000).cur.depth ≠ 3 ∧ (tAt 0x4000).settledBy 0 0 0 5 0 = true ∧ (tAt 0x4000).pathTurn 0 1 1 = true ∧
    (tAt 0x4000).readsFresh 0x4000 256 tTr = true ∧ (tAt 0x4000).lrBad (words8 32 ((tAt 0x4000).freshBytes 0x4000 256 tTr)) 0 = none ∧
    (tAt 0x4000).runs (.launchn 9 63 6) = true ∧
    (tAt 0x4200).lrBad (words8 32 ((tAt 0x4200).freshBytes 0x4200 256 tTr)) 0 = some (3, 0) ∧
    (tAt 0x4300).lrBad (words8 32 ((tAt 0x4300).freshBytes 0x4300 256 tTr)) 0 = some (12, 1) ∧
    (let s := tFab (tCore { tCtx with depth := 3 }); s.runs (.launch 9 4 6) = true ∧ s.cur.depth = 3) ∧
    (tAt 0x4080).runs (.launchn 9 4 6) = true ∧ ((tAt 0x4080).rdS 6).toNat % 256 ≠ 0 ∧
    (let s := tFab { tCore tCtx with access := [{ tAcc 1 with id := 6 }], nextAccess := 8 }; s.runs (.glaunch 9 4 6) = true ∧ s.settledBy 0 0 0 5 8 = false) ∧
    (tAt 0x4100).runs (.glaunch 9 4 6) = true ∧
    (let r := words8 32 ((tAt 0x4100).freshBytes 0x4100 256 tTr)
     (tAt 0x4100).lrBad r 0 = none ∧ lrKind r = 2 ∧ lw (lrFor r 1) 0xE8 = 0x3000 ∧ lrTiles (lrFor r 1) = 1 ∧ lrCsz (lrFor r 1) = 1) ∧
    (match pkgList [5, 0, 0] 1 1 0 with | .ok r => r == (5, [0], false) | .error _ => false) = true ∧
    (match (tAt 0x4100).recordRead.readList 0x3000 with | .ok ls => ls == [5, 0, 0] | .error _ => false) = true ∧
    (tAt 0x4100).holdsJob 5 0 = true ∧ ({ tAt 0x4100 with jobs := [] } : State).holdsJob 5 0 = false ∧ (tAt 0x4100).recordRead.slotNow 1 = some 1024 := by decide
/-- The same while another context waits in the line for a slot. -/
def tLine (v : Word) : State := tFab { tCore { tCtx with sreg := [(6, v)] } with
  ctxs := [(0, { tCtx with sreg := [(6, v)] }), (1, { tCtx with st := .wait [.slot [0, 0x20] none (some 3) 5] })] }
theorem test_meets_LaunchLine :
    (tLine 0x4000).runs (.launch 9 4 6) = true ∧ (tLine 0x4000).runs (.launchn 9 4 6) = true ∧ (tLine 0x4000).readsFresh 0x4000 256 tTr = true ∧
    (tLine 0x4000).settledBy 0 0 0 5 0 = true ∧ (tLine 0x4000).pathTurn 0 1 1 = true ∧ (tLine 0x4000).lrBad (words8 32 ((tLine 0x4000).freshBytes 0x4000 256 tTr)) 0 = none ∧
    (tLine 0x4000).recordRead.slotNow 1 = none ∧ (tLine 0x4100).runs (.glaunch 9 4 6) = true ∧ (tLine 0x4100).readsFresh 0x4100 256 tTr = true ∧
    (tLine 0x4100).recordRead.slotNow 1 = none ∧ (tLine 0x4100).holdsJob 5 0 = true := by decide

theorem test_meets_LaunchSlots : (tAt 0x4000).slotNow 1 = some 1024 ∧ (tAt 0x4000).line 1 = [] := by
  constructor <;> decide

theorem test_meets_LaunchWait :
    (let s := tOn 0 (tCore { tCtx with st := .wait [.slot [0, 0x20] none (some 3) 5] })
     (s.ctx 0 0).st = .wait [.slot [0, 0x20] none (some 3) 5] ∧ lw [0, 0x20] 8 / 2 ^ 5 % 4 = 1 ∧ (s.line 1).head?.map (·.2) = some (0, 0) ∧
      s.freeSlot 1 = some 1024 ∧ s.slotNow 1 = none) := by decide


-- ## The hypotheses are met: proctors, the Registrar, the pipeline, launches

def tPass : Pass := ⟨0, 1, 0, 0, true, true⟩
/-- A proctor with a pass to context 1 of its core, whose selector operand reads `sel`. -/
def tPr (p : Pass) (k : Ctx) (sel : Word) : State :=
  tOn 0 { run := some 0, ctxs := [(0, { tCtx with proc := true, pass := some p, sreg := [(6, p.value), (10, sel)] }), (1, k)] }
def tFroz : Ctx := { tCtx with st := .frozen }

theorem test_meets_ProctorOps :
    tS.runs (.frres 9 6) = true ∧ tS.cur.proc = false ∧ tProc.runs (.frkill 9 6) = true ∧ tProc.livePass (tProc.rdS 6) = none ∧
    tS.runs (.fwait 9 4) = true ∧ tProc.runs (.fwait 9 47) = true ∧ tProc.cur.pass = none ∧
    (let s := tPr tPass tFroz 0
     s.runs (.frget 9 4 6 10) = true ∧ s.cur.proc = true ∧ s.livePass (s.rdS 6) = some tPass ∧ s.f1Over 4 10 = none ∧ selOk 0 = true ∧
      s.selBeyond 0 1 0 = false ∧ s.runs (.frput 9 4 6 10) = true ∧ s.f1Bad 4 10 = false ∧ selPut 0 = true ∧ s.runs (.fwait 9 4) = true ∧ s.cur.pass = some tPass) ∧
    ((tPr tPass tFroz 0x4C).rdS 10 = 0x4C ∧ selOk 0x4C = false ∧ (tPr tPass tFroz 0x30).runs (.frput 9 4 6 10) = true ∧ selPut 0x30 = false ∧
      (tPr tPass { tFroz with allocS := 47 } 0x2F).selBeyond 0 1 0x2F = true) ∧
    (let s := tPr tPass tFroz 0
     s.runs (.frres 9 6) = true ∧ (s.ctx 0 1).frec.waitFault = false ∧ s.runs (.frskip 9 6) = true ∧ tPass.skip = true ∧ s.runs (.frkill 9 6) = true ∧
      s.cur.st = .ready ∧ (s.ctx 0 1).proc = false) ∧
    (let s := tPr tPass { tFroz with frec := ⟨[], false, true, 0, [], 0, 0, 0, 0⟩ } 0; s.runs (.frres 9 6) = true ∧ (s.ctx 0 1).frec.waitFault = true ∧ s.ginc 0 = none) ∧
    (let s := tPr { tPass with skip := false } tFroz 0; s.runs (.frskip 9 6) = true ∧ s.livePass (s.rdS 6) = some { tPass with skip := false }) ∧
    (let s := tPr tPass { tFroz with proc := true } 0; s.runs (.frkill 9 6) = true ∧ (s.ctx 0 1).proc = true ∧ (s.ctx 0 1).leaving = false) ∧
    (let s0 := tPr tPass { tFroz with launch := 1 } 0
     let s : State := { s0.modCtx 1 0 (fun _ => { tCtx with st := .wait [.bar 0 true 0], launch := 1 }) with launches := [(1, tGang)] }
     s.runs (.frexc 9 6) = true ∧ s.barKeys = [2 ^ 64] ∧ (s.ctx 0 1).inBar 0 1 (2 ^ 64) = true ∧ (s.ctx 0 1).atBar 0 1 (2 ^ 64) = false) := by decide

theorem test_meets_ProctorOps_completion :
    (let s := (tPr tPass tFroz 0).modCtx 0 0 fun x => { x with st := .wait [.frget 3 false 0] }
     (s.ctx 0 0).st = .wait [.frget 3 false 0] ∧ (s.ctx 0 0).pass = some tPass ∧ s.itemBusy 0 1 0 = false) ∧
    (let s := (tPr tPass tFroz 0).modCtx 0 0 fun x => { x with st := .wait [.frput 0x300 5 0] }
     (s.ctx 0 0).st = .wait [.frput 0x300 5 0] ∧ s.itemBusy 0 1 0x300 = false) ∧
    (let s := ((tPr tPass tFroz 0).modCtx 0 0 fun x => { x with st := .wait [.frput 5 5 0] }).modCore 0 fun k =>
       { k with access := [{ tLoad false with ctx := 1 }] }
     (s.ctx 0 0).st = .wait [.frput 5 5 0] ∧ s.itemBusy 0 1 5 = true) ∧
    (let s := (tPr tPass tFroz 0).modCtx 0 0 fun x => { x with st := .wait [.frput 0x50 5 0] }
     (s.ctx 0 0).st = .wait [.frput 0x50 5 0] ∧ (s.ctx 0 0).pass = some tPass ∧ s.itemBusy 0 1 0x50 = false ∧ s.hasRes = true ∧ (0, 0) ≠ (tPass.core, tPass.ctx)) ∧
    (let p : Pass := ⟨1, 1, 0, 0, true, true⟩
     let s : State := { tPr p {} 0 with cores := [(0, { run := some 0, ctxs := [(0, { tCtx with proc := true, pass := some p, sreg := [(6, p.value), (10, 0)] })] }),
                                              (1, { world := 5, ctxs := [(1, tFroz)] })], worlds := [(5, { loaded := true, closing := true })] }
     s.runs (.frput 9 4 6 10) = true ∧ s.cur.proc = true ∧ s.livePass (s.rdS 6) = some p ∧ s.f1Over 4 10 = none ∧ s.f1Bad 4 10 = false ∧ selPut 0 = true ∧
      s.selBeyond 1 1 0 = false ∧ s.shut 1 = true) := by decide

theorem test_meets_RegistrarOps :
    tS.runs (.wload 9 6) = true ∧ tS.isMgmt 0 0 = false ∧ (tMgmt 0 0).runs (.wload 9 6) = true ∧ (tMgmt 0 0).isMgmt 248 0 = true ∧
    (tMgmt 0 0).readsFresh 0 256 tTr = true ∧ (tMgmt 128 0).runs (.wload 9 6) = true ∧ ((tMgmt 128 0).rdS 6).toNat % 256 ≠ 0 ∧
    tS.runs (.kwipe 9 6) = true ∧ (tMgmt 63 0).runs (.kwipe 9 6) = true ∧ (tMgmt 64 0).runs (.kwipe 9 6) = true ∧ (tMgmt 0 0).runs (.kwipe 9 6) = true ∧
    isSupervisor 248 = true ∧ (tMgmt 63 0).worldOf 248 0 = 0 ∧
    ((tMgmt 63 0).modCtx 248 0 fun x => { x with world := 62 }).runs (.kwipe 9 6) = true ∧
    tS.runs (.fuserd 9 4 6) = true ∧ (tS2 6 15 7 0).runs (.fuserd 9 4 6) = true ∧ (tS2 6 16 7 0).runs (.fuserd 9 4 6) = true ∧
    tS.runs (.mext 9 6 10) = true ∧ tS.worldOf 0 0 = 0 ∧ (tMgmt 0 0x100).runs (.mext 9 6 10) = true ∧ (tMgmt 0 0x100).readsFresh 0 32 tTr = true ∧
    (tMgmt 0 0xFF).runs (.mext 9 6 10) = true ∧ (tMgmt 0 0xFFFF).runs (.mext 9 6 10) = true ∧ (tMgmt 16 0x100).runs (.mext 9 6 10) = true ∧
    tS.runs (.dbgopen 9 6) = true ∧ (tMgmt 0 0).runs (.dbgopen 9 6) = true ∧ (tMgmt 0 0).asks = [] ∧ (tMgmt 0 0).regq = [] ∧
    (tMgmt 0 0).tokenBad ((tMgmt 0 0).freshBytes 0 256 tTr) = some 1 ∧
    (let s : State := { tS with asks := [⟨0, false, 0, 1⟩] }; s.asks = [⟨0, false, 0, 1⟩] ∧ s.cyc < 0 + 1 ∧ 0 + 1 ≤ ({ s with cyc := 1 } : State).cyc) ∧
    (let s : State := { tS with regq := [.kwipe 5], worlds := [(6, { loaded := true }), (7, { loaded := true, closing := true })] }
     s.regq = .kwipe 5 :: [] ∧ s.worldExists 5 = false ∧ s.worldExists 6 = true ∧ (s.world 6).closing = false ∧ (s.world 7).closing = true) ∧
    (let s : State := { tS with regq := [.wload 0 0 5 [] true] }; s.regq = .wload 0 0 5 [] true :: []) ∧
    (let s : State := { tS with regq := [.loaded 0 0 5 []] }; ([] : List (Nat × Nat)).all s.appliedAll = true ∧ [(0, 1)].all s.appliedAll = false) ∧
    (let s : State := { tS with regq := [.kwipe 5, .dbgopen 248], worlds := [(5, { loaded := true, closing := true, halted := true })] }
     s.worldExists 5 = true ∧ (s.world 5).closing = true ∧ (s.world 5).halted = true ∧ s.copiesOut 5 = false ∧
      (let u : State := { s with clusters := [(0, { ch := [(0, { run := some { tTrk false (tRec 0) with world := 5, started := true } })] })] }; u.copiesOut 5 = true)) ∧
    (let i := Instr.dbgopen 9 6
     let s : State := { tMgmt 0 0 with regq := [.dbgopen 248], asks := [⟨248, false, 0, 0⟩] }
     s.runs i = true ∧ s.isMgmt 248 0 = true ∧ (s.entered i).readsFresh 0 256 tTr = true ∧ (s.asks.find? fun v => decide (v.core = s.iss.core)) = some ⟨248, false, 0, 0⟩) ∧
    (let i := Instr.dbgopen 9 6
     let s : State := { tMgmt 0 0 with dbg := false, regq := [.dbgopen 248], asks := [⟨248, true, 0, 0⟩] }
     let line := if s.regq.contains (.dbgopen s.iss.core) then s.regq else s.regq ++ [.dbgopen s.iss.core]
     s.runs i = true ∧ (s.entered i).readsFresh 0 256 tTr = true ∧ line.head? = some (.dbgopen s.iss.core) ∧ s.dbg = false ∧ ({ s with dbg := true } : State).dbg = true ∧
      ({ s with dbg := true } : State).runs i = true ∧ (({ s with dbg := true } : State).entered i).readsFresh 0 256 tTr = true ∧
      (s.entered i).tokenBad ((s.entered i).freshBytes 0 256 tTr) = some 1 ∧
      ({ s with regq := [.kwipe 5, .dbgopen 248] } : State).runs i = true ∧ (([RegReq.kwipe 5, .dbgopen 248]).head? ≠ some (.dbgopen s.iss.core))) := by decide

/-- An image that is no GOF file: 12 bytes of IV, 4 more, and the tag of an empty text under the key 0 (the published first AES-256-GCM vector). -/
def tImg : List Byte := List.replicate 16 0 ++ beBytes 16 0x530f8afbc74536b9a963b4f1c4cb738b
theorem test_gcm_empty_text : gcmOpen 0 0 [] 0x530f8afbc74536b9a963b4f1c4cb738b = some [] := by decide +kernel
/-- The Registrar about to open it for world 5. -/
def tOpening : State :=
  let d := leBytes 8 5 ++ leBytes 8 0x3000 ++ leBytes 8 0x2000 ++ leBytes 8 32 ++ List.replicate 224 0
  { tOn 0 (tCore tCtx) with
    dies := [(0, { view := Memory.writeN [(0, 1), (1, 0x10), (0x1000, 0x1F)] 0x2000 tImg })], worlds := [(5, { imageKey := some 0 })],
    regq := [.opening 0 0 5 d] }
theorem test_meets_WorldOpening :
    (∃ d, tOpening.regq = [.opening 0 0 5 d] ∧ dscW d 0x18 = 32 ∧ dscW d 0x10 = 0x2000 ∧ dscW d 0x08 = 0x3000) ∧
    (match tOpening.readPages 0 0 0x2000 32 with | .ok b => b == tImg | .error _ => false) = true ∧
    (match tOpening.readPages 0 0 0x3000 64 with | .ok b => b == List.replicate 64 0 | .error _ => false) = true ∧
    (tOpening.world 5).imageKey = some 0 ∧ BitVec.ofNat 96 (beNat (tImg.take 12)) = 0 ∧ (tImg.drop 16).take (32 - 32) = [] ∧
    BitVec.ofNat 128 (beNat (tImg.drop (32 - 16))) = 0x530f8afbc74536b9a963b4f1c4cb738b ∧ gofSections [] = none := by
  refine ⟨⟨_, rfl, ?_, ?_, ?_⟩, ?_, ?_, ?_, ?_, ?_, ?_, ?_⟩ <;> decide

/-- A descriptor of 48 bytes of image; the checks that the Registrar's part alone decides. -/
theorem test_meets_WorldLoad :
    (let d := leBytes 24 5 ++ leBytes 8 48 ++ leBytes 24 0 ++ List.replicate 200 0
     0 < dscW d 0 ∧ dscW d 0 < 64 ∧ leNat ((d.drop 0x38).take 0xC0) = 0 ∧ dscW d 0x18 % 16 = 0 ∧ 48 ≤ dscW d 0x18 ∧ dscW d 0x18 ≤ 2 ^ 26) := by decide
theorem test_meets_WorldLoadRefused :
    ∃ code, (tOn 248 { tCore tCtx with world := 5 }).wloadCheck 0 5 [] = .error code := by
  unfold State.wloadCheck
  split
  · exact ⟨6, rfl⟩
  · exact ⟨1, by rw [if_pos (by decide)]⟩

theorem test_meets_PipelineEvents :
    (let s := tOn 0 (tCore { tCtx with null := [0] }); (s.ctx 0 0).skips = true) ∧ (tS.ctx 0 0).skips = false ∧ (tS.core 0).run = some 0 ∧
    (tS.core 0).first = none ∧ (tS.core 1).run = none ∧
    (let s := tOn 0 (tCore { tCtx with deferred := [⟨8, 1, 2, 0⟩] }); (s.ctx 0 0).deferred = [⟨8, 1, 2, 0⟩] ∧ s.iss.pos < 4) ∧ (tS.ctx 0 0).deferred = [] ∧
    (let s := tOn 0 { run := some 0, ctxs := [(0, { tCtx with save := some 0 }), (1, { tCtx with prio := 1 })] }
     (s.core 0).run = some 0 ∧ (s.ctx 0 0).save = some 0 ∧ (s.core 0).preempts 0 = true) ∧
    (let s := tOn 0 (tCore { tCtx with save := some 0, spilled := true })
     (s.core 0).run = some 0 ∧ (s.ctx 0 0).save = some 0 ∧ (s.ctx 0 0).spilled = true ∧ (s.core 0).preempts 0 = false ∧ (s.ctx 0 0).skips = false ∧
      (s.ctx 0 0).unspilled = 0 ∧
      ∀ n, n < 4 → let h := s.chan (clusterOf 0) n
        (h.parked.filter fun q => q.of 0 0 0).length + h.qlev ≤ 64 ∧ (h.pflags.filter fun q => q.of 0 0 0).length + h.flags.length ≤ 16) := by decide

/-- A claimed slot whose record is the one-task image, eligible or not. -/
def tSlot (e : Option Bool) : PoolSlot := { rec_ := words8 32 (tBytes (tImage 0x10020000 0)), claim := true, elig := e }
def tPool (e : Option Bool) : State := { tFab (tCore tCtx) with pool := [(0, tSlot e)] }
/-- A pending timetable of one block, whose core is core 0. -/
def tTable : State :=
  { tFab (tCore tCtx) with
    pool := [(0, { rec_ := [0, 0x10020003, 0, 0x3F] ++ List.replicate 22 0 ++ [0x2800, 0, 1, 0, 0, 1], claim := true, elig := some true })] }
def tDone : Launch := { rec_ := [], slot := 0, depth := 0, world := 0, tiles := 1, placed := 1 }
def tLau (v : Launch) : State := { tS with launches := [(1, v)] }

theorem test_meets_LaunchEvents :
    (tS.slotAt 0).claim = false ∧ ((tPool none).slotAt 0).claim = true ∧ ((tPool none).slotAt 0).elig = none ∧
    (∀ d ∈ lrDeps (tSlot none).rec_, d.1 = 0) ∧ ((tPool (some false)).slotAt 0).elig = some false ∧ (tPool (some true)).ahead 0 = [] ∧
    lw (tSlot none).rec_ 0x20 = 0 ∧ lrArgn (tSlot none).rec_ = 0 ∧
    ((tTable.slotAt 0).elig = some true ∧ tTable.ahead 0 = [] ∧ (tTable.tryPlace 0).isSome = true) ∧ ((tFab (tCore tCtx)).tryPlace 0).isSome = false ∧
    NMap.get? (tLau { tDone with coreCnt := [(5, 0)], coreDone := [(5, 2)], clCnt := [(1, 1)] }).launches 1 =
      some { tDone with coreCnt := [(5, 0)], coreDone := [(5, 2)], clCnt := [(1, 1)] } ∧
    NMap.getD ({ tDone with coreCnt := [(5, 1)] } : Launch).coreCnt 5 1 ≠ 0 ∧
    (tLau tDone).quietLaunch 1 = true ∧ tDone.coreCnt = [] ∧ tDone.clCnt = [] ∧ tDone.dieCnt = [] ∧ tDone.complete = false ∧ tDone.tiles ≤ tDone.placed ∧
    (tLau { tDone with complete := true, cstamp := some (0, 1) }).appliedAll (0, 1) = false ∧ (tLau { tDone with complete := true }).appliedAll (0, 0) = true ∧
    (tS.core 0).inq = [] ∧
    (let m : Msg := ⟨0, 0, 0, 127, 0, 5, 0, 0, 0, 0, 0⟩
     let h : Handler := ⟨5, 16, 0, 0, 0, 0, 0, 0⟩
     let s := tOn 0 { tCore tCtx with inq := [m], handlers := [h] }
     (s.core 0).inq = m :: [] ∧ (s.core 0).handlers.find? (fun h => decide (h.job = m.job)) = some h ∧
      ((List.range 8).find? fun x => decide ((s.ctx 0 x).st = .free)) = some 1 ∧ 16 ≤ (s.core 0).freeS ∧ 4 ≤ (s.core 0).freeV ∧
      (∀ h ∈ (tOn 0 { tCore tCtx with inq := [m] }).curCore.handlers, h.job ≠ m.job)) := by decide


-- ## The hypotheses are met: gangs, the fabric's events, the host, the step

def tArm (need armed gone : List Nat) (phase since : Nat) : Gang :=
  { core := 0, ctx := 0, gen := 0, dest := none, job := 5, nodes := [0, 1], self_ := 0, need := need, armed := armed, gone := gone, since := since, phase := phase, slot := 0 }
def tGangs (g : Gang) (n : Nat) : State := { tFab (tCore tCtx) with gangs := [g], cyc := n, pool := [(0, { reserved := true })] }

theorem test_meets_Gangs :
    (let r := words8 32 (leBytes 256 (BitVec.ofNat 2048 (leNat (tBytes (tImage 0x10020000 0)))).toNat)
     tS.lrBad r 0 = none ∧ (tFab (tCore tCtx)).jobEntry 5 = some (0, tJob) ∧ tJob.v = true ∧ tJob.wtag = 0 ∧ tS.freeSlot 3 = some 3072) ∧
    tS.jobEntry 5 = none ∧ tS.gangOf 0 = none ∧
    (let s : State := { tS with pool := [(7, { reserved := true, gang := some (5, 1, 1, 0) })] }
     s.pool = [(7, { reserved := true, gang := some (5, 1, 1, 0) })]) ∧
    (let s := tGangs (tArm [1] [] [] 0 0) (2 ^ 20)
     s.gangOf 0 = some (tArm [1] [] [] 0 0) ∧ 1 ∈ (tArm [1] [] [] 0 0).need ∧ 0 ∉ (tArm [1] [] [] 0 0).need ∧
      (∀ k ∈ (tArm [1] [] [] 0 0).need, k = 1 ∨ k ∈ (tArm [1] [] [] 0 0).armed) ∧ 0 + 2 ^ 20 ≤ s.cyc) ∧
    (let s := tGangs (tArm [1, 2] [] [] 0 0) (2 ^ 20 - 1)
     s.gangOf 0 = some (tArm [1, 2] [] [] 0 0) ∧ 2 ∈ [1, 2] ∧ 2 ≠ 1 ∧ 2 ∉ (tArm [1, 2] [] [] 0 0).armed ∧ s.cyc < 0 + 2 ^ 20) ∧
    (let s := tGangs (tArm [1] [] [] 1 0) (2 ^ 20)
     s.gangOf 0 = some (tArm [1] [] [] 1 0) ∧ (tArm [1] [] [] 1 0).phase = 1 ∧ (∀ k ∈ (tArm [1] [] [] 1 0).need, k = 1 ∨ k ∈ (tArm [1] [] [] 1 0).gone)) ∧
    (let s : State := { tOn 0 (tCore { tCtx with launch := 1, st := .wait [.gbar 0 false 0] }) with launches := [(1, { tDone with gang := some (5, 1, 0, 0) })] }
     NMap.get? s.launches 1 = some { tDone with gang := some (5, 1, 0, 0) } ∧ (s.ctx 0 0).launch = 1 ∧ (s.ctx 0 0).handler = none ∧
      (s.ctx 0 0).proc = false ∧ (s.ctx 0 0).st = .wait [.gbar 0 false 0]) ∧
    (tFab (tCore tCtx)).slotNow 3 = some 3072 ∧ (tLine 0).slotNow 1 = none ∧
    (let s : State := { tS with pool := [(0, { reserved := true })] }; (s.slotAt 0).reserved = true ∧ (s.slotAt 0).claim = false ∧ s.gangOf 0 = none) ∧
    (tS.slotAt 0).reserved = false := by decide

def tMsg : Msg := ⟨1, 0, 0, 127, 0, 5, 0, 0, 0, 0, 0⟩
def tPkt (lost : Bool) : Packet :=
  { id := 3, kind := 0, die := 0, job := 5, node := 1, core := 0, access := 7, copy := none, pa := 64, data := [1], tries := 1, lost := lost }
def tSent (k : Core) (ps : List Packet) : State := { tFab k with packets := ps }

theorem test_meets_FabricEvents :
    (tS.core 0).sendq = [] ∧
    (let s := tFab { tCore tCtx with sendq := [tMsg] }
     (s.core 0).sendq = tMsg :: [] ∧ s.linkUp = true ∧ s.fencesOpen 0 0 0 0 = true ∧
      ({ s with links := (List.range 32).map fun i => (i, false) } : State).linkUp = false) ∧
    (tFab (tCore tCtx)).jobEntry 5 = some (0, tJob) ∧ (tFab (tCore tCtx)).nDies ≤ dieOf 1024 ∧ dieOf 1023 < (tFab (tCore tCtx)).nDies ∧
    ((tFab (tCore tCtx)).core 0).inq.length < 32 ∧ 32 ≤ ((tFab { tCore tCtx with inq := List.replicate 32 tMsg }).core 0).inq.length ∧
    tJob.wtag = 0 ∧ 64 + 512 ≤ tS.hbmSize ∧ ¬(tS.hbmSize + 1 ≤ tS.hbmSize) ∧ (tFab (tCore tCtx)).windowClear 64 512 = true ∧
    ({ tFab { tCore tCtx with amo := [{ pa := 64, op := 0, value := 7, scope := 0, since := 0, ctx := 0, launch := 0 }] } with cyc := 1 } : State).windowClear 64 8 = false ∧
    (let s : State := { tS with seen := [(1, 9)] }; s.fresh 1 9 = false ∧ s.fresh 1 8 = true) ∧
    (let s : State := { tS with goneJobs := [6] }; s.jobEntry 6 = none ∧ s.goneJobs.contains 6 = true) ∧
    tS.jobEntry 7 = none ∧ tS.goneJobs.contains 7 = false ∧ tS.freeJob = some 0 ∧ dieOf 0 < tS.nDies ∧ (tS.core 0).inq.length < 32 ∧
    (tFab (tCore tCtx)).inTurn 1 64 = true ∧ ({ tFab (tCore tCtx) with arrivals := [⟨1, 1, 5, 1⟩] } : State).inTurn 1 64 = false ∧
    (tPkt false).arrived = false ∧ ({ tPkt false with arrived := true } : Packet).arrived = true ∧
    (tSent (tCore tCtx) [tPkt false]).packets.find? (fun p => decide (p.id = 3) && !p.lost) = some (tPkt false) ∧
    (tSent (tCore tCtx) [tPkt true]).packets.find? (fun p => decide (p.id = 3) && !p.lost) = none ∧
    (tSent (tCore tCtx) [tPkt true]).packets.find? (fun p => p.lost && decide (p.die = 0 ∧ p.job = 5)) = some (tPkt true) := by decide

def tPart (core : Nat) : Part := ⟨core, 0, 32, 2, 0, [0], 0, 0, 0, 0, 0, 0, 0, 0, false⟩
def tGate (parts : List Part) (begun : Option Nat) : Gateway := { seq := 0, job := 5, tag := 0, since := 0, parts := parts, self_ := 0, begun := begun }
def tGates (g : Gateway) (n : Nat) : State := { tFab (tCore tCtx) with gates := [(0, g)], cyc := n }

theorem test_meets_RollCallAndCollectives :
    tS.jobEntry 5 = none ∧
    (let s : State := { tFab (tCore { tCtx with st := .wait [.quiet 5 (some 1)] }) with dies := [0, 1, 2, 3].map fun d => (d, { rep := [(2, [])], snap := [(3, [])], waves := 3, began := [(2, 2), (3, 3)] }) }
     s.jobEntry 5 ≠ none ∧ NMap.get? (s.die 0).verdicts 5 = none ∧ (∀ d, d < s.nDies → NMap.get? (s.die d).rep 2 = some []) ∧
      NMap.get? (s.die 0).snap 3 = some [] ∧ (s.ctx 0 0).st = .wait [.quiet 5 (some 1)] ∧ 1 < (s.die 0).place 2 ∧ s.loadsOut 0 0 = false) ∧
    NMap.get? tS.gates 0 = none ∧ ({ tS with goneJobs := [5] } : State).withJob 5 = none ∧ ((tFab (tCore tCtx)).withJob 5).isSome = true ∧
    (let q := tGate [tPart 0] (some 0)
     let d := q.lead.desc
     NMap.get? (tGates q 0).gates 0 = some q ∧ q.mismatch = false ∧ 0 ∈ q.allChunks ∧ (0 : Nat).testBit 4 = false ∧ d = q.lead.desc ∧ d + 1 ≠ q.lead.desc ∧
      (16 : Nat).testBit 4 = true ∧ (q.chunk 0).passed = false ∧ (q.chunk 0).final = false ∧ q.lead.kind < 2 ∧ q.lead.kind ≠ 1 ∧
      ({ q with mismatch := true } : Gateway).mismatch = true ∧ ({ q with chunks := [(0, { passed := true })] } : Gateway).chunk 0 = { passed := true }) ∧
    (let p : Part := ⟨0, 0, 64, 1, 0, [0, 1], 0x5000, 0, 0, 0, 0, 0, 0, 0, false⟩
     let q := tGate [p] none
     let s : State := tGates q 0
     p.ppart = 1 ∧ p.kind ≤ 1 ∧ 1 < p.size ∧ q.pending = [] ∧ s.settledBy p.core p.ctx p.gen 5 p.at_ = true ∧
      (∀ k, k < p.size → (match s.readPages (dieOf p.core) p.world (p.src + 4 * (k * p.chunkLen)) (4 * p.chunkLen) with | .ok _ => true | .error _ => false) = true) ∧
      (let q := { tGate [p] (some 0) with self_ := 1 }
       0 ∈ q.allChunks ∧ (q.chunk 0).passed = false ∧ 0 ≠ q.self_ ∧ (q.chunk 0).since + 2 ^ 22 ≤ (tGates q (2 ^ 22)).cyc)) ∧
    (let s := tFab { tCore tCtx with access := [{ tAcc 1 with id := 0 }] }; s.settledBy 0 0 0 5 1 = false) := by decide
theorem test_meets_Gateways :
    (let q := tGate [tPart 0] none
     NMap.get? (tGates q (2 ^ 22)).gates 0 = some q ∧ q.begun = none ∧ q.parts.length < q.lead.ppart ∧ q.since + 2 ^ 22 ≤ (tGates q (2 ^ 22)).cyc ∧
      (∀ p ∈ q.parts, q.lead.differs p = false) ∧ q.pending = [] ∧ (tGates q (2 ^ 22 - 1)).cyc < q.since + 2 ^ 22) ∧
    (let q := tGate [tPart 0, tPart 1] (some 0)
     q.begun ≠ none ∧ q.lead.ppart ≤ q.parts.length ∧ 0 ∈ q.wanted ∧ 0 ∈ q.allChunks ∧ q.mismatch = false ∧ (q.chunk 0).final = false ∧ q.counted = false) ∧
    (let q := { tGate [tPart 0] (some 0) with chunks := [(0, { passed := true })] }
     (q.chunk 0).passed = true ∧ (q.chunk 0).final = false ∧ (q.chunk 0).since + 2 ^ 22 ≤ (tGates q (2 ^ 22)).cyc) ∧
    (let q := { tGate [tPart 0] (some 0) with chunks := [(0, { passed := true, final := true })], stamps := [(0, 0)] }
     let s : State := { tGates q 0 with dies := [(0, { view := tView })] }
     q.parts = [tPart 0] ∧ (∀ k ∈ q.wanted, (q.chunk k).final = true) ∧ (∀ st ∈ q.stamps, s.appliedAll st = true) ∧
      (match s.doneCtr 0 0x5000 with | .ok _ => true | .error _ => false) = true ∧ s.appliedAll (0, 1) = false) ∧
    (let q := { tGate [tPart 0] (some 0) with chunks := [(0, { passed := true, final := true })], counted := true }
     (∀ k ∈ q.allChunks, (q.chunk k).passed = true) ∧ q.counted = true) := by decide

/-- World 5 running, its TDI in RUN, and a session that its TVM has bound to it. -/
def tTdi (t : Tdi) : State :=
  { tS with worlds := [(5, { loaded := true })], tdis := [(5, t)], sessions := [(1, { live := true, keyed := true, world := 5 })], jobs := [(0, { tJob with wtag := 5 })],
            watch := if t = .unlocked then [] else [(5, [0x10000])] }

theorem test_meets_HostRegisters :
    tS.ready = true ∧ tS.watcher 8 = none ∧ ({ tS with ready := false } : State).ready = false ∧ (tTdi .run).watcher 0x10000 = some 5 ∧ (tTdi .run).tdi 5 ≠ .error ∧
    (0x10000 : Nat) / 8 * 8 = 0x10000 ∧ ({ tS with regionMiB := 64 } : State).regionMiB ≤ 64 ∧ tTr.formedBy 0 = true ∧ tTr.formedBy 0x10000 = false ∧ ((0 : Nat) / 2 ^ 58 % 2 ^ 4).testBit 0 = false ∧
    (2 ^ 58 / 2 ^ 58 % 2 ^ 4 : Nat).testBit 0 = true ∧ (2 ^ 58 / 2 ^ 52 % 2 ^ 6 : Nat) = 0 ∧
    tS.watcher 0x1000 = none ∧ tS.hostWorld 0 ≠ 5 ∧ (tTdi .run).hostWorld 5 = 5 ∧ tS.watcher (pageBase 5) = none ∧ pageOf 0x1008 = none ∧ 0x1008 % 8 = 0 ∧
    tS.bootStep < 16 ∧ tS.watcher (pageBase 0) = none ∧ tS.watcher (pageBase 63) = none ∧
    (63 * 2 ^ 52 : Nat) / 2 ^ 52 % 2 ^ 6 = 63 ∧ tS.worldOf 0 0 = 0 ∧ (tS.core 0).run = some 0 ∧
    ((tOn 0 (tCore { tCtx with save := some 0 })).ctx 0 0).save ≠ none ∧ (tS.ctx 0 0).save = none ∧ (tOn 0 { tCore tCtx with world := 5 }).worldOf 0 0 ≠ 0 ∧
    tS.watcher (pageBase 0 + 0x108 + 16 * 63) = none ∧ (tS.ctx 1020 7).st = .free ∧ (tSup.ctx 248 0).st ≠ .free ∧ (tSup.ctx 248 0).world = 0 ∧
    (let s := tOn 248 (tCore { tCtx with world := 5 }); (s.ctx 248 0).st ≠ .free ∧ (s.ctx 248 0).world ≠ 0) ∧
    tS.watcher (0x10000 + 32 * 255) = none ∧ NMap.get? tS.jobs 255 = none ∧
    (let s : State := { tS with jobs := [(0, tJob)] }; NMap.get? s.jobs 0 = some tJob ∧ tJob.wtag = 0 ∧ (∃ p ∈ s.jobs, p.1 ≠ 1 ∧ p.2.job = 5) ∧ ¬∃ p ∈ s.jobs, p.1 ≠ 0 ∧ p.2.job = 5) ∧
    (let s : State := { tS with cleared := [(1, 5 * 2 ^ 16)] }; NMap.get? s.jobs 1 = none ∧ NMap.getD s.cleared 1 0 / 2 ^ 16 % 2 ^ 6 = 5) ∧
    tS.watcher (0x12000 + 8 * 255) = none ∧ (tTdi .unlocked).jobWorld 5 = 5 := by decide
theorem test_meets_LaunchWindow :
    (tS.slotAt 1023).claim = false ∧ ((tPool none).slotAt 0).claim = true ∧
    (let r := lrFor ((List.range 32).map fun i => (tSlot none).rec_.getD i 0) 0; tS.lrBad r 0 = none) ∧
    tS.lrBad (lrFor ((List.range 32).map fun i => (tS.slotAt 0).rec_.getD i 0) 0) 0 = some (3, 0) ∧
    (match ({ tFab (tCore tCtx) with pool := NMap.erase [] 0 } : State).arbWrite 0 0x5000 (List.replicate 256 0) with | .ok _ => true | .error _ => false) = true ∧
    2700 + 100 ≤ tS.pcapNow ∧ 104 < 105 ∧ tS.okWindows < 9 ∧ tS.pcapNow < 2801 := by decide

theorem test_meets_SpdmTdisp :
    NMap.get? tS.sessions 1 = none ∧ tS.sessions.length < 64 ∧ ((tTdi .run).session 1).live = true ∧ ((tTdi .run).session 1).keyed = true ∧
    NMap.get? (tTdi .run).sessions 1 ≠ none ∧
    (let s : State := { tS with sessions := [(1, { keyed := true })] }; (s.session 1).keyed = true ∧ (s.session 1).live = false) ∧
    (¬∃ p ∈ (tTdi .run).sessions, p.1 ≠ 1 ∧ p.2.live = true ∧ p.2.world = 63) ∧ (∃ p ∈ (tTdi .run).sessions, p.1 ≠ 2 ∧ p.2.live = true ∧ p.2.world = 5) ∧
    ((tTdi .run).world 5).mb = 0 ∧
    (let s : State := { tTdi .run with dies := [(0, { view := tView })], worlds := [(5, { loaded := true })] }; (s.writePages 5 0 []).isSome = true) ∧
    (tTdi .unlocked).tdi 5 = .unlocked ∧ (tTdi .unlocked).wstate 5 = 2 ∧ ((tTdi .unlocked).session 1).world = 5 ∧ (tTdi .locked).tdi 5 = .locked ∧
    tS.wstate 5 ≠ 2 ∧ tS.tdi 5 ≠ .locked ∧ (tTdi .run).worldExists 5 = true := by decide

/-- The machine as reset leaves it, one instruction placed where the next step fetches (log 7). -/
theorem test_meets_StepRunsDecoded :
    (let s := State.reset.withFetchWord 32 0x30001005
     let s0 : State := { s with turn := s.turn.tail }
     let b := bundleOf [0x30001005, 0, 0, 0]
     s.atIssue 0 0 = true ∧ s0.fetchClear 0 0 (s.ctx 0 0).pc = true ∧ (match s0.fetch 0 0 (s.ctx 0 0).pc with | .ok ws => ws == [0x30001005, 0, 0, 0] | .error _ => false) = true ∧
      (s0.begin 0 0 (s.ctx 0 0).pc [0x30001005, 0, 0, 0]).bundleWaits b = false ∧ partsOf (s.core 0).seat.toNat b.ops ≤ 1 ∧
      isHeader 0x30001005 = false ∧ decodeWord none 0x30001005 = some (.movi 0 1 5 none)) := by decide

theorem test_meets_Resets :
    (let s : State := { tS with ready := false, bootStep := 6 }; s.power = true ∧ s.ready = false ∧ s.refusedFw = false ∧ s.inbox = []) ∧
    (let s : State := { tS with ready := false, refusedFw := true }; s.power = true ∧ s.ready = false ∧ s.refusedFw = true ∧ s.inbox = []) ∧
    ({ tS with power := false } : State).power = false := by decide

theorem test_meets_Encoding :
    (Instr.mov 9 4 6).isSlot = true ∧ (Instr.mov 9 4 6).wf = true ∧ (Instr.mov 9 4 6).extAgrees none = true ∧ isHeader 0xC0000000 = true ∧
    (decodeBundle 0xC0000000 0x29004180 0 0).word 1 = some (.mov 9 4 6) ∧ (Instr.mov 9 48 6).wf = false ∧ Instr.mov 9 4 6 ≠ .nop ∧
    tOff.guardOn (.mov 9 4 6) = false ∧
    (({ tS with iss := { tS.iss with allocS := 4 } }).overAllot (.mov 9 4 6)).isSome = true ∧
    ({ tS with iss := { tS.iss with ops := [.xmode 0 0] } }).iss.over (.xmode 0 0) = true := by decide

theorem test_meets_MemoryCanonical :
    (State.reset.withFetchWord 32 0x30001005).canon = true ∧
    (match step (State.reset.withFetchWord 32 0x30001005) with | .next t => t.canon | _ => false) = true := by decide


-- ## One step each; the expected values are worked out by hand from the rule named

def tOut (o : Host.Outcome State Fault Refusal) : State := match o with | .next t => t | _ => State.reset
/-- What is in flight in the context after one operation: cycles until it lands, causes, effect. -/
def tEff (i : Instr) (s : State) : List (Nat × BitVec 16 × Eff) := (tOut (exec i s)).cur.flight.map fun f => (f.due - s.cur.clk, f.causes, f.eff)

-- R119
theorem test_add_wraps : tEff (.add 0 3 1 2) (tS2 1 (-1) 2 1) = [(1, 0, .sreg (some 3) 0)] := by decide
theorem test_sub_order : tEff (.sub 0 3 1 2) (tS2 1 5 2 7) = [(1, 0, .sreg (some 3) (-2))] := by decide
theorem test_andn : tEff (.andn 0 3 1 2) (tS2 1 0xFF 2 0x0F) = [(1, 0, .sreg (some 3) 0xF0)] := by decide
theorem test_sar_by_64_is_by_0 : tEff (.sar 0 3 1 2) (tS2 1 (-16) 2 66) = [(1, 0, .sreg (some 3) (-4))] := by decide
theorem test_rotl : tEff (.rotl 0 3 1 2) (tS2 1 0x8000000000000001 2 4) = [(1, 0, .sreg (some 3) 0x18)] := by decide
theorem test_clz_of_0 : tEff (.clz 0 3 1) (tS2 1 0 2 0) = [(1, 0, .sreg (some 3) 64)] := by decide
theorem test_min_is_signed : tEff (.min 0 3 1 2) (tS2 1 (-1) 2 1) = [(1, 0, .sreg (some 3) (-1))] := by decide
theorem test_minu_is_unsigned : tEff (.minu 0 3 1 2) (tS2 1 (-1) 2 1) = [(1, 0, .sreg (some 3) 1)] := by decide
-- R120, R121
theorem test_mulh_signed : tEff (.mulh 0 3 1 2) (tS2 1 (-1) 2 2) = [(3, 0, .sreg (some 3) (-1))] := by decide
theorem test_mulhu_unsigned : tEff (.mulhu 0 3 1 2) (tS2 1 (-1) 2 2) = [(3, 0, .sreg (some 3) 1)] := by decide
theorem test_divs_rounds_toward_zero : tEff (.divs 0 3 1 2) (tS2 1 (-7) 2 2) = [(18, 0, .sreg (some 3) (-3))] := by decide
theorem test_divu_by_zero : tEff (.divu 0 3 1 2) (tS2 1 7 2 0) = [(18, cDZ, .sreg (some 3) 0)] := by decide
-- R122, R123
theorem test_extb : tEff (.extb 0 3 1 4 (some 7)) (tS2 1 0xABCD 2 0) = [(1, 0, .sreg (some 3) 0xBC)] := by decide
theorem test_insb : tEff (.insb 0 3 1 8 (some 3)) (tS2 1 0xF5 3 0xFFFF) = [(1, 0, .sreg (some 3) 0xF5FF)] := by decide
theorem test_lea : tEff (.lea 0 3 1 2 (some 3)) (tS2 1 100 2 5) = [(1, 0, .sreg (some 3) 140)] := by decide
theorem test_movi_negative : tEff (.movi 0 3 0xFFF none) tS = [(1, 0, .sreg (some 3) (-1))] := by decide
theorem test_movi_wide : tEff (.movi 0 3 0xFFF (some 0x12)) tS = [(1, 0, .sreg (some 3) 0x12FFF)] := by decide
theorem test_movhi : tEff (.movhi 0 3 0x123 (some 0xFF)) (tS2 3 0x5 4 0) = [(1, 0, .sreg (some 3) 0x5FF123)] := by decide
-- R124, R125
theorem test_clt_signed : tEff (.clt 0 2 1 3) (tS2 1 (-1) 3 1) = [(1, 0, .cond 2 true 2)] := by decide
theorem test_cltu_unsigned : tEff (.cltu 0 20 1 3) (tS2 1 (-1) 3 1) = [(1, 0, .guardReg 4 false)] := by decide
theorem test_guard_0_is_not_written : ((tOut (exec (.qset 0 16 1) tS)).ctx 0 0).flight = [] := by decide
theorem test_guard_false_does_nothing : tEff (.add 9 3 1 2) tOff = [] := by decide
-- R134: the link, and three bubbles from an unprepared target
theorem test_brl_link :
    (let s := tOn 0 (tCore { tCtx with cond := [(5, true, 0)], target := [(5, 7)] })
     tEff (.brl 0 5 3) s = [(1, 0, .sreg (some 3) 16)] ∧ (tOut (exec (.brl 0 5 3) s)).iss.xfer = some ⟨112, 3, false⟩) := by decide
-- R139: LOOP with count 0 goes past the body
theorem test_loop_zero : (tOut (exec (.loop 0 1 3 none) (tS2 1 0 2 0))).iss.xfer = some ⟨64, 3, false⟩ := by decide
-- R140: the last bundle of a body with two iterations left goes back, with one left it falls through
theorem test_loop_back : (({ tCtx with loops := [⟨16, 32, 2, 0, 5, 0⟩] } : Ctx).route { addr := 32 }).2 = 16 := by decide
theorem test_loop_ends : (({ tCtx with loops := [⟨16, 32, 1, 0, 5, 0⟩] } : Ctx).route { addr := 32 }).2 = 48 := by decide
-- R146, R355, R356
theorem test_trap_freezes :
    (let x := (tOut (exec (.trap 0 0x123) tS)).ctx 0 0
     x.st = .frozen ∧ x.fgen = 1 ∧ x.frec.d0 = 0x123 ∧ x.frec.codes = [6, 0, 0, 0]) := by decide
-- R206, R4: an eight-byte store is little-endian and goes into the scratchpad 2 cycles on
theorem test_stss : tEff (.stss 0 2 1 1 none) (tS2 1 0x100 2 0x0807060504030201) = [(2, 0, .store 0 0x108 [1, 2, 3, 4, 5, 6, 7, 8])] := by decide
theorem test_ldss :
    (let s := tOn 0 { tCore { tCtx with sreg := [(1, 0x100)] } with spad := [(0xF8, 0x21), (0xFF, 0x80)] }
     tEff (.ldss 0 3 1 63 none) s = [(6, 0, .sreg (some 3) 0x8000000000000021)]) := by decide
theorem test_ldss_misaligned : ((tOut (exec (.ldss 0 3 1 0 none) (tS2 1 4 2 0))).ctx 0 0).st = .frozen := by decide
-- R152, R153, R162: binary32 and bfloat16
theorem test_fp32_one : decodeTy 0 0x3F800000 = .fin false 0x800000 (-23) := by decide
theorem test_fp32_add : (encodeTy 0 0 false (Machine.Num.add 0 (decodeTy 0 0x3F800000) (decodeTy 0 0x40000000))).bits = 0x40400000 := by decide
theorem test_bf16_ties_to_even : (encodeTy 1 0 false (decodeTy 0 0x3F808000)).bits = 0x3F80 ∧ (encodeTy 1 0 false (decodeTy 0 0x3F818000)).bits = 0x3F82 := by decide
theorem test_i8_saturates : (encodeTy 3 0 false (decodeTy 0 0x43000000)).bits = 0x7F := by decide
theorem test_nan : isNaN (decodeTy 0 0x7F800001) = true ∧ isNaN (decodeTy 0 0x7F800000) = false := by decide
-- R185
theorem test_shuffles : shufSrc 0 5 = 4 ∧ shufSrc 8 127 = 0 ∧ shufSrc 16 0 = 127 := by decide
-- R317
theorem test_amo_min_is_signed : amoVal 1 (-1) 1 = -1 := by decide
-- R310, R311: a walk through one table and a level-1 leaf
theorem test_walk : 
    (match tMapped.walk 0 0 0x12345 1 false with
     | .ok e => decide (e.va = 0 ∧ e.size = 34359738368 ∧ e.pa = 0 ∧ e.tperm = 7 ∧ e.tlvl = 1 ∧ e.hperm = 7 ∧ e.hlvl = 1 ∧ e.wtag = 0)
     | .bad _ _ _ => false) = true := by decide
theorem test_walk_unmapped : tS.walk 0 0 0 0 false = .bad 0 1 0 := by decide
-- R104
theorem test_allot : (let x := (tOut (exec (.allot 0 20 10) tS)).ctx 0 0; x.allocS = 20 ∧ x.allocV = 10) := by decide
-- R414, R368: the privilege checks
theorem test_wload_needs_management : ((tOut (exec (.wload 0 6) tS)).ctx 0 0).st = .frozen := by decide
theorem test_fwait_needs_a_proctor : ((tOut (exec (.fwait 0 4) tS)).ctx 0 0).st = .frozen := by decide
-- R428: the host's power cap, clamped
theorem test_pcap : (tOut (exec (.pcapWrite 100) tS)).pcap = 600 ∧ (tOut (exec (.pcapWrite 4095) tS)).pcap = 2800 := by decide
-- R377, R379: wave 0 comes after wave 2^32 - 1, and before any wave a die has none
theorem test_wave_wraps :
    (let t := tOut (exec (.rollCallWave 0) { tS with dies := [(0, { waves := 1, began := [(0xFFFFFFFF, 1)] })] })
     (t.die 0).place 0xFFFFFFFF < (t.die 0).place 0 ∧ (tS.die 0).waves < (t.die 0).place 0xFFFFFFFF) := by decide
-- R45: the step runs the instruction at the pc, and the pc goes on by one bundle
theorem test_step_movi :
    (match step (State.reset.withFetchWord 32 0x30001005) with
     | .next t => decide ((t.ctx 0 0).flight.map (·.eff) = [.sreg (some 1) 5] ∧ (t.ctx 0 0).pc = 16)
     | _ => false) = true := by decide


-- ## The hypotheses are met: the further clauses of the statements, each at a boundary value

theorem test_meets_ControlRegisterAccess_listed :
    ([0, 1, 2, 8, 0x10, 0x13, 0x14, 0x17, 0x20, 0x2F, 0x30, 0x33, 0x34, 0x37].all fun r => crListed r && tS.runs (.crd 9 4 (BitVec.ofNat 12 r))) = true ∧
    isSupervisor tSup.iss.core = true ∧ tSup.runs (.crd 9 4 9) = true ∧ tS.curCore.first = none := by decide

theorem test_meets_AllotAndShrink_release :
    (let s : State := { tOn 0 { tCore { tCtx with allocS := 4 } with access := [{ id := 0, ctx := 0, gen := 0, launch := 0, kind := 0, dest := some (false, 4) }] } with
       iss := { tS.iss with allot := true } }
     s.iss.done = false ∧ s.iss.allot = true ∧ (∃ a ∈ (s.core 0).access, a.dest = some (false, 4) ∧ a.of 0 (s.ctx 0 0).gen = true ∧ (s.ctx 0 0).allocS ≤ 4)) := by decide

theorem test_meets_Branches_bubbles :
    (let s : State := { tS with iss := { tS.iss with xfer := some ⟨16, 3, true⟩ } }
     s.iss.done = false ∧ s.iss.xfer = some ⟨16, 3, true⟩ ∧ s.iss.lbrk = false ∧ s.iss.push = none) ∧
    (let s := tOn 0 (tCore { tCtx with stall := 1 })
     (s.core 0).run = some 0 ∧ (s.core 0).preempts 0 = false ∧ 0 < (s.ctx 0 0).stall ∧ (s.ctx 0 0).snapped = false) ∧ tS.iss.xfer = none := by decide

/-- A context with a result in flight that carries a cause. -/
theorem test_meets_SoftwareTraps_flight :
    (let s := tOn 0 (tCore { tCtx with flight := [{ due := 3, iss := 0, eff := .sreg (some 5) 1, causes := cNX, pos := 0, addr := 0 }] })
     s.runs (.trap 9 1) = true ∧ s.clean = true ∧ s.cur.flight ≠ [] ∧ s.cur.snapped = false) := by decide

theorem test_meets_VectorFunctions :
    (3 : Nat) ≠ 0 ∧ (-300 : Int) ≤ -1 ∧ magLt 4096 0 3 (-1) = false ∧ (3 * 2 ^ ((-1 : Int) + 300).toNat : Int) % 2 ^ 300 ≠ 0 ∧
    magLt 4096 0 3 0 = false ∧ (3 * 2 ^ ((0 : Int) + 300).toNat : Int) % 2 ^ 300 = 0 ∧ 2 ^ 1 < 3 ∧ 3 < 2 ^ 2 := by decide

def tFires (s : State) (i : Instr) (p : Nat) : Bool := s.runs i && !s.iss.triggers p && !s.unitTaken p && !s.portGone p
/-- v6 holds the value; bank 1 is in the compressed format, and its tile 0 has an entry. -/
def tTile (v : Nat) : State :=
  tOn 0 { tCore { tCtx with vreg := [(6, BitVec.ofNat 4096 v)] } with bankfmt := [(1, 8)], spad := [(0x10007, 0x80)] }
theorem test_meets_Moves_convert :
    tFires tS (.mv 9 0 6 (some 2)) 0x80 = true ∧ mvDst 0 (some 2) = 0x80 ∧ movePairOk 0 0 = true ∧ tFires tS (.mv 9 45 6 (some 2)) 0xAD = true ∧
    mvDst 45 (some 2) = 0xAD ∧ movePairOk 5 5 = true ∧ tFires tS (.mvi 9 40 0 (some 2)) 0xA8 = true ∧ mvDst 40 (some 2) = 0xA8 ∧ movePairOk 0 5 = false ∧
    (let s := tOn 0 { tCore tCtx with ports := [(0xC1, 16)] }; tFires s (.mv 9 0 6 (some 2)) 0x80 = true ∧ (s.curCore.port 0xC1).getLsbD 4 = true) ∧
    (let s : State := { tS with iss := { tS.iss with ops := [.mv 0 1 6 (some 2)] } }; s.runs (.mv 9 0 6 (some 2)) = true ∧ s.iss.triggers 0x80 = true) ∧
    (let s := tOn 0 { tCore tCtx with busy := [(3, 5)] }; s.runs (.mv 9 1 6 (some 4)) = true ∧ s.unitTaken 0x101 = true) ∧
    (let s : State := { tS with caps := 0x1840C }
     s.runs (.mv 9 32 6 (some 4)) = true ∧ s.iss.triggers 0x120 = false ∧ s.unitTaken 0x120 = false ∧ s.portGone 0x120 = true) := by decide
theorem test_meets_Moves_units :
    tFires tS (.mv 9 24 6 (some 3)) 0xD8 = true ∧ mvDst 24 (some 3) = 0xD8 ∧ tFires tS (.mv 9 26 6 (some 3)) 0xDA = true ∧ mvDst 26 (some 3) = 0xDA ∧
    tFires tS (.mv 9 49 6 (some 3)) 0xF1 = true ∧ mvDst 49 (some 3) = 0xF1 ∧ tFires tS (.mv 9 51 6 (some 3)) 0xF3 = true ∧ mvDst 51 (some 3) = 0xF3 ∧
    (tS.curCore.port 0xF0).toNat % 2 ^ 20 % 4 = 0 ∧ (({ tCore tCtx with ports := [(0xF0, 2)] } : Core).port 0xF0).toNat % 2 ^ 20 % 4 ≠ 0 ∧
    tFires tS (.mv 9 0 6 (some 4)) 0x100 = true ∧ tFires tS (.mv 9 3 6 (some 4)) 0x103 = true ∧ mvDst 3 (some 4) = 0x103 ∧ tS.worldOf 0 0 = 0 ∧
    (let s := tOn 0 { tCore tCtx with world := 1 }
     tFires s (.mv 9 1 6 (some 4)) 0x101 = true ∧ mvDst 1 (some 4) = 0x101 ∧ tFires s (.mv 9 3 6 (some 4)) 0x103 = true ∧ s.worldOf 0 0 ≠ 0) ∧
    tFires tS (.mv 9 17 6 (some 4)) 0x111 = true ∧ mvDst 17 (some 4) = 0x111 ∧ tS.cur.proc = false ∧
    tFires tProc (.mv 9 17 6 (some 4)) 0x111 = true ∧ tProc.cur.proc = true := by decide
theorem test_meets_Moves_expand :
    mvDst 32 (some 4) = 0x120 ∧ tFires tS (.mv 9 32 6 (some 4)) 0x120 = true ∧ tFires (tTile 1) (.mv 9 32 6 (some 4)) 0x120 = true ∧
    leNat ((List.range 8).map fun j => Memory.read (tTile 1).issueSpad (0x10000 + j)) = 2 ^ 63 ∧
    ((tTile (1 + 0x20000 * 2 ^ 96)).rdVn 6).lane 0 = 1 ∧ (((tTile (1 + 0x20000 * 2 ^ 96)).rdVn 6).lane 3).toNat % 4096 = 0 ∧
    (((tTile (1 + 2 ^ 96)).rdVn 6).lane 3).toNat % 4096 ≠ 0 ∧ (((tTile (1 + 0x10001 * 2 ^ 64)).rdVn 6).lane 2).getLsbD 16 = true ∧
    (((tTile (1 + 0x10001 * 2 ^ 64)).rdVn 6).lane 2).toNat % 2 ^ 16 ≠ 2 ^ 63 % 2 ^ 16 := by decide
theorem test_meets_Moves_compress :
    mvDst 33 (some 4) = 0x121 ∧ tFires (tTile (0x20000 + 2 ^ 32 + 32 * 2 ^ 96)) (.mv 9 33 6 (some 4)) 0x121 = true ∧
    (let w := (tTile (0x20000 + 2 ^ 32 + 32 * 2 ^ 96)).rdVn 6
     (w.lane 0).toNat % 2 ^ 20 = 0x20000 ∧ (w.lane 1).toNat % 16 = 1 ∧ 32 ≤ (w.lane 3).toNat ∧ 16 * (w.lane 3).toNat + 4096 ≤ 65536) ∧
    (NMap.getD (tTile 0).curCore.bankfmt 2 0).testBit 3 = false ∧ (NMap.getD (tTile 0).curCore.bankfmt 1 0).testBit 3 = true ∧
    ((tTile 1).rdVn 6).lane 0 = 1 ∧ (((tTile (0x20000 + 2 ^ 32 + 31 * 2 ^ 96)).rdVn 6).lane 3).toNat < 32 := by decide
theorem test_meets_Moves_results :
    (let s := tOn 0 { tCore tCtx with ports := [(0xC0, 5)] }
     s.runs (.mv 9 5 0 (some 24)) = true ∧ mvSrc 0 (some 24) = 0xC0 ∧ mvDst 5 (some 24) < 0x30 ∧ NMap.get? s.curCore.ports 0xC0 = some 5 ∧ s.portGone 0xC0 = false) ∧
    (let s := tOn 0 { tCore tCtx with world := 1, ports := [(0x102, 5)] }
     s.runs (.mv 9 5 2 (some 32)) = true ∧ mvSrc 2 (some 32) = 0x102 ∧ NMap.get? s.curCore.ports 0x102 = some 5 ∧ s.worldOf 0 0 ≠ 0) ∧
    tS.runs (.mv 9 5 2 (some 32)) = true ∧ tS.worldOf 0 0 = 0 ∧ tS.iss.triggers 5 = false ∧ tS.unitTaken 5 = false ∧ tS.portGone 5 = false ∧ tS.portGone 0x102 = false ∧
    tS.runs (.mv 9 5 18 (some 32)) = true ∧ mvSrc 18 (some 32) = 0x112 ∧ tS.cur.proc = false ∧ tS.portGone 0x112 = false := by decide

theorem test_meets_Beats_residue :
    (let s := tArr { p0 := { mode := 5 } } tCtx
     s.runs (.xbeat 9 3 0 0 5 4 (some 5)) = true ∧ mFmt ((s.arr 0).pos 0).mode = 5 ∧ (s.arr 0).mode = s.iss.core % 2 ∧ s.runs (.xbeat 9 3 0 0 5 4 (some 0)) = true) ∧
    tS.runs (.xbeat 9 3 0 0 5 4 (some 5)) = true ∧ tS.runs (.xbeat 9 0 1 0 0 0 none) = true ∧ ((tS.arr 0).pos 0).fb.q = [] ∧ tS.curCore.first = none := by decide

theorem test_meets_ArrayControls_outside :
    (let s : State := { tS with caps := 0x18414 }
     s.hasRes = false ∧ s.runs (.xmode 9 6) = true ∧ (s.rdS 6).toNat % 8 ≠ 5 ∧ s.runs (.xres 9 0) = true ∧ (s.arr 0).inFlight 0 = false) ∧
    (let s : State := { tS2 6 5 7 0 with caps := 0x18414 }; s.hasRes = false ∧ s.runs (.xmode 9 6) = true ∧ (s.rdS 6).toNat % 8 = 5) ∧
    (tWin 1 0).runs (.xres 9 0) = true ∧ (tWin 1 0).hasRes = true ∧ ((tWin 1 0).arr 0).mode ≠ 2 ∧ ((tWin 1 0).arr 0).mode ≠ (tWin 1 0).iss.core % 2 ∧
    (tWin 1 0).runs (.xinj 9 0 6 10) = true ∧ (tWin 1 0).dbg = true := by decide

theorem test_meets_AmoAndCas_own :
    (let s := tMem { tCore tCtx with amo := [{ pa := 0, op := 2, value := 7, scope := 0, since := 0, ctx := 0, launch := 0 }] }
     s.curCore.ownAfter 0 0 0 0 = false) := by decide

theorem test_meets_FencesAndPrefetch_aging :
    (let s : State := { tOn 0 { tCore tCtx with fills := [⟨3, 0, 3⟩] } with cyc := 8192, paths := [(3, [⟨.l1Fill 0 3, 3, 0, 0, 0⟩])] }
     (∃ f ∈ (s.core 0).fills, f.line = 3 ∧ f.since + 8192 ≤ s.cyc) ∧ (∃ p ∈ s.paths, ∃ r ∈ p.2, r.cls = 3 ∧ agingId r.what = 3 ∧ r.since + 8192 ≤ s.cyc)) := by
  decide

theorem test_meets_MemoryEvents_void :
    (tLoad true).void = false ∧
    (let a : Access := { tLoad true with void := true }
     let s := tOn 0 { tCore tCtx with access := [a], nextAccess := 8 }
     (s.core 0).access.filter (fun q => decide (q.id = 7 ∧ q.ctx = 0) && q.landing) = [a] ∧ a.kind = 0 ∧ a.done = true ∧ a.dest = some (false, 5)) := by decide

/-- Another core's buffered update on the first table line of world 0. -/
def tHeldLine (s : State) (pa : Nat) : State :=
  { s with cores := s.cores ++ [(4, { amo := [{ pa := pa, op := 0, value := 1, scope := 0, since := 0, ctx := 0, launch := 0 }] })], cyc := 1 }
theorem test_meets_CopyCommands_clear :
    (let s : State := { tRecRegs [0, 0xB000] with caps := 0x1840C }
     s.runs (.lrec 9 15 0) = true ∧ s.hasCmp = false ∧ recCt [0, 0xB000] = true ∧ recCt (tRec 0) = false) := by decide

theorem test_meets_FabricOps_clear :
    (tAt 0x2000).listWordsClear 0x3000 = true ∧ (tAt 0x4100).recordRead.listWordsClear 0x3000 = true ∧
    (let s := tHeldLine (tAt 0x2000) 0x3000; s.runs (.collAr 9 4 6) = true ∧ s.readsFresh 0x2000 64 tTr = true ∧ s.listWordsClear 0x3000 = false) ∧
    (let s := tHeldLine (tAt 0x4100) 0x3000
     s.runs (.glaunch 9 4 6) = true ∧ s.readsFresh 0x4100 256 tTr = true ∧ s.settledBy 0 0 0 5 0 = true ∧
       s.recordRead.listWordsClear 0x3000 = false) := by decide

/-- A GLAUNCH of a record that names no package list. -/
theorem test_meets_LaunchOps_noList :
    (tAt 0x4000).runs (.glaunch 9 4 6) = true ∧ lrKind (words8 32 ((tAt 0x4000).freshBytes 0x4000 256 tTr)) ≠ 2 ∧
    lrKind [0, 2] = 2 ∧ lw [0, 2] 0xE8 = 0 := by decide

theorem test_meets_LaunchEvents_counts :
    NMap.get? ({ tDone with clCnt := [(5, 0)], clDone := [(5, 2)] } : Launch).clCnt 5 = some 0 ∧
    NMap.getD ({ tDone with clCnt := [(5, 1)] } : Launch).clCnt 5 1 ≠ 0 ∧
    NMap.get? ({ tDone with dieCnt := [(3, 0)] } : Launch).dieCnt 3 = some 0 ∧ NMap.getD ({ tDone with dieCnt := [(3, 1)] } : Launch).dieCnt 3 1 ≠ 0 ∧
    (tPool (some true)).placeClear 0 = true ∧ tTable.placeClear 0 = true ∧ (tLau tDone).arbClear 0 0 256 = true ∧ (tLau tDone).arbClear 0 0 8 = true ∧
    (let s := tHeldLine (tPool none) 0; s.arbClear 0 0x4000 8 = false) := by decide

theorem test_meets_HostRegisters_jobs :
    (let s : State := { tS with jobs := [(0, tJob)] }
     s.watcher (0x10000 + 32) = none ∧ (5 + 2 ^ 23 : Nat) % 2 ^ 16 = 5 ∧ (5 + 2 ^ 23 : Nat).testBit 23 = true ∧ (5 : Nat).testBit 23 = false ∧
      (∃ p ∈ s.jobs, p.1 ≠ 1 ∧ p.2.job = 5) ∧ ∀ p ∈ s.jobs, p.1 ≠ 1 → ¬(p.2.job = 6 ∨ (6 + 2 ^ 23 : Nat).testBit 22 = true ∧ p.2.v = true)) := by decide

theorem test_meets_Resets_boot :
    ([1, 2, 3, 5, 6].all fun n => let s : State := { tS with ready := false, bootStep := n }
      decide (s.power = true ∧ s.ready = false ∧ s.refusedFw = false ∧ s.inbox = [])) = true := by decide

/-- A bundle in which another transfer stands in a lower slot position (R136). -/
def tSecond (x : Ctx) (lbrk : Bool) : State :=
  let s := tOn 0 (tCore x)
  { s with iss := { s.iss with xfer := if lbrk then none else some ⟨16, 3, false⟩, lbrk := lbrk } }
theorem test_meets_Branches_second :
    (tSecond tCtx false).iss.xfer ≠ none ∧ (tSecond tCtx true).iss.lbrk = true ∧ (tSecond tCtx false).iss.xferBad = false ∧
    (tSecond tCtx true).iss.xferBad = false ∧ (tSecond tCtx false).runs (.br 9 5) = true ∧ (tSecond tCtx true).runs (.brl 9 5 4) = true ∧
    (tSecond tCtx false).runs (.ret 9 6) = true ∧ ((tSecond tCtx false).rdS 6).toNat % 16 = 0 ∧
    (let s := tSecond { tCtx with loops := [tLevel 2] } false; s.runs (.lbrk 9) = true ∧ s.iss.xferBad = false ∧ s.cur.loops ≠ [] ∧ s.iss.xfer ≠ none) := by decide
theorem test_meets_Loops_pops :
    (∀ v ∈ tCtx.loops, v.last ≠ tS.iss.addr) ∧ tS.iss.push = none ∧ tS.iss.lbrk = false ∧ tS.iss.xfer = none ∧
    (⟨48, 0, true⟩ : Xfer).pops = true ∧ (⟨48, 0, false⟩ : Xfer).pops = false ∧
    (∀ v ∈ [tLevel 0].head?, v.first ≤ 32 ∧ 32 ≤ v.last) ∧
    (∃ v ∈ [tLevel 0, tLevel 2], v.kind = 2 ∧ ¬(v.first ≤ 48 ∧ 48 ≤ v.last)) ∧ ¬(∃ v ∈ [tLevel 0, tLevel 1], v.kind = 2 ∧ ¬(v.first ≤ 48 ∧ 48 ≤ v.last)) := by decide
-- R136: the second transfer of a bundle writes no link
theorem test_second_brl_has_no_effect :
    (let s := tSecond { tCtx with cond := [(5, true, 0)] } false
     (tOut (exec (.brl 9 5 4) s)).cur.flight = [] ∧ (tOut (exec (.brl 9 5 4) s)).iss.xfer = some ⟨16, 3, false⟩) := by decide

theorem test_meets_ChecksumVerdicts_late :
    ({ row := 0, col := 127, pre := 0, late := [⟨0, 0, false, .fin false 1 0⟩] } : FixAt).late = [⟨0, 0, false, .fin false 1 0⟩] := by decide

/-- A GORB at a given row with a given word, in an array whose group has two elements and has been checked. -/
def tOrb (mode : Nat) (w : Word) : State := tArr { mode := mode, gn := 2 } { tCtx with sreg := [(6, w)] }
theorem test_meets_GroupEngine_faults :
    (let s := tS2 6 65024 7 0
     s.runs (.gload 9 6 0) = true ∧ 65024 % 512 = 0 ∧ 2 ^ 16 < 65024 + 512 * (1 + (1 + 7) / 8)) ∧
    (tOrb 0 0x80).runs (.gorb 9 0 6) = true ∧ 0x80 / 2 ^ 6 % 4 ≠ 0 ∧
    (tOrb 0 2).runs (.gorb 9 0 6) = true ∧ ¬(2 < ((tOrb 0 2).arr 0).gn) ∧
    (tOrb 0 0).runs (.gorb 9 0 6) = true ∧ 0 < 0 + mKr (((tOrb 0 0).arr 0).pos 0).mode ∧ 0 < 0 + 1 ∧
    (let s := tArr { gn := 2, chk := 0 } { tCtx with sreg := [(6, 0x3F01)] }
     s.runs (.gorb 9 0 6) = true ∧ 1 < (s.arr 0).gn ∧ ¬(1 = 0 ∨ ((s.arr 0).chk = 1 ∧ (s.arr 0).krc = mKr ((s.arr 0).pos 0).mode - 1)) ∧
      63 + mKr ((s.arr 0).pos 0).mode ≤ 64) ∧
    (let s := tOrb 2 0x3F00
     s.runs (.gorb 9 31 6) = true ∧ (s.arr 0).mode = 2 ∧ 0 < (s.arr 0).gn ∧ 63 + mKr ((s.arr 0).pos 0).mode ≤ 64 ∧ (63 : Nat) / 32 ≠ s.iss.core % 2) ∧
    (tOrb 1 0).runs (.gorb 9 0 6) = true ∧ (tOrb 1 0).runs (.gsel 9 6) = true ∧ ((tOrb 1 0).arr 0).mode ≠ 2 ∧
    ((tOrb 1 0).arr 0).mode ≠ (tOrb 1 0).iss.core % 2 ∧ isSupervisor (tOrb 1 0).iss.core = false := by decide

/-- A PREF's fill of line 3, which waits for class 2 fills of its die; another core has one or has none. -/
def tFills (other : List Fill) : State := { tS with cores := [(0, { tCore tCtx with fills := [⟨3, 0, 3⟩] }), (4, { fills := other })] }
theorem test_meets_MemoryEvents_pref :
    ((tFills []).core 0).fills.find? (fun f => decide (f.line = 3)) = some ⟨3, 0, 3⟩ ∧
    (∀ q ∈ (tFills []).cores, dieOf q.1 = dieOf 0 → ∀ h ∈ q.2.fills, h.cls ≠ 2) ∧ (tFills []).lineClear 0 (128 * 3) 128 0 0 1 = true ∧
    ¬(∀ q ∈ (tFills [⟨9, 0, 2⟩]).cores, dieOf q.1 = dieOf 0 → ∀ h ∈ q.2.fills, h.cls ≠ 2) := by decide

theorem test_meets_BarriersAndCounters_first :
    (let s := tFab { tCore tCtx with access := [{ tAcc 1 with id := 6, pa := 0 }], nextAccess := 8 }
     let u : State := { s with iss := { s.iss with acc := 8 } }
     u.runs (.ctrwait 9 6 10) = true ∧ u.reaches 0 0 8 tTr = true ∧ u.ownClear 0 0 0 u.iss.acc 0 8 [homeDie 0] = false) ∧
    (let s := tFab { tCore { tCtx with st := .wait [.ctrRead 0 0 1 8] } with access := [{ tAcc 1 with id := 6, pa := 0 }] }
     (s.ctx 0 0).st = .wait [.ctrRead 0 0 1 8] ∧ s.loadsOut 0 0 = false ∧ s.ownClear 0 0 0 8 0 8 [homeDie 0] = false) ∧
    (let s := tFab (tCore { tCtx with st := .wait [.ctrRead 0x2000 0 1 8] })
     (s.ctx 0 0).st = .wait [.ctrRead 0x2000 0 1 8] ∧ s.loadsOut 0 0 = false ∧ s.ownClear 0 0 0 8 0x2000 8 [homeDie 0x2000] = true ∧
      s.lineClear (homeDie 0x2000) 0x2000 8 1024 0 1 = true ∧ ¬((1 : Word).toNat ≤ (s.wordAt (homeDie 0x2000) 0 0x2000).toNat) ∧
      (0 : Word).toNat ≤ (s.wordAt (homeDie 0x2000) 0 0x2000).toNat) := by decide

/-- A GLAUNCH whose package list has REARM set, with a gang of the job left incomplete, or none. -/
def tRearm (gangs : List Gang) : State :=
  { tAt 0x4100 with dies := [(0, { view := Memory.writeN tView 0x3000 (tBytes [5 + 2 ^ 32, 0, 0]) })], gangs := gangs }
theorem test_meets_LaunchOps_rearm :
    ∀ gs ∈ [[], [{ tArm [1] [] [] 3 0 with no := 7 }]], let s := tRearm gs
      s.runs (.glaunch 9 4 6) = true ∧ s.readsFresh 0x4100 256 tTr = true ∧ s.settledBy 0 0 0 5 0 = true ∧ s.pathTurn 0 1 1 = true ∧
      s.recordRead.listWordsClear 0x3000 = true ∧
      (match s.recordRead.readList 0x3000 with | .ok ls => ls == [5 + 2 ^ 32, 0, 0] | .error _ => false) = true ∧
      (match pkgList [5 + 2 ^ 32, 0, 0] 1 1 0 with | .ok r => r == (5, [0], true) | .error _ => false) = true ∧ s.holdsJob 5 0 = true ∧
      ((s.gangs.filter fun q => decide (q.job = 5 ∧ q.phase = 3)).getLast?.map (·.no) = if gs.isEmpty then none else some 7) := by decide
theorem test_meets_LaunchOps_path :
    (let s : State := { tAt 0x4000 with paths := [(0, [⟨.preemptedResume 4 0, 1, 5, 0, 0⟩])], granted := [(1, 1)] }
     s.runs (.launch 9 4 6) = true ∧ s.settledBy 0 0 0 5 0 = true ∧ s.pathTurn 0 1 1 = false) ∧
    lrKind (words8 32 (tBytes (tImage 0x10020002 0x3004))) = 2 ∧ lw (words8 32 (tBytes (tImage 0x10020002 0x3004))) 0xE8 % 8 ≠ 0 := by decide

theorem test_meets_PipelineEvents_spill :
    (let s := tOn 0 { tCore { tCtx with save := some 0x2000, spilled := true, unspilled := 132 } with run := none }
     (s.ctx 0 0).save = some 0x2000 ∧ (s.core 0).run ≠ some 0 ∧ 0 < (s.ctx 0 0).unspilled ∧ (s.ctx 0 0).unspilled ≤ 132 ∧ (s.core 0).spad.wf = true ∧
      0x2000 + 33792 ≤ 2 ^ 20) ∧
    (let s := tOn 0 (tCore { tCtx with save := some 0x2000, spilled := true })
     (s.core 0).run = some 0 ∧ (s.ctx 0 0).save = some 0x2000 ∧ (s.ctx 0 0).spilled = true ∧ (s.ctx 0 0).unspilled = 0 ∧ (s.ctx 0 0).refill.length < 33792) := by decide
/-- A save area that holds one scalar result, and nothing else. -/
def tArea : List Byte := List.replicate 512 0 ++ leBytes 8 (2 ^ 63 + 5) ++ List.replicate 33272 0
theorem test_area_length : tArea.length = 33792 := by
  have h : (leBytes 8 (2 ^ 63 + 5)).length = 8 := by decide
  simp only [tArea, List.length_append, List.length_replicate, h]
theorem test_take_middle (a b c : List Byte) (ha : a.length = 512) (hb : b.length = 8) : ((((a ++ b ++ c).drop (528 * 0)).take 528).drop 512).take 8 = b := by
  rw [Nat.mul_zero, List.drop_zero, List.drop_take, List.append_assoc, List.drop_left' ha, List.take_take, List.take_left' (by omega)]
theorem test_area_scalar : (leNat ((((tArea.drop (528 * 0)).take 528).drop 512).take 8)) = 2 ^ 63 + 5 := by
  have h : (leBytes 8 (2 ^ 63 + 5)).length = 8 := by decide
  rw [tArea, test_take_middle _ _ _ (List.length_replicate ..) h]; decide
theorem test_empty_area : ∀ e, (leNat (((((List.replicate 33792 (0 : Byte)).drop (528 * e)).take 528).drop 512).take 8)).testBit 63 = false := by
  intro e
  have z : ∀ n, leNat (List.replicate n (0 : Byte)) = 0 := by
    intro n; induction n with
    | zero => rfl
    | succ n ih => rw [List.replicate_succ, leNat, ih]; rfl
  rw [List.drop_replicate, List.take_replicate, List.drop_replicate, List.take_replicate, z]; rfl
theorem test_meets_PipelineEvents_refilled :
    (let s := tOn 0 (tCore { tCtx with save := some 0, spilled := true, refill := tArea })
     (s.core 0).run = some 0 ∧ (s.ctx 0 0).save = some 0 ∧ (s.ctx 0 0).spilled = true ∧ (s.ctx 0 0).unspilled = 0 ∧ (s.ctx 0 0).refill = tArea ∧
      (s.ctx 0 0).flight.filter Flight.snap = [] ∧ (2 ^ 63 + 5).testBit 63 = true ∧ bits (2 ^ 63 + 5) 7 6 = 0 ∧ bits (2 ^ 63 + 5) 5 0 < 48) :=
  ⟨rfl, rfl, rfl, rfl, rfl, rfl, by decide, by decide, by decide⟩

theorem test_meets_HostRegisters_clock :
    tS.clkSteps = [] ∧ (tS.ready = true ∧ tS.clk < 32) ∧
    (let s : State := { tS with clkSteps := [(11, 2650), (10, 2700)] }
     s.clkSteps = (11, 2650) :: [(10, 2700)] ∧ s.stepped = none ∧ (∀ q ∈ s.cores, q.2.first = none)) ∧
    (let s : State := { tS with stepped := some (11, 2650) }
     s.stepped = some (11, 2650) ∧ s.stepped ≠ none ∧ (s.evwidx + 2 ^ 32 - s.evridx) % 2 ^ 32 < 1024) := by decide
-- R428: no window changes CLK by more than one step; R429: the step is logged in the window after it
theorem test_one_clock_step_a_window :
    (let s : State := { tS with clkSteps := [(11, 2650), (10, 2700)] }
     s.reclock.clk = 11 ∧ s.reclock.reclock.clk = 11 ∧ s.reclock.evlog = [] ∧
      (match execPowerWindowEnd 2000 60 s.reclock with | .next t => t.evlog.map fun e => (e.code, e.a) | _ => []) = [(0x30, 11)]) := by decide

-- ## The hypotheses are met: what a failed walk, a path's line and a buffered update leave

theorem test_meets_GlobalAccesses_failed :
    (let s := tOn 0 { tCore tCtx with failed := [⟨0, 0, 2, 1, 3⟩] }
     s.runs (.ldW64 9 4 6 0 none) = true ∧ (s.rdS 6).toNat = 0 ∧
      s.curCore.failed.find? (fun f => decide (f.va = 0 ∧ f.kind = 0)) = some ⟨0, 0, 2, 1, 3⟩) ∧
    (let s := tOn 0 { tCore tCtx with walk := some ⟨65536, 1⟩, failed := [⟨0, 1, 2, 1, 3⟩] }
     s.runs (.ldW64 9 4 6 0 none) = true ∧ (∀ f ∈ s.curCore.failed, ¬(f.va = 0 ∧ f.kind = 0)) ∧ s.tlbFind 0 0 (s.worldOf 0 0) = none ∧
      s.curCore.walk ≠ none) := by decide

theorem test_meets_AmoAndCas_other_op :
    (let s := tMem { tCore tCtx with amo := [{ pa := 0, op := 2, value := 7, scope := 0, since := 0, ctx := 0, launch := 0 }] }
     s.runs (.amoAdd 9 63 6 10 none) = true ∧ s.reaches 0 2 8 tTr = true ∧ isRegPage (tTr.phys 0) = false ∧
      ∃ c ∈ s.curCore.amo, c.pa = tTr.phys 0 ∧ c.op ≠ 0) := by decide

theorem test_meets_FencesAndPrefetch_grant :
    (let s : State := { tOn 0 { tCore tCtx with fills := [⟨3, 0, 2⟩] } with paths := [(0, [⟨.preemption 1 0, 1, 2, 0, 131⟩, ⟨.l1Fill 0 3, 2, 1, 0, 0⟩])] }
     (s.nextReq 0 = some ⟨.preemption 1 0, 1, 2, 0, 131⟩ ∧ s.nextReq 1 = none) ∧
      ((s.modCore 1 fun _ => { ctxs := [(0, { tCtx with save := some 0, spilled := true, unspilled := 132 })] }).stale (.preemption 1 0) = false)) ∧
    (let s : State := { tOn 0 { tCore tCtx with fills := [⟨3, 0, 2⟩] } with paths := [(0, [⟨.l1Fill 0 3, 2, 1, 0, 0⟩])] }
     s.nextReq 0 = some ⟨.l1Fill 0 3, 2, 1, 0, 0⟩ ∧ s.stale (.l1Fill 0 3) = false) ∧
    (let b : AmoBuf := { pa := 64, op := 0, value := 7, scope := 0, since := 0, ctx := 0, launch := 0 }
     let s := tOn 0 { tCore tCtx with amo := [b] }
     s.runs (.fenceFull 9 none) = true ∧ b ∈ s.curCore.amo) := by decide

theorem test_meets_CopyEvents_waits :
    (let t := tTrk false (tRec 1)
     let s : State := { tOn 0 { tCore tCtx with access := [{ tAcc 1 with id := 0 }], nextAccess := 8 } with
                        clusters := [(0, { ch := [(0, { next := 1, run := some { t with seq := 8 } })] })] }
     (s.chan 0 0).run = some { t with seq := 8 } ∧ s.copyReady { t with seq := 8 } = false) ∧
    (let t := tTrk false (tRec 1); ((tQueue (some t) []).chan 0 0).run = some t ∧ (tQueue (some t) []).copyReady t = true) := by decide

theorem test_meets_BarriersAndCounters_arrive :
    (let s := tOn 0 { tCore { tCtx with st := .wait [.bar 3 false 0], launch := 1 } with access := [{ tAcc 1 with id := 0 }], nextAccess := 1 }
     (s.ctx 0 0).st = .wait [.bar 3 false 0] ∧ s.settledBy 0 0 (s.ctx 0 0).gen 4 0 = true ∧ (s.ctx 0 0).flight = [] ∧ s.settledBy 0 0 (s.ctx 0 0).gen 4 1 = false) := by decide

theorem test_meets_Moves_lists :
    (let o : ListOut := { base := 0x8000, len := 24, peer := 0, ctx := 0, gen := 0, launch := 0, world := 0, addr := 0, es := [(5, 6)] }
     let s : State := { tMapped with cores := [(0, { tCore tCtx with lists := [o] })] }
     (s.core 0).lists = o :: [] ∧ (∀ f ∈ (s.core 0).flight, (s.core 0).ccyc < f.due) ∧ s.listClear o.by_ 0 o.peer o.world o.base o.len 1 = true ∧
      (s.outAll { o with es := o.es.take 1 }).2 = none) := by decide

theorem test_meets_RegistrarOps_clear :
    (let d := leBytes 24 5 ++ leBytes 8 48 ++ leBytes 24 0 ++ List.replicate 200 0
     (tMgmt 0 0).lateClear 0 d = true) ∧ tS.regionClear 0 128 0 = true := by decide

-- ## The hypotheses are met: what a gateway has to write, and who joins late

def tDeliv : Deliv := { part := tPart 0, chunk := 0, va := 0x5000, data := [1, 2, 3, 4], bitmap := 1, flags := 0 }
theorem test_meets_RollCallAndCollectives_todo :
    (let q := { tGate [tPart 0] (some 0) with todo := [tDeliv], chunks := [(0, { passed := true, final := true, owed := true })] }
     let s : State := { tGates q 0 with dies := [(0, { view := [(0, 1), (1, 0x10), (0x1000, 0x1F)] })] }
     NMap.get? s.gates 0 = some q ∧ q.todo = tDeliv :: [] ∧ tDeliv.data ≠ [] ∧ s.gateClear 0 = true ∧
      (match s.walk (dieOf 0) 0 0x5000 1 false with | .ok e => !isWindow (e.phys 0x5000) && !isRegPage (e.phys 0x5000) | .bad _ _ _ => false) = true ∧
      (∀ l ∈ blocks 128 0x5000 4, s.sealer l = 0) ∧
      (match ({ s with dies := [] } : State).walk (dieOf 0) 0 0x5000 1 false with | .ok _ => false | .bad _ _ _ => true) = true) ∧
    (let p := { tPart 1 with late := true }
     let q := { tGate [tPart 0, p] (some 0) with dropped := true, chunks := [(0, { passed := true, final := true, out := some (1, 0, none) })] }
     let s := tGates q 0
     q.parts.find? (fun p => p.late && s.settledBy p.core p.ctx p.gen 5 p.at_) = some p ∧ q.begun ≠ none ∧ q.counted = false ∧ q.todo = [] ∧
      s.gateClear 0 = true ∧ q.mismatch = false ∧ q.lead.differs p = false ∧ (0, { passed := true, final := true, out := some (1, 0, none) }) ∈ q.chunks) ∧
    (let s : State := { tS with dies := [(0, { snap := [(3, [])], rep := [(2, [7])], began := [(2, 2), (3, 3)] })] }
     NMap.get? (s.die 0).snap 3 ≠ none ∧ 2 ≠ 3 ∧ NMap.get? (s.die 0).rep 2 = some [7] ∧ (s.die 0).place 3 < (s.die 0).place 2 + 256) := by decide


end Sys2Proof.Tests
end

section
/-! SUPPORT. Encoding and decoding agree for every slot word, both ways (R30 to R36, R62, R63). -/

namespace Sys2Proof.Laws

/-- Every instruction of a slot word, encoded and decoded beside the extension byte that it takes, is itself (R30, R33, R62). -/
theorem RoundTrip.statement (i : Instr) : RoundTrip.Statement i := by
  cases i with
  | nop => exact RoundTrip.nop
  | prep => exact RoundTrip.prep _ _ _ _
  | prepr => exact RoundTrip.prepr _ _ _
  | br => exact RoundTrip.br _ _
  | brl => exact RoundTrip.brl _ _ _
  | ret => exact RoundTrip.ret _ _
  | loop => exact RoundTrip.loop _ _ _ _
  | loopi => exact RoundTrip.loopi _ _ _ _
  | loopr => exact RoundTrip.loopr _ _ _ _
  | lbrk => exact RoundTrip.lbrk _
  | yield => exact RoundTrip.yield _
  | done => exact RoundTrip.done _
  | trap => exact RoundTrip.trap _ _
  | waitc => exact RoundTrip.waitc _ _
  | defer => exact RoundTrip.defer _ _ _ _ _
  | defdr => exact RoundTrip.defdr _ _ _ _
  | defct => exact RoundTrip.defct _ _ _
  | tcur => exact RoundTrip.tcur _ _
  | ctxid => exact RoundTrip.ctxid _ _
  | prio => exact RoundTrip.prio _ _
  | bkpt => exact RoundTrip.bkpt _
  | mov => exact RoundTrip.mov _ _ _
  | add => exact RoundTrip.add _ _ _ _
  | sub => exact RoundTrip.sub _ _ _ _
  | mul => exact RoundTrip.mul _ _ _ _
  | mulh => exact RoundTrip.mulh _ _ _ _
  | mulhu => exact RoundTrip.mulhu _ _ _ _
  | divs => exact RoundTrip.divs _ _ _ _
  | divu => exact RoundTrip.divu _ _ _ _
  | and => exact RoundTrip.and _ _ _ _
  | or => exact RoundTrip.or _ _ _ _
  | xor => exact RoundTrip.xor _ _ _ _
  | andn => exact RoundTrip.andn _ _ _ _
  | shl => exact RoundTrip.shl _ _ _ _
  | shr => exact RoundTrip.shr _ _ _ _
  | sar => exact RoundTrip.sar _ _ _ _
  | rotl => exact RoundTrip.rotl _ _ _ _
  | clz => exact RoundTrip.clz _ _ _
  | popc => exact RoundTrip.popc _ _ _
  | min => exact RoundTrip.min _ _ _ _
  | max => exact RoundTrip.max _ _ _ _
  | minu => exact RoundTrip.minu _ _ _ _
  | maxu => exact RoundTrip.maxu _ _ _ _
  | sel => exact RoundTrip.sel _ _ _ _ _
  | extb => exact RoundTrip.extb _ _ _ _ _
  | insb => exact RoundTrip.insb _ _ _ _ _
  | lea => exact RoundTrip.lea _ _ _ _ _
  | ceq => exact RoundTrip.ceq _ _ _ _
  | cne => exact RoundTrip.cne _ _ _ _
  | clt => exact RoundTrip.clt _ _ _ _
  | cltu => exact RoundTrip.cltu _ _ _ _
  | cle => exact RoundTrip.cle _ _ _ _
  | cleu => exact RoundTrip.cleu _ _ _ _
  | qset => exact RoundTrip.qset _ _ _
  | qand => exact RoundTrip.qand _ _ _ _
  | qor => exact RoundTrip.qor _ _ _ _
  | qnot => exact RoundTrip.qnot _ _ _
  | crd => exact RoundTrip.crd _ _ _
  | cwr => exact RoundTrip.cwr _ _ _
  | cwrArrmode => exact RoundTrip.cwrArrmode _ _
  | cwrModulus => exact RoundTrip.cwrModulus _ _ _
  | cwrRptcard => exact RoundTrip.cwrRptcard _ _ _
  | allot => exact RoundTrip.allot _ _ _
  | shrink => exact RoundTrip.shrink _ _ _
  | movi => exact RoundTrip.movi _ _ _ _
  | movhi => exact RoundTrip.movhi _ _ _ _
  | addi => exact RoundTrip.addi _ _ _ _ _
  | ceqi => exact RoundTrip.ceqi _ _ _ _ _
  | clti => exact RoundTrip.clti _ _ _ _ _
  | ldW8 => exact RoundTrip.ldW8 _ _ _ _ _
  | ldW16 => exact RoundTrip.ldW16 _ _ _ _ _
  | ldW32 => exact RoundTrip.ldW32 _ _ _ _ _
  | ldW64 => exact RoundTrip.ldW64 _ _ _ _ _
  | stW8 => exact RoundTrip.stW8 _ _ _ _ _
  | stW16 => exact RoundTrip.stW16 _ _ _ _ _
  | stW32 => exact RoundTrip.stW32 _ _ _ _ _
  | stW64 => exact RoundTrip.stW64 _ _ _ _ _
  | ldv => exact RoundTrip.ldv _ _ _ _ _
  | stv => exact RoundTrip.stv _ _ _ _ _
  | amoAdd => exact RoundTrip.amoAdd _ _ _ _ _
  | amoMin => exact RoundTrip.amoMin _ _ _ _ _
  | amoMax => exact RoundTrip.amoMax _ _ _ _ _
  | amoAnd => exact RoundTrip.amoAnd _ _ _ _ _
  | amoOr => exact RoundTrip.amoOr _ _ _ _ _
  | amoXor => exact RoundTrip.amoXor _ _ _ _ _
  | cas => exact RoundTrip.cas _ _ _ _ _
  | fenceAcq => exact RoundTrip.fenceAcq _ _
  | fenceRel => exact RoundTrip.fenceRel _ _
  | fenceFull => exact RoundTrip.fenceFull _ _
  | pref => exact RoundTrip.pref _ _ _ _
  | vmov => exact RoundTrip.vmov _ _ _ _
  | vadd => exact RoundTrip.vadd _ _ _ _ _
  | vsub => exact RoundTrip.vsub _ _ _ _ _
  | vmul => exact RoundTrip.vmul _ _ _ _ _
  | vfma => exact RoundTrip.vfma _ _ _ _ _
  | vfms => exact RoundTrip.vfms _ _ _ _ _
  | vmin => exact RoundTrip.vmin _ _ _ _ _
  | vmax => exact RoundTrip.vmax _ _ _ _ _
  | vabs => exact RoundTrip.vabs _ _ _ _
  | vneg => exact RoundTrip.vneg _ _ _ _
  | vrcp => exact RoundTrip.vrcp _ _ _ _
  | vrsq => exact RoundTrip.vrsq _ _ _ _
  | vexp2 => exact RoundTrip.vexp2 _ _ _ _
  | vlog2 => exact RoundTrip.vlog2 _ _ _ _
  | vand => exact RoundTrip.vand _ _ _ _ _
  | vor => exact RoundTrip.vor _ _ _ _ _
  | vxor => exact RoundTrip.vxor _ _ _ _ _
  | vshl => exact RoundTrip.vshl _ _ _ _ _
  | vshr => exact RoundTrip.vshr _ _ _ _ _
  | vsar => exact RoundTrip.vsar _ _ _ _ _
  | vcmpEq => exact RoundTrip.vcmpEq _ _ _ _ _
  | vcmpNe => exact RoundTrip.vcmpNe _ _ _ _ _
  | vcmpLt => exact RoundTrip.vcmpLt _ _ _ _ _
  | vcmpLe => exact RoundTrip.vcmpLe _ _ _ _ _
  | vcmpGt => exact RoundTrip.vcmpGt _ _ _ _ _
  | vcmpGe => exact RoundTrip.vcmpGe _ _ _ _ _
  | vcmpUn => exact RoundTrip.vcmpUn _ _ _ _ _
  | vsel => exact RoundTrip.vsel _ _ _ _ _
  | vbcast => exact RoundTrip.vbcast _ _ _ _
  | vredAdd => exact RoundTrip.vredAdd _ _ _ _
  | vredMax => exact RoundTrip.vredMax _ _ _ _
  | vredMin => exact RoundTrip.vredMin _ _ _ _
  | vperm => exact RoundTrip.vperm _ _ _ _ _
  | vshuf => exact RoundTrip.vshuf _ _ _ _ _
  | vmodadd => exact RoundTrip.vmodadd _ _ _ _ _
  | vmodsub => exact RoundTrip.vmodsub _ _ _ _ _
  | vmodmul => exact RoundTrip.vmodmul _ _ _ _ _
  | vbfly => exact RoundTrip.vbfly _ _ _ _ _
  | vibfly => exact RoundTrip.vibfly _ _ _ _ _
  | vmaskAnd => exact RoundTrip.vmaskAnd _ _ _ _
  | vmaskOr => exact RoundTrip.vmaskOr _ _ _ _
  | vmaskXor => exact RoundTrip.vmaskXor _ _ _ _
  | vmaskAndn => exact RoundTrip.vmaskAndn _ _ _ _
  | vmaskNot => exact RoundTrip.vmaskNot _ _ _
  | vlane => exact RoundTrip.vlane _ _ _
  | vcvt => exact RoundTrip.vcvt _ _ _ _ _
  | vbcastI => exact RoundTrip.vbcastI _ _ _ _
  | vshlI => exact RoundTrip.vshlI _ _ _ _ _
  | vshrI => exact RoundTrip.vshrI _ _ _ _ _
  | vsarI => exact RoundTrip.vsarI _ _ _ _ _
  | xbeat => exact RoundTrip.xbeat _ _ _ _ _ _ _
  | xmode => exact RoundTrip.xmode _ _
  | xzero => exact RoundTrip.xzero _ _
  | xcks => exact RoundTrip.xcks _ _ _ _
  | xfix => exact RoundTrip.xfix _ _ _
  | xres => exact RoundTrip.xres _ _
  | xwin => exact RoundTrip.xwin _ _
  | xinj => exact RoundTrip.xinj _ _ _ _
  | lds => exact RoundTrip.lds _ _ _ _ _
  | ldsTag => exact RoundTrip.ldsTag _ _ _ _
  | sts => exact RoundTrip.sts _ _ _ _ _
  | ldss => exact RoundTrip.ldss _ _ _ _ _
  | stss => exact RoundTrip.stss _ _ _ _ _
  | bfmt => exact RoundTrip.bfmt _ _ _
  | mv => exact RoundTrip.mv _ _ _ _
  | mvi => exact RoundTrip.mvi _ _ _ _
  | fpeek => exact RoundTrip.fpeek _ _ _
  | flev => exact RoundTrip.flev _ _ _
  | lrec => exact RoundTrip.lrec _ _ _
  | cpy => exact RoundTrip.cpy _ _ _ _ _
  | cpyx => exact RoundTrip.cpyx _ _ _ _ _
  | cpyt => exact RoundTrip.cpyt _ _ _ _ _
  | cidw => exact RoundTrip.cidw _ _ _
  | cidr => exact RoundTrip.cidr _ _ _
  | cinv => exact RoundTrip.cinv _ _ _
  | chalt => exact RoundTrip.chalt _ _
  | gload => exact RoundTrip.gload _ _ _
  | gchk => exact RoundTrip.gchk _ _
  | gsel => exact RoundTrip.gsel _ _
  | gorb => exact RoundTrip.gorb _ _ _
  | gstat => exact RoundTrip.gstat _ _
  | msend => exact RoundTrip.msend _ _ _
  | mhnd => exact RoundTrip.mhnd _ _
  | wquiet => exact RoundTrip.wquiet _
  | rcstat => exact RoundTrip.rcstat _ _
  | collAr => exact RoundTrip.collAr _ _ _
  | collRs => exact RoundTrip.collRs _ _ _
  | collAg => exact RoundTrip.collAg _ _ _
  | collBc => exact RoundTrip.collBc _ _ _
  | bar => exact RoundTrip.bar _ _
  | gbar => exact RoundTrip.gbar _ _
  | ctrinc => exact RoundTrip.ctrinc _ _ _
  | ctrwait => exact RoundTrip.ctrwait _ _ _
  | launch => exact RoundTrip.launch _ _ _
  | launchn => exact RoundTrip.launchn _ _ _
  | glaunch => exact RoundTrip.glaunch _ _ _
  | fwait => exact RoundTrip.fwait _ _
  | frget => exact RoundTrip.frget _ _ _ _
  | frput => exact RoundTrip.frput _ _ _ _
  | frres => exact RoundTrip.frres _ _
  | frskip => exact RoundTrip.frskip _ _
  | frkill => exact RoundTrip.frkill _ _
  | frexc => exact RoundTrip.frexc _ _
  | wload => exact RoundTrip.wload _ _
  | kwipe => exact RoundTrip.kwipe _ _
  | fuserd => exact RoundTrip.fuserd _ _ _
  | mext => exact RoundTrip.mext _ _ _
  | dbgopen => exact RoundTrip.dbgopen _ _
  | _ => exact fun _ h => nomatch (h : false = true)

/-- An instruction that is no slot word has a zero in every field. -/
theorem Instr.fields_of_not_slot {i : Instr} (h : i.isSlot = false) : i.fields = ⟨0, 0, 0, 0, 0, 0⟩ := by
  cases i with
  | _ => cases h <;> rfl

/-- The zero word names NOP, whose class is 0 (R31, R35). -/
theorem decodeRaw_zero (x : Ext) : decodeRaw (unpackFields (packFields ⟨0, 0, 0, 0, 0, 0⟩)) x = some .nop := by
  rw [unpackFields_packFields]
  rfl

/-- What a decoded word says of its instruction: the word is its encoding, and the limits and the extension byte were checked (R62). -/
theorem decodeWord_some {x : Ext} {w : BitVec 32} {i : Instr} (h : decodeWord x w = some i) :
    decodeRaw (unpackFields w) x = some i ∧ encode i = w ∧ i.wf = true ∧ i.extAgrees x = true := by
  unfold decodeWord at h
  split at h
  · exact absurd h nofun
  · next j hj =>
    split at h
    · next hc =>
      obtain rfl : j = i := Option.some.inj h
      simp only [Bool.and_eq_true, decide_eq_true_eq] at hc
      obtain ⟨⟨hwf, hext⟩, henc⟩ := hc
      exact ⟨hj, henc, hwf, hext⟩
    · exact absurd h nofun

/-- Only a slot word decodes to an instruction: another instruction's encoding is the zero word, and that is NOP's. -/
theorem isSlot_of_decodeWord {x : Ext} {w : BitVec 32} {i : Instr} (h : decodeWord x w = some i) : i.isSlot = true := by
  obtain ⟨hraw, henc, -, -⟩ := decodeWord_some h
  by_contra hn
  have hz := Instr.fields_of_not_slot (Bool.eq_false_iff.2 hn)
  rw [← henc, encode, hz, decodeRaw_zero] at hraw
  obtain rfl : Instr.nop = i := Option.some.inj hraw
  exact hn rfl

/-- In a bundle with a header, the word in slot position 1 is decoded beside the header's first byte (R32, R33). -/
theorem decodeBundle_word_one {w0 : BitVec 32} (h : isHeader w0 = true) (w1 w2 w3 : BitVec 32) :
    (decodeBundle w0 w1 w2 w3).word 1 = decodeWord (some (w0.extractLsb' 0 8)) w1 := by
  simp only [decodeBundle, h, if_true]
  rfl

/-- Settles O58: the lemmas per constructor give the first part; a decoded word is the encoding it was checked against. -/
theorem roundTrip : Obligations.RoundTrip := by
  refine ⟨fun i x hs hw hx => RoundTrip.statement i x hs hw hx, fun w x i h => ?_, fun i b w0 w1 w2 w3 hb hh hi => ?_⟩
  · obtain ⟨-, henc, hwf, hext⟩ := decodeWord_some h
    exact ⟨henc, hwf, hext, isSlot_of_decodeWord h⟩
  · subst hb
    rw [decodeBundle_word_one hh] at hi
    obtain ⟨-, henc, -, hext⟩ := decodeWord_some hi
    exact ⟨henc, hext⟩

end Sys2Proof.Laws
end

section
/-! SUPPORT. What an operation word may answer before its effect: the faults of its encoding, of an absent unit and of the register
allotment (R36, R37, R48, R106). -/

namespace Sys2Proof.Machine

/-- A register code at or above the allotment keeps an operation from its effect, whatever its guard reads (R48, R106). -/
theorem sop_overAllot {i : Instr} {s : State} (bad gone : Bool) (h : (s.overAllot i).isSome = true) (k : State → Out3) :
    sop i bad gone s k = s.illegal ∨ sop i bad gone s k = s.absent ∨ ∃ w0 w1, sop i bad gone s k = s.raise fREGALLOT w0 w1 := by
  obtain ⟨⟨c, v⟩, hcv⟩ := Option.isSome_iff_exists.1 h
  unfold sop
  split
  · exact Or.inl rfl
  · split
    · exact Or.inr (Or.inl rfl)
    · exact Or.inr (Or.inr ⟨_, _, by rw [hcv]⟩)

/-- What an operation whose guard reads false can do: nothing, or raise one of the three encoding faults (R37). -/
theorem sop_guard_false {i : Instr} {s : State} (bad gone : Bool) (h : s.guardOn i = false) (k : State → Out3) :
    sop i bad gone s k = .next s ∨
      (sop i bad gone s k = s.illegal ∨ sop i bad gone s k = s.absent ∨ ∃ w0 w1, sop i bad gone s k = s.raise fREGALLOT w0 w1) := by
  rcases sop_cases i bad gone s k with hi | ha | ⟨w, hr⟩ | hn | ⟨hruns, -⟩
  · exact Or.inr (Or.inl hi)
  · exact Or.inr (Or.inr (Or.inl ha))
  · exact Or.inr (Or.inr (Or.inr ⟨w, s.allotDetail, hr⟩))
  · exact Or.inl hn
  · obtain ⟨-, -, -, -, hg⟩ := State.runs_iff.1 hruns
    exact absurd hg (by simp [h])

/-- The outcome `o` of operation `i` is that of the common frame, or a fault that FRGET or FRPUT raises for the register that its f1
names, where the encoding keeps its limits and the class has room (R367). -/
def Framed (i : Instr) (s : State) (o : Out3) : Prop :=
  (∃ bad gone k, o = sop i bad gone s k) ∨
  (i.wf = true ∧ s.iss.over i = false ∧ (o = s.illegal ∨ ∃ w0 w1, o = s.raise fREGALLOT w0 w1))

theorem sop_framed (i : Instr) (bad gone : Bool) (s : State) (k : State → Out3) : Framed i s (sop i bad gone s k) :=
  Or.inl ⟨bad, gone, k, rfl⟩

-- each shared operation is the common frame with an effect of its own
theorem scalar1_framed (i : Instr) (d : Code) (s : State) (f : State → Word) :
    Framed i s (scalar1 i d s f) := sop_framed ..
theorem scalar3_framed (i : Instr) (d : Code) (s : State) (f : State → Word) :
    Framed i s (scalar3 i d s f) := sop_framed ..
theorem divide_framed (i : Instr) (d a b : Code) (s : State) (q : Word → Word → Word × Causes) :
    Framed i s (divide i d a b s q) := sop_framed ..
theorem compare_framed (i : Instr) (c : Code) (s : State) (f : Word → Word → Bool) (x y : State → Word) :
    Framed i s (compare i c s f x y) := sop_framed ..
theorem guardLogic_framed (i : Instr) (c : Code) (s : State) (f : State → Bool) :
    Framed i s (guardLogic i c s f) := sop_framed ..
theorem loadOp_framed (i : Instr) (d a o : Code) (x : Ext) (z : Nat) (vec : Bool) (s : State) :
    Framed i s (loadOp i d a o x z vec s) := sop_framed ..
theorem storeOp_framed (i : Instr) (a o : Code) (z : Nat) (val : State → Vec) (s : State) :
    Framed i s (storeOp i a o z val s) := sop_framed ..
theorem amoInstr_framed (i : Instr) (op : Nat) (d a b : Code) (x : Ext) (s : State) :
    Framed i s (amoInstr i op d a b x s) := sop_framed ..
theorem vlanes_framed (i : Instr) (lat : Nat) (d : Code) (x : Ext) (s : State) (f : State → Nat → Nat × Causes) :
    Framed i s (vlanes i lat d x s f) := sop_framed ..
theorem vall_framed (i : Instr) (lat : Nat) (d : Code) (s : State) (f : State → Nat → Nat) :
    Framed i s (vall i lat d s f) := sop_framed ..
theorem vbits_framed (i : Instr) (d : Code) (x : Ext) (s : State) (f : State → Nat → BitVec 32) :
    Framed i s (vbits i d x s f) := vlanes_framed ..
theorem varith_framed (i : Instr) (lat : Nat) (d a b : Code) (x : Ext) (s : State) (f : Nat → Num → Num → Num → Num) (three : Bool) :
    Framed i s (varith i lat d a b x s f three) := vlanes_framed ..
theorem vminmax_framed (i : Instr) (mx : Bool) (d a b : Code) (x : Ext) (s : State) :
    Framed i s (vminmax i mx d a b x s) := vlanes_framed ..
theorem vfunc_framed (i : Instr) (d a : Code) (x : Ext) (s : State) (f : Num → Num × Bool) :
    Framed i s (vfunc i d a x s f) := vlanes_framed ..
theorem vcmp_framed (i : Instr) (cc : Nat) (m a b : Code) (x : Ext) (s : State) :
    Framed i s (vcmp i cc m a b x s) := sop_framed ..
theorem vredMM_framed (i : Instr) (mx : Bool) (d a : Code) (x : Ext) (s : State) :
    Framed i s (vredMM i mx d a x s) := sop_framed ..
theorem vresidue_framed (i : Instr) (lat : Nat) (d a b : Code) (x : Ext) (s : State) (f : Nat → Nat → Nat → Nat) :
    Framed i s (vresidue i lat d a b x s f) := sop_framed ..
theorem vbutterfly_framed (i : Instr) (d a b : Code) (x : Ext) (s : State) (f : Nat → Nat → Nat → Nat → Nat × Nat) :
    Framed i s (vbutterfly i d a b x s f) := sop_framed ..
theorem vmaskOp_framed (i : Instr) (m : Code) (s : State) (f : State → Mask) :
    Framed i s (vmaskOp i m s f) := sop_framed ..
theorem xop_framed (i : Instr) (bad gone : Bool) (rows : List Nat) (s : State) (k : State → Out3) :
    Framed i s (xop i bad gone rows s k) := sop_framed ..
theorem copyOp_framed (i : Instr) (l m : Code) (timed x : Bool) (s : State) (k : CRec → CRec → State → Out3) :
    Framed i s (copyOp i l m timed x s k) := sop_framed ..
theorem trackedOp_framed (i : Instr) (d l m : Code) (e : Ext) (x : Bool) (s : State) :
    Framed i s (trackedOp i d l m e x s) := copyOp_framed ..
theorem gop_framed (i : Instr) (bad : Bool) (s : State) (k : State → Out3) :
    Framed i s (gop i bad s k) := sop_framed ..
theorem launchOp_framed (i : Instr) (a : Code) (gang : Bool) (s : State) (k : LaunchRec → State → Out3) :
    Framed i s (launchOp i a gang s k) := sop_framed ..
theorem collOp_framed (i : Instr) (kind : Nat) (d a : Code) (s : State) :
    Framed i s (collOp i kind d a s) := sop_framed ..
theorem frOp_framed (i : Instr) (a : Code) (right : Pass → Bool) (s : State) (k : Pass → State → Out3) :
    Framed i s (frOp i a right s k) := sop_framed ..

/-- The check of the register in f1 goes before the common frame, and leaves it as it is or raises REG_ALLOT (R367). -/
theorem f1Op_framed (i : Instr) (c b : Code) (s : State) (k : State → Out3) (hk : Framed i s (k s)) : Framed i s (f1Op i c b s k) := by
  unfold f1Op
  split
  · exact hk
  · next hc =>
    simp only [Bool.or_eq_true, not_or, Bool.not_eq_true', Bool.not_eq_true, Bool.not_eq_false] at hc
    obtain ⟨⟨⟨hwf, hover⟩, -⟩, -⟩ := hc
    split
    · exact Or.inr ⟨hwf, hover, Or.inr ⟨_, _, rfl⟩⟩
    · exact hk

theorem execFrput_framed (g : Guard) (c a b : Code) (s : State) : Framed (.frput g c a b) s (execFrput g c a b s) := by
  unfold execFrput
  dsimp only
  split
  · next hc =>
    simp only [Bool.and_eq_true, Bool.not_eq_true'] at hc
    obtain ⟨⟨⟨hwf, -⟩, hover⟩, -⟩ := hc
    exact Or.inr ⟨hwf, hover, Or.inl rfl⟩
  · exact f1Op_framed _ _ _ _ _ (frOp_framed ..)

/-- Every operation word but a NOP is executed within the common frame (R48). -/
theorem exec_framed {i : Instr} (hs : i.isSlot = true) (hn : i ≠ .nop) (s : State) : Framed i s (exec i s) := by
  cases i with dsimp only [exec]
  | nop => exact absurd rfl hn
  | prep | prepr | br | brl | ret | loopr | lbrk | yield | done | trap | waitc | defer | defdr | defct | tcur | ctxid | prio
  | bkpt | cwr | cwrArrmode | cwrModulus | cwrRptcard | allot | shrink | cas | fenceAcq | fenceRel | fenceFull | pref
  | vredAdd | vcvt | xwin | xinj | lds | ldsTag | sts | ldss | stss | bfmt | fpeek | flev | cidw | cidr | cinv | chalt
  | msend | mhnd | wquiet | rcstat | bar | gbar | ctrinc | ctrwait | fwait | wload | kwipe | fuserd | mext | dbgopen => exact sop_framed ..
  | mov | add | sub | and | or | xor | andn | shl | shr | sar | rotl | clz | popc | min | max | minu | maxu | sel | extb
  | insb | lea | crd | movi | movhi | addi => exact scalar1_framed ..
  | mul | mulh | mulhu => exact scalar3_framed ..
  | divs | divu => exact divide_framed ..
  | ceq | cne | clt | cltu | cle | cleu | ceqi | clti => exact compare_framed ..
  | qset | qand | qor | qnot => exact guardLogic_framed ..
  | ldW8 | ldW16 | ldW32 | ldW64 | ldv => exact loadOp_framed ..
  | stW8 | stW16 | stW32 | stW64 | stv => exact storeOp_framed ..
  | amoAdd | amoMin | amoMax | amoAnd | amoOr | amoXor => exact amoInstr_framed ..
  | vmov | vabs | vneg | vbcast | vperm | vshuf | vlane => exact vlanes_framed ..
  | vsel | vbcastI => exact vall_framed ..
  | vand | vor | vxor | vshl | vshr | vsar | vshlI | vshrI | vsarI => exact vbits_framed ..
  | vadd | vsub | vmul | vfma | vfms => exact varith_framed ..
  | vmin | vmax => exact vminmax_framed ..
  | vrcp | vrsq | vexp2 | vlog2 => exact vfunc_framed ..
  | vcmpEq | vcmpNe | vcmpLt | vcmpLe | vcmpGt | vcmpGe | vcmpUn => exact vcmp_framed ..
  | vredMax | vredMin => exact vredMM_framed ..
  | vmodadd | vmodsub | vmodmul => exact vresidue_framed ..
  | vbfly | vibfly => exact vbutterfly_framed ..
  | vmaskAnd | vmaskOr | vmaskXor | vmaskAndn | vmaskNot => exact vmaskOp_framed ..
  | xbeat | xmode | xzero | xcks | xfix | xres => exact xop_framed ..
  | cpyt => exact copyOp_framed ..
  | cpy | cpyx => exact trackedOp_framed ..
  | gload | gchk | gsel | gorb | gstat => exact gop_framed ..
  | launch | launchn | glaunch => exact launchOp_framed ..
  | collAr | collRs | collAg | collBc => exact collOp_framed ..
  | frres | frskip | frkill | frexc => exact frOp_framed ..
  | loop => unfold execLoop; exact sop_framed ..
  | loopi => unfold execLoopi; exact sop_framed ..
  | mv => unfold execMv; exact sop_framed ..
  | mvi => unfold execMvi; exact sop_framed ..
  | lrec => unfold execLrec; exact sop_framed ..
  | frget => exact f1Op_framed _ _ _ _ _ (frOp_framed ..)
  | frput => exact execFrput_framed ..
  | _ => exact nomatch (hs : false = true)

/-- Settles O60: every operation word goes through the common frame, which checks its encoding first, whatever the guard reads. -/
theorem encodingFaults : Obligations.EncodingFaults := by
  intro s i hs hn
  rcases exec_framed hs hn s with ⟨bad, gone, k, h⟩ | ⟨hwf, hover, h⟩
  · dsimp only
    rw [h]
    exact ⟨fun hl => sop_illegal gone (hl.imp_right Or.inl) k, fun hg => sop_guard_false bad gone hg k, fun ha => sop_overAllot bad gone ha k⟩
  · have fault := h.imp_right (fun hr => Or.inr hr : _ → exec i s = s.absent ∨ _)
    refine ⟨fun hl => ?_, fun _ => Or.inr fault, fun _ => fault⟩
    rcases hl with hl | hl
    · exact absurd hwf (by simp [hl])
    · exact absurd hover (by simp [hl])

end Sys2Proof.Machine
end

section
/-! SUPPORT. Words written out from the opcode tables, and what the decoder reads in them (R30, R33, R35, R62). -/

namespace Sys2Proof.Laws

/-- Settles O57: the decoder computes, so each word is read by evaluation. -/
theorem decodeWords : Obligations.DecodeWords := by
  unfold Obligations.DecodeWords
  decide

end Sys2Proof.Laws
end

section
/-! SUPPORT. The step at the issue turn of a core whose context may issue a new bundle (R29, R45, R46, R48). -/

namespace Sys2Proof.Machine

/-- The turn of a core that may issue a new bundle, taken apart (R46, R53, R132, R332, R410). -/
theorem State.atIssue_iff {s : State} {c x : Nat} : s.atIssue c x = true ↔
    s.power = true ∧ s.ready = true ∧ s.turn.head? = some (.issue c) ∧ s.shut c = false ∧ s.partnerHolds c = false ∧
    (s.core c).held = false ∧ (s.core c).run = some x ∧ (s.core c).first = none ∧ (s.ctx c x).holdsSlots = true ∧
    (s.ctx c x).st.isReady = true ∧ (s.ctx c x).stall = 0 ∧ (s.ctx c x).spilled = false ∧ (s.core c).preempts x = false ∧
    (s.ctx c x).skips = false ∧ (s.ctx c x).deferred = [] := by
  simp only [State.atIssue, Bool.and_eq_true, Bool.not_eq_true', decide_eq_true_eq, Option.isNone_iff_eq_none, and_assoc]

/-- A bundle that nothing holds or splits is read as it stands. -/
theorem State.viewOf_fresh {s : State} {c : Nat} (h : (s.core c).first = none) (x : Nat) : s.viewOf c x = s := by
  simp only [State.viewOf, h]

/-- A new bundle of one part, which waits for no load, issues: its operations, then its end (R45, R46, R48). -/
theorem State.issueWords_fresh {s : State} {c x addr : Nat} {ws : List (BitVec 32)} (hfirst : (s.core c).first = none)
    (hdef : (s.ctx c x).deferred = []) (hwait : (s.begin c x addr ws).bundleWaits (bundleOf ws) = false)
    (hparts : partsOf (s.core c).seat.toNat (bundleOf ws).ops ≤ 1) :
    s.issueWords c x addr ws =
      thenNext (runOps (bundleOf ws).slots ((s.modCtx c x fun y => { y with snapped := false }).begin c x addr ws))
        fun t => (s.modCtx c x fun y => { y with snapped := false }).close t c x (bundleOf ws) := by
  have hpre : ((s.modCtx c x fun y => { y with snapped := false }).core c).first = none := by
    simpa [State.modCtx] using hfirst
  have hcur : (((s.modCtx c x fun y => { y with snapped := false }).begin c x addr ws).cur).deferred = [] := by
    change ((s.modCtx c x fun y => { y with snapped := false }).ctx c x).deferred = []
    simpa using hdef
  unfold State.issueWords
  simp only [hfirst, Option.isNone_none, State.viewOf_fresh hfirst, State.viewOf_fresh hpre, hwait, Bool.and_false, if_true, Bool.true_and,
    Bool.false_eq_true, if_false, decide_eq_true_eq, Nat.not_lt.2 hparts, hcur, ne_eq, not_true_eq_false]

/-- At the issue turn of a core that may issue a new bundle, the core goes on to its next bundle. -/
theorem State.issueTurn_atIssue {s : State} {c x : Nat} (h : s.atIssue c x = true) :
    ({ s with turn := s.turn.tail } : State).issueTurn c = ({ s with turn := s.turn.tail } : State).issueNext c x := by
  obtain ⟨-, -, -, hshut, hpart, hheld, hrun, hfirst, -, hready, hstall, hspill, hpre, hskip, -⟩ := State.atIssue_iff.1 h
  have hshut' : ({ s with turn := s.turn.tail } : State).shut c = false := hshut
  have hpart' : ({ s with turn := s.turn.tail } : State).partnerHolds c = false := hpart
  have hcore : ({ s with turn := s.turn.tail } : State).core c = s.core c := rfl
  have hready' : ((s.core c).ctx x).st.isReady = true := hready
  have hstall' : ((s.core c).ctx x).stall = 0 := hstall
  have hspill' : ((s.core c).ctx x).spilled = false := hspill
  have hskip' : ((s.core c).ctx x).skips = false := hskip
  simp [State.issueTurn, hshut', hpart', hcore, hheld, hrun, hfirst, hready', hstall', hspill', hpre, hskip']

/-- The step at such a turn, where the bundle can be fetched: its operations, its end, and what follows every step (R29, R46). -/
theorem State.step_atIssue {s : State} {c x : Nat} {ws : List (BitVec 32)} (h : s.atIssue c x = true)
    (hclear : ({ s with turn := s.turn.tail } : State).fetchClear c x (s.ctx c x).pc = true)
    (hfetch : ({ s with turn := s.turn.tail } : State).fetch c x (s.ctx c x).pc = .ok ws)
    (hwait : (({ s with turn := s.turn.tail } : State).begin c x (s.ctx c x).pc ws).bundleWaits (bundleOf ws) = false)
    (hparts : partsOf (s.core c).seat.toNat (bundleOf ws).ops ≤ 1) :
    step s = thenNext (thenNext (runOps (bundleOf ws).slots (s.issued c x ws)) fun t =>
      (({ s with turn := s.turn.tail } : State).modCtx c x fun y => { y with snapped := false }).close t c x (bundleOf ws)) State.settled := by
  obtain ⟨hpower, hup, hturn, -, -, -, -, hfirst, -, -, -, -, -, -, hdef⟩ := State.atIssue_iff.1 h
  have hturn' : s.turn = .issue c :: s.turn.tail := by
    cases hs : s.turn with
    | nil => simp [hs] at hturn
    | cons a l => simpa [hs] using hturn
  have hnext : ({ s with turn := s.turn.tail } : State).issueNext c x =
      ({ s with turn := s.turn.tail } : State).issueWords c x (s.ctx c x).pc ws := by
    have hfirst' : (({ s with turn := s.turn.tail } : State).core c).first = none := hfirst
    have hpc : (({ s with turn := s.turn.tail } : State).ctx c x).pc = (s.ctx c x).pc := rfl
    simp only [State.issueNext, hfirst', hpc, hclear, hfetch, Bool.not_true, Bool.false_eq_true, if_false]
  have hrun : step s = thenNext (({ s with turn := s.turn.tail } : State).issueTurn c) State.settled := by
    unfold step State.run
    rw [hturn']
    simp only [hpower, hup, Bool.not_true, Bool.or_self, Bool.false_eq_true, if_false, List.tail_cons]
  rw [hrun, State.issueTurn_atIssue h, hnext, State.issueWords_fresh (s := { s with turn := s.turn.tail }) hfirst hdef hwait hparts]
  rfl

/-- A word that decodes to an instruction, before three zero words, makes a bundle of that instruction and three NOPs (R35). -/
theorem slots_one_word {w : BitVec 32} {i : Instr} (hh : isHeader w = false) (hw : decodeWord none w = some i) :
    (bundleOf [w, 0, 0, 0]).slots = [(0, i), (1, .nop), (2, .nop), (3, .nop)] := by
  have h0 : decodeWord none 0#32 = some .nop := by decide
  simp [bundleOf, decodeBundle, hh, hw, h0, Bundle.slots, Bundle.places, Bundle.badHeader, Bundle.word]

/-- NOPs do nothing but stand in the bundle's list of operations (R35). -/
theorem runOps_nop_cons (p : Nat) (rest : List (Nat × Instr)) {s : State} (h : s.iss.held = false) :
    runOps ((p, .nop) :: rest) s = runOps rest { s with iss := { s.iss with pos := p, ops := s.iss.ops ++ [.nop] } } := by
  have hx : exec .nop (s.modIss fun j => { j with pos := p }) = .next (s.modIss fun j => { j with pos := p }) := rfl
  simp only [runOps, hx]
  rw [if_neg (by simp [State.modIss, h])]
  rfl

/-- Settles O56: the step fetches and issues the bundle; one instruction with three NOPs is that instruction's execution. -/
theorem stepRunsDecoded : Obligations.StepRunsDecoded := by
  intro s c x ws
  dsimp only
  intro hat hclear hfetch hwait hparts
  have hstep := State.step_atIssue hat hclear hfetch hwait hparts
  have hrun : ∀ t, runOps (bundleOf ws).slots (s.issued c x ws) = .next t → step s =
      .next ((({ s with turn := s.turn.tail } : State).modCtx c x fun y => { y with snapped := false }).close t c x (bundleOf ws)).settled := by
    intro t ht
    rw [hstep, ht]
    rfl
  refine ⟨hrun, fun w i t hws hh hw hx => ?_⟩
  subst hws
  have hslots := slots_one_word hh hw
  have hfirst : exec i ((s.issued c x [w, 0, 0, 0]).modIss fun j => { j with pos := 0 }) = .next t := hx
  constructor
  · intro hheld
    refine hrun _ ?_
    rw [hslots, runOps, hfirst]
    dsimp only
    rw [if_neg (by simp [State.modIss, hheld]), runOps_nop_cons _ _ (by simpa [State.modIss] using hheld),
      runOps_nop_cons _ _ (by simpa [State.modIss] using hheld), runOps_nop_cons _ _ (by simpa [State.modIss] using hheld)]
    simp [runOps, State.modIss]
  · intro hheld
    refine hrun _ ?_
    rw [hslots, runOps, hfirst]
    dsimp only
    rw [if_pos (by simp [State.modIss, hheld])]
    rfl

end Sys2Proof.Machine
end

section
/-! SUPPORT. The landing of results (R44, R45, R82, R115): the order in which they land, what one landing changes, what it leaves. -/

namespace Sys2Proof.Machine

/-- A quantity that no step of a fold changes is the same at its end. -/
theorem foldl_keeps {σ τ α : Type} (g : σ → α) (step : σ → τ → σ) (l : List τ) (h : ∀ f ∈ l, ∀ y, g (step y f) = g y) (y : σ) :
    g (l.foldl step y) = g y := by
  induction l generalizing y with
  | nil => rfl
  | cons f l ih =>
    rw [List.foldl_cons, ih fun e he => h e (List.mem_cons_of_mem _ he), h f List.mem_cons_self]

-- ## The order of landing (R45)

theorem byDue_perm (f : Flight) (l : List Flight) : (byDue f l).Perm (f :: l) := by
  induction l with
  | nil => exact List.Perm.refl _
  | cons g l ih =>
    simp only [byDue]
    split
    · exact (ih.cons g).trans (List.Perm.swap f g l)
    · exact List.Perm.refl _

theorem byDue_sorted (f : Flight) {l : List Flight} (h : l.Pairwise fun a b => a.due ≤ b.due) :
    (byDue f l).Pairwise fun a b => a.due ≤ b.due := by
  induction l with
  | nil => exact List.pairwise_singleton _ f
  | cons g l ih =>
    obtain ⟨hg, hl⟩ := List.pairwise_cons.1 h
    simp only [byDue]
    split
    · next hgf =>
      refine List.pairwise_cons.2 ⟨fun e he => ?_, ih hl⟩
      rcases List.mem_cons.1 ((byDue_perm f l).mem_iff.1 he) with rfl | he
      · exact hgf
      · exact hg e he
    · next hgf =>
      refine List.pairwise_cons.2 ⟨fun e he => ?_, h⟩
      rcases List.mem_cons.1 he with rfl | he
      · omega
      · exact Nat.le_trans (by omega) (hg e he)

/-- The results of a context that are due, in the order in which they land (R45). -/
def Ctx.dueInOrder (x : Ctx) : List Flight := (x.flight.filter x.lands).foldl (fun l f => byDue f l) []

theorem foldl_byDue_perm (fs acc : List Flight) : (fs.foldl (fun l f => byDue f l) acc).Perm (acc ++ fs) := by
  induction fs generalizing acc with
  | nil => simp
  | cons f fs ih => exact (ih _).trans (((byDue_perm f acc).append_right fs).trans List.perm_middle.symm)

theorem foldl_byDue_sorted (fs : List Flight) {acc : List Flight} (h : acc.Pairwise fun a b => a.due ≤ b.due) :
    (fs.foldl (fun l f => byDue f l) acc).Pairwise fun a b => a.due ≤ b.due := by
  induction fs generalizing acc with
  | nil => exact h
  | cons f fs ih => exact ih (byDue_sorted f h)

theorem Ctx.mem_dueInOrder {x : Ctx} {f : Flight} : f ∈ x.dueInOrder ↔ f ∈ x.flight.filter x.lands := by
  exact (foldl_byDue_perm (x.flight.filter x.lands) []).mem_iff

theorem Ctx.dueInOrder_sorted (x : Ctx) : x.dueInOrder.Pairwise fun a b => a.due ≤ b.due :=
  foldl_byDue_sorted _ List.Pairwise.nil

theorem mem_byIssue {f g : Flight} {l : List Flight} (h : g ∈ byIssue f l) : g = f ∨ g ∈ l := by
  induction l with
  | nil => exact Or.inl (List.mem_singleton.1 h)
  | cons e l ih =>
    simp only [byIssue] at h
    split at h
    · rcases List.mem_cons.1 h with h | h
      · exact Or.inr (h ▸ List.mem_cons_self)
      · exact (ih h).imp_right (List.mem_cons_of_mem _)
    · exact List.mem_cons.1 h

theorem mem_foldl_byIssue {g : Flight} {fs acc : List Flight} (h : g ∈ fs.foldl (fun l f => byIssue f l) acc) : g ∈ acc ∨ g ∈ fs := by
  induction fs generalizing acc with
  | nil => exact Or.inl h
  | cons f fs ih =>
    rcases ih h with h | h
    · rcases mem_byIssue h with rfl | h
      · exact Or.inr List.mem_cons_self
      · exact Or.inl h
    · exact Or.inr (List.mem_cons_of_mem _ h)

-- ## What one landing changes (R44)

theorem Ctx.land_sAt (x : Ctx) {f : Flight} {n : Nat} (h : ∀ v, f.eff ≠ .sreg (some n) v) : (x.land f).sAt n = x.sAt n := by
  obtain ⟨due, iss, pos, addr, causes, eff⟩ := f
  cases eff with
  | sreg slot v =>
    cases slot with
    | none => rfl
    | some m => exact NMap.getD_set_other _ (by rintro rfl; exact h v rfl) _ _
  | vreg slot v => cases slot <;> rfl
  | mask m v => simp only [Ctx.land]; split <;> rfl
  | _ => rfl

theorem Ctx.land_sAt_sreg (x : Ctx) {f : Flight} {n : Nat} {v : Word} (h : f.eff = .sreg (some n) v) : (x.land f).sAt n = v := by
  simp [Ctx.land, h, Ctx.latchIn, Ctx.sAt]

theorem Ctx.land_vAt (x : Ctx) {f : Flight} {n : Nat} (h : ∀ v, f.eff ≠ .vreg (some n) v ∧ f.eff ≠ .vplain n v) :
    (x.land f).vAt n = x.vAt n := by
  obtain ⟨due, iss, pos, addr, causes, eff⟩ := f
  cases eff with
  | sreg slot v => cases slot <;> rfl
  | vreg slot v =>
    cases slot with
    | none => rfl
    | some m => exact NMap.getD_set_other _ (by rintro rfl; exact (h v).1 rfl) _ _
  | vplain m v => exact NMap.getD_set_other _ (by rintro rfl; exact (h v).2 rfl) _ _
  | mask m v => simp only [Ctx.land]; split <;> rfl
  | _ => rfl

theorem Ctx.land_vAt_vreg (x : Ctx) {f : Flight} {n : Nat} {v : Vec} (h : f.eff = .vreg (some n) v) : (x.land f).vAt n = v := by
  simp [Ctx.land, h, Ctx.latchIn, Ctx.vAt]

theorem Ctx.land_maskHeld (x : Ctx) {f : Flight} {m : Nat} (h : ∀ v, f.eff ≠ .mask m v) : (x.land f).maskHeld m = x.maskHeld m := by
  obtain ⟨due, iss, pos, addr, causes, eff⟩ := f
  cases eff with
  | sreg slot _ | vreg slot _ => cases slot <;> rfl
  | mask k v =>
    have hm : m ≠ k := fun e => h v (e ▸ rfl)
    simp only [Ctx.land]
    split
    · rfl
    · simp only [Ctx.maskHeld, NMap.getD_set_other _ hm]
  | _ => rfl

/-- The bit that a write of guard `n` sets or clears is no other guard's (R108). -/
theorem getLsbD_guardBit {n q : Nat} (h : q ≠ n) : (BitVec.ofNat 16 (2 ^ n)).getLsbD q = false := by
  rw [BitVec.getLsbD_ofNat, Nat.testBit_two_pow_of_ne h.symm, Bool.and_false]

theorem Ctx.land_guardAt (x : Ctx) {f : Flight} {q : Nat} (hq : q < 16) (h : ∀ v, f.eff ≠ .guardReg q v) :
    (x.land f).guardAt q = x.guardAt q := by
  obtain ⟨due, iss, pos, addr, causes, eff⟩ := f
  cases eff with
  | sreg slot _ | vreg slot _ => cases slot <;> rfl
  | mask m v => simp only [Ctx.land]; split <;> rfl
  | guardReg n v =>
    have hb := getLsbD_guardBit (n := n) (q := q) fun e => h v (e ▸ rfl)
    cases v
    · simp only [Ctx.land, Ctx.guardAt, Bool.false_eq_true, if_false, BitVec.getLsbD_and, BitVec.getLsbD_not, hb, hq, decide_true,
        Bool.not_false, Bool.and_true]
    · simp only [Ctx.land, Ctx.guardAt, if_true, BitVec.getLsbD_or, hb, Bool.or_false]
  | _ => rfl

theorem Ctx.land_cond (x : Ctx) {f : Flight} {j : Nat} (h : ∀ v r, f.eff ≠ .cond j v r) :
    NMap.getD (x.land f).cond j (false, 0) = NMap.getD x.cond j (false, 0) := by
  obtain ⟨due, iss, pos, addr, causes, eff⟩ := f
  cases eff with
  | sreg slot _ | vreg slot _ => cases slot <;> rfl
  | mask m v => simp only [Ctx.land]; split <;> rfl
  | cond k c r => exact NMap.getD_set_other _ (by rintro rfl; exact h c r rfl) _ _
  | _ => rfl

/-- What the landing of a result leaves as it is. -/
def Ctx.standing (x : Ctx) := (x.flight, x.cards, x.pc, x.loops, x.allocS, x.allocV, x.clk, x.st)

theorem Ctx.land_standing (x : Ctx) (f : Flight) : (x.land f).standing = x.standing := by
  obtain ⟨due, iss, pos, addr, causes, eff⟩ := f
  cases eff with
  | sreg slot _ | vreg slot _ => cases slot <;> rfl
  | mask m v => simp only [Ctx.land]; split <;> rfl
  | _ => rfl

-- ## Report cards (R82, R115)

theorem NMap.get?_erase_other {α : Type} (m : NMap α) {k j : Nat} (h : j ≠ k) : NMap.get? (NMap.erase m k) j = NMap.get? m j := by
  induction m with
  | nil => rfl
  | cons p m ih =>
    obtain ⟨i, u⟩ := p
    simp only [NMap.erase]
    split
    · next hi => rw [ih, NMap.get?, if_neg (by omega)]
    · simp only [NMap.get?, ih]

theorem Ctx.landClear_of {α : Type} (g : Ctx → α) (hg : ∀ (x : Ctx) cs, g { x with cards := cs } = g x) (x : Ctx) (f : Flight) :
    g (x.landClear f) = g x := by
  unfold Ctx.landClear
  split
  · exact hg _ _
  · rfl

theorem Ctx.landClear_card (x : Ctx) {f : Flight} {n : Nat} (h : f.eff ≠ .clearCard n) :
    NMap.getD (x.landClear f).cards n {} = NMap.getD x.cards n {} := by
  unfold Ctx.landClear
  split
  · next m he =>
    have hm : n ≠ m := fun e => h (e ▸ he)
    simp only [NMap.getD, NMap.get?_erase_other _ hm]
  · rfl

theorem Ctx.record_of {α : Type} (g : Ctx → α) (hg : ∀ (x : Ctx) cs, g { x with cards := cs } = g x) (x : Ctx) (p a : Nat) (c : Causes) :
    g (x.record p a c) = g x := by
  unfold Ctx.record
  split
  · rfl
  · exact hg _ _

theorem Ctx.record_card (x : Ctx) {p n : Nat} (a : Nat) {c : Causes} (h : p = n → c = 0) :
    NMap.getD (x.record p a c).cards n {} = NMap.getD x.cards n {} := by
  unfold Ctx.record
  split
  · rfl
  · next hc => exact NMap.getD_set_other _ (fun e => hc (h e.symm)) _ _

theorem Ctx.recordAll_card (x : Ctx) {fs : List Flight} {n : Nat} (h : ∀ f ∈ fs, f.pos = n → f.causes = 0) :
    NMap.getD (x.recordAll fs).cards n {} = NMap.getD x.cards n {} := by
  refine foldl_keeps (fun y : Ctx => NMap.getD y.cards n {}) _ _ (fun f hf y => ?_) x
  have hf' : f ∈ fs := (mem_foldl_byIssue hf).resolve_left List.not_mem_nil
  exact Ctx.record_card y f.addr (h f hf')

-- ## All results that are due

/-- The context once its due results have landed, in core cycle `t` of its core, but for what DEFER appends (R44, R45, R82, R115). -/
def Ctx.landed (x : Ctx) (t : Nat) : Ctx :=
  x.dueInOrder.foldl Ctx.land ((x.dueInOrder.foldl Ctx.landClear
    { x with flight := x.flight.filter fun f => !x.lands f, recs := x.recs.filter fun f => !decide (f.due ≤ t) }).recordAll
      (x.dueInOrder ++ x.recs.filter fun f => decide (f.due ≤ t)))

/-- What depends neither on what is in flight nor on the report cards, and no due result changes, stands. -/
theorem Ctx.landed_of {α : Type} (g : Ctx → α) (hg : ∀ (y : Ctx) fl rs cs, g { y with flight := fl, recs := rs, cards := cs } = g y)
    (x : Ctx) (t : Nat) (h : ∀ f ∈ x.flight.filter x.lands, ∀ y : Ctx, g (y.land f) = g y) : g (x.landed t) = g x := by
  have hc : ∀ (y : Ctx) cs, g { y with cards := cs } = g y := fun y cs => hg y y.flight y.recs cs
  unfold Ctx.landed Ctx.recordAll
  rw [foldl_keeps g Ctx.land _ fun f hf => h f (Ctx.mem_dueInOrder.1 hf), foldl_keeps g _ _ fun f _ y => Ctx.record_of g hc y _ _ _,
    foldl_keeps g Ctx.landClear _ fun f _ y => Ctx.landClear_of g hc y f]
  exact hg x _ _ x.cards

theorem Ctx.landed_flight (x : Ctx) (t : Nat) : (x.landed t).flight = x.flight.filter fun f => !x.lands f := by
  have hl : ∀ (y : Ctx) f, (y.land f).flight = y.flight := fun y f => congrArg Prod.fst (Ctx.land_standing y f)
  unfold Ctx.landed Ctx.recordAll
  rw [foldl_keeps Ctx.flight Ctx.land _ fun f _ y => hl y f, foldl_keeps Ctx.flight _ _ fun f _ y => Ctx.record_of _ (fun _ _ => rfl) y _ _ _,
    foldl_keeps Ctx.flight Ctx.landClear _ fun f _ y => Ctx.landClear_of _ (fun _ _ => rfl) y f]

/-- A report card that nothing clears and no due record brings a cause to stands (R82, R115). -/
theorem Ctx.landed_card (x : Ctx) (t : Nat) {n : Nat}
    (h : ∀ f ∈ x.flight.filter x.lands, f.eff ≠ .clearCard n ∧ (f.pos = n → f.causes = 0))
    (hr : ∀ f ∈ x.recs, f.due ≤ t → f.pos = n → f.causes = 0) :
    NMap.getD (x.landed t).cards n {} = NMap.getD x.cards n {} := by
  have hl : ∀ (y : Ctx) f, NMap.getD (y.land f).cards n {} = NMap.getD y.cards n {} :=
    fun y f => congrArg (fun q => NMap.getD q.2.1 n {}) (Ctx.land_standing y f)
  unfold Ctx.landed
  rw [foldl_keeps (fun y : Ctx => NMap.getD y.cards n {}) Ctx.land _ fun f _ y => hl y f, Ctx.recordAll_card,
    foldl_keeps (fun y : Ctx => NMap.getD y.cards n {}) Ctx.landClear _ fun f hf y => Ctx.landClear_card y (h f (Ctx.mem_dueInOrder.1 hf)).1]
  intro f hf
  rcases List.mem_append.1 hf with hf | hf
  · exact (h f (Ctx.mem_dueInOrder.1 hf)).2
  · obtain ⟨hm, hd⟩ := List.mem_filter.1 hf
    exact hr f hm (of_decide_eq_true hd)

/-- Of results in order of landing, the one after which no other reaches `g` decides `g` (R45). -/
theorem foldl_land_last {α : Type} (g : Ctx → α) (names : Flight → Prop) (keep : ∀ f (y : Ctx), ¬names f → g (y.land f) = g y)
    {f : Flight} {v : α} (set : ∀ y : Ctx, g (y.land f) = v) {l : List Flight} (sorted : l.Pairwise fun a b => a.due ≤ b.due) (hf : f ∈ l)
    (last : ∀ h ∈ l, names h → h = f ∨ h.due < f.due) (y : Ctx) : g (l.foldl Ctx.land y) = v := by
  induction l generalizing y with
  | nil => exact absurd hf List.not_mem_nil
  | cons e l ih =>
    obtain ⟨he, hl⟩ := List.pairwise_cons.1 sorted
    by_cases hfl : f ∈ l
    · exact ih hl hfl (fun h hh => last h (List.mem_cons_of_mem _ hh)) _
    · obtain rfl : f = e := (List.mem_cons.1 hf).resolve_right hfl
      have rest : ∀ h ∈ l, ¬names h := fun h hh hn => by
        rcases last h (List.mem_cons_of_mem _ hh) hn with rfl | hlt
        · exact hfl hh
        · exact absurd (he h hh) (by omega)
      rw [List.foldl_cons, foldl_keeps g Ctx.land _ fun h hh z => keep h z (rest h hh)]
      exact set y

theorem Ctx.landed_last {α : Type} (g : Ctx → α) (names : Flight → Prop) (keep : ∀ f (y : Ctx), ¬names f → g (y.land f) = g y)
    (x : Ctx) (t : Nat) {f : Flight} {v : α} (set : ∀ y : Ctx, g (y.land f) = v) (hf : f ∈ x.flight.filter x.lands)
    (last : ∀ h ∈ x.flight.filter x.lands, names h → h = f ∨ h.due < f.due) : g (x.landed t) = v :=
  foldl_land_last g names keep set x.dueInOrder_sorted (Ctx.mem_dueInOrder.2 hf) (fun h hh => last h (Ctx.mem_dueInOrder.1 hh)) _

-- ## What lands outside the context (R147, R199)

/-- From `s` to `t`, context `x` of core `c` changes in its deferral entries alone, and no other context of any core changes. -/
def DeferOnly (c x : Nat) (s t : State) : Prop :=
  (∃ d, t.ctx c x = { s.ctx c x with defer := d }) ∧ (∀ n, n ≠ x → t.ctx c n = s.ctx c n) ∧ ∀ n, n ≠ c → t.core n = s.core n

theorem DeferOnly.refl (c x : Nat) (s : State) : DeferOnly c x s s := ⟨⟨_, rfl⟩, fun _ _ => rfl, fun _ _ => rfl⟩

theorem DeferOnly.trans {c x : Nat} {s t u : State} (h : DeferOnly c x s t) (k : DeferOnly c x t u) : DeferOnly c x s u := by
  obtain ⟨⟨d, hd⟩, hctx, hcore⟩ := h
  obtain ⟨⟨e, he⟩, kctx, kcore⟩ := k
  exact ⟨⟨e, by rw [he, hd]⟩, fun n hn => (kctx n hn).trans (hctx n hn), fun n hn => (kcore n hn).trans (hcore n hn)⟩

theorem DeferOnly.foldl {τ : Type} {c x : Nat} {step : State → τ → State} (h : ∀ s e, DeferOnly c x s (step s e)) (l : List τ) (s : State) :
    DeferOnly c x s (l.foldl step s) := by
  induction l generalizing s with
  | nil => exact DeferOnly.refl c x s
  | cons e l ih => exact (h s e).trans (ih _)

/-- An update of what a core holds beside its contexts leaves every context as it was. -/
theorem State.ctx_modCore_of (s : State) (c : Nat) {f : Core → Core} (hf : ∀ k, (f k).ctxs = k.ctxs) (d y : Nat) :
    (s.modCore c f).ctx d y = s.ctx d y := by
  by_cases h : d = c
  · subst h
    simp only [State.ctx, State.core_modCore, Core.ctx, hf]
  · simp only [State.ctx, State.core_modCore_other s h]

theorem DeferOnly.of_modCore (c x : Nat) (s : State) {f : Core → Core} (hf : ∀ k, (f k).ctxs = k.ctxs) : DeferOnly c x s (s.modCore c f) :=
  ⟨⟨_, State.ctx_modCore_of s c hf c x⟩, fun n _ => State.ctx_modCore_of s c hf c n, fun _ hn => State.core_modCore_other s hn f⟩

theorem State.landEntry_deferOnly (s : State) (c x path : Nat) (bs : List Byte) : DeferOnly c x s (s.landEntry c x path bs) := by
  unfold State.landEntry
  dsimp only
  split
  · exact DeferOnly.refl c x s
  · next p _ =>
    refine (DeferOnly.of_modCore c x s (f := fun k => { k with spad := spadWrite k.spad _ bs }) fun _ => rfl).trans
      ⟨⟨_, State.ctx_modCtx _ c x _⟩, fun n hn => State.ctx_modCtx_other _ (fun e => hn e.2) _, fun n hn => ?_⟩
    exact State.core_modCore_other _ hn _

theorem State.landOut_deferOnly (s : State) (c x : Nat) (f : Flight) : DeferOnly c x s (s.landOut c x f) := by
  unfold State.landOut
  split
  · exact DeferOnly.of_modCore c x s fun _ => rfl
  · exact DeferOnly.foldl (fun t e => State.landEntry_deferOnly t c x _ e) _ s
  · exact DeferOnly.refl c x s

/-- RESULT_LANDING: the due results land in the context; beside that, deferral entries alone are appended to (R44, R45, R147). -/
theorem exec_resultLanding (s : State) (c x : Nat) : ∃ t d, exec (.resultLanding c x) s = .next t ∧
    t.ctx c x = { (s.ctx c x).landed (s.core c).ccyc with defer := d } ∧
    (∀ n, n ≠ x → t.ctx c n = s.ctx c n) ∧ ∀ n, n ≠ c → t.core n = s.core n := by
  have hout := DeferOnly.foldl (fun t f => State.landOut_deferOnly t c x f) (s.ctx c x).dueInOrder
    (s.modCtx c x fun _ => (s.ctx c x).landed (s.core c).ccyc)
  obtain ⟨⟨d, hd⟩, hctx, hcore⟩ := hout
  refine ⟨_, d, ?_, hd.trans (by rw [State.ctx_modCtx]), fun n hn => ?_, fun n hn => ?_⟩
  · rfl
  · rw [hctx n hn, State.ctx_modCtx_other _ fun e => hn e.2]
  · rw [hcore n hn]
    exact State.core_modCore_other s hn _

/-- Settles O27: the due results land in order of landing, so that each register, mask, guard or half is as it was where none of them names
it, and holds the value of the last that does. -/
theorem resultLandings : Obligations.ResultLandings := by
  intro s c x
  dsimp only
  obtain ⟨t, d, ht, hz, hctx, hcore⟩ := exec_resultLanding s c x
  have still : ((s.ctx c x).landed (s.core c).ccyc).standing.2.2 = (s.ctx c x).standing.2.2 :=
    Ctx.landed_of (fun y => y.standing.2.2) (fun _ _ _ _ => rfl) _ _ fun f _ y => congrArg (fun q => q.2.2) (Ctx.land_standing y f)
  refine ⟨t, ht, ?_⟩
  rw [hz]
  refine ⟨Ctx.landed_flight _ _, fun n h => ?_, fun n h => ?_, fun m h => ?_, fun q h hq => ?_, fun j h => ?_, fun n h hr => ?_,
    fun f hf n v he last => ?_, fun f hf n v he last => ?_, ?_, hctx, hcore⟩
  · exact Ctx.landed_of (fun y => y.sAt n) (fun _ _ _ _ => rfl) _ _ fun f hf y => Ctx.land_sAt y (h f hf)
  · exact Ctx.landed_of (fun y => y.vAt n) (fun _ _ _ _ => rfl) _ _ fun f hf y => Ctx.land_vAt y (h f hf)
  · exact Ctx.landed_of (fun y => y.maskHeld m) (fun _ _ _ _ => rfl) _ _ fun f hf y => Ctx.land_maskHeld y (h f hf)
  · exact Ctx.landed_of (fun y => y.guardAt q) (fun _ _ _ _ => rfl) _ _ fun f hf y => Ctx.land_guardAt y hq (h f hf)
  · exact Ctx.landed_of (fun y => NMap.getD y.cond j (false, 0)) (fun _ _ _ _ => rfl) _ _ fun f hf y => Ctx.land_cond y (h f hf)
  · exact Ctx.landed_card _ _ h hr
  · refine Ctx.landed_last (fun y => y.sAt n) (fun e => ∃ w, e.eff = .sreg (some n) w) (fun e y hn => ?_) _ _
      (fun y => Ctx.land_sAt_sreg y he) hf fun e hm ⟨w, hw⟩ => last e hm w hw
    exact Ctx.land_sAt y fun w hw => hn ⟨w, hw⟩
  · refine Ctx.landed_last (fun y => y.vAt n) (fun e => ∃ w, e.eff = .vreg (some n) w ∨ e.eff = .vplain n w) (fun e y hn => ?_) _ _
      (fun y => Ctx.land_vAt_vreg y he) hf fun e hm ⟨w, hw⟩ => last e hm w hw
    exact Ctx.land_vAt y fun w => ⟨fun hw => hn ⟨w, Or.inl hw⟩, fun hw => hn ⟨w, Or.inr hw⟩⟩
  · simp only [Ctx.standing, Prod.mk.injEq] at still
    exact still

end Sys2Proof.Machine
end

section
/-! SUPPORT. The events of a context's pipeline (R53 to R57, R148, R332 to R334): bundles skipped and split, deferred faults, pre-emption,
the snapshot's way to the save area and back. -/

namespace Sys2Proof.Machine

-- ## Skipped and split bundles (R53, R56, R57)

theorem exec_nullifierSkip_skips {s : State} {c x : Nat} (h : (s.ctx c x).skips = true) : exec (.nullifierSkip c x) s =
    .next (s.modCtx c x fun y => { y with null := y.null.erase y.pc, pc := y.pc + 16 }) := by
  simp only [exec, execNullifierSkip, h, if_true]

theorem exec_nullifierSkip_stays {s : State} {c x : Nat} (h : (s.ctx c x).skips = false) : exec (.nullifierSkip c x) s = .next s := by
  simp only [exec, execNullifierSkip, h, Bool.false_eq_true, if_false]

/-- What a bundle finds at its first issue cycle (R46, R57). -/
def State.firstSeen (s : State) (c x : Nat) : First :=
  { cyc := s.cyc, spad := (s.core c).spad, ctx := s.ctx c x, ccyc := (s.core c).ccyc, world := s.worldWord c x, ports := (s.core c).ports,
    stat := (List.range 4).map fun n => s.cpstat (clusterOf c) n, arr := s.arr (pairOf c), words := s.iss.words }

theorem State.keepFirst_kept {s : State} {c : Nat} {f : First} (h : (s.core c).first = some f) (x : Nat) :
    s.keepFirst c x = s.modArr (pairOf c) fun a => a := by
  simp only [State.keepFirst, h]

theorem State.keepFirst_new {s : State} {c : Nat} (h : (s.core c).first = none) (x : Nat) :
    s.keepFirst c x = (s.modArr (pairOf c) fun a => a).modCore c fun k => { k with first := some (s.firstSeen c x) } := by
  simp only [State.keepFirst, h]
  rfl

/-- What the bundle in issue found at its first issue cycle is kept once, and changes no context (R46, R57). -/
theorem State.keepFirst_spec (s : State) (c x : Nat) :
    ((s.keepFirst c x).core c).first = some (((s.core c).first).getD (s.firstSeen c x)) ∧ (s.keepFirst c x).cyc = s.cyc ∧
    ∀ y, (s.keepFirst c x).ctx c y = s.ctx c y := by
  cases h : (s.core c).first with
  | some f =>
    rw [State.keepFirst_kept h]
    exact ⟨h, rfl, fun _ => rfl⟩
  | none =>
    rw [State.keepFirst_new h]
    refine ⟨by rw [State.core_modCore]; rfl, rfl, fun y => ?_⟩
    rw [State.ctx_modCore_of _ c (f := fun k => { k with first := some (s.firstSeen c x) }) fun _ => rfl]
    rfl

theorem exec_bundleSplit_running {s : State} {c x : Nat} (n : Nat) (h : (s.core c).run = some x) :
    exec (.bundleSplit c n) s = .next ((s.keepFirst c x).modCore c fun k => { k with hold := n - 1 }) := by
  simp only [exec, execBundleSplit, h]

theorem exec_bundleSplit_idle {s : State} {c : Nat} (n : Nat) (h : (s.core c).run = none) : exec (.bundleSplit c n) s = .next s := by
  simp only [exec, execBundleSplit, h]

-- ## Stopping, and giving the issue slots away (R50, R143, R355)

/-- A stop changes only what is in flight, the records on their way, and that the context has stopped (R50, R116). -/
theorem Ctx.snap_of {α : Type} (g : Ctx → α) (hg : ∀ (x : Ctx) b rs fl, g { x with snapped := b, recs := rs, flight := fl } = g x)
    (x : Ctx) (t : Nat) : g (x.snap t) = g x := by
  unfold Ctx.snap
  split
  · rfl
  · exact hg _ _ _ _

theorem Ctx.snap_snapped (x : Ctx) (t : Nat) : (x.snap t).snapped = true := by
  unfold Ctx.snap
  split
  · assumption
  · rfl

/-- Of the contexts, a new choice changes at most which steer registers count as freshly prepared (R132, R143). -/
theorem Core.reschedule_ctx (k : Core) (a x : Nat) : ∃ p, (k.reschedule a).ctx x = { k.ctx x with prepAll := p } := by
  unfold Core.reschedule
  split
  · exact ⟨_, rfl⟩
  · next y _ =>
    dsimp only
    split
    · exact ⟨_, rfl⟩
    · by_cases h : x = y
      · subst h
        exact ⟨_, Core.ctx_modCtx _ _ _⟩
      · exact ⟨_, Core.ctx_modCtx_other _ h _⟩

theorem Core.reschedule_hostPre (k : Core) (a : Nat) : (k.reschedule a).hostPre = none := by
  unfold Core.reschedule
  split
  · rfl
  · dsimp only
    split <;> rfl

/-- The context that takes a fault: stopped and frozen, its fault generation advanced, the record written (R355). -/
theorem State.freeze_ctx (s : State) (p code : Nat) (d0 d1 : Word) (fs : List (Nat × Nat × Word × Word)) (df wf : Bool) : ∃ q,
    (s.freeze ((p, code, d0, d1) :: fs) df wf).ctx s.iss.core s.iss.ctx =
      { s.cur.snap (s.core s.iss.core).ccyc with
        st := .frozen, fgen := s.cur.fgen + 1, stall := 0, prepAll := q
        frec := { codes := codesOf ((p, code, d0, d1) :: fs), deferred := df, waitFault := wf, cyc := s.cyc, words := s.iss.words,
                  d0 := d0, d1 := d1, rrbS := s.cur.rrbS, rrbV := s.cur.rrbV } } := by
  unfold State.freeze
  dsimp only
  generalize hz : (fun k : Ctx => ({ k.snap (s.core s.iss.core).ccyc with
    st := .frozen, fgen := k.fgen + 1, stall := 0,
    frec := { codes := codesOf ((p, code, d0, d1) :: fs), deferred := df, waitFault := wf, cyc := s.cyc, words := s.iss.words,
              d0 := d0, d1 := d1, rrbS := k.rrbS, rrbV := k.rrbV } } : Ctx)) = z
  have hk : ((s.modCtx s.iss.core s.iss.ctx z).core s.iss.core).ctx s.iss.ctx = z s.cur := State.ctx_modCtx s _ _ z
  change ∃ q, ((State.modCore _ s.iss.core _).core s.iss.core).ctx s.iss.ctx = _
  rw [State.core_modCore]
  split
  · obtain ⟨q, hq⟩ := Core.reschedule_ctx ((s.modCtx s.iss.core s.iss.ctx z).core s.iss.core) s.iss.ctx s.iss.ctx
    exact ⟨q, by rw [hq, hk, ← hz]⟩
  · exact ⟨(z s.cur).prepAll, by rw [hk, ← hz]⟩

/-- DEFERRED_FAULT_RAISE freezes the context with its oldest deferred fault (R148). -/
theorem exec_deferredFaultRaise {s : State} {c x : Nat} {d : Deferred} {rest : List Deferred} (h : (s.ctx c x).deferred = d :: rest) :
    ∃ t q, exec (.deferredFaultRaise c x) s = .next t ∧ t.ctx c x =
      { ({ s.ctx c x with deferred := rest } : Ctx).snap (s.core c).ccyc with
        st := .frozen, fgen := (s.ctx c x).fgen + 1, stall := 0, prepAll := q
        frec := { codes := codesOf [(s.iss.pos, d.code, d.d0, d.d1)], deferred := true, waitFault := false, cyc := s.cyc,
                  words := s.iss.words, d0 := d.d0, d1 := d.d1, rrbS := (s.ctx c x).rrbS, rrbV := (s.ctx c x).rrbV } } := by
  have hf := State.freeze_ctx ((s.modCtx c x fun k => { k with deferred := rest }).modIss fun i => { i with core := c, ctx := x })
    s.iss.pos d.code d.d0 d.d1 [] true false
  obtain ⟨q, hq⟩ := hf
  refine ⟨_, q, by simp only [exec, execDeferredFaultRaise, h], hq.trans ?_⟩
  have hcur : State.cur ((s.modCtx c x fun k => { k with deferred := rest }).modIss fun i => { i with core := c, ctx := x }) =
      { s.ctx c x with deferred := rest } := State.ctx_modCtx s c x _
  have hcyc : (((s.modCtx c x fun k => { k with deferred := rest }).modIss fun i => { i with core := c, ctx := x }).core c).ccyc =
      (s.core c).ccyc := State.core_modCtx_of s Core.ccyc (fun _ _ _ => rfl) c x c _
  have hiss : (State.modIss (s.modCtx c x fun k => { k with deferred := rest }) fun i => { i with core := c, ctx := x }).iss.core = c := rfl
  rw [hcur, hiss, hcyc]
  rfl

/-- The slot codes of one fault: its code stands at its position (R356). -/
theorem codesOf_single {p : Nat} (hp : p < 4) (code : Nat) (d0 d1 : Word) : (codesOf [(p, code, d0, d1)]).getD p 0 = code := by
  interval_cases p <;> rfl

-- ## Copy channels (R221)

theorem State.chan_modChan (s : State) (cl n : Nat) (f : Channel → Channel) : (s.modChan cl n f).chan cl n = f (s.chan cl n) := by
  simp only [State.modChan, State.chan, State.cluster, NMap.getD_set_same]

theorem State.chan_modChan_other (s : State) (cl : Nat) {n m : Nat} (h : m ≠ n) (f : Channel → Channel) :
    (s.modChan cl n f).chan cl m = s.chan cl m := by
  simp only [State.modChan, State.chan, State.cluster, NMap.getD_set_same, NMap.getD_set_other _ h]

/-- A step for each channel of a cluster, each leaving the other channels as they were: what every step does to its own channel stands at
the end. `κ` is what the steps keep. -/
theorem foldl_each_chan {κ : Type} {K : State → κ} {k : κ} {step : State → Nat → State} {cl : Nat} {P : Channel → Channel → Prop}
    (keep : ∀ s n, K (step s n) = K s) (other : ∀ s n m, m ≠ n → (step s n).chan cl m = s.chan cl m)
    (own : ∀ s n, K s = k → P (s.chan cl n) ((step s n).chan cl n)) {l : List Nat} (hl : l.Nodup) {s : State} (hs : K s = k)
    {n : Nat} (hn : n ∈ l) : P (s.chan cl n) ((l.foldl step s).chan cl n) := by
  induction l generalizing s with
  | nil => exact absurd hn List.not_mem_nil
  | cons a l ih =>
    obtain ⟨ha, hl⟩ := List.nodup_cons.1 hl
    by_cases he : n = a
    · subst he
      rw [List.foldl_cons, foldl_keeps (fun t => t.chan cl n) step l fun m hm t => other t m n fun e => ha (e ▸ hm)]
      exact own s n hs
    · rw [List.foldl_cons, ← other s a n he]
      exact ih hl ((keep s a).trans hs) ((List.mem_cons.1 hn).resolve_left he)

-- ## Parking the copies of a context (R244, R334)

theorem Channel.complete_queue (h : Channel) (t : Tracked) : (h.complete t).queue = h.queue := by
  unfold Channel.complete
  split <;> rfl

theorem Channel.complete_parked (h : Channel) (t : Tracked) : (h.complete t).parked = h.parked := by
  unfold Channel.complete
  split <;> rfl

/-- A context's commands leave a channel's queue and are parked, each with its place (R244, R334). -/
def Parks (c x : Nat) (g : BitVec 16) (h k : Channel) : Prop :=
  k.queue = h.queue.filter (fun q => !q.of c x g) ∧
  k.parked = h.parked ++ (h.queue.filter fun q => q.of c x g).mapIdx fun i q => { q with place := i }

/-- The parking of one channel's copies: a change of that channel, and a write of their images into the scratchpad (R334). -/
theorem State.park_eq (s : State) (c x base n : Nat) : ∃ (k : Channel) (p : Memory → Memory),
    s.park c x base n = (s.modChan (clusterOf c) n fun _ => k).modCore c (fun j => { j with spad := p j.spad }) ∧
    Parks c x (s.ctx c x).gen (s.chan (clusterOf c) n) k := by
  unfold State.park
  extract_lets g h gone fl h1 s1 putT putF
  refine ⟨gone.foldl (fun c t => c.complete t) h1, fun m => (List.range fl.length).foldl putF ((List.range gone.length).foldl putT m),
    rfl, ?_, ?_⟩
  · exact foldl_keeps Channel.queue _ _ (fun t _ h => Channel.complete_queue h t) h1
  · exact foldl_keeps Channel.parked _ _ (fun t _ h => Channel.complete_parked h t) h1

theorem State.chan_modCore (s : State) (c : Nat) (f : Core → Core) (cl n : Nat) : (s.modCore c f).chan cl n = s.chan cl n := rfl

theorem State.chan_modCtx (s : State) (c x : Nat) (f : Ctx → Ctx) (cl n : Nat) : (s.modCtx c x f).chan cl n = s.chan cl n := rfl

theorem State.park_ctx (s : State) (c x base n d y : Nat) : (s.park c x base n).ctx d y = s.ctx d y := by
  obtain ⟨k, p, he, -⟩ := State.park_eq s c x base n
  rw [he, State.ctx_modCore_of _ c (f := fun j => { j with spad := p j.spad }) fun _ => rfl]
  rfl

theorem State.park_chan_other (s : State) (c x base : Nat) {n m : Nat} (h : m ≠ n) :
    (s.park c x base n).chan (clusterOf c) m = s.chan (clusterOf c) m := by
  obtain ⟨k, p, he, -⟩ := State.park_eq s c x base n
  rw [he, State.chan_modCore, State.chan_modChan_other s (clusterOf c) h]

theorem State.park_chan (s : State) (c x base n : Nat) :
    Parks c x (s.ctx c x).gen (s.chan (clusterOf c) n) ((s.park c x base n).chan (clusterOf c) n) := by
  obtain ⟨k, p, he, hk⟩ := State.park_eq s c x base n
  rw [he, State.chan_modCore, State.chan_modChan]
  exact hk

-- ## A pre-empted context leaves, and its snapshot follows (R332 to R334)

/-- The state in which a pre-empted context's copies are parked. -/
def State.parkAll (s : State) (c x base : Nat) : State := (List.range 4).foldl (fun t n => t.park c x base n) s

theorem State.parkAll_ctx (s : State) (c x base : Nat) : (s.parkAll c x base).ctx c x = s.ctx c x :=
  foldl_keeps (fun t : State => t.ctx c x) _ _ (fun n _ t => State.park_ctx t c x base n c x) s

theorem State.parkAll_chan (s : State) (c x base : Nat) {n : Nat} (hn : n < 4) :
    Parks c x (s.ctx c x).gen (s.chan (clusterOf c) n) ((s.parkAll c x base).chan (clusterOf c) n) :=
  foldl_each_chan (K := fun t => (t.ctx c x).gen) (k := (s.ctx c x).gen) (step := fun t m => t.park c x base m)
    (P := Parks c x (s.ctx c x).gen) (fun t m => congrArg Ctx.gen (State.park_ctx t c x base m c x))
    (fun t _ _ h => State.park_chan_other t c x base h) (fun t m (ht : (t.ctx c x).gen = (s.ctx c x).gen) => ht ▸ State.park_chan t c x base m)
    List.nodup_range (Eq.refl (s.ctx c x).gen) (List.mem_range.2 hn)

/-- PREEMPTION of a running context that is to leave (R332, R333). -/
theorem exec_preemption_leaves {s : State} {c x base : Nat} (hrun : (s.core c).run = some x) (hsave : (s.ctx c x).save = some base)
    (hpre : (s.core c).preempts x = true) : ∃ t q, exec (.preemption c x) s = .next t ∧ t.ctx c x =
      { (s.ctx c x).snap (s.core c).ccyc with
        spilled := true, unspilled := 132, refill := [], null := [], stall := 0, saved := (s.ctx c x).waits, st := .ready, prepAll := q } ∧
      (t.core c).hostPre = none ∧ ∀ n, n < 4 →
        Parks c x (s.ctx c x).gen (s.chan (clusterOf c) n) (t.chan (clusterOf c) n) := by
  generalize hz : (fun y : Ctx => ({ y.snap (s.core c).ccyc with
    spilled := true, unspilled := 132, refill := [], null := [], stall := 0, saved := y.waits, st := .ready } : Ctx)) = z
  have hexec : exec (.preemption c x) s =
      .next (((s.parkAll c x base).modCtx c x z).modCore c fun k => { k with hostPre := none }.reschedule x) := by
    simp only [exec, execPreemption, hsave, hrun, hpre, and_self, if_true, ← hz, State.parkAll]
  have hk : (({ ((s.parkAll c x base).modCtx c x z).core c with hostPre := none } : Core)).ctx x = z (s.ctx c x) := by
    have := State.ctx_modCtx (s.parkAll c x base) c x z
    rwa [State.parkAll_ctx] at this
  obtain ⟨q, hq⟩ := Core.reschedule_ctx { ((s.parkAll c x base).modCtx c x z).core c with hostPre := none } x x
  refine ⟨_, q, hexec, ?_, ?_, fun n hn => ?_⟩
  · change (State.core _ c).ctx x = _
    rw [State.core_modCore, hq, hk, ← hz]
  · rw [State.core_modCore, Core.reschedule_hostPre]
  · rw [State.chan_modCore, State.chan_modCtx]
    exact State.parkAll_chan s c x base hn

/-- PREEMPTION of a context that is not to leave: the next packet of a snapshot that is still on its way, or nothing (R25, R334). -/
theorem exec_preemption_stays {s : State} {c x base : Nat} (hsave : (s.ctx c x).save = some base)
    (h : (s.core c).run ≠ some x ∨ (s.core c).preempts x = false) :
    exec (.preemption c x) s = .next (if 0 < (s.ctx c x).unspilled then s.spill c x base else s) := by
  have hn : ¬((s.core c).run = some x ∧ (s.core c).preempts x = true) := fun ⟨hr, hp⟩ =>
    h.elim (fun e => e hr) fun e => Bool.false_ne_true (e.symm.trans hp)
  simp only [exec, execPreemption, hsave, hn, if_false]
  split <;> rfl

-- ## A packet of the snapshot (R25, R334)

/-- A byte that a write has put at its address, where no later byte of it goes to the same address. -/
theorem Memory.read_writeVia_at {m : Memory} (f : Nat → Nat) (a : Nat) (vs : List Byte) (w : m.wf = true) {j : Nat} (hj : j < vs.length)
    (inj : ∀ i, i < vs.length → f (a + i) = f (a + j) → i = j) : Memory.read (Memory.writeVia m f a vs) (f (a + j)) = vs[j] := by
  induction vs generalizing m a j with
  | nil => exact absurd hj (Nat.not_lt_zero j)
  | cons v vs ih =>
    have hw := Memory.wf_write (f a) v w
    cases j with
    | zero =>
      have hne : ∀ i, i < vs.length → f (a + 0) ≠ f (a + 1 + i) := fun i hi e => by
        have := inj (i + 1) (by simpa using hi) (by rw [e]; congr 1; omega)
        omega
      rw [Memory.writeVia, Memory.read_writeVia_other f (a + 1) vs hw _ hne, Memory.read_write w, Nat.add_zero, if_pos rfl]
      rfl
    | succ j =>
      have hj' : j < vs.length := by simpa using hj
      have hadd : ∀ i, a + (i + 1) = a + 1 + i := fun i => by omega
      rw [hadd, Memory.writeVia]
      refine (ih (a + 1) hw hj' fun i hi e => ?_).trans rfl
      have := inj (i + 1) (by simpa using hi) (by rw [hadd i, hadd j, e])
      omega

/-- A write within the scratchpad's megabyte: each byte at its place (R195). -/
theorem read_spadWrite_at {m : Memory} (w : m.wf = true) {a : Nat} {vs : List Byte} (fits : a + vs.length ≤ 2 ^ 20) {j : Nat}
    (hj : j < vs.length) : Memory.read (spadWrite m a vs) (a + j) = vs[j] := by
  have addr : ∀ i, i < vs.length → spadAddr (a + i) = a + i := fun i hi => Nat.mod_eq_of_lt (by omega)
  have := Memory.read_writeVia_at spadAddr a vs w hj fun i hi e => by
    rw [addr i hi, addr j hj] at e
    omega
  rwa [addr j hj] at this

theorem read_spadWrite_other {m : Memory} (w : m.wf = true) {a : Nat} {vs : List Byte} (fits : a + vs.length ≤ 2 ^ 20) {b : Nat}
    (hb : b < a ∨ a + vs.length ≤ b) : Memory.read (spadWrite m a vs) b = Memory.read m b := by
  refine Memory.read_writeVia_other spadAddr a vs w b fun i hi => ?_
  rw [spadAddr, Nat.mod_eq_of_lt (by omega)]
  omega

theorem spadRead_one (m : Memory) {a : Nat} (h : a < 2 ^ 20) : spadRead m a 1 = [Memory.read m a] := by
  change [Memory.read m (a % 2 ^ 20)] = _
  rw [Nat.mod_eq_of_lt h]

theorem leBytes_length (n w : Nat) : (leBytes n w).length = n := by
  induction n generalizing w with
  | zero => rfl
  | succ n ih => rw [leBytes, List.length_cons, ih]

theorem Ctx.snapBytes_length (x : Ctx) (e : Nat) : (x.snapBytes e).length = 528 := by
  simp only [Ctx.snapBytes, bytesOfVec, List.length_append, leBytes_length]

theorem Ctx.spillPacket_length (x : Ctx) (i : Nat) : (x.spillPacket i).length = 256 := by
  simp only [Ctx.spillPacket, List.length_take, List.length_drop, List.length_append, Ctx.snapBytes_length]
  omega

/-- Byte `j` of packet `i` is a byte of the entries laid out one after the other, 528 bytes each (R334). -/
theorem Ctx.spillPacket_getD (x : Ctx) (i : Nat) {j : Nat} (hj : j < 256) :
    (x.spillPacket i).getD j 0 = (x.snapBytes ((256 * i + j) / 528)).getD ((256 * i + j) % 528) 0 := by
  simp only [Ctx.spillPacket, List.getD_eq_getElem?_getD, List.getElem?_take_of_lt hj, List.getElem?_drop]
  by_cases h : 256 * i - 528 * (256 * i / 528) + j < 528
  · have he : (256 * i + j) / 528 = 256 * i / 528 := by omega
    have hr : (256 * i + j) % 528 = 256 * i - 528 * (256 * i / 528) + j := by omega
    rw [List.getElem?_append_left (by rw [Ctx.snapBytes_length]; exact h), he, hr]
  · have he : (256 * i + j) / 528 = 256 * i / 528 + 1 := by omega
    have hr : (256 * i + j) % 528 = 256 * i - 528 * (256 * i / 528) + j - 528 := by omega
    rw [List.getElem?_append_right (by rw [Ctx.snapBytes_length]; omega), Ctx.snapBytes_length, he, hr]

/-- The next packet of a context's snapshot at its place in the save area (R334). -/
def Ctx.spillInto (y : Ctx) (base : Nat) (m : Memory) : Memory :=
  spadWrite m (base + 256 * (132 - y.unspilled)) (y.spillPacket (132 - y.unspilled))

/-- Only the scratchpad and the count of the packets left change (R334). -/
theorem State.spill_eq (s : State) (c x base : Nat) : s.spill c x base =
    (s.modCore c fun k => { k with spad := (s.ctx c x).spillInto base k.spad }).modCtx c x fun y => { y with unspilled := y.unspilled - 1 } := rfl

theorem State.ctx_modSpad (s : State) (c : Nat) (p : Memory → Memory) (d y : Nat) :
    (s.modCore c fun k => { k with spad := p k.spad }).ctx d y = s.ctx d y :=
  State.ctx_modCore_of s c (f := fun k => { k with spad := p k.spad }) (fun _ => rfl) d y

theorem State.spill_ctx (s : State) (c x base : Nat) : (s.spill c x base).ctx c x = { s.ctx c x with unspilled := (s.ctx c x).unspilled - 1 } := by
  rw [State.spill_eq, State.ctx_modCtx, State.ctx_modSpad s c ((s.ctx c x).spillInto base)]

theorem State.spill_ctx_other (s : State) (c x base : Nat) {n : Nat} (h : n ≠ x) : (s.spill c x base).ctx c n = s.ctx c n := by
  rw [State.spill_eq, State.ctx_modCtx_other _ fun e => h e.2, State.ctx_modSpad s c ((s.ctx c x).spillInto base)]

theorem State.spill_spad (s : State) (c x base : Nat) : ((s.spill c x base).core c).spad = (s.ctx c x).spillInto base (s.core c).spad := by
  rw [State.spill_eq, State.core_modCtx_of _ Core.spad (fun _ _ _ => rfl), State.core_modCore]

-- ## The snapshot read back (R196, R333, R334)

/-- The value and the descriptor of entry `e` in the bytes of a save area (R334). -/
def savedVal (img : List Byte) (e : Nat) : List Byte := (img.drop (528 * e)).take 512
def savedDesc (img : List Byte) (e : Nat) : Nat := leNat ((img.drop (528 * e + 512)).take 8)

theorem savedDesc_eq (img : List Byte) (e : Nat) : leNat ((((img.drop (528 * e)).take 528).drop 512).take 8) = savedDesc img e := by
  simp only [savedDesc, List.drop_take, List.drop_drop, List.take_take]
  rfl

theorem savedVal_take (img : List Byte) (e : Nat) : ((img.drop (528 * e)).take 528).take 8 = (savedVal img e).take 8 := by
  simp only [savedVal, List.take_take]
  rfl

theorem leNat_take_drop (n : Nat) (bs : List Byte) : leNat bs = leNat (bs.take n) + 256 ^ n * leNat (bs.drop n) := by
  induction n generalizing bs with
  | zero => simp [leNat]
  | succ n ih =>
    cases bs with
    | nil => simp [leNat]
    | cons b bs =>
      simp only [List.take_succ_cons, List.drop_succ_cons, leNat]
      rw [ih bs]
      ring

/-- The low 64 bits of a vector of bytes are its first eight bytes (R4, R206). -/
theorem vecOfBytes_setWidth (bs : List Byte) : (vecOfBytes bs).setWidth 64 = BitVec.ofNat 64 (leNat (bs.take 8)) := by
  apply BitVec.eq_of_toNat_eq
  rw [vecOfBytes, BitVec.toNat_setWidth, BitVec.toNat_ofNat, BitVec.toNat_ofNat, Nat.mod_mod_of_dvd _ (pow_dvd_pow 2 (by norm_num : 64 ≤ 4096)),
    leNat_take_drop 8 bs, show (256 : Nat) ^ 8 = 2 ^ 64 from rfl, Nat.add_mul_mod_self_left]

theorem Ctx.refillResult_invalid (x : Ctx) {d : Nat} (h : d.testBit 63 = false) (bs : List Byte) (old : Option Flight) :
    x.refillResult d bs old = none := by
  simp only [Ctx.refillResult, h, Bool.not_false, Bool.true_or, if_true]

theorem Ctx.refillLatch_invalid (x : Ctx) {d : Nat} (h : d.testBit 63 = false) (bs : List Byte) (old : Option LatchVal) :
    x.refillLatch d bs old = none := by
  simp only [Ctx.refillLatch, h, Bool.not_false, Bool.true_or, if_true]

/-- A valid descriptor of a scalar result, where none stood in the entry (R196, R365). -/
theorem Ctx.refillResult_scalar (x : Ctx) {d : Nat} (hv : d.testBit 63 = true) (hk : bits d 7 6 = 0) (hr : bits d 5 0 < 48) (bs : List Byte) :
    ∃ f, x.refillResult d bs none = some f ∧ f.eff = .sreg (some (bits d 5 0)) (BitVec.ofNat 64 (leNat (bs.take 8))) := by
  simp only [Ctx.refillResult, hv, hk, hr, if_true, Bool.not_true, Bool.false_or, OfNat.zero_ne_ofNat, decide_false, Bool.false_eq_true, if_false,
    vecOfBytes_setWidth]
  exact ⟨_, rfl, rfl⟩

/-- A result that was in flight, as its entry of the save area now says: the number of entries met, and the results that go on. -/
def Ctx.refillStep (x : Ctx) (img : List Byte) (acc : Nat × List Flight) (f : Flight) : Nat × List Flight :=
  if !f.snap then (acc.1, acc.2 ++ [f])
  else (acc.1 + 1, acc.2 ++ (if acc.1 < 48 then (x.refillResult (savedDesc img acc.1) (savedVal img acc.1) (some f)).toList else [f]))

theorem Ctx.refilled_flight (x : Ctx) (img : List Byte) : (x.refilled img).flight = (x.flight.foldl (x.refillStep img) (0, [])).2 ++
    ((List.range 64).filter fun e => decide (min (x.flight.filter Flight.snap).length 48 ≤ e)).filterMap
      fun e => x.refillResult (savedDesc img e) (savedVal img e) none := rfl

/-- Where no descriptor is valid, none of the results that have an entry goes on (R196). -/
theorem Ctx.refillStep_invalid (x : Ctx) {img : List Byte} (h : ∀ e, e < 64 → (savedDesc img e).testBit 63 = false) (fs : List Flight)
    (acc : Nat × List Flight) (hn : acc.1 + (fs.filter Flight.snap).length ≤ 48) (hacc : ∀ f ∈ acc.2, f.snap = false) :
    ∀ f ∈ (fs.foldl (x.refillStep img) acc).2, f.snap = false := by
  induction fs generalizing acc with
  | nil => exact hacc
  | cons f fs ih =>
    rw [List.foldl_cons]
    cases hf : f.snap with
    | false =>
      rw [List.filter_cons_of_neg (by simp [hf])] at hn
      refine ih _ ?_ ?_ <;> simp only [Ctx.refillStep, hf, Bool.not_false, if_true]
      · exact hn
      · intro g hg
        rcases List.mem_append.1 hg with hg | hg
        · exact hacc g hg
        · exact List.mem_singleton.1 hg ▸ hf
    | true =>
      rw [List.filter_cons_of_pos hf, List.length_cons] at hn
      have hlt : acc.1 < 48 := by omega
      refine ih _ ?_ ?_ <;> simp only [Ctx.refillStep, hf, Bool.not_true, Bool.false_eq_true, if_false, hlt, if_true,
        Ctx.refillResult_invalid x (h acc.1 (by omega)), Option.toList_none, List.append_nil]
      · omega
      · exact hacc

/-- Where no descriptor is valid, no latch entry and no result of the snapshot is left (R196). -/
theorem Ctx.refilled_invalid (x : Ctx) {img : List Byte} (h : ∀ e, e < 64 → (savedDesc img e).testBit 63 = false)
    (hn : (x.flight.filter Flight.snap).length ≤ 48) : (x.refilled img).latch = [] ∧ ∀ f ∈ (x.refilled img).flight, f.snap = false := by
  constructor
  · refine List.filterMap_eq_nil_iff.2 fun e he => ?_
    exact Ctx.refillLatch_invalid x (h e (List.mem_range.1 he)) _ _
  · intro f hf
    rw [Ctx.refilled_flight] at hf
    rcases List.mem_append.1 hf with hf | hf
    · exact Ctx.refillStep_invalid x h x.flight (0, []) (by simpa using hn) (fun _ hg => absurd hg List.not_mem_nil) f hf
    · obtain ⟨e, he, hr⟩ := List.mem_filterMap.1 hf
      rw [Ctx.refillResult_invalid x (h e (List.mem_range.1 (List.mem_filter.1 he).1))] at hr
      exact absurd hr nofun

/-- A scalar result that the bytes read back show is in flight then, where the snapshot held no result (R196). -/
theorem Ctx.refilled_scalar (x : Ctx) {img : List Byte} {e : Nat} (he : e < 64) (hv : (savedDesc img e).testBit 63 = true)
    (hk : bits (savedDesc img e) 7 6 = 0) (hr : bits (savedDesc img e) 5 0 < 48) (hnone : x.flight.filter Flight.snap = []) :
    ∃ f ∈ (x.refilled img).flight,
      f.eff = .sreg (some (bits (savedDesc img e) 5 0)) (BitVec.ofNat 64 (leNat ((savedVal img e).take 8))) := by
  obtain ⟨f, hf, heff⟩ := Ctx.refillResult_scalar x hv hk hr (savedVal img e)
  refine ⟨f, ?_, heff⟩
  rw [Ctx.refilled_flight, hnone]
  exact List.mem_append_right _ (List.mem_filterMap.2 ⟨e, List.mem_filter.2 ⟨List.mem_range.2 he, rfl⟩, hf⟩)

-- ## The parked copies pushed again (R244, R333)

/-- A channel has room for all that it holds parked of a context (R239, R240). -/
def Channel.hasRoom (h : Channel) (c x : Nat) (g : BitVec 16) : Prop :=
  (h.parked.filter fun q => q.of c x g).length + h.qlev ≤ 64 ∧ (h.pflags.filter fun q => q.of c x g).length + h.flags.length ≤ 16

/-- All that a channel held parked of a context has left it, and each command stands in the queue again, marked (R244). -/
def Unparks (c x : Nat) (g : BitVec 16) (h k : Channel) : Prop :=
  k.parked = h.parked.filter (fun q => !q.of c x g) ∧ (k.pflags.any fun q => q.of c x g) = false ∧
  ∀ q ∈ h.parked, q.of c x g = true → ∃ r ∈ k.queue, r.place = q.place ∧ r.repush = true

/-- Those of a list that are not among those with `p`: those without it. -/
theorem filter_not_contains_filter {α : Type} [DecidableEq α] (p : α → Bool) (l : List α) :
    l.filter (fun t => !(l.filter p).contains t) = l.filter fun t => !p t := by
  refine List.filter_congr fun t ht => ?_
  cases hp : p t <;> simp [ht, hp]

theorem State.unpark_chan_other (s : State) (c x base : Nat) {n m : Nat} (h : m ≠ n) :
    (s.unpark c x base n).chan (clusterOf c) m = s.chan (clusterOf c) m :=
  State.chan_modChan_other s (clusterOf c) h _

theorem State.unpark_chan (s : State) (c x base n : Nat) (room : (s.chan (clusterOf c) n).hasRoom c x (s.ctx c x).gen) :
    Unparks c x (s.ctx c x).gen (s.chan (clusterOf c) n) ((s.unpark c x base n).chan (clusterOf c) n) := by
  obtain ⟨hq, hf⟩ := room
  unfold State.unpark
  dsimp only
  rw [State.chan_modChan, List.take_of_length_le (by omega), List.take_of_length_le (by omega)]
  refine ⟨filter_not_contains_filter _ _, ?_, fun q hm hof => ?_⟩
  · dsimp only
    rw [filter_not_contains_filter]
    simp
  · exact ⟨_, List.mem_append_right _ (List.mem_map.2 ⟨q, List.mem_filter.2 ⟨hm, hof⟩, rfl⟩), rfl, rfl⟩

/-- The state in which the parked copies have been pushed again, as far as there is room. -/
def State.unparkAll (s : State) (c x base : Nat) : State := (List.range 4).foldl (fun t n => t.unpark c x base n) s

theorem State.unparkAll_cores (s : State) (c x base : Nat) : (s.unparkAll c x base).cores = s.cores :=
  foldl_keeps State.cores (fun t n => t.unpark c x base n) _ (fun _ _ _ => rfl) s

theorem State.unparkAll_ctx (s : State) (c x base d y : Nat) : (s.unparkAll c x base).ctx d y = s.ctx d y := by
  simp only [State.ctx, State.core, State.unparkAll_cores]

theorem State.unparkAll_chan (s : State) (c x base : Nat) {n : Nat} (hn : n < 4)
    (room : (s.chan (clusterOf c) n).hasRoom c x (s.ctx c x).gen) :
    Unparks c x (s.ctx c x).gen (s.chan (clusterOf c) n) ((s.unparkAll c x base).chan (clusterOf c) n) :=
  foldl_each_chan (P := fun h k => h.hasRoom c x (s.ctx c x).gen → Unparks c x (s.ctx c x).gen h k) (K := fun t => t.ctx c x)
    (k := s.ctx c x) (step := fun t m => t.unpark c x base m) (fun _ _ => rfl) (fun t _ _ h => State.unpark_chan_other t c x base h)
    (fun t m ht => ht ▸ State.unpark_chan t c x base m) List.nodup_range rfl (List.mem_range.2 hn) room

/-- With room for all of it, nothing of the context is parked any longer. -/
theorem State.hasParked_unparkAll (s : State) (c x base : Nat)
    (room : ∀ n, n < 4 → (s.chan (clusterOf c) n).hasRoom c x (s.ctx c x).gen) : (s.unparkAll c x base).hasParked c x = false := by
  refine List.any_eq_false.2 fun n hn => ?_
  obtain ⟨hparked, hflags, -⟩ := State.unparkAll_chan s c x base (List.mem_range.1 hn) (room n (List.mem_range.1 hn))
  dsimp only
  rw [State.unparkAll_ctx, hparked, hflags]
  simp

/-- PREEMPTED_RESUME does nothing for a context that has not left, or whose snapshot is still on its way (R333). -/
theorem exec_preemptedResume_waits {s : State} {c x base : Nat} (hrun : (s.core c).run = some x) (hsave : (s.ctx c x).save = some base)
    (h : (s.ctx c x).spilled = false ∨ 0 < (s.ctx c x).unspilled) : exec (.preemptedResume c x) s = .next s := by
  simp only [exec, execPreemptedResume, hrun, hsave]
  rw [if_pos (Or.inr h)]

/-- The next packet of the save area is read (R25, R333). -/
theorem exec_preemptedResume_reads {s : State} {c x base : Nat} (hrun : (s.core c).run = some x) (hsave : (s.ctx c x).save = some base)
    (hsp : (s.ctx c x).spilled = true) (hun : (s.ctx c x).unspilled = 0) (hlen : (s.ctx c x).refill.length < 33792) :
    exec (.preemptedResume c x) s = .next (s.modCtx c x fun y =>
      { y with refill := (s.ctx c x).refill ++ spadRead (s.core c).spad (base + (s.ctx c x).refill.length) 256 }) := by
  simp only [exec, execPreemptedResume, hrun, hsave, hsp, hun]
  rw [if_neg (by simp), if_pos hlen]
  rfl

/-- The context as it goes on once its snapshot has been read back (R333). -/
def Ctx.goesOn (k : Ctx) : Ctx :=
  { k.refilled k.refill with spilled := false, prepAll := k.issued, saved := [], st := if k.saved.isEmpty then k.st else .wait k.saved }

/-- The copies are pushed again; once all of them are, the context goes on (R333). -/
theorem exec_preemptedResume_pushes {s : State} {c x base : Nat} (hrun : (s.core c).run = some x) (hsave : (s.ctx c x).save = some base)
    (hsp : (s.ctx c x).spilled = true) (hun : (s.ctx c x).unspilled = 0) (hlen : 33792 ≤ (s.ctx c x).refill.length) :
    exec (.preemptedResume c x) s = .next (if (s.unparkAll c x base).hasParked c x then s.unparkAll c x base
      else (s.unparkAll c x base).modCtx c x Ctx.goesOn) := by
  simp only [exec, execPreemptedResume, hrun, hsave, hsp, hun]
  rw [if_neg (by simp), if_neg (by omega)]
  change (if (s.unparkAll c x base).hasParked c x = true then _ else _) = _
  split <;> rfl

/-- With room for all of it, everything is pushed again and the context goes on (R333). -/
theorem exec_preemptedResume_goesOn {s : State} {c x base : Nat} (hrun : (s.core c).run = some x) (hsave : (s.ctx c x).save = some base)
    (hsp : (s.ctx c x).spilled = true) (hun : (s.ctx c x).unspilled = 0) (hlen : 33792 ≤ (s.ctx c x).refill.length)
    (room : ∀ n, n < 4 → (s.chan (clusterOf c) n).hasRoom c x (s.ctx c x).gen) :
    exec (.preemptedResume c x) s = .next ((s.unparkAll c x base).modCtx c x Ctx.goesOn) := by
  rw [exec_preemptedResume_pushes hrun hsave hsp hun hlen, State.hasParked_unparkAll s c x base room]
  rfl

/-- Settles O48: each event does what its lemma above says. -/
theorem pipelineEvents : Obligations.PipelineEvents := by
  intro s c x
  dsimp only
  refine ⟨exec_nullifierSkip_skips, exec_nullifierSkip_stays, fun n hrun => ?_, fun n hrun => exec_bundleSplit_idle n hrun, fun d rest hd => ?_,
    fun hd => ?_, fun base hrun hsave => ⟨fun hpre => ?_, fun hpre hun => ?_, fun hsp hun hlen => ?_, fun hsp hun hlen => ?_,
      fun hsp hun hlen hroom => ?_, fun h => exec_preemptedResume_waits hrun hsave h⟩, fun base hsave h hun hle hwf hfit => ?_, rfl⟩
  · obtain ⟨hf, hcyc, hctx⟩ := State.keepFirst_spec s c x
    refine ⟨_, ((s.core c).first).getD (s.firstSeen c x), exec_bundleSplit_running n hrun, ?_, ?_, hcyc, fun y => ?_, fun h => ?_, fun f h => ?_⟩
    · rw [State.core_modCore]
    · rw [State.core_modCore]
      exact hf
    · rw [State.ctx_modCore_of _ c (f := fun k => { k with hold := n - 1 }) fun _ => rfl, hctx y]
    · rw [h]
      exact ⟨rfl, rfl, rfl, rfl⟩
    · rw [h]
      rfl
  · obtain ⟨t, q, ht, hz⟩ := exec_deferredFaultRaise hd
    refine ⟨t, ht, ?_⟩
    rw [hz]
    exact ⟨rfl, Ctx.snap_of Ctx.deferred (fun _ _ _ _ => rfl) _ _, rfl, rfl, rfl, rfl, rfl, rfl, Ctx.snap_of Ctx.pc (fun _ _ _ _ => rfl) _ _,
      fun hp => codesOf_single hp _ _ _⟩
  · simp only [exec, execDeferredFaultRaise, hd]
  · obtain ⟨t, q, ht, hz, hhost, hchan⟩ := exec_preemption_leaves hrun hsave hpre
    refine ⟨t, ht, ?_⟩
    rw [hz]
    exact ⟨rfl, Ctx.snap_snapped _ _, rfl, rfl, rfl, rfl, Ctx.snap_of Ctx.pc (fun _ _ _ _ => rfl) _ _, hhost, hchan⟩
  · rw [exec_preemption_stays hsave (Or.inr hpre), if_neg (by omega)]
  · exact exec_preemptedResume_reads hrun hsave hsp hun hlen
  · refine ⟨_, exec_preemptedResume_pushes hrun hsave hsp hun hlen, ?_⟩
    split
    · exact Or.inr (State.unparkAll_cores s c x base)
    · rw [State.ctx_modCtx]
      exact Or.inl rfl
  · refine ⟨_, exec_preemptedResume_goesOn hrun hsave hsp hun hlen hroom, ?_⟩
    rw [State.ctx_modCtx, State.unparkAll_ctx]
    simp only [savedDesc_eq, savedVal_take]
    refine ⟨rfl, rfl, rfl, rfl, fun e he hv hk hr hfl => Ctx.refilled_scalar _ he hv hk hr hfl, fun hinv hlen => Ctx.refilled_invalid _ hinv hlen,
      fun n hn => ?_⟩
    obtain ⟨hparked, -, hqueue⟩ := State.unparkAll_chan s c x base hn (hroom n hn)
    rw [State.chan_modCtx]
    exact ⟨hparked, hqueue⟩
  · refine ⟨_, exec_preemption_stays hsave h, ?_⟩
    rw [if_pos hun]
    have hlen := Ctx.spillPacket_length (s.ctx c x) (132 - (s.ctx c x).unspilled)
    have fits : base + 256 * (132 - (s.ctx c x).unspilled) + ((s.ctx c x).spillPacket (132 - (s.ctx c x).unspilled)).length ≤ 2 ^ 20 := by omega
    refine ⟨State.spill_ctx s c x base, fun n hn => State.spill_ctx_other s c x base hn, fun j hj => ?_, fun a ha => ?_⟩
    · rw [State.spill_spad, Ctx.spillInto, spadRead_one _ (by omega), read_spadWrite_at hwf fits (by omega), ← List.getD_eq_getElem _ 0,
        Ctx.spillPacket_getD _ _ hj]
      rfl
    · rw [State.spill_spad, Ctx.spillInto]
      exact read_spadWrite_other hwf fits (by omega)

end Sys2Proof.Machine
end

section
/-! SUPPORT. Words as numbers: sums, shifts, products, quotients, fields and records of 64-bit words, as the spec's rows read (R109, R119 to
R123, R162). -/

namespace Sys2Proof.Machine

-- ## Sums, shifts and choices (R119)

section
variable (x y : Word)

theorem add_eq_ofNat : x + y = BitVec.ofNat 64 (x.toNat + y.toNat) := by
  rw [BitVec.ofNat_add, BitVec.ofNat_toNat, BitVec.ofNat_toNat, BitVec.setWidth_eq, BitVec.setWidth_eq]

theorem sub_eq_ofInt : x - y = BitVec.ofInt 64 (x.toInt - y.toInt) := by
  rw [Int.sub_eq_add_neg, BitVec.ofInt_add, BitVec.ofInt_neg, BitVec.ofInt_toInt, BitVec.ofInt_toInt, BitVec.sub_eq_add_neg]

theorem shiftLeft_eq_ofNat (n : Nat) : x <<< n = BitVec.ofNat 64 (x.toNat * 2 ^ n) :=
  BitVec.eq_of_toNat_eq (by rw [BitVec.toNat_shiftLeft, BitVec.toNat_ofNat, Nat.shiftLeft_eq])

theorem ushiftRight_eq_ofNat (n : Nat) : x >>> n = BitVec.ofNat 64 (x.toNat / 2 ^ n) := by
  refine BitVec.eq_of_toNat_eq ?_
  rw [BitVec.toNat_ushiftRight, BitVec.toNat_ofNat, Nat.shiftRight_eq_div_pow, Nat.mod_eq_of_lt]
  exact Nat.lt_of_le_of_lt (Nat.div_le_self _ _) x.isLt

theorem sshiftRight_eq_ofInt (n : Nat) : x.sshiftRight n = BitVec.ofInt 64 (x.toInt / 2 ^ n) := by
  rw [BitVec.sshiftRight_eq, Int.shiftRight_eq_div_pow]
  norm_cast

/-- A rotate is two shifts, their amount bits 5:0 of the second operand (R118). -/
theorem rotateLeft_sh6 : x.rotateLeft (sh6 y) = (x <<< (y.toNat % 64)) ||| (x >>> (64 - y.toNat % 64)) := by
  rw [BitVec.rotateLeft_def, sh6, Nat.mod_mod]

theorem ite_slt_eq_min : (if x.slt y then x else y) = BitVec.ofInt 64 (min x.toInt y.toInt) := by
  rw [min_def_lt, apply_ite (BitVec.ofInt 64), BitVec.ofInt_toInt, BitVec.ofInt_toInt]
  simp only [BitVec.slt_iff_toInt_lt]

theorem ite_slt_eq_max : (if x.slt y then y else x) = BitVec.ofInt 64 (max x.toInt y.toInt) := by
  rw [max_def_lt, apply_ite (BitVec.ofInt 64), BitVec.ofInt_toInt, BitVec.ofInt_toInt]
  simp only [BitVec.slt_iff_toInt_lt]

theorem ite_ult_eq_min : (if x.ult y then x else y) = BitVec.ofNat 64 (min x.toNat y.toNat) := by
  rw [min_def_lt, apply_ite (BitVec.ofNat 64), BitVec.ofNat_toNat, BitVec.ofNat_toNat, BitVec.setWidth_eq, BitVec.setWidth_eq]
  simp only [BitVec.ult_iff_toNat_lt]

theorem ite_ult_eq_max : (if x.ult y then y else x) = BitVec.ofNat 64 (max x.toNat y.toNat) := by
  rw [max_def_lt, apply_ite (BitVec.ofNat 64), BitVec.ofNat_toNat, BitVec.ofNat_toNat, BitVec.setWidth_eq, BitVec.setWidth_eq]
  simp only [BitVec.ult_iff_toNat_lt]

end

/-- A number of at most `n` bits has `n` less its length leading zeros. -/
theorem length_takeWhile_zeros {n x : Nat} (h : x < 2 ^ n) :
    ((List.range n).takeWhile fun i => !x.testBit (n - 1 - i)).length = n - bitLen x := by
  induction n with
  | zero => simp
  | succ n ih =>
    rw [List.range_succ_eq_map, List.takeWhile_cons]
    by_cases hb : x < 2 ^ n
    · have hbit : x.testBit n = false := Nat.testBit_lt_two_pow hb
      have hlen : bitLen x ≤ n := by
        unfold bitLen
        split
        · exact Nat.zero_le n
        · next h0 => exact (Nat.log2_lt h0).2 hb
      have htail : ((fun i => !x.testBit (n + 1 - 1 - i)) ∘ Nat.succ) = fun i => !x.testBit (n - 1 - i) := by
        funext i
        rw [Function.comp_apply, Nat.succ_eq_add_one, Nat.add_sub_cancel, Nat.sub_add_eq, Nat.sub_right_comm]
      simp only [Nat.add_sub_cancel, Nat.sub_zero, hbit, Bool.not_false, if_true, List.takeWhile_map, List.length_cons, List.length_map] at htail ⊢
      rw [htail, ih hb]
      omega
    · have hx : 2 ^ n ≤ x := Nat.not_lt.1 hb
      have hbit : x.testBit n = true := Nat.testBit_of_two_pow_le_and_two_pow_add_one_gt hx h
      have h0 : x ≠ 0 := fun e => by simp [e] at hx
      have hlen : bitLen x = n + 1 := by rw [bitLen, if_neg h0, (Nat.log2_eq_iff h0).2 ⟨hx, h⟩]
      simp [hbit, hlen]

/-- CLZ counts from bit 63 down to the first one (R119). -/
theorem clzOf_eq (x : Word) : clzOf x = BitVec.ofNat 64 ((List.range 64).takeWhile fun i => !x.getLsbD (63 - i)).length := by
  rw [clzOf, ← length_takeWhile_zeros x.isLt]
  rfl

theorem sum_toNat_eq_length_filter {α : Type} (p : α → Bool) (l : List α) : (l.map fun a => (p a).toNat).sum = (l.filter p).length := by
  induction l with
  | nil => rfl
  | cons a l ih => cases h : p a <;> simp [h, ih, Nat.add_comm]

/-- POPC adds the 64 bits (R119). -/
theorem popcOf_eq (x : Word) : popcOf x = BitVec.ofNat 64 ((List.range 64).map fun i => (x.getLsbD i).toNat).sum := by
  rw [popcOf, sum_toNat_eq_length_filter]

-- ## Products and quotients (R120, R121)

theorem mul_eq_ofNat (x y : Word) : x * y = BitVec.ofNat 64 (x.toNat * y.toNat) := by
  rw [BitVec.ofNat_mul, BitVec.ofNat_toNat, BitVec.ofNat_toNat, BitVec.setWidth_eq, BitVec.setWidth_eq]

/-- The high half of the signed product: the product of two words fits 128 bits, of which bits 127:64 are its quotient (R120). -/
theorem mulHigh_eq_ofInt (x y : Word) :
    (x.signExtend 128 * y.signExtend 128).extractLsb' 64 64 = BitVec.ofInt 64 (x.toInt * y.toInt / 2 ^ 64) := by
  rw [BitVec.signExtend, BitVec.signExtend, ← BitVec.ofInt_mul]
  refine BitVec.eq_of_toNat_eq ?_
  rw [BitVec.extractLsb'_toNat, BitVec.toNat_ofInt, BitVec.toNat_ofInt, Nat.shiftRight_eq_div_pow]
  generalize x.toInt * y.toInt = z
  norm_num
  omega

/-- The high half of the unsigned product (R120). -/
theorem mulHigh_eq_ofNat (x y : Word) :
    (x.setWidth 128 * y.setWidth 128).extractLsb' 64 64 = BitVec.ofNat 64 (x.toNat * y.toNat / 2 ^ 64) := by
  have hlt : x.toNat * y.toNat < 2 ^ 128 := lt_of_lt_of_eq (Nat.mul_lt_mul'' x.isLt y.isLt) (pow_add 2 64 64).symm
  refine BitVec.eq_of_toNat_eq ?_
  rw [BitVec.extractLsb'_toNat, BitVec.toNat_mul, BitVec.toNat_setWidth_of_le (by omega), BitVec.toNat_setWidth_of_le (by omega),
    Nat.mod_eq_of_lt hlt, Nat.shiftRight_eq_div_pow, BitVec.toNat_ofNat]

theorem sdiv_eq_ofInt (x y : Word) : x.sdiv y = BitVec.ofInt 64 (x.toInt.tdiv y.toInt) :=
  BitVec.eq_of_toInt_eq (by rw [BitVec.toInt_sdiv, BitVec.toInt_ofInt])

theorem udiv_eq_ofNat (x y : Word) : x / y = BitVec.ofNat 64 (x.toNat / y.toNat) := by
  refine BitVec.eq_of_toNat_eq ?_
  rw [BitVec.toNat_udiv, BitVec.toNat_ofNat, Nat.mod_eq_of_lt]
  exact Nat.lt_of_le_of_lt (Nat.div_le_self _ _) x.isLt

/-- The one signed quotient that no word holds (R121). -/
theorem overflows_iff_toInt (x y : Word) :
    (x = 0x8000000000000000 ∧ y = 0xFFFFFFFFFFFFFFFF) ↔ (x.toInt = -2 ^ 63 ∧ y.toInt = -1) :=
  and_congr (BitVec.toInt_inj (y := 0x8000000000000000)).symm (BitVec.toInt_inj (y := 0xFFFFFFFFFFFFFFFF)).symm

/-- The quotient of DIVS with its record: what wraps is -2^63 again (R121). -/
theorem signedQuotient_eq (x y : Word) : (if x = 0x8000000000000000 ∧ y = 0xFFFFFFFFFFFFFFFF then (x, cDIVOVF) else (x.sdiv y, 0)) =
    (BitVec.ofInt 64 (x.toInt.tdiv y.toInt), if x.toInt = -2 ^ 63 ∧ y.toInt = -1 then cDIVOVF else 0) := by
  rw [← sdiv_eq_ofInt]
  by_cases h : x = 0x8000000000000000 ∧ y = 0xFFFFFFFFFFFFFFFF
  · have hq : x.sdiv y = x := by
      obtain ⟨rfl, rfl⟩ := h
      exact BitVec.intMin_sdiv_neg_one
    rw [if_pos h, if_pos ((overflows_iff_toInt x y).1 h), hq]
  · rw [if_neg h, if_neg (mt (overflows_iff_toInt x y).2 h)]

-- ## Fields (R122)

theorem bits_low (n hi : Nat) : bits n hi 0 = n % 2 ^ (hi + 1) := by
  rw [bits, Nat.pow_zero, Nat.div_one, Nat.sub_zero]

theorem toNat_lowMask {w : Nat} (h : w ≤ 64) : (BitVec.ofNat 64 (2 ^ w - 1)).toNat = 2 ^ w - 1 := by
  have := Nat.pow_le_pow_right (n := 2) (by omega) h
  have := Nat.two_pow_pos w
  rw [BitVec.toNat_ofNat, Nat.mod_eq_of_lt (by omega)]

theorem getLsbD_lowMask {w : Nat} (h : w ≤ 64) (i : Nat) : (BitVec.ofNat 64 (2 ^ w - 1)).getLsbD i = decide (i < w) := by
  rw [← BitVec.testBit_toNat, toNat_lowMask h, Nat.testBit_two_pow_sub_one]

/-- EXTB's field of width `w` at `p` (R122). -/
theorem extract_eq_ofNat (x : Word) (p : Nat) {w : Nat} (h : w ≤ 64) :
    (x >>> p) &&& BitVec.ofNat 64 (2 ^ w - 1) = BitVec.ofNat 64 (x.toNat / 2 ^ p % 2 ^ w) := by
  have hle : x.toNat / 2 ^ p % 2 ^ w < 2 ^ 64 :=
    Nat.lt_of_lt_of_le (Nat.mod_lt _ (Nat.two_pow_pos w)) (Nat.pow_le_pow_right (by omega) h)
  refine BitVec.eq_of_toNat_eq ?_
  rw [BitVec.toNat_and, toNat_lowMask h, Nat.and_two_pow_sub_one_eq_mod, BitVec.toNat_ushiftRight, Nat.shiftRight_eq_div_pow,
    BitVec.toNat_ofNat, Nat.mod_eq_of_lt hle]

/-- INSB's result bit by bit: `y`'s low bits at `p`, `x`'s elsewhere (R122). -/
theorem getLsbD_insert (x y : Word) {p w i : Nat} (h : w ≤ 64) (hi : i < 64) :
    ((x &&& ~~~(BitVec.ofNat 64 (2 ^ w - 1) <<< p)) ||| ((y <<< p) &&& (BitVec.ofNat 64 (2 ^ w - 1) <<< p))).getLsbD i =
      if p ≤ i ∧ i < p + w then y.getLsbD (i - p) else x.getLsbD i := by
  have hm : (BitVec.ofNat 64 (2 ^ w - 1) <<< p).getLsbD i = decide (p ≤ i ∧ i < p + w) := by
    rw [BitVec.getLsbD_shiftLeft, getLsbD_lowMask h]
    rw [Bool.eq_iff_iff]
    simp only [Bool.and_eq_true, Bool.not_eq_true', decide_eq_true_eq, decide_eq_false_iff_not]
    omega
  rw [BitVec.getLsbD_or, BitVec.getLsbD_and, BitVec.getLsbD_and, BitVec.getLsbD_not, hm, BitVec.getLsbD_shiftLeft]
  split
  · next hin => simp [hin, hi, Nat.not_lt.2 hin.1]
  · next hout => simp [hout, hi]

theorem add_shiftLeft_eq_ofNat (x y : Word) (n : Nat) : x + (y <<< n) = BitVec.ofNat 64 (x.toNat + y.toNat * 2 ^ n) := by
  rw [BitVec.ofNat_add, BitVec.ofNat_toNat, BitVec.setWidth_eq, shiftLeft_eq_ofNat]

-- ## Compare records and RNDMODE (R109, R162)

theorem ofNat_recordBits (e l u : Bool) : BitVec.ofNat 3 ((if e then 1 else 0) + (if l then 2 else 0) + (if u then 4 else 0)) =
    BitVec.ofBool u ++ BitVec.ofBool l ++ BitVec.ofBool e := by
  cases e <;> cases l <;> cases u <;> rfl

/-- The compare record, bit 0 up: EQ, LT, LTU (R109). -/
theorem cmpRecord_eq (p q : Word) : cmpRecord p q =
    BitVec.ofBool (decide (p.toNat < q.toNat)) ++ BitVec.ofBool (decide (p.toInt < q.toInt)) ++ BitVec.ofBool (decide (p = q)) := by
  rw [← ofNat_recordBits, cmpRecord, BitVec.slt_eq_decide, BitVec.ult_eq_decide]
  simp only [decide_eq_true_eq]

theorem toNat_and_0x18 (v : Word) : (v &&& 0x18).toNat = 2 ^ 3 * bits v.toNat 4 3 := by
  have h18 : (24 : Nat) = (2 ^ 2 - 1) * 2 ^ 3 := rfl
  refine Nat.eq_of_testBit_eq fun i => ?_
  rw [BitVec.toNat_and, show (0x18 : Word).toNat = 24 from rfl, h18, Nat.testBit_and, Nat.testBit_mul_two_pow, Nat.testBit_two_pow_sub_one,
    bits, Nat.testBit_two_pow_mul, Nat.testBit_mod_two_pow, Nat.testBit_div_two_pow]
  by_cases h : 3 ≤ i
  · simp [h, Nat.sub_add_cancel h, Bool.and_comm]
  · simp [h]

/-- RNDMODE keeps DZT and FTZ, and a rounding mode below 5 (R162). -/
theorem rndOf_eq (v : Word) : rndOf v = (v &&& 0x18) ||| (if (v &&& 7).toNat < 5 then v &&& 7 else 0) := by
  have h7 : (v &&& 7).toNat = bits v.toNat 2 0 := by
    rw [BitVec.toNat_and, bits_low]
    exact Nat.and_two_pow_sub_one_eq_mod _ 3
  have hm : (if (v &&& 7).toNat < 5 then v &&& 7 else 0).toNat = if bits v.toNat 2 0 < 5 then bits v.toNat 2 0 else 0 := by
    rw [← h7]
    split <;> rfl
  have hlt : (if bits v.toNat 2 0 < 5 then bits v.toNat 2 0 else 0) < 2 ^ 3 := by split <;> omega
  have hb : bits v.toNat 4 3 < 4 := Nat.mod_lt _ (by omega)
  refine BitVec.eq_of_toNat_eq ?_
  rw [BitVec.toNat_or, toNat_and_0x18, hm, ← Nat.two_pow_add_eq_or_of_lt hlt, rndOf, BitVec.toNat_ofNat, Nat.mod_eq_of_lt (by omega)]
  omega

end Sys2Proof.Machine
end

section
/-! SUPPORT. The scalar instructions: register operations, multiplies, divides, fields, immediates, compares, guard logic and control
registers (R117 to R126). -/

namespace Sys2Proof.Machine

-- ## Operations that complete with a scalar result (R118 to R123)

theorem scalar1_runs {i : Instr} {d : Code} {f : State → Word} {v : Word} {s : State} (h : s.runs i = true) (hv : f (s.entered i) = v) :
    scalar1 i d s f = .next ((s.entered i).putS 1 0 d v) := by
  rw [scalar1, sop_runs h, hv]

theorem scalar1_illegal {i : Instr} {d : Code} {f : State → Word} {s : State} (h : i.wf = false) : scalar1 i d s f = s.illegal :=
  sop_illegal _ (Or.inl h) _

theorem scalar3_runs {i : Instr} {d : Code} {f : State → Word} {v : Word} {s : State} (h : s.runs i = true) (hv : f (s.entered i) = v) :
    scalar3 i d s f = .next ((s.entered i).putS 3 0 d v) := by
  rw [scalar3, sop_runs h, hv]

/-- Settles O1: each operation is the common frame with its value, and each value is the spec's row read as a number. -/
theorem scalarLogic : Obligations.ScalarLogic := by
  intro g d a b
  refine ⟨?mov, ?add, ?sub, ?and, ?or, ?xor, ?andn, ?shl, ?shr, ?sar, ?rotl, ?clz, ?popc, ?min, ?max, ?minu, ?maxu⟩ <;>
    intro s h <;> dsimp only [exec]
  case mov | and | or | xor | andn => exact scalar1_runs h rfl
  case add => exact scalar1_runs h (add_eq_ofNat _ _)
  case sub => exact scalar1_runs h (sub_eq_ofInt _ _)
  case shl => exact scalar1_runs h (shiftLeft_eq_ofNat _ _)
  case shr => exact scalar1_runs h (ushiftRight_eq_ofNat _ _)
  case sar => exact scalar1_runs h (sshiftRight_eq_ofInt _ _)
  case rotl => exact scalar1_runs h (rotateLeft_sh6 _ _)
  case clz => exact scalar1_runs h (clzOf_eq _)
  case popc => exact scalar1_runs h (popcOf_eq _)
  case min => exact scalar1_runs h (ite_slt_eq_min _ _)
  case max => exact scalar1_runs h (ite_slt_eq_max _ _)
  case minu => exact scalar1_runs h (ite_ult_eq_min _ _)
  case maxu => exact scalar1_runs h (ite_ult_eq_max _ _)

/-- Settles O2: the high half of a product is its quotient by 2^64, the low half what wraps. -/
theorem scalarMultiply : Obligations.ScalarMultiply := by
  intro g d a b
  refine ⟨?mul, ?mulh, ?mulhu⟩ <;> intro s h <;> dsimp only [exec]
  case mul => exact scalar3_runs h (mul_eq_ofNat _ _)
  case mulh => exact scalar3_runs h (mulHigh_eq_ofInt _ _)
  case mulhu => exact scalar3_runs h (mulHigh_eq_ofNat _ _)

-- ## Divides (R44, R117, R121)

/-- The state in which the ALU of the operation in issue has begun a divide (R44, R117). -/
def State.dividing (s : State) : State := s.modCurCore fun k => { k with divBusy := NMap.set k.divBusy s.alu (k.ccyc + 18) }

section
variable {i : Instr} {d a b : Code} {s : State} {q : Word → Word → Word × Causes}

/-- What a divide does on an ALU that is free: DIV_ZERO_TRAP, the recorded zero, or its quotient (R121). -/
theorem divide_runs (h : s.runs i = true) (hb : s.divBusy = false) :
    let u := s.entered i
    (u.rdS b = 0 → u.cur.rnd.getLsbD 4 = true → divide i d a b s q = u.raise fDIVZ (u.rdS a) 0) ∧
    (u.rdS b = 0 → u.cur.rnd.getLsbD 4 = false → divide i d a b s q = .next (u.dividing.putS 18 cDZ d 0)) ∧
    (u.rdS b ≠ 0 → ∀ v e, q (u.rdS a) (u.rdS b) = (v, e) → divide i d a b s q = .next (u.dividing.putS 18 e d v)) := by
  dsimp only [divide]
  rw [sop_runs_of h hb rfl]
  refine ⟨fun hy hz => ?_, fun hy hz => ?_, fun hy v e hq => ?_⟩
  · rw [if_pos ⟨hy, hz⟩]
  · rw [if_neg fun t => Bool.false_ne_true (hz.symm.trans t.2), if_pos hy]
    rfl
  · rw [if_neg fun t => hy t.1, if_neg hy, hq]
    rfl

/-- A divide whose guard reads false does nothing, and makes no ALU busy (R37, R117). -/
theorem divide_guardOff (h : s.guardOff i = true) (hb : s.divBusy = false) : divide i d a b s q = .next s := by
  rw [divide, hb]
  exact sop_guardOff h _

theorem divide_busy (hb : s.divBusy = true) : divide i d a b s q = s.illegal := sop_illegal _ (Or.inr (Or.inr hb)) _

end

/-- Settles O3: the cases of a divide are those of the shared operation, with the truncated quotient. -/
theorem scalarDivide : Obligations.ScalarDivide := by
  intro s g d a b
  refine ⟨fun h hb => ?divs, fun h hb => ?divu, ?offs, ?offu, ?busy⟩ <;> dsimp only [exec]
  case divs =>
    obtain ⟨htrap, hzero, hquot⟩ := divide_runs h hb
    exact ⟨htrap, hzero, fun hy => hquot hy _ _ (signedQuotient_eq _ _)⟩
  case divu =>
    obtain ⟨htrap, hzero, hquot⟩ := divide_runs h hb
    exact ⟨htrap, hzero, fun hy => hquot hy _ _ (congrArg (·, 0) (udiv_eq_ofNat _ _))⟩
  case offs | offu => exact fun h hb => divide_guardOff h hb
  case busy => exact fun hb => ⟨divide_busy hb, divide_busy hb⟩

-- ## Fields and immediates (R122, R123)

/-- A destination that is also read names a register: `nul` is no such destination (R63). -/
theorem not_register_of_nul {d : Code} (h : d.toNat = 63) : decide (d < 48) = false := by
  rw [decide_eq_false_iff_not, BitVec.lt_def, h]
  decide

/-- Settles O4: the fields of the extension byte are its remainders, and the field operations are read bit by bit. -/
theorem scalarFields : Obligations.ScalarFields := by
  intro s g d a b p x
  have number : bits x.byte.toNat 3 0 = x.byte.toNat % 16 := bits_low _ 3
  have width : bits x.byte.toNat 5 0 = x.byte.toNat % 64 := bits_low _ 5
  have places : bits x.byte.toNat 2 0 = x.byte.toNat % 8 := bits_low _ 2
  have fits : x.byte.toNat % 64 + 1 ≤ 64 := by omega
  refine ⟨fun s h => ?sel, fun s h => ?extb, fun h => ?insb, fun s h => ?lea, fun h => ?tooWide, fun h => ?nul⟩ <;> dsimp only [exec]
  case sel => exact scalar1_runs h (by rw [number])
  case extb => exact scalar1_runs h (by rw [width, extract_eq_ofNat _ _ fits])
  case insb =>
    refine ⟨_, scalar1_runs h rfl, fun i hi => ?_⟩
    rw [width]
    exact getLsbD_insert _ _ fits hi
  case lea => exact scalar1_runs h (by rw [places, add_shiftLeft_eq_ofNat])
  case tooWide =>
    have hf : fieldOk p x = false := by
      rw [fieldOk, width]
      exact decide_eq_false (by omega)
    have hextb : (dstOk d && extFits x 0x3F && fieldOk p x) = false := by rw [hf, Bool.and_false]
    have hinsb : (decide (d < 48) && extFits x 0x3F && fieldOk p x) = false := by rw [hf, Bool.and_false]
    exact ⟨scalar1_illegal hextb, scalar1_illegal hinsb⟩
  case nul =>
    have hinsb : (decide (d < 48) && extFits x 0x3F && fieldOk p x) = false := by rw [not_register_of_nul h, Bool.false_and, Bool.false_and]
    exact scalar1_illegal hinsb

/-- Settles O5: the immediates extend as R123 gives, and MOVHI's parts are the shifted destination and the field. -/
theorem scalarImmediates : Obligations.ScalarImmediates := by
  intro s g d a i n e
  refine ⟨fun s h => ?movi, fun s h => ?moviWide, fun s h => ?movhi, fun s h => ?movhiWide, fun s h => ?addi, fun s h => ?addiWide,
    fun h => ?nul⟩ <;> dsimp only [exec]
  case movi | moviWide => exact scalar1_runs h rfl
  case movhi | movhiWide => exact scalar1_runs h (by simp only [shiftLeft_eq_ofNat, immU20, BitVec.ofNat_toNat])
  case addi | addiWide => exact scalar1_runs h (by simp only [immS14, BitVec.signExtend, BitVec.ofInt_add, BitVec.ofInt_toInt])
  case nul =>
    exact ⟨scalar1_illegal (not_register_of_nul h), scalar1_illegal (not_register_of_nul h)⟩

-- ## Condition targets (R108, R109, R124, R125)

/-- Where the result `v` with record `r` goes: a steer register, a guard, or GUARD_WRITE (R108, R124). -/
theorem State.putC_cases (u : State) (c : Code) (v : Bool) (r : BitVec 3) :
    (c.toNat < 12 → u.putC c v r = .next (u.later 1 0 (.cond c.toNat v r))) ∧
    (16 < c.toNat → ¬(24 ≤ c.toNat ∧ u.cur.inLoopr = true) → u.putC c v r = .next (u.later 1 0 (.guardReg (c.toNat - 16) v))) ∧
    (c.toNat = 16 ∨ (24 ≤ c.toNat ∧ u.cur.inLoopr = true) → u.putC c v r = u.raise fGUARD (BitVec.ofNat 64 c.toNat) 0) := by
  unfold State.putC
  refine ⟨fun hj => ?_, fun hq hl => ?_, fun hn => ?_⟩
  · rw [if_pos hj]
  · rw [if_neg (by omega), if_neg]
    exact fun hor => hor.elim (fun h16 => by omega) hl
  · rw [if_neg (by omega), if_pos hn]

section
variable {i : Instr} {c : Code} {v : State → Bool}

/-- A compare completes with its relation and the record of its two operands (R109, R124). -/
theorem completesC_of_compare {f : Word → Word → Bool} {x y : State → Word} (hx : ∀ s, exec i s = compare i c s f x y)
    (hv : ∀ u, f (x u) (y u) = v u) : CompletesC i c v fun u => BitVec.ofBool (decide ((x u).toNat < (y u).toNat)) ++
      BitVec.ofBool (decide ((x u).toInt < (y u).toInt)) ++ BitVec.ofBool (decide (x u = y u)) := by
  intro s h
  rw [hx, compare, sop_runs h, hv, cmpRecord_eq]
  exact State.putC_cases ..

/-- Guard logic completes with its value and a record of zero (R125). -/
theorem completesC_of_guardLogic {f : State → Bool} (hx : ∀ s, exec i s = guardLogic i c s f) (hv : ∀ u, f u = v u) :
    CompletesC i c v fun _ => 0 := by
  intro s h
  rw [hx, guardLogic, sop_runs h, hv]
  exact State.putC_cases ..

end

section
variable (g : Guard) (c a b y z i : Code) (x : Ext) (s : State)

-- the arms that compare and combine conditions
theorem exec_ceq : exec (.ceq g c a b) s = execCeq g c a b s := rfl
theorem exec_cne : exec (.cne g c a b) s = execCne g c a b s := rfl
theorem exec_clt : exec (.clt g c a b) s = execClt g c a b s := rfl
theorem exec_cltu : exec (.cltu g c a b) s = execCltu g c a b s := rfl
theorem exec_cle : exec (.cle g c a b) s = execCle g c a b s := rfl
theorem exec_cleu : exec (.cleu g c a b) s = execCleu g c a b s := rfl
theorem exec_ceqi : exec (.ceqi g c a i x) s = execCeqi g c a i x s := rfl
theorem exec_clti : exec (.clti g c a i x) s = execClti g c a i x s := rfl
theorem exec_qset : exec (.qset g c a) s = execQset g c a s := rfl
theorem exec_qand : exec (.qand g c y z) s = execQand g c y z s := rfl
theorem exec_qor : exec (.qor g c y z) s = execQor g c y z s := rfl
theorem exec_qnot : exec (.qnot g c y) s = execQnot g c y s := rfl

end

/-- Settles O6: a compare is the common frame with its relation and the record of its two operands. -/
theorem scalarCompare : Obligations.ScalarCompare := by
  intro s g c a b i x rec_ imm
  have himm : imm = immS14 x i := by cases x <;> rfl
  rw [himm]
  refine ⟨?ceq, ?cne, ?clt, ?cltu, ?cle, ?cleu, ?ceqi, ?clti, fun h => ?bad⟩
  case ceq => exact completesC_of_compare (exec_ceq g c a b) fun _ => rfl
  case cne => exact completesC_of_compare (exec_cne g c a b) fun _ => (decide_not ..).symm
  case clt => exact completesC_of_compare (exec_clt g c a b) fun _ => BitVec.slt_eq_decide
  case cltu => exact completesC_of_compare (exec_cltu g c a b) fun _ => BitVec.ult_eq_decide
  case cle => exact completesC_of_compare (exec_cle g c a b) fun _ => BitVec.sle_eq_decide
  case cleu => exact completesC_of_compare (exec_cleu g c a b) fun _ => BitVec.ule_eq_decide
  case ceqi => exact completesC_of_compare (exec_ceqi g c a i x) fun _ => rfl
  case clti => exact completesC_of_compare (exec_clti g c a i x) fun _ => BitVec.slt_eq_decide
  case bad =>
    have hc : condOk c = false := by
      simp only [condOk, Bool.or_eq_false_iff, Bool.and_eq_false_iff, decide_eq_false_iff_not]
      omega
    have bad {j : Instr} {f : Word → Word → Bool} {p q : State → Word} (hj : j.wf = condOk c) : compare j c s f p q = s.illegal :=
      sop_illegal _ (Or.inl (hj.trans hc)) _
    dsimp only [exec]
    exact ⟨bad rfl, bad rfl, bad rfl, bad rfl, bad rfl, bad rfl, bad rfl, bad rfl⟩

/-- A condition source of guard logic: a condition bit, or a guard, of which q0 is true (R125). -/
theorem Ctx.cSrc_eq (x : Ctx) {k : Nat} (h : 16 ≤ k ∨ k < 12) :
    x.cSrc k = if k < 12 then (NMap.getD x.cond k (false, 0)).1 else decide (k = 16) || x.q.getLsbD (k - 16) := by
  unfold Ctx.cSrc Ctx.condAt Ctx.guardAt
  split
  · rfl
  · have hq0 : k - 16 = 0 ↔ k = 16 := by omega
    simp only [hq0]

end Sys2Proof.Machine

namespace Sys2Proof.Laws
open Sys2Proof.Machine

/-- Settles O7: guard logic reads its sources at issue and follows the rules of a compare. -/
theorem guardLogic : Obligations.GuardLogic := by
  intro g c a y z
  refine ⟨?qset, fun hy hz => ⟨?qand, ?qor⟩, fun hy => ?qnot⟩
  case qset => exact completesC_of_guardLogic (exec_qset g c a) fun _ => (decide_not ..).symm
  case qand => exact completesC_of_guardLogic (exec_qand g c y z) fun _ => by rw [Ctx.cSrc_eq _ hy, Ctx.cSrc_eq _ hz]
  case qor => exact completesC_of_guardLogic (exec_qor g c y z) fun _ => by rw [Ctx.cSrc_eq _ hy, Ctx.cSrc_eq _ hz]
  case qnot => exact completesC_of_guardLogic (exec_qnot g c y) fun _ => by rw [Ctx.cSrc_eq _ hy]

end Sys2Proof.Laws

namespace Sys2Proof.Machine

-- ## Control registers (R79, R126)

-- what each range of control registers reads (R79)
section
variable (s : State) {r : Nat}

theorem State.readCr_arrmode : s.readCr 9 = if isSupervisor s.iss.core then 0 else s.issueArr.modeWord := by
  simp (disch := omega) only [State.readCr, if_true, if_neg]

theorem State.readCr_card (h : 0x10 ≤ r) (h' : r ≤ 0x13) : s.readCr r = (NMap.getD s.cur.cards (r - 0x10) {}).word := by
  simp (disch := omega) only [State.readCr, if_pos, if_neg]

theorem State.readCr_cardHi (h : 0x14 ≤ r) (h' : r ≤ 0x17) : s.readCr r = (NMap.getD s.cur.cards (r - 0x14) {}).hi := by
  simp (disch := omega) only [State.readCr, if_pos, if_neg]

theorem State.readCr_bankfmt (h : 0x20 ≤ r) (h' : r ≤ 0x2F) : s.readCr r = BitVec.ofNat 64 (NMap.getD s.curCore.bankfmt (r - 0x20) 0) := by
  simp (disch := omega) only [State.readCr, if_pos, if_neg]

theorem State.readCr_modulus (h : 0x30 ≤ r) (h' : r ≤ 0x33) :
    s.readCr r = if s.caps.getLsbD 3 then NMap.getD s.cur.md (r - 0x30) 0 else 0 := by
  simp (disch := omega) only [State.readCr, if_pos, if_neg, State.hasRes]
  cases s.caps.getLsbD 3 <;> rfl

theorem State.readCr_reciprocal (h : 0x34 ≤ r) (h' : r ≤ 0x37) :
    s.readCr r = if s.caps.getLsbD 3 then NMap.getD s.cur.mdrcp (r - 0x34) 0 else 0 := by
  simp (disch := omega) only [State.readCr, if_pos, if_neg, State.hasRes]
  cases s.caps.getLsbD 3 <;> rfl

end

theorem bankfmtOf_eq (cmpu : Bool) (v : Word) :
    bankfmtOf cmpu v = (if v.toNat % 8 < 6 then v.toNat % 8 else 0) + (if cmpu && v.getLsbD 3 then 8 else 0) := by
  rw [bankfmtOf, bits_low]
  rfl

/-- What is recorded with a modulus: BADMOD where it is even or below 3 (R111). -/
theorem causeIf_not_modValid (m : Nat) : causeIf (!modValid m) cBADMOD = if m % 2 = 1 ∧ 3 ≤ m then 0 else cBADMOD := by
  rw [causeIf, modValid, ← Bool.decide_and]
  by_cases h : m % 2 = 1 ∧ 3 ≤ m
  · rw [if_pos h, decide_eq_true h]
    rfl
  · rw [if_neg h, decide_eq_false h]
    rfl

/-- An operation that names no register and no latch is not entered with a record (R42). -/
theorem State.entered_of_no_source {i : Instr} (hs : i.ssrc = []) (hv : i.vsrc = []) (s : State) : s.entered i = s := by
  simp [State.entered, State.latchStale, hs, hv]

/-- What CWR of a register without behaviour of its own does: RNDMODE and the bank formats take their fields (R126). -/
theorem execCwr_runs {g : Guard} {a : Code} {r : BitVec 12} {s : State} (h : s.runs (.cwr g a r) = true) :
    let u := s.entered (.cwr g a r)
    let v := u.rdS a
    (r = 8 → execCwr g a r s = .next (u.later 1 0 (.rndmode (rndOf v)))) ∧
    (0x20 ≤ r.toNat ∧ r.toNat ≤ 0x2F → execCwr g a r s = .next (u.later 1 0 (.bankfmt (r.toNat - 0x20) (bankfmtOf u.hasCmp v)))) ∧
    (r.toNat ≠ 8 → ¬(0x20 ≤ r.toNat ∧ r.toNat ≤ 0x2F) → execCwr g a r s = .next u) := by
  rw [execCwr, sop_runs h]
  dsimp only
  refine ⟨fun hr => ?_, fun hr => ?_, fun h8 hr => ?_⟩
  · rw [if_pos (by rw [hr]; rfl)]
  · rw [if_neg (by omega), if_pos hr]
  · rw [if_neg h8, if_neg hr]

/-- Where a unit is absent, an operation that keeps its limits raises ABSENT_UNIT (R21). -/
theorem sop_absent {i : Instr} {s : State} (h : s.runs i = true) (k : State → Out3) : sop i false true s k = s.absent := by
  obtain ⟨hwf, hover, hlatch, -, -⟩ := State.runs_iff.1 h
  simp [sop, hwf, hover, hlatch]

/-- Settles O8: each range of R79 reads its own register, and CWR is the common frame with the effect of R126. -/
theorem controlRegisterAccess : Obligations.ControlRegisterAccess := by
  intro s g d a r k n crd
  refine ⟨fun _ s h => ?listed, fun hl hh s h => ?caps, fun hl hh s h => ?seat, fun hl hh s h => ?cyc, fun hl hh s h => ?rnd,
    fun hsup h => ?arrmode, fun hl hh s h => ?card, fun hl hh s h => ?cardHi, fun hl hh s h => ?bankfmt, fun hl hh s h => ?modulus,
    fun hl hh s h => ?reciprocal, fun h => ?cwr, fun h => ?cwrModulus, fun h => ?cwrCard, fun h => ?unlisted⟩ <;> dsimp only [exec]
  case listed => exact scalar1_runs h rfl
  case caps | seat | rnd => exact scalar1_runs h (by simp (disch := omega) only [State.readCr, if_pos, if_neg])
  case cyc =>
    refine scalar1_runs h ?_
    simp (disch := omega) only [State.readCr, if_pos, if_neg, State.firstCyc]
    cases (s.entered (.crd g d r)).curCore.first <;> rfl
  case arrmode =>
    rw [execCrd, scalar1_runs h (State.readCr_arrmode _), State.entered_of_no_source rfl rfl, if_pos hsup]
  case card => exact scalar1_runs h (State.readCr_card _ hl hh)
  case cardHi => exact scalar1_runs h (State.readCr_cardHi _ hl hh)
  case bankfmt => exact scalar1_runs h (State.readCr_bankfmt _ hl hh)
  case modulus => exact scalar1_runs h (State.readCr_modulus _ hl hh)
  case reciprocal => exact scalar1_runs h (State.readCr_reciprocal _ hl hh)
  case cwr =>
    obtain ⟨hrnd, hbank, hnone⟩ := execCwr_runs h
    rw [rndOf_eq] at hrnd
    rw [bankfmtOf_eq] at hbank
    exact ⟨hrnd, hbank, fun hr => hnone (by omega) (by omega)⟩
  case cwrModulus =>
    refine ⟨fun hres => ?_, fun hres => ?_⟩ <;> rw [execCwrModulus, hres]
    · rw [← causeIf_not_modValid]
      exact sop_runs h _
    · exact sop_absent h _
  case cwrCard => exact sop_runs h _
  case unlisted =>
    have hcrd : (dstOk d && crListed r.toNat) = false := by rw [h, Bool.and_false]
    have hcwr : (crListed r.toNat && !crOwnRow r.toNat) = false := by rw [h, Bool.false_and]
    exact ⟨scalar1_illegal hcrd, sop_illegal (i := .cwr g a r) _ (Or.inl hcwr) _⟩

end Sys2Proof.Machine
end

section
/-! SUPPORT. ALLOT and SHRINK: the new counts, the registers that stand, and the check point of their bundle (R100, R103, R104). -/

namespace Sys2Proof.Machine

-- ## Registers that enter or leave an allotment read zero (R103, R104)

theorem NMap.get?_erase_same {α : Type} (m : NMap α) (k : Nat) : NMap.get? (NMap.erase m k) k = none := by
  induction m with
  | nil => rfl
  | cons p m ih =>
    obtain ⟨i, u⟩ := p
    simp only [NMap.erase]
    split
    · exact ih
    · next hi => rw [NMap.get?, if_neg hi, ih]

/-- What a map reads once the entries of some keys are gone. -/
theorem NMap.getD_foldl_erase {α : Type} (ks : List Nat) (m : NMap α) (j : Nat) (d : α) :
    NMap.getD (ks.foldl (fun n k => NMap.erase n k) m) j d = if j ∈ ks then d else NMap.getD m j d := by
  induction ks generalizing m with
  | nil => rfl
  | cons k ks ih =>
    rw [List.foldl_cons, ih]
    by_cases hk : j = k
    · subst hk
      have hgone : NMap.getD (NMap.erase m j) j d = d := by rw [NMap.getD, NMap.get?_erase_same]; rfl
      rw [hgone, ite_self, if_pos List.mem_cons_self]
    · have hstays : NMap.getD (NMap.erase m k) j d = NMap.getD m j d := by rw [NMap.getD, NMap.get?_erase_other m hk, NMap.getD]
      simp only [hstays, List.mem_cons, hk, false_or]

/-- A register below `n` reads as before once the entries of the 48 registers from `n` on are gone, any other reads zero. -/
theorem NMap.getD_release {α : Type} (m : NMap α) (n : Nat) {r : Nat} (hr : r < 48) (d : α) :
    NMap.getD (((List.range 48).filter fun k => decide (n ≤ k)).foldl (fun m k => NMap.erase m k) m) r d =
      if r < n then NMap.getD m r d else d := by
  have hmem : r ∈ ((List.range 48).filter fun k => decide (n ≤ k)) ↔ ¬r < n := by
    rw [List.mem_filter, List.mem_range, decide_eq_true_eq, Nat.not_lt]
    exact and_iff_right hr
  simp only [NMap.getD_foldl_erase, hmem, ite_not]

theorem State.cur_setAllot (s : State) (ns nv : Nat) : (s.setAllot ns nv).cur =
    { s.cur with
      allocS := ns, allocV := nv
      sreg := ((List.range 48).filter fun r => decide (s.iss.allocS ≤ r)).foldl (fun m r => NMap.erase m r) s.cur.sreg
      vreg := ((List.range 48).filter fun r => decide (s.iss.allocV ≤ r)).foldl (fun m r => NMap.erase m r) s.cur.vreg } :=
  State.cur_modCur s _

/-- What a change of the counts sets: the counts, the bundle's mark, and the registers that stand (R103, R104). -/
theorem State.setAllot_sets {s u : State} (h : u.iss = s.iss) (ns nv : Nat) :
    let t := u.setAllot ns nv
    t.cur.allocS = ns ∧ t.cur.allocV = nv ∧ t.iss = { u.iss with allot := true } ∧
    (∀ r, r < 48 → t.cur.sAt r = if r < s.iss.allocS then u.cur.sAt r else 0) ∧
    (∀ r, r < 48 → t.cur.vAt r = if r < s.iss.allocV then u.cur.vAt r else 0) := by
  dsimp only
  rw [State.cur_setAllot, ← h]
  exact ⟨rfl, rfl, rfl, fun r hr => NMap.getD_release _ _ hr 0, fun r hr => NMap.getD_release _ _ hr 0⟩

/-- A record of an empty latch leaves the bundle in issue as it is (R42). -/
@[simp] theorem State.entered_iss (s : State) (i : Instr) : (s.entered i).iss = s.iss := by
  unfold State.entered State.note
  split
  · split <;> rfl
  · rfl

-- ## What the way of a context past its bundle leaves alone (R135, R139, R140, R142)

section
variable {α : Type} (g : Ctx → α) (hg : ∀ (x : Ctx) ls q rs rv, g { x with loops := ls, q := q, rrbS := rs, rrbV := rv } = g x)
include hg

theorem Ctx.ends_of (x : Ctx) (a : Nat) (ls : List Level) : g (x.ends a ls).1 = g x := by
  have rotates (z : Ctx) (r m : Bool) : g (if r then z.rotate m else z) = g z := by
    split
    · exact hg z z.loops _ _ _
    · rfl
  induction ls generalizing x with
  | nil => exact hg x _ x.q x.rrbS x.rrbV
  | cons l ls ih =>
    simp only [Ctx.ends]
    split
    · exact hg x _ x.q x.rrbS x.rrbV
    · split
      · exact (hg _ _ (Ctx.q _) (Ctx.rrbS _) (Ctx.rrbV _)).trans (rotates x _ _)
      · rw [ih]
        split
        · exact (hg _ (Ctx.loops _) _ (Ctx.rrbS _) (Ctx.rrbV _)).trans (hg x x.loops _ _ _)
        · rfl

theorem Ctx.boundary_of (x : Ctx) (a : Nat) (ls : List Level) : g (x.boundary a ls).1 = g x := by
  unfold Ctx.boundary
  dsimp only
  split
  · exact Ctx.ends_of g hg x a ls
  · exact hg x _ x.q x.rrbS x.rrbV
  · exact (hg _ _ (Ctx.q _) (Ctx.rrbS _) (Ctx.rrbV _)).trans (Ctx.ends_of g hg x a _)

theorem Ctx.breakLoop_of (x : Ctx) (a : Nat) : g (x.breakLoop a).1 = g x := by
  unfold Ctx.breakLoop
  split
  · rfl
  · exact hg x _ _ x.rrbS x.rrbV

theorem Ctx.popFor_of (x : Ctx) (a : Nat) : g (x.popFor a) = g x := by
  unfold Ctx.popFor
  dsimp only
  split
  · rfl
  · split
    · rfl
    · exact hg x _ _ x.rrbS x.rrbV

theorem Ctx.enter_of (x : Ctx) (l : Level) : g (x.enter l) = g x := by
  unfold Ctx.enter
  split
  · exact hg x _ _ _ _
  · exact hg x _ x.q x.rrbS x.rrbV

/-- Where a context goes changes its loop levels, guards and rotation bases alone. -/
theorem Ctx.route_of (x : Ctx) (i : Iss) : g (x.route i).1 = g x := by
  unfold Ctx.route
  split
  · exact Ctx.breakLoop_of g hg x _
  · split
    · exact Ctx.enter_of g hg x _
    · dsimp only
      split
      · exact Ctx.boundary_of g hg x _ _
      · dsimp only
        split
        · exact (Ctx.popFor_of g hg _ _).trans (Ctx.boundary_of g hg x _ _)
        · exact Ctx.boundary_of g hg x _ _

end

-- ## Beginning a wait (R143, R145)

theorem Ctx.endWaits_st (x : Ctx) (p : Wait → Bool) : ∃ w, x.endWaits p = { x with st := w } := by
  unfold Ctx.endWaits
  split
  · exact ⟨_, rfl⟩
  · exact ⟨x.st, rfl⟩

theorem State.endWaitAcq_st (s : State) (c x : Nat) (p : Wait → Bool) : ∃ w, (s.endWaitAcq c x p).ctx c x = { s.ctx c x with st := w } := by
  unfold State.endWaitAcq
  dsimp only
  rw [State.ctx_modCtx]
  split
  · exact ⟨_, rfl⟩
  · exact ⟨(s.ctx c x).st, rfl⟩

/-- Beginning the waits of a bundle changes only whether its context waits. -/
theorem State.beginWaits_st (s : State) (c x : Nat) (ws : List Wait) : ∃ w, (s.beginWaits c x ws).ctx c x = { s.ctx c x with st := w } := by
  unfold State.beginWaits
  split
  · exact ⟨(s.ctx c x).st, rfl⟩
  · dsimp only
    have ended (p : Wait → Bool) :
        ∃ w, ((s.modCtx c x fun y => { y with st := .wait ws }).endWait c x p).ctx c x = { s.ctx c x with st := w } := by
      rw [State.endWait, State.ctx_modCtx, State.ctx_modCtx]
      exact Ctx.endWaits_st _ p
    split
    · obtain ⟨w, hw⟩ := ended _
      obtain ⟨w', hw'⟩ := State.endWaitAcq_st _ c x _
      exact ⟨w', hw'.trans (by rw [hw])⟩
    · exact ended _

/-- What a core holds beside its contexts stands when a context begins to wait. -/
theorem State.beginWaits_core (s : State) {α : Type} (g : Core → α) (hg : ∀ (k : Core) (x : Nat) (f : Ctx → Ctx), g (k.modCtx x f) = g k)
    (c x d : Nat) (ws : List Wait) : g ((s.beginWaits c x ws).core d) = g (s.core d) := by
  unfold State.beginWaits
  split
  · rfl
  · dsimp only
    have ended (p : Wait → Bool) : g (((s.modCtx c x fun y => { y with st := .wait ws }).endWait c x p).core d) = g (s.core d) := by
      rw [State.endWait, State.core_modCtx_of _ g hg, State.core_modCtx_of _ g hg]
    split
    · rw [State.endWaitAcq, State.core_modCtx_of _ g hg]
      exact ended _
    · exact ended _

-- ## The check point (R48, R103)

theorem State.core_modCore_of (s : State) {α : Type} (g : Core → α) (c d : Nat) {f : Core → Core} (hf : ∀ k, g (f k) = g k) :
    g ((s.modCore c f).core d) = g (s.core d) := by
  by_cases h : d = c
  · subst h
    rw [State.core_modCore, hf]
  · rw [State.core_modCore_other s h]

/-- The state past the check point but for the context that issued: the core's bundle is held no more, its fresh translations and FIFOs
stand (R46, R208). -/
def State.committed (s : State) (c : Nat) : State :=
  ((s.release c).modCore c fun k => { k with tlb := k.tlb.map fun e => { e with fresh := false } }).commitFifos c

/-- What a core holds beside the bundle that was held and the translations stands. -/
theorem State.committed_core (s : State) {α : Type} (g : Core → α)
    (hg : ∀ (k : Core) f w fl tl, g { k with first := f, walk := w, failed := fl, tlb := tl } = g k) (c d : Nat) :
    g ((s.committed c).core d) = g (s.core d) := by
  have hfifos : ∀ t : State, (t.commitFifos c).core d = t.core d := fun t => by
    unfold State.commitFifos
    split <;> rfl
  rw [State.committed, hfifos, State.core_modCore_of _ g c d fun k => hg k k.first k.walk k.failed _]
  exact State.core_modCore_of s g c d fun k => hg k _ _ _ k.tlb

theorem State.committed_ctx (s : State) (c d y : Nat) : (s.committed c).ctx d y = s.ctx d y :=
  State.committed_core s (fun k => k.ctx y) (fun _ _ _ _ _ => rfl) c d

/-- The registers of a context, its counts, what is in flight to them, and its generation. -/
def Ctx.holding (x : Ctx) := (x.allocS, x.allocV, x.sreg, x.vreg, x.flight, x.gen)

/-- The release of registers at a check point: context `x` of core `c` is `y` without the results in flight to them, and the data of its
loads to them will be discarded (R103). -/
def State.letGo (s : State) (c x : Nat) (y : Ctx) : State := (s.modCtx c x fun _ => y.cancel).modCore c fun k => k.voidLoads x

theorem State.letGo_ctx (s : State) (c x : Nat) (y : Ctx) : (s.letGo c x y).ctx c x = y.cancel := by
  rw [State.letGo, State.ctx_modCore_of _ c (f := fun k => k.voidLoads x) fun _ => rfl, State.ctx_modCtx]

/-- The check point of a bundle with ALLOT or SHRINK: the release, then the bundle's waits and whether the issue slots go (R103, R143). -/
theorem State.checkPoint_allot {s : State} (c x : Nat) (b : Bundle) (old : Ctx) (hd : s.iss.done = false) (ha : s.iss.allot = true) :
    ∃ (y : Ctx) (yields : Bool), y.holding = (s.ctx c x).holding ∧
      let t := ((s.committed c).letGo c x y).beginWaits c x s.iss.wait
      s.checkPoint c x b old = if yields then t.modCore c fun k => k.reschedule x else t := by
  unfold State.checkPoint
  simp only [hd, ha, if_true, Bool.false_eq_true, if_false]
  refine ⟨_, _, ?_, rfl⟩
  refine (Ctx.route_of Ctx.holding (fun _ _ _ _ _ => rfl) ((s.committed c).ctx c x) s.iss).trans ?_
  rw [State.committed_ctx]

/-- Giving the issue slots away leaves what the core holds beside its contexts and its choice of one. -/
theorem Core.reschedule_access (k : Core) (x : Nat) : (k.reschedule x).access = k.access := by
  unfold Core.reschedule
  split
  · rfl
  · dsimp only
    split <;> rfl

/-- What stands past that check point: of the context all that the release holds, and the core's accesses as the release leaves them. -/
theorem State.checkPoint_releases {s : State} (c x : Nat) (b : Bundle) (old : Ctx) (hd : s.iss.done = false) (ha : s.iss.allot = true) :
    ∃ y : Ctx, y.holding = (s.ctx c x).holding ∧ ((s.checkPoint c x b old).ctx c x).holding = y.cancel.holding ∧
      ((s.checkPoint c x b old).core c).access = (((s.committed c).letGo c x y).core c).access := by
  obtain ⟨y, yields, hy, he⟩ := State.checkPoint_allot c x b old hd ha
  obtain ⟨w, hw⟩ := State.beginWaits_st ((s.committed c).letGo c x y) c x s.iss.wait
  have hctx := congrArg Ctx.holding (hw.trans (congrArg (fun z : Ctx => { z with st := w }) (State.letGo_ctx (s.committed c) c x y)))
  have hacc := State.beginWaits_core ((s.committed c).letGo c x y) Core.access (fun _ _ _ => rfl) c x c s.iss.wait
  refine ⟨y, hy, ?_⟩
  rw [he]
  split
  · refine ⟨?_, ?_⟩
    · obtain ⟨p, hp⟩ := Core.reschedule_ctx ((((s.committed c).letGo c x y).beginWaits c x s.iss.wait).core c) x x
      rw [State.ctx, State.core_modCore, hp]
      exact hctx
    · rw [State.core_modCore, Core.reschedule_access, hacc]
  · exact ⟨hctx, hacc⟩

/-- Exactly the results in flight to released registers are cancelled (R103). -/
theorem Ctx.mem_cancel (x : Ctx) (f : Flight) : f ∈ x.cancel.flight ↔ f ∈ x.flight ∧
    ∀ r, (∀ v, f.eff = .sreg (some r) v → r < x.allocS) ∧ (∀ v, f.eff = .vreg (some r) v → r < x.allocV) ∧
      (∀ v, f.eff = .vplain r v → r < x.allocV) := by
  rw [Ctx.cancel, List.mem_filter]
  refine and_congr_right fun _ => ?_
  obtain ⟨due, iss, pos, addr, causes, eff⟩ := f
  cases eff with
  | sreg slot v => cases slot <;> simp
  | vreg slot v => cases slot <;> simp
  | vplain n v => simp
  | _ => simp

/-- Every access of the context to a released register has its data marked to be discarded (R103). -/
theorem Core.voidLoads_void (k : Core) (n : Nat) {a : Access} (h : a ∈ (k.voidLoads n).access) {v : Bool} {r : Nat}
    (hdest : a.dest = some (v, r)) (hof : a.of n (k.ctx n).gen = true) (hr : (if v then (k.ctx n).allocV else (k.ctx n).allocS) ≤ r) :
    a.void = true := by
  obtain ⟨e, -, rfl⟩ := List.mem_map.1 h
  rcases he : e.dest with _ | ⟨w, m⟩
  · simp only [he] at hdest
    cases hdest
  · simp only [he] at hdest hof ⊢
    by_cases hc : (e.of n (k.ctx n).gen && decide ((if w = true then (k.ctx n).allocV else (k.ctx n).allocS) ≤ m)) = true
    · rw [if_pos hc]
    · rw [if_neg hc] at hdest hof
      obtain ⟨rfl, rfl⟩ : w = v ∧ m = r := by simpa [he] using hdest
      exact absurd (by rw [hof, decide_eq_true hr]; rfl) hc

/-- Settles O10: the counts and registers go as R104 gives, and the check point releases exactly what lies at or above them. -/
theorem allotAndShrink : Obligations.AllotAndShrink := by
  intro s g m n sets
  refine ⟨fun h hb => ?allot, fun h hb => ?shrink, fun t c x b old hd ha => ?checkPoint⟩ <;> dsimp only [exec]
  case allot =>
    rw [execAllot, sop_runs_of h hb rfl]
    simp only [State.entered_iss]
    refine ⟨fun hs => ⟨_, _, if_pos hs⟩, fun hv => ?_, fun hs hv => ?_⟩
    · by_cases hs : (s.entered (.allot g m n)).curCore.freeS < m.toNat - s.iss.allocS
      · exact ⟨_, _, if_pos hs⟩
      · exact ⟨_, _, (if_neg hs).trans (if_pos hv)⟩
    · exact ⟨_, (if_neg (by omega)).trans (if_neg (by omega)), State.setAllot_sets (State.entered_iss s _) _ _⟩
  case shrink =>
    rw [execShrink, sop_runs_of h hb rfl, State.entered_iss]
    exact ⟨_, rfl, State.setAllot_sets (State.entered_iss s _) _ _⟩
  case checkPoint =>
    obtain ⟨y, hy, hctx, hacc⟩ := State.checkPoint_releases c x b old hd ha
    simp only [Ctx.holding, Prod.mk.injEq] at hy hctx
    obtain ⟨hallocS, hallocV, hsreg, hvreg, hflight, hgen⟩ := hy
    obtain ⟨uallocS, uallocV, usreg, uvreg, uflight, -⟩ := hctx
    have hlive : ((t.committed c).modCtx c x fun _ => y.cancel).ctx c x = y.cancel := State.ctx_modCtx _ _ _ _
    rw [State.letGo, State.core_modCore] at hacc
    refine ⟨uallocS.trans hallocS, uallocV.trans hallocV, usreg.trans hsreg, uvreg.trans hvreg, fun f => ?_, ?_, fun a ha v r hdest hof hr => ?_⟩
    · rw [uflight, Ctx.mem_cancel, hflight, hallocS, hallocV]
    · rw [hacc, Core.voidLoads, List.length_map, State.core_modCtx_of _ Core.access (fun _ _ _ => rfl),
        State.committed_core _ Core.access (fun _ _ _ _ _ => rfl)]
    · rw [hacc] at ha
      refine Core.voidLoads_void _ _ ha hdest ?_ ?_
      · exact (congrArg (fun z : Ctx => a.of x z.gen) hlive).trans ((congrArg (a.of x) hgen).trans hof)
      · have hz : (if v then y.allocV else y.allocS) ≤ r := by rw [hallocV, hallocS]; exact hr
        exact (congrArg (fun z : Ctx => if v then z.allocV else z.allocS) hlive).trans_le hz

end Sys2Proof.Machine
end

section
/-! SUPPORT. Loop levels: the guards and rotation bases at a boundary, the levels that end, are left or are popped, and the way of a context
past its bundle (R135, R139, R140, R142). -/

namespace Sys2Proof.Machine

-- ## The guards of a LOOPR body (R139, R140, R142)

/-- Clearing q8 to q15 leaves the guards below them (R140). -/
theorem getLsbD_lowGuards (q : BitVec 16) {n : Nat} (hn : n < 16) : (q &&& 0x00FF).getLsbD n = (decide (n < 8) && q.getLsbD n) := by
  have hmask : ∀ n, n < 16 → (0x00FF : BitVec 16).getLsbD n = decide (n < 8) := by decide
  rw [BitVec.getLsbD_and, hmask n hn, Bool.and_comm]

/-- A level that begins sets q8 alone among q8 to q15 (R139). -/
theorem getLsbD_firstGuard (q : BitVec 16) {n : Nat} (hn : n < 16) :
    ((q &&& 0x00FF) ||| 0x0100).getLsbD n = if n < 8 then q.getLsbD n else decide (n = 8) := by
  have hbit : ∀ n, n < 16 → (0x0100 : BitVec 16).getLsbD n = decide (n = 8) := by decide
  rw [BitVec.getLsbD_or, getLsbD_lowGuards q hn, hbit n hn]
  by_cases h : n < 8
  · simp [h, Nat.ne_of_lt h]
  · simp [h]

/-- The guard shift: q8 to q14 move up by one, and q8 says whether the next iteration is one of the count (R140). -/
theorem Ctx.rotate_guards (x : Ctx) (more : Bool) {n : Nat} (hn : n < 16) :
    (x.rotate more).q.getLsbD n = if n < 8 then x.q.getLsbD n else if n = 8 then more else x.q.getLsbD (n - 1) := by
  have hhigh : ∀ n, n < 16 → (0xFF00 : BitVec 16).getLsbD n = decide (8 ≤ n) := by decide
  have hbit : ∀ n, n < 16 → (if more then 0x0100 else 0 : BitVec 16).getLsbD n = (more && decide (n = 8)) := by
    cases more <;> decide
  simp only [Ctx.rotate, Nat.cast_ofNat, BitVec.getLsbD_or, getLsbD_lowGuards x.q hn, hbit n hn, BitVec.getLsbD_shiftLeft,
    BitVec.getLsbD_and, hhigh (n - 1) (by omega)]
  rcases Nat.lt_trichotomy n 8 with h | rfl | h
  · simp [h, Nat.ne_of_lt h, show ¬8 ≤ n - 1 by omega]
  · simp
  · simp [hn, show ¬n < 8 by omega, Nat.ne_of_gt h, show 8 ≤ n - 1 by omega, show n ≠ 0 by omega]

-- ## The end of an iteration (R140)

theorem Level.rot_iff {l : Level} : l.rot = true ↔ l.kind = 2 := decide_eq_true_iff

/-- A level after one of its iterations (R140). -/
def Level.next (l : Level) : Level := { l with left := l.left - 1, it := if l.rot then l.it + 1 else l.it }

/-- The rotation and the guard shift at the end of an iteration of a LOOPR level; another level has none (R140). -/
def Ctx.turned (x : Ctx) (l : Level) : Ctx := if l.rot then x.rotate (decide (l.next.it < l.n)) else x

/-- The context at the end of a level's last iteration, but for its levels: the guards that a LOOPR level has written are false (R140). -/
def Ctx.ended (x : Ctx) (l : Level) : Ctx := if l.rot then { x.turned l with q := (x.turned l).q &&& 0x00FF } else x.turned l

theorem Ctx.turned_rot (x : Ctx) {l : Level} (h : l.kind = 2) : x.turned l = x.rotate (decide (l.it + 1 < l.n)) := by
  simp only [Ctx.turned, Level.next, Level.rot_iff.2 h, if_true]

theorem Ctx.turned_plain (x : Ctx) {l : Level} (h : l.kind ≠ 2) : x.turned l = x := if_neg (mt Level.rot_iff.1 h)

theorem Ctx.ended_rot (x : Ctx) {l : Level} (h : l.kind = 2) :
    x.ended l = { x.turned l with q := (x.turned l).q &&& 0x00FF } := if_pos (Level.rot_iff.2 h)

theorem Ctx.ended_plain (x : Ctx) {l : Level} (h : l.kind ≠ 2) : x.ended l = x :=
  (if_neg (mt Level.rot_iff.1 h)).trans (x.turned_plain h)

theorem Ctx.ended_loops (x : Ctx) (m : List Level) (l : Level) : ({ x with loops := m } : Ctx).ended l = { x.ended l with loops := m } := by
  unfold Ctx.ended Ctx.turned
  cases l.rot <;> rfl

/-- The guards after the last iteration of a LOOPR level (R140). -/
theorem Ctx.ended_guards (x : Ctx) {l : Level} (h : l.kind = 2) {n : Nat} (hn : n < 16) :
    (x.ended l).q.getLsbD n = (decide (n < 8) && x.q.getLsbD n) := by
  rw [Ctx.ended_rot x h]
  dsimp only
  rw [getLsbD_lowGuards _ hn, Ctx.turned_rot x h, Ctx.rotate_guards x _ hn]
  by_cases h8 : n < 8 <;> simp [h8]

-- ## The boundary, level by level (R140)

/-- Where the innermost of the levels does not end, they stand. -/
theorem Ctx.ends_elsewhere (x : Ctx) {a : Nat} {ls : List Level} (h : ∀ o ∈ ls.head?, o.last ≠ a) :
    x.ends a ls = ({ x with loops := ls }, a + 16) := by
  cases ls with
  | nil => rfl
  | cons l ls => exact if_pos (h l rfl)

/-- A level with an iteration left goes back to its first bundle. -/
theorem Ctx.ends_again (x : Ctx) {a : Nat} {l : Level} (ls : List Level) (hl : l.last = a) (h : 1 < l.left) :
    x.ends a (l :: ls) = ({ x.turned l with loops := l.next :: ls }, l.first) := by
  subst hl
  have hleft : 0 < l.left - 1 := by omega
  simp only [Ctx.ends, ne_eq, not_true_eq_false, if_false, hleft, if_true]
  rfl

/-- A level without one is left, and the levels outside it end in the same way. -/
theorem Ctx.ends_over (x : Ctx) {a : Nat} {l : Level} (ls : List Level) (hl : l.last = a) (h : l.left ≤ 1) :
    x.ends a (l :: ls) = (x.ended l).ends a ls := by
  subst hl
  have hleft : ¬0 < l.left - 1 := by omega
  simp only [Ctx.ends, ne_eq, not_true_eq_false, if_false, hleft]
  rfl

/-- The levels that a boundary is given decide, not those that the context holds. -/
theorem Ctx.ends_loops (x : Ctx) (a : Nat) (m ls : List Level) : ({ x with loops := m } : Ctx).ends a ls = x.ends a ls := by
  induction ls generalizing x with
  | nil => rfl
  | cons l ls ih =>
    by_cases hl : l.last = a
    · by_cases hleft : 1 < l.left
      · rw [Ctx.ends_again _ ls hl hleft, Ctx.ends_again x ls hl hleft]
        unfold Ctx.turned
        cases l.rot <;> rfl
      · rw [Ctx.ends_over _ ls hl (by omega), Ctx.ends_over x ls hl (by omega), Ctx.ended_loops, ih]
    · have hhead : ∀ o ∈ (l :: ls).head?, o.last ≠ a := fun o ho => Option.some.inj ho ▸ hl
      rw [Ctx.ends_elsewhere _ hhead, Ctx.ends_elsewhere x hhead]

/-- Where no level ends, the context stands as it is and goes on in sequence. -/
theorem Ctx.boundary_none (x : Ctx) {a : Nat} (h : ∀ v ∈ x.loops, v.last ≠ a) : x.boundary a x.loops = (x, a + 16) := by
  have hp : ∀ v ∈ x.loops, decide (v.last ≠ a) = true := fun v hv => decide_eq_true (h v hv)
  unfold Ctx.boundary
  dsimp only
  rw [List.takeWhile_eq_self_iff.2 hp, List.dropWhile_eq_nil_iff.2 hp]
  cases hx : x.loops with
  | nil => exact congrArg (fun ls => (({ x with loops := ls } : Ctx), a + 16)) hx.symm
  | cons l ls => exact congrArg (fun ls => (({ x with loops := ls } : Ctx), a + 16)) hx.symm

/-- Where the innermost level ends, the boundary begins with it. -/
theorem Ctx.boundary_head (x : Ctx) {a : Nat} {l : Level} (ls : List Level) (h : l.last = a) :
    x.boundary a (l :: ls) = x.ends a (l :: ls) := by
  have hinner : (l :: ls).takeWhile (fun l => decide (l.last ≠ a)) = [] := List.takeWhile_cons_of_neg (by simp [h])
  simp only [Ctx.boundary, hinner]

-- ## The way past a bundle (R135, R136, R139, R140, R142)

section
variable (y : Ctx) {k : Iss}

theorem Ctx.route_lbrk (h : k.lbrk = true) : y.route k = y.breakLoop k.addr := if_pos h

theorem Ctx.route_push {v : Level} (hb : k.lbrk = false) (hp : k.push = some v) : y.route k = (y.enter v, k.addr + 16) := by
  simp only [Ctx.route, hb, hp, Bool.false_eq_true, if_false]

theorem Ctx.route_straight (hb : k.lbrk = false) (hp : k.push = none) (hx : k.xfer = none) : y.route k = y.boundary k.addr y.loops := by
  simp only [Ctx.route, hb, hp, hx, Bool.false_eq_true, if_false]

theorem Ctx.route_xfer {t : Xfer} (hb : k.lbrk = false) (hp : k.push = none) (hx : k.xfer = some t) : y.route k =
    (if t.pops then (y.boundary k.addr y.loops).1.popFor t.target else (y.boundary k.addr y.loops).1, t.target) := by
  simp only [Ctx.route, hb, hp, hx, Bool.false_eq_true, if_false]

end

/-- Settles O13: the boundary is followed level by level, and a level that is left hands it to the levels outside it. -/
theorem loopBoundary : Obligations.LoopBoundary := by
  intro y k hp hb hx
  refine ⟨fun h => ?_, fun t => ?_, fun l ls hls hl => ⟨fun hleft => ?_, fun hleft => ?_⟩⟩
  · rw [Ctx.route_straight y hb hp hx, Ctx.boundary_none y h]
  · dsimp only
    rw [Ctx.route_xfer (k := { k with xfer := some t }) y hb hp rfl, Ctx.route_straight y hb hp hx]
    exact ⟨rfl, fun h => by rw [h]; rfl, fun h => by rw [h]; rfl⟩
  · rw [Ctx.route_straight y hb hp hx, hls, Ctx.boundary_head y ls hl, Ctx.ends_again y ls hl hleft]
    refine ⟨rfl, ?_, fun hk => ?_, fun hk => ?_⟩
    · simp only [Level.next, Level.rot_iff]
    · rw [Ctx.turned_plain y hk]
      exact ⟨rfl, rfl, rfl⟩
    · rw [Ctx.turned_rot y hk]
      exact ⟨rfl, rfl, fun q hq => Ctx.rotate_guards y _ hq⟩
  · have hroute : y.route k = (y.ended l).ends k.addr ls := by
      rw [Ctx.route_straight y hb hp hx, hls, Ctx.boundary_head y ls hl, Ctx.ends_over y ls hl hleft]
    refine ⟨{ y.ended l with loops := ls }, rfl, fun hk => ⟨?_, ?_, fun q hq => Ctx.ended_guards y hk hq⟩, fun hk => ?_,
      fun ho => ?_, fun ho => ?_⟩
    · rw [Ctx.ended_rot y hk, Ctx.turned_rot y hk, Ctx.rotate]
    · rw [Ctx.ended_rot y hk, Ctx.turned_rot y hk, Ctx.rotate]
    · rw [Ctx.ended_plain y hk]
    · obtain ⟨o, hmem, hlast⟩ := ho
      obtain ⟨os, rfl⟩ := List.head?_eq_some_iff.1 hmem
      rw [hroute, Ctx.route_straight _ hb hp hx, Ctx.boundary_head _ os hlast]
      exact (Ctx.ends_loops (y.ended l) k.addr (o :: os) (o :: os)).symm
    · rw [hroute, Ctx.ends_elsewhere _ ho]

-- ## A transfer asked of the check point (R136)

/-- A transfer takes effect where no lower position of the bundle has asked for one (R136). -/
theorem State.canTransfer_iff {s : State} : s.canTransfer = true ↔ s.iss.xfer = none ∧ s.iss.lbrk = false := by
  rw [State.canTransfer, Bool.and_eq_true, Option.isNone_iff_eq_none, Bool.not_eq_true']

theorem State.canTransfer_false_iff {s : State} : s.canTransfer = false ↔ s.iss.xfer ≠ none ∨ s.iss.lbrk = true := by
  rw [← Bool.not_eq_true, State.canTransfer_iff, not_and_or, Bool.not_eq_false]

@[simp] theorem State.canTransfer_entered (s : State) (i : Instr) : (s.entered i).canTransfer = s.canTransfer := by
  rw [State.canTransfer, State.entered_iss, State.canTransfer]

theorem State.transfer_first {s : State} (x : Xfer) (h : s.canTransfer = true) :
    s.transfer x = { s with iss := { s.iss with xfer := some x } } := by
  obtain ⟨hx, hb⟩ := State.canTransfer_iff.1 h
  rw [State.transfer, hx, hb]
  rfl

theorem State.transfer_second {s : State} (x : Xfer) (h : s.canTransfer = false) : s.transfer x = s := by
  have hc : (s.iss.xfer.isSome || s.iss.lbrk) = true := by
    rw [Bool.or_eq_true, Option.isSome_iff_ne_none]
    exact State.canTransfer_false_iff.1 h
  exact if_pos hc

-- ## Levels that are left or popped (R135, R142)

/-- LBRK leaves the innermost level for the bundle after its body (R142). -/
theorem Ctx.breakLoop_cons (y : Ctx) (a : Nat) {l : Level} {ls : List Level} (hls : y.loops = l :: ls) :
    y.breakLoop a = ({ y with loops := ls, q := if l.rot then y.q &&& 0x00FF else y.q }, l.last + 16) := by
  simp only [Ctx.breakLoop, hls]

/-- A taken BR that stays in the innermost body pops nothing (R135). -/
theorem Ctx.popFor_head (y : Ctx) {t : Nat} (h : ∀ l ∈ y.loops.head?, l.first ≤ t ∧ t ≤ l.last) : y.popFor t = y := by
  cases hls : y.loops with
  | nil => simp only [Ctx.popFor, hls]
  | cons l ls =>
    obtain ⟨hfirst, hlast⟩ := h l (by rw [hls]; rfl)
    simp only [Ctx.popFor, hls, hfirst, hlast, decide_true, Bool.and_self, if_true]

/-- A LOOPR level is among those that a taken BR drops: the levels it keeps are those outside the innermost whose body holds the target. -/
theorem dropped_rot_iff {l : Level} {ls : List Level} {holds : Level → Bool} (hl : holds l = false) :
    ((l :: ls).any fun m => m.rot && !(ls.filter holds).contains m) = true ↔ ∃ v ∈ l :: ls, v.kind = 2 ∧ holds v = false := by
  rw [List.any_eq_true]
  refine exists_congr fun v => and_congr_right fun hv => ?_
  have hkept : (ls.filter holds).contains v = holds v := by
    rw [Bool.eq_iff_iff, List.contains_iff_mem, List.mem_filter]
    refine ⟨And.right, fun h => ⟨(List.mem_cons.1 hv).resolve_left fun e => ?_, h⟩⟩
    exact Bool.false_ne_true (hl.symm.trans (e ▸ h))
  rw [hkept, Bool.and_eq_true, Level.rot_iff, Bool.not_eq_true']

/-- A taken BR out of the innermost body keeps the levels whose body holds its target (R135). -/
theorem Ctx.popFor_out (y : Ctx) {l : Level} {ls : List Level} {t : Nat} (hls : y.loops = l :: ls) (h : ¬(l.first ≤ t ∧ t ≤ l.last)) :
    let kept := ls.filter fun v => decide (v.first ≤ t ∧ t ≤ v.last)
    y.popFor t = { y with
      loops := kept, q := if (l :: ls).any (fun m => m.rot && !kept.contains m) then y.q &&& 0x00FF else y.q } := by
  simp only [Ctx.popFor, hls, ← Bool.decide_and, decide_eq_true_eq]
  exact if_neg h

/-- Settles O14: LBRK's request, the level it leaves, and the levels that a taken BR drops. -/
theorem loopLeave : Obligations.LoopLeave := by
  intro s g
  have hs : s.entered (.lbrk g) = s := State.entered_of_no_source rfl rfl s
  have hexec (hr : s.runs (.lbrk g) = true) (hb : s.iss.xferBad = false) (hl : s.cur.loops ≠ []) : exec (.lbrk g) s =
      if s.canTransfer then .next (s.modIss fun i => { i with lbrk := true }) else .next s := by
    dsimp only [exec]
    rw [execLbrk, sop_runs_of hr (by rw [hb, List.isEmpty_eq_false_iff.2 hl]; rfl) rfl, hs]
  refine ⟨fun hr hb hl hx hk => ?_, fun hr hb hl h => ?_, fun y k l ls hls hk => ?_, fun y t h => Ctx.popFor_head y h,
    fun y l ls t hls h => ?_⟩
  · rw [hexec hr hb hl, if_pos (State.canTransfer_iff.2 ⟨hx, hk⟩)]
    rfl
  · rw [hexec hr hb hl, if_neg (ne_true_of_eq_false (State.canTransfer_false_iff.2 h))]
  · rw [Ctx.route_lbrk y hk, Ctx.breakLoop_cons y _ hls]
    refine ⟨rfl, fun hrot => ?_, fun hrot => ⟨_, rfl, fun n hn => ?_⟩⟩
    · rw [if_neg (mt Level.rot_iff.1 hrot)]
    · rw [if_pos (Level.rot_iff.2 hrot), getLsbD_lowGuards y.q hn]
  · have hdrop := dropped_rot_iff (ls := ls) (holds := fun v => decide (v.first ≤ t ∧ t ≤ v.last)) (decide_eq_false h)
    simp only [decide_eq_false_iff_not] at hdrop
    refine ⟨_, Ctx.popFor_out y hls h, fun hr n hn => ?_, fun hr => if_neg (mt hdrop.1 hr)⟩
    rw [if_pos (hdrop.2 hr), getLsbD_lowGuards y.q hn]

-- ## Levels that begin (R137 to R139)

/-- The conditions of R138, and those of R136 on a loop instruction. -/
theorem State.loopBad_iff {s : State} {len : Nat} {rot : Bool} : s.loopBad len rot = true ↔
    s.iss.ops.any (fun o => isLoopOp o || isTransferOp o) = true ∨ 4 ≤ s.cur.loops.length ∨ (rot = true ∧ s.cur.inLoopr = true) ∨
      ∃ v ∈ s.cur.loops.head?, v.last < s.iss.addr + 16 * len := by
  simp only [State.loopBad, Iss.loopBad, Bool.or_eq_true, Bool.and_eq_true, decide_eq_true_eq, or_assoc]
  cases s.cur.loops with
  | nil => simp
  | cons l ls => simp

theorem State.startLoop_zero {s : State} (len drain kind : Nat) (h : s.canTransfer = true) :
    s.startLoop 0 len drain kind = { s with iss := { s.iss with xfer := some ⟨s.iss.addr + 16 * (len + 1), 3, false⟩ } } :=
  State.transfer_first ⟨s.iss.addr + 16 * (len + 1), 3, false⟩ h

theorem State.startLoop_level (s : State) {n : Nat} (len drain kind : Nat) (hn : n ≠ 0) : s.startLoop n len drain kind =
    { s with iss := { s.iss with push := some ⟨s.iss.addr + 16, s.iss.addr + 16 * len, n + drain, kind, n, 0⟩ } } := if_neg hn

/-- What a loop instruction of `len` bundles and a count does (R138, R139). -/
theorem exec_loopOp {s : State} {i : Instr} {len drain kind : Nat} {count : State → Nat} {rot : Bool}
    (hexec : exec i s = sop i (s.loopBad len rot) false s fun u => .next (u.startLoop (count u) len drain kind))
    (hlen : len = 0 → i.wf = false) :
    let base := s.iss.addr
    let u := s.entered i
    let bad := s.iss.ops.any (fun o => isLoopOp o || isTransferOp o) = true ∨ 4 ≤ s.cur.loops.length ∨
      (rot = true ∧ s.cur.inLoopr = true) ∨ ∃ v ∈ s.cur.loops.head?, v.last < base + 16 * len
    (s.runs i = true → ¬bad → s.iss.xfer = none → s.iss.lbrk = false → count u = 0 →
      exec i s = .next { u with iss := { u.iss with xfer := some ⟨base + 16 * (len + 1), 3, false⟩ } }) ∧
    (s.runs i = true → ¬bad → count u ≠ 0 →
      exec i s = .next { u with iss := { u.iss with push := some ⟨base + 16, base + 16 * len, count u + drain, kind, count u, 0⟩ } }) ∧
    (s.guardOff i = true → ¬bad → exec i s = .next s) ∧
    (bad ∨ len = 0 → exec i s = s.illegal) := by
  dsimp only
  rw [hexec, ← State.loopBad_iff]
  refine ⟨fun hr hb hx hk hn => ?_, fun hr hb hn => ?_, fun hg hb => ?_, fun h => sop_illegal _ ?_ _⟩
  · have hcan : (s.entered i).canTransfer = true := (s.canTransfer_entered i).trans (State.canTransfer_iff.2 ⟨hx, hk⟩)
    rw [sop_runs_of hr (eq_false_of_ne_true hb) rfl, hn, State.startLoop_zero len drain kind hcan, State.entered_iss]
  · rw [sop_runs_of hr (eq_false_of_ne_true hb) rfl, State.startLoop_level _ len drain kind hn, State.entered_iss]
  · rw [eq_false_of_ne_true hb, sop_guardOff hg]
  · exact h.symm.imp hlen Or.inr

/-- An immediate that the extension byte widens (R33). -/
theorem immU20_some (e : BitVec 8) (m : BitVec 12) : immU20 (some e) m = e.toNat * 4096 + m.toNat := by
  rw [immU20, BitVec.toNat_append, ← Nat.shiftLeft_add_eq_or_of_lt m.isLt, Nat.shiftLeft_eq]

/-- LOOPI's length and count, f1 and the immediate below the two halves of the extension byte (R137). -/
theorem loopiLen_eq (l : Code) (x : Ext) : loopiLen l x = l.toNat + x.byte.toNat / 16 * 64 := by
  have hhigh : bits x.byte.toNat 7 4 = x.byte.toNat / 16 := Nat.mod_eq_of_lt (by have := x.byte.isLt; omega)
  rw [loopiLen, hhigh, Nat.mul_comm]

theorem loopiCount_eq (n : BitVec 12) (x : Ext) : loopiCount n x = n.toNat + x.byte.toNat % 16 * 4096 := by
  rw [loopiCount, bits_low, Nat.mul_comm]
  rfl

-- a body of no bundles is no encoding of a loop instruction (R138)
theorem loop_wf_of_zero {g : Guard} {a : Code} {m : BitVec 12} {x : Ext} (h : immU20 x m = 0) : (Instr.loop g a m x).wf = false :=
  decide_eq_false (p := immU20 x m ≠ 0) (not_not_intro h)
theorem loopi_wf_of_zero {g : Guard} {l : Code} {n : BitVec 12} {x : Ext} (h : loopiLen l x = 0) : (Instr.loopi g l n x).wf = false :=
  decide_eq_false (p := loopiLen l x ≠ 0) (not_not_intro h)
theorem loopr_wf_of_zero {g : Guard} {a : Code} {m : BitVec 12} {x : Ext} (h : m.toNat = 0) : (Instr.loopr g a m x).wf = false := by
  have hm : m = 0 := BitVec.eq_of_toNat_eq h
  subst hm
  exact Bool.and_false _

/-- A level that begins is the innermost (R139). -/
theorem Ctx.enter_rot (y : Ctx) {v : Level} (h : v.kind = 2) :
    y.enter v = { y with loops := v :: y.loops, rrbS := 0, rrbV := 0, q := (y.q &&& 0x00FF) ||| 0x0100 } := if_pos (Level.rot_iff.2 h)

theorem Ctx.enter_plain (y : Ctx) {v : Level} (h : v.kind ≠ 2) : y.enter v = { y with loops := v :: y.loops } :=
  if_neg (mt Level.rot_iff.1 h)

theorem Ctx.enter_loops (y : Ctx) (v : Level) : (y.enter v).loops = v :: y.loops := by
  unfold Ctx.enter
  split <;> rfl

/-- Settles O12: the three loop instructions are one operation, whose request the check point takes. -/
theorem loopStart : Obligations.LoopStart := by
  intro s g a l b m n x base starts wide
  have hwide : wide = immU20 x m := by
    cases x with
    | none => rfl
    | some e => exact (immU20_some e m).symm
  refine ⟨?loop, ?loopi, ?loopr, fun h => ?_, fun h => ?_, fun y k v hb hp => ?_⟩
  case loop =>
    have hexec : exec (.loop g a m x) s = sop (.loop g a m x) (s.loopBad wide false) false s
        fun u => .next (u.startLoop ((u.rdS a).toNat % 2 ^ 32) wide 0 0) := by
      rw [hwide]
      rfl
    exact exec_loopOp hexec fun h => loop_wf_of_zero (hwide.symm.trans h)
  case loopi =>
    have hexec : exec (.loopi g l n x) s = sop (.loopi g l n x) (s.loopBad (l.toNat + x.byte.toNat / 16 * 64) false) false s
        fun u => .next (u.startLoop (n.toNat + x.byte.toNat % 16 * 4096) (l.toNat + x.byte.toNat / 16 * 64) 0 1) := by
      rw [← loopiLen_eq, ← loopiCount_eq]
      rfl
    exact exec_loopOp (count := fun _ => n.toNat + x.byte.toNat % 16 * 4096) hexec
      fun h => loopi_wf_of_zero ((loopiLen_eq l x).trans h)
  case loopr =>
    have hdrain : bits x.byte.toNat 2 0 = x.byte.toNat % 8 := bits_low _ 2
    have hexec : exec (.loopr g a m x) s = sop (.loopr g a m x) (s.loopBad m.toNat true) false s
        fun u => .next (u.startLoop ((u.rdS a).toNat % 2 ^ 32) m.toNat (x.byte.toNat % 8) 2) := by
      rw [← hdrain]
      rfl
    exact exec_loopOp hexec loopr_wf_of_zero
  · have hbad : s.allotBad = true := by simp only [State.allotBad, h, Bool.or_true, Bool.true_or]
    dsimp only [exec]
    rw [execAllot, execShrink]
    exact ⟨sop_illegal _ (Or.inr (Or.inr hbad)) _, sop_illegal _ (Or.inr (Or.inr hbad)) _⟩
  · have hbad : (s.iss.xferBad || s.cur.loops.isEmpty) = true := by rw [h]; exact Bool.or_true _
    dsimp only [exec]
    rw [execLbrk]
    exact sop_illegal _ (Or.inr (Or.inr hbad)) _
  · rw [Ctx.route_push y hb hp]
    refine ⟨rfl, Ctx.enter_loops y v, fun hk => ?_, fun hk => Ctx.enter_plain y hk⟩
    rw [Ctx.enter_rot y hk]
    exact ⟨rfl, rfl, fun q hq => getLsbD_firstGuard y.q hq⟩

end Sys2Proof.Machine
end

section
/-! SUPPORT. Branches: prepared targets, transfers asked of the check point, the bubbles from the check point on (R132, R134 to R136). -/

namespace Sys2Proof.Machine

-- ## Targets (R131, R134)

/-- Extending the sign past a width that is cut again makes no difference. -/
theorem setWidth_signExtend {w : Nat} (x : BitVec w) {m n : Nat} (h : m ≤ n) : (x.signExtend n).setWidth m = x.signExtend m := by
  ext k hk
  rw [BitVec.getElem_setWidth, BitVec.getLsbD_signExtend, BitVec.getElem_signExtend]
  have hn : k < n := by omega
  by_cases hw : k < w <;> simp [hn, hw, BitVec.getLsbD_eq_getElem]

/-- A bundle's number is bits 56:4 of its address. -/
theorem bundleNo_toNat (v : Word) : bundleNo v.toNat = v.extractLsb' 4 53 :=
  BitVec.eq_of_toNat_eq (by rw [bundleNo, BitVec.toNat_ofNat, BitVec.extractLsb'_toNat, Nat.shiftRight_eq_div_pow])

theorem exec_prep_runs {s : State} {g : Guard} {j : Code} {i : BitVec 12} {x : Ext} (h : s.runs (.prep g j i x) = true) :
    let u := s.entered (.prep g j i x)
    exec (.prep g j i x) s =
      .next (u.later 1 0 (.target j.toNat (BitVec.ofNat 53 (s.iss.addr / 16) + (immS20 x i).setWidth 53) u.cur.issued)) := by
  dsimp only [exec]
  rw [execPrep, sop_runs h, State.entered_iss]
  rfl

theorem exec_prepr_runs {s : State} {g : Guard} {j a : Code} (h : s.runs (.prepr g j a) = true) :
    let u := s.entered (.prepr g j a)
    exec (.prepr g j a) s = if (u.rdS a).toNat % 16 ≠ 0 then u.align3 (u.rdS a)
      else .next (u.later 1 0 (.target j.toNat ((u.rdS a).extractLsb' 4 53) u.cur.issued)) := by
  dsimp only [exec]
  rw [execPrepr, sop_runs h, ← bundleNo_toNat]

-- ## BR, BRL and RET beside no loop instruction (R134, R136)

section
variable {s : State} {g : Guard} {j d a : Code}

theorem exec_br_runs (h : s.runs (.br g j) = true) (hb : s.iss.xferBad = false) :
    let u := s.entered (.br g j)
    exec (.br g j) s =
      if u.cur.condAt j.toNat then .next (u.transfer ⟨u.cur.targetAt j.toNat, u.cur.bubbles j.toNat, true⟩) else .next u := by
  dsimp only [exec]
  rw [execBr, sop_runs_of h hb rfl]

theorem exec_brl_runs (h : s.runs (.brl g j d) = true) (hb : s.iss.xferBad = false) :
    let u := s.entered (.brl g j d)
    exec (.brl g j d) s = if u.cur.condAt j.toNat && u.canTransfer then
        .next ((u.transfer ⟨u.cur.targetAt j.toNat, u.cur.bubbles j.toNat, false⟩).putS 1 0 d (BitVec.ofNat 64 (s.iss.addr + 16)))
      else .next u := by
  dsimp only [exec]
  rw [execBrl, sop_runs_of h hb rfl, State.entered_iss]

theorem exec_ret_runs (h : s.runs (.ret g a) = true) (hb : s.iss.xferBad = false) :
    let u := s.entered (.ret g a)
    exec (.ret g a) s = if (u.rdS a).toNat % 16 ≠ 0 then u.align3 (u.rdS a)
      else .next (u.transfer ⟨((u.rdS a).extractLsb' 4 53).toNat * 16, 3, false⟩) := by
  dsimp only [exec]
  rw [execRet, sop_runs_of h hb rfl, ← bundleNo_toNat]

/-- The three beside a loop instruction in a lower position (R136). -/
theorem exec_transfer_illegal (hb : s.iss.xferBad = true) :
    exec (.br g j) s = s.illegal ∧ exec (.brl g j d) s = s.illegal ∧ exec (.ret g a) s = s.illegal := by
  dsimp only [exec]
  rw [execBr, execBrl, execRet]
  exact ⟨sop_illegal _ (Or.inr (Or.inr hb)) _, sop_illegal _ (Or.inr (Or.inr hb)) _, sop_illegal _ (Or.inr (Or.inr hb)) _⟩

end

-- ## The bubbles (R132)

/-- The way of context `x` past its bundle: it is `y` from now on, but for results in flight to registers that the bundle has released. -/
def State.passed (s : State) (c x : Nat) (y : Ctx) : State :=
  if s.iss.allot then (s.committed c).letGo c x y else (s.committed c).modCtx c x fun _ => y

theorem State.passed_stall (s : State) (c x : Nat) (y : Ctx) : ((s.passed c x y).ctx c x).stall = y.stall := by
  unfold State.passed
  split
  · rw [State.letGo_ctx]
    rfl
  · rw [State.ctx_modCtx]

/-- The check point of a bundle whose task goes on: the context's way, its waits, and whether the issue slots go (R132, R143). -/
theorem State.checkPoint_goesOn {s : State} (c x : Nat) (b : Bundle) (old : Ctx) (hd : s.iss.done = false) :
    ∃ (y : Ctx) (yields : Bool), y.stall = (s.iss.xfer.map fun t => t.bubbles + 1).getD 0 ∧
      let t := (s.passed c x y).beginWaits c x s.iss.wait
      s.checkPoint c x b old = if yields then t.modCore c fun k => k.reschedule x else t := by
  unfold State.checkPoint State.passed
  simp only [hd, Bool.false_eq_true, if_false]
  cases s.iss.allot
  · refine ⟨_, _, ?_, rfl⟩
    cases s.iss.xfer <;> rfl
  · refine ⟨_, _, ?_, rfl⟩
    cases s.iss.xfer <;> rfl

/-- At the check point the context is stalled for its own core cycle and the bubbles of the transfer, or not at all. -/
theorem State.checkPoint_stall (s : State) (c x : Nat) (b : Bundle) (old : Ctx) (hd : s.iss.done = false) :
    ((s.checkPoint c x b old).ctx c x).stall = (s.iss.xfer.map fun t => t.bubbles + 1).getD 0 := by
  obtain ⟨y, yields, hy, he⟩ := State.checkPoint_goesOn c x b old hd
  obtain ⟨w, hw⟩ := State.beginWaits_st (s.passed c x y) c x s.iss.wait
  have hstall : (((s.passed c x y).beginWaits c x s.iss.wait).ctx c x).stall = y.stall := by
    rw [hw]
    exact State.passed_stall s c x y
  rw [he, ← hy, ← hstall]
  split
  · obtain ⟨p, hp⟩ := Core.reschedule_ctx (((s.passed c x y).beginWaits c x s.iss.wait).core c) x x
    rw [State.ctx, State.core_modCore, hp]
    rfl
  · rfl

theorem Ctx.advance_stall (y : Ctx) (h : y.snapped = false) : y.advance.stall = y.stall - 1 := by
  rw [Ctx.advance, h]
  rfl

/-- A stalled context that keeps its issue slots issues nothing. -/
theorem State.issueTurn_stalled {s : State} {c n : Nat} (hrun : (s.core c).run = some n) (hpre : (s.core c).preempts n = false)
    (hstall : 0 < (s.ctx c n).stall) : s.issueTurn c = .next s := by
  have hstall' : decide (0 < ((s.core c).ctx n).stall) = true := decide_eq_true hstall
  unfold State.issueTurn
  simp only [hrun, hpre, hstall', Bool.and_false, Bool.or_true, Bool.true_or, Bool.false_eq_true, if_false, if_true, ite_self]

/-- Settles O11: what each operation asks, the check point's transfer, and the bubbles counting down. -/
theorem branches : Obligations.Branches := by
  intro s g j d a i x asks free aligned cost there
  refine ⟨fun hr => ?prep, fun hr => ?prepr, fun hr hb hf => ?br, fun hr hb hf => ?brl, fun hr hb hf => ?ret,
    fun hb hf => ⟨fun hr => ?_, fun hr => ?_, fun hr ha => ?_⟩, exec_transfer_illegal, fun y k t hb hp hx => ?_,
    fun u c n b old hd => ⟨fun t ht => ?_, fun hx => ?_⟩, Ctx.advance_stall, fun c n => State.issueTurn_stalled⟩
  case prep =>
    dsimp only
    rw [exec_prep_runs hr]
    cases x with
    | none => rw [immS20, setWidth_signExtend _ (by omega)]
    | some e => rw [immS20, setWidth_signExtend _ (by omega)]
  case prepr =>
    dsimp only
    rw [exec_prepr_runs hr]
    exact ⟨fun ha => if_neg (not_not_intro ha), fun ha => ⟨_, _, if_pos ha⟩⟩
  case br =>
    dsimp only
    rw [exec_br_runs hr hb, State.transfer_first _ ((s.canTransfer_entered _).trans (State.canTransfer_iff.2 hf))]
    exact ⟨fun hc => if_pos hc, fun hc => if_neg (ne_true_of_eq_false hc)⟩
  case brl =>
    dsimp only
    have hcan := (s.canTransfer_entered (.brl g j d)).trans (State.canTransfer_iff.2 hf)
    rw [exec_brl_runs hr hb, hcan, Bool.and_true, State.transfer_first _ hcan]
    exact ⟨fun hc => if_pos hc, fun hc => if_neg (ne_true_of_eq_false hc)⟩
  case ret =>
    dsimp only
    rw [exec_ret_runs hr hb, State.transfer_first _ ((s.canTransfer_entered _).trans (State.canTransfer_iff.2 hf))]
    exact ⟨fun ha => if_neg (not_not_intro ha), fun ha => ⟨_, _, if_pos ha⟩⟩
  · rw [exec_br_runs hr hb, State.transfer_second _ ((s.canTransfer_entered _).trans (State.canTransfer_false_iff.2 hf)), ite_self]
  · rw [exec_brl_runs hr hb, State.canTransfer_entered, State.canTransfer_false_iff.2 hf, Bool.and_false]
    rfl
  · rw [exec_ret_runs hr hb, State.transfer_second _ ((s.canTransfer_entered _).trans (State.canTransfer_false_iff.2 hf)),
      if_neg (not_not_intro ha)]
  · rw [Ctx.route_xfer y hb hp hx]
  · rw [State.checkPoint_stall u c n b old hd, ht]
    rfl
  · rw [State.checkPoint_stall u c n b old hd, hx]
    rfl

end Sys2Proof.Machine
end

section
/-! SUPPORT. Yields and waits: what YIELD, DONE and WAITC ask of the check point, and the end of a wait for CYC (R143 to R145, R352). -/

namespace Sys2Proof.Machine

/-- The CYC waits whose time has come at `t` (R145). -/
def Wait.past (t : Nat) : Wait → Bool
  | .cyc n => decide (n ≤ t)
  | _ => false

section
variable (g : Guard) (a : Code) (s : State)
theorem exec_yield : exec (.yield g) s = sop (.yield g) false false s fun u => .next (u.modIss fun i => { i with yield := true }) := rfl
theorem exec_done : exec (.done g) s = sop (.done g) false false s fun u => .next (u.modIss fun i => { i with done := true, yield := true }) := rfl
theorem exec_waitc : exec (.waitc g a) s = sop (.waitc g a) false false s fun u => .next (u.await (.cyc (u.rdS a).toNat)) := rfl
end

theorem exec_waitcWake (s : State) (c x : Nat) :
    exec (.waitcWake c x) s = .next (s.modCtx c x fun y => y.endWaits (Wait.past s.cyc)) := rfl

theorem Ctx.endWaits_over {y : Ctx} {w : Wait} {p : Wait → Bool} (h : y.st = .wait [w]) (hp : p w = true) :
    y.endWaits p = { y with st := .ready } := by
  simp only [Ctx.endWaits, h, hp, List.filter_cons, Bool.not_true, Bool.false_eq_true, if_false, List.filter_nil, List.isEmpty_nil, if_true]

theorem Ctx.endWaits_stays {y : Ctx} {w : Wait} {p : Wait → Bool} (h : y.st = .wait [w]) (hp : p w = false) : y.endWaits p = y := by
  simp only [Ctx.endWaits, h, hp, List.filter_cons, Bool.not_false, if_true, List.filter_nil, List.isEmpty_cons, Bool.false_eq_true, if_false]
  rw [← h]

/-- Updates of a context that agree on what it is are one. -/
theorem State.modCtx_congr {s : State} {c x : Nat} {f f' : Ctx → Ctx} (h : f (s.ctx c x) = f' (s.ctx c x)) : s.modCtx c x f = s.modCtx c x f' := by
  have hk : f ((s.core c).ctx x) = f' ((s.core c).ctx x) := h
  simp only [State.modCtx, State.modCore, Core.modCtx, hk]

/-- Settles O15: what the three operations ask, and the end of a wait for CYC. -/
theorem yieldAndWaits : Obligations.YieldAndWaits := by
  intro s g a c x
  have hyield : s.entered (.yield g) = s := State.entered_of_no_source rfl rfl s
  have hdone : s.entered (.done g) = s := State.entered_of_no_source rfl rfl s
  rw [exec_yield, exec_done, exec_waitc]
  refine ⟨fun h => ?_, fun h => ?_, fun h => sop_runs h _, fun h => sop_guardOff h _, fun h => sop_guardOff h _, fun h => sop_guardOff h _,
    fun n h hn => ?_, fun n h hn => ?_⟩
  · rw [sop_runs h, hyield]
    rfl
  · rw [sop_runs h, hdone]
    rfl
  · refine ⟨_, exec_waitcWake s c x, ?_⟩
    rw [State.ctx_modCtx, Ctx.endWaits_over h (decide_eq_true hn)]
    exact ⟨rfl, rfl⟩
  · rw [exec_waitcWake, State.modCtx_congr (f' := id)]
    exact Ctx.endWaits_stays h (decide_eq_false (Nat.not_le.2 hn))

end Sys2Proof.Machine
end

section
/-! SUPPORT. Software traps: the whole state past the first fault of a bundle (R50, R143, R146, R355, R356). -/

namespace Sys2Proof.Machine

theorem codesOf_one (p code : Nat) (d0 d1 : Word) : codesOf [(p, code, d0, d1)] = (List.range 4).map fun q => if q = p then code else 0 := by
  refine List.map_congr_left fun q _ => ?_
  by_cases h : q = p
  · simp [h]
  · simp [h, Ne.symm h]

/-- A stop, written out field by field: nothing that a stopped context holds changes (R50, R116). -/
theorem Ctx.snap_eq (y : Ctx) (t : Nat) : y.snap t = { y with
    snapped := true
    flight := if y.snapped then y.flight else (y.flight.filter fun f => decide (f.eff ≠ .note)).map fun f => { f with causes := 0 }
    recs := if y.snapped then y.recs
      else y.recs ++ (y.flight.filter fun f => decide (f.causes ≠ 0)).map fun f => { f with due := t + (f.due - y.clk), eff := .note } } := by
  by_cases h : y.snapped = true
  · rw [Ctx.snap, if_pos h, if_pos h, if_pos h]
    exact congrArg (fun b => ({ y with snapped := b } : Ctx)) h
  · rw [Ctx.snap, if_neg h, if_neg h, if_neg h]

/-- The choice of a context is one of the ready ones (R143). -/
theorem Core.choose_ready {k : Core} {a x : Nat} (h : k.choose a = some x) : (k.ctx x).st.isReady = true := by
  have hbest : ∀ b, k.choose a = some b → (k.ctx b).st.isReady = true := by
    refine List.foldlRecOn (motive := fun best => ∀ b, best = some b → (k.ctx b).st.isReady = true) _ _ (fun _ => nofun)
      fun best hprev y hy b hb => ?_
    have hready : (k.ctx y).st.isReady = true := (List.mem_filter.1 hy).2
    cases best with
    | none => exact Option.some.inj hb ▸ hready
    | some z =>
      dsimp only at hb
      split at hb
      · exact Option.some.inj hb ▸ hready
      · exact hprev b hb
  exact hbest x h

/-- A context that is not ready stands as it is when the issue slots are given away. -/
theorem Core.reschedule_ctx_unready {k : Core} (a : Nat) {x : Nat} (h : (k.ctx x).st.isReady = false) : (k.reschedule a).ctx x = k.ctx x := by
  unfold Core.reschedule
  split
  · rfl
  · next y hy =>
    have hne : x ≠ y := fun e => Bool.false_ne_true ((e ▸ h).symm.trans (Core.choose_ready hy))
    dsimp only
    split
    · rfl
    · exact Core.ctx_modCtx_other _ hne _

theorem Core.reschedule_rest (k : Core) (a : Nat) : k.reschedule a =
    { k with ctxs := (k.reschedule a).ctxs, run := (k.reschedule a).run, lastRun := (k.reschedule a).lastRun,
             hostPre := (k.reschedule a).hostPre } := by
  unfold Core.reschedule
  split
  · rfl
  · dsimp only
    split <;> rfl

/-- The core once context `x` no longer holds its issue slots (R355). -/
def Core.without (k : Core) (x : Nat) : Core := if k.run = some x then k.reschedule x else k

theorem Core.without_ctx (k : Core) (x n : Nat) : ∃ p, (k.without x).ctx n = { k.ctx n with prepAll := p } := by
  unfold Core.without
  split
  · exact Core.reschedule_ctx k x n
  · exact ⟨_, rfl⟩

theorem Core.without_ctx_unready {k : Core} {x : Nat} (h : (k.ctx x).st.isReady = false) : (k.without x).ctx x = k.ctx x := by
  unfold Core.without
  split
  · exact Core.reschedule_ctx_unready x h
  · rfl

theorem Core.without_rest (k : Core) (x : Nat) : k.without x =
    { k with ctxs := (k.without x).ctxs, run := (k.without x).run, lastRun := (k.without x).lastRun, hostPre := (k.without x).hostPre } := by
  unfold Core.without
  split
  · exact Core.reschedule_rest k x
  · rfl

/-- The context `y` as the operation in issue freezes it with a code and a detail word, the first fault of its bundle (R355, R356). -/
def State.frozenCtx (s : State) (code : Nat) (d0 : Word) (y : Ctx) : Ctx :=
  { y.snap s.curCore.ccyc with
    st := .frozen, fgen := y.fgen + 1, stall := 0
    frec := { codes := codesOf [(s.iss.pos, code, d0, 0)], deferred := false, waitFault := false, cyc := s.cyc, words := s.iss.words,
              d0 := d0, d1 := 0, rrbS := y.rrbS, rrbV := y.rrbV } }

/-- The core of the operation in issue once its context is frozen. -/
def State.frozenCore (s : State) (code : Nat) (d0 : Word) : Core := (s.curCore.modCtx s.iss.ctx (s.frozenCtx code d0)).without s.iss.ctx

/-- The state past that fault. -/
def State.froze (s : State) (code : Nat) (d0 : Word) : State :=
  ({ s with iss := { s.iss with faults := [(s.iss.pos, code, d0, 0)] } } : State).freeze [(s.iss.pos, code, d0, 0)] false false

theorem State.raise_first {s : State} (h : s.clean = true) (code : Nat) (d0 : Word) : s.raise code d0 0 = .next (s.froze code d0) := by
  rw [State.raise, List.isEmpty_iff.1 h]
  rfl

theorem State.froze_core (s : State) (code : Nat) (d0 : Word) : (s.froze code d0).core s.iss.core = s.frozenCore code d0 := by
  have hk : ((s.modCtx s.iss.core s.iss.ctx (s.frozenCtx code d0)).core s.iss.core) =
      s.curCore.modCtx s.iss.ctx (s.frozenCtx code d0) := State.core_modCore _ _ _
  rw [State.frozenCore, ← hk]
  exact State.core_modCore (s.modCtx s.iss.core s.iss.ctx (s.frozenCtx code d0)) s.iss.core fun k => k.without s.iss.ctx

theorem State.froze_core_other (s : State) (code : Nat) (d0 : Word) {n : Nat} (h : n ≠ s.iss.core) : (s.froze code d0).core n = s.core n :=
  (State.core_modCore_other (s.modCtx s.iss.core s.iss.ctx (s.frozenCtx code d0)) h fun k => k.without s.iss.ctx).trans
    (State.core_modCore_other s h _)

/-- Beside the cores, a fault changes the list of faults to be offered and the bundle's own (R355, R358). -/
theorem State.froze_rest (s : State) (code : Nat) (d0 : Word) : { s.froze code d0 with cores := s.cores } = { s with
    iss := { s.iss with faults := [(s.iss.pos, code, d0, 0)] }, offers := s.offers ++ [⟨s.iss.core, s.iss.ctx, code⟩] } := rfl

theorem State.froze_ctx (s : State) (code : Nat) (d0 : Word) : (s.froze code d0).ctx s.iss.core s.iss.ctx = s.frozenCtx code d0 s.cur := by
  have hz : (s.curCore.modCtx s.iss.ctx (s.frozenCtx code d0)).ctx s.iss.ctx = s.frozenCtx code d0 s.cur := Core.ctx_modCtx _ _ _
  rw [State.ctx, State.froze_core, State.frozenCore, Core.without_ctx_unready (by rw [hz]; rfl), hz]

theorem State.froze_ctx_other (s : State) (code : Nat) (d0 : Word) {n : Nat} (h : n ≠ s.iss.ctx) :
    ∃ p, (s.froze code d0).ctx s.iss.core n = { s.ctx s.iss.core n with prepAll := p } := by
  obtain ⟨p, hp⟩ := Core.without_ctx (s.curCore.modCtx s.iss.ctx (s.frozenCtx code d0)) s.iss.ctx n
  rw [Core.ctx_modCtx_other _ h] at hp
  exact ⟨p, by rw [State.ctx, State.froze_core]; exact hp⟩

section
variable (g : Guard) (i : BitVec 12) (s : State)
theorem exec_trap : exec (.trap g i) s = sop (.trap g i) false false s fun u => u.raise fSOFT (i.setWidth 64) 0 := rfl
theorem exec_bkpt : exec (.bkpt g) s = sop (.bkpt g) false false s fun u => u.raise fBREAK 0 0 := rfl
end

/-- Settles O16: the first fault of a bundle, context by context and core by core. -/
theorem softwareTraps : Obligations.SoftwareTraps := by
  intro s g i frozen
  have key (code : Nat) (d0 : Word) : frozen (s.froze code d0) code d0 := by
    refine ⟨?_, fun n hn => ?_, ?_, fun n hn => State.froze_core_other s code d0 hn, State.froze_rest s code d0⟩
    · rw [State.froze_ctx, State.frozenCtx, Ctx.snap_eq, codesOf_one]
    · obtain ⟨p, hp⟩ := State.froze_ctx_other s code d0 hn
      rw [hp]
    · have hcore : (s.froze code d0).curCore = s.frozenCore code d0 := State.froze_core s code d0
      rw [hcore, State.frozenCore]
      exact Core.without_rest _ _
  have htrap : s.entered (.trap g i) = s := State.entered_of_no_source rfl rfl s
  have hbkpt : s.entered (.bkpt g) = s := State.entered_of_no_source rfl rfl s
  rw [exec_trap, exec_bkpt]
  refine ⟨fun hr hc => ⟨_, ?_, key _ _⟩, fun hr hc => ⟨_, ?_, key _ _⟩, fun h => sop_guardOff h _, fun h => sop_guardOff h _⟩
  · rw [sop_runs hr, htrap]
    exact State.raise_first hc _ _
  · rw [sop_runs hr, hbkpt]
    exact State.raise_first hc _ _

end Sys2Proof.Machine
end

section
/-! SUPPORT. Deferral: the entries that DEFER and DEFDR move, and the registers that DEFDR fills (R44, R147, R149). -/

namespace Sys2Proof.Machine

-- ## Several results of one operation (R44)

/-- A result in flight changes no register's slot (R107). -/
@[simp] theorem State.slotV_later (s : State) (lat : Nat) (q : Causes) (e : Eff) (r : Nat) : (s.later lat q e).slotV r = s.slotV r := by
  rw [State.slotV, State.cur_later]
  rfl

theorem State.flight_later (s : State) (lat : Nat) (q : Causes) (e : Eff) :
    (s.later lat q e).cur.flight = s.cur.flight ++ [⟨s.cur.clk + lat, s.cur.clk, s.iss.pos, s.iss.addr, q, e⟩] := by
  rw [State.cur_later]

theorem State.clk_later (s : State) (lat : Nat) (q : Causes) (e : Eff) : (s.later lat q e).cur.clk = s.cur.clk := by
  rw [State.cur_later]

/-- The results that DEFDR puts in flight to the registers `js` of the run from `d` on (R149). -/
def State.putRun (s : State) (d : Nat) (val : Nat → Vec) (js : List Nat) : State :=
  js.foldl (fun t j => t.later 1 0 (.vplain (t.slotV (d + j)) (val j))) s

theorem State.putRun_clk (s : State) (d : Nat) (val : Nat → Vec) (js : List Nat) : (s.putRun d val js).cur.clk = s.cur.clk :=
  foldl_keeps (fun t : State => t.cur.clk) _ js (fun _ _ t => State.clk_later t _ _ _) s

/-- What is in flight stays in flight when more results follow. -/
theorem State.mem_flight_putRun {s : State} (d : Nat) (val : Nat → Vec) (js : List Nat) {f : Flight} (h : f ∈ s.cur.flight) :
    f ∈ (s.putRun d val js).cur.flight := by
  induction js generalizing s with
  | nil => exact h
  | cons j js ih => exact ih (by rw [State.flight_later]; exact List.mem_append_left _ h)

theorem State.putRun_lands (s : State) (d : Nat) (val : Nat → Vec) {js : List Nat} {j : Nat} (hj : j ∈ js) :
    ∃ f ∈ (s.putRun d val js).cur.flight, f.due = s.cur.clk + 1 ∧ f.eff = .vplain (s.slotV (d + j)) (val j) := by
  induction js generalizing s with
  | nil => exact absurd hj List.not_mem_nil
  | cons i js ih =>
    rcases List.mem_cons.1 hj with rfl | hj
    · refine ⟨⟨s.cur.clk + 1, s.cur.clk, s.iss.pos, s.iss.addr, 0, .vplain (s.slotV (d + j)) (val j)⟩,
        State.mem_flight_putRun d val js ?_, rfl, rfl⟩
      rw [State.flight_later]
      exact List.mem_append_right _ List.mem_cons_self
    · have hrest := ih (s.later 1 0 (.vplain (s.slotV (d + i)) (val i))) hj
      rw [State.clk_later, State.slotV_later] at hrest
      exact hrest

-- ## Deferral entries (R147, R149)

theorem leNat_lt (bs : List Byte) : leNat bs < 256 ^ bs.length := by
  induction bs with
  | nil => exact Nat.one_pos
  | cons b bs ih =>
    rw [leNat, List.length_cons, pow_succ]
    have := b.isLt
    omega

/-- Value `j` of an entry, 0 where the entry is missing or has fewer (R147, R149). -/
def defValue (e : Option (List Byte)) (j : Nat) : Nat :=
  match e with
  | none => 0
  | some b => if j < leNat (b.take 4) / 2 ^ 13 % 8 then leNat ((b.drop (4 + 4 * j)).take 4) else 0

theorem defValue_lt (e : Option (List Byte)) (j : Nat) : defValue e j < 2 ^ 32 := by
  cases e with
  | none => exact Nat.two_pow_pos 32
  | some b =>
    rw [defValue]
    split
    · calc leNat ((b.drop (4 + 4 * j)).take 4) < 256 ^ ((b.drop (4 + 4 * j)).take 4).length := leNat_lt _
        _ ≤ 256 ^ 4 := Nat.pow_le_pow_right (by omega) (List.length_take_le _ _)
    · exact Nat.two_pow_pos 32

/-- The oldest entries of a path, at most one for each lane (R149). -/
def State.oldest (s : State) (p : Code) : List (List Byte) :=
  ((s.cur.defer.filter fun q => decide (q.1 = p.toNat)).take 128).map fun q => s.defPlace q.2

/-- Register `j` of the run that DEFDR fills from those entries (R149). -/
def defVector (e : List (List Byte)) (j : Nat) : Vec := ofLanesN fun l => defValue e[l]? j

theorem lane_defVector (e : List (List Byte)) (j : Nat) {l : Nat} (h : l < 128) : ((defVector e j).lane l).toNat = defValue e[l]? j := by
  rw [defVector, lane_ofLanesN _ h, BitVec.toNat_ofNat, Nat.mod_eq_of_lt (defValue_lt _ _)]

/-- The state in which DEFDR's registers are in flight: one of them, which the device chooses, with the latch chain (R149, logs 2, 9). -/
def State.fillRun (s : State) (d : Code) (n : BitVec 3) (val : Nat → Vec) : State :=
  let c := Config.pick s.picks % max n.toNat 1
  let t := ({ s with picks := s.picks + 1 } : State).putRun d.toNat val ((List.range n.toNat).filter fun j => decide (j ≠ c))
  if n = 0 then t else t.later 1 0 (.vreg (some (s.slotV (d.toNat + c))) (val c))

theorem State.fillRun_clk (s : State) (d : Code) (n : BitVec 3) (val : Nat → Vec) : (s.fillRun d n val).cur.clk = s.cur.clk := by
  unfold State.fillRun
  dsimp only
  split
  · exact State.putRun_clk _ _ _ _
  · rw [State.clk_later]
    exact State.putRun_clk _ _ _ _

theorem State.fillRun_lands (s : State) (d : Code) (n : BitVec 3) (val : Nat → Vec) {j : Nat} (hj : j < n.toNat) :
    ∃ f ∈ (s.fillRun d n val).cur.flight, f.due = s.cur.clk + 1 ∧
      (f.eff = .vplain (s.slotV (d.toNat + j)) (val j) ∨ f.eff = .vreg (some (s.slotV (d.toNat + j))) (val j)) := by
  have hn : n ≠ 0 := by
    rintro rfl
    exact absurd hj (Nat.not_lt_zero j)
  unfold State.fillRun
  dsimp only
  rw [if_neg hn, State.flight_later, State.putRun_clk]
  by_cases hc : j = Config.pick s.picks % max n.toNat 1
  · exact ⟨_, List.mem_append_right _ List.mem_cons_self, rfl, Or.inr (by rw [← hc])⟩
  · have hrest : j ∈ (List.range n.toNat).filter fun i => decide (i ≠ Config.pick s.picks % max n.toNat 1) :=
      List.mem_filter.2 ⟨List.mem_range.2 hj, decide_eq_true hc⟩
    obtain ⟨f, hf, hdue, heff⟩ := State.putRun_lands { s with picks := s.picks + 1 } d.toNat val hrest
    exact ⟨f, List.mem_append_left _ hf, hdue, Or.inl heff⟩

section
variable {s : State} {g : Guard} {a d p : Code} {k n : BitVec 3}

theorem exec_defer_runs (hr : s.runs (.defer g a k n p) = true) (hd : s.iss.ops.any isDeferOp = false) :
    let u := s.entered (.defer g a k n p)
    let sel := (List.range 128).filter fun i => (u.maskAt k.toNat).getLsbD i
    let take := sel.take (u.cur.deferC - u.cur.defer.length)
    exec (.defer g a k n p) s = .next (u.later 1 (if take.length < sel.length then cDEFER else 0) (.append p.toNat
      (take.map fun i => defBytes i p.toNat n.toNat ((List.range n.toNat).map fun j => ((u.rdVn (a.toNat + j)).lane i).toNat)))) := by
  dsimp only [exec]
  rw [execDefer, sop_runs_of hr hd rfl]
  simp only [causeIf, decide_eq_true_eq, List.map_map, Function.comp_def]

theorem exec_defdr_runs (hr : s.runs (.defdr g d n p) = true) (hd : s.iss.ops.any isDeferOp = false) :
    let u := s.entered (.defdr g d n p)
    exec (.defdr g d n p) s = .next ((u.fillRun d n (defVector (u.oldest p))).later 1 0 (.remove p.toNat (u.oldest p).length)) := by
  dsimp only [exec]
  rw [execDefdr, sop_runs_of hr hd rfl]
  rfl

end

/-- Settles O17: the entries that fit, the registers filled and the entries removed, and the two counts. -/
theorem deferral : Obligations.Deferral := by
  intro s g a d p k n one
  refine ⟨fun hr hd => exec_defer_runs hr hd, fun hr hd => ?_, fun s hr => ?_⟩
  · refine ⟨_, defVector ((s.entered (.defdr g d n p)).oldest p), exec_defdr_runs hr hd, fun j l _ hl => ?_, fun j hj => ?_, ?_⟩
    · rw [lane_defVector _ j hl]
      rfl
    · obtain ⟨f, hf, hdue, heff⟩ := State.fillRun_lands (s.entered (.defdr g d n p)) d n _ hj
      refine ⟨f, ?_, hdue, heff⟩
      rw [State.flight_later]
      exact List.mem_append_left _ hf
    · rw [State.flight_later, State.fillRun_clk]
      exact ⟨_, List.mem_append_right _ List.mem_cons_self, rfl, rfl⟩
  · dsimp only [exec]
    rw [execDefct, sop_runs hr]

end Sys2Proof.Machine
end

section
/-! SUPPORT. The vector reductions and conversions: the order of numbers that VRED.max and VRED.min keep, the FP48 tree of VRED.add, and the
lanes of VCVT (R160, R179, R187, R188). -/

namespace Sys2Proof.Machine

-- ## The order of numbers (R179, R188)

/-- The place of a number in the order with -0 below +0: the infinities outside, then the value, then the sign of a zero. NaN has no
place in the order; its rank is never asked for. -/
def Num.rank : Num → ℤ ×ₗ ℚ ×ₗ ℤ
  | .nan => toLex (0, toLex (0, 0))
  | .inf s => toLex (if s then -1 else 1, toLex (0, 0))
  | .fin s m e => toLex (0, toLex (signed s m * 2 ^ e, if m = 0 ∧ s = true then -1 else 0))

/-- A magnitude taken to a smaller exponent stands for the same value. -/
theorem signed_scaled (s : Bool) (m : Nat) {e q : Int} (h : q ≤ e) :
    (signed s (m * 2 ^ (e - q).toNat) : ℚ) * 2 ^ q = signed s m * 2 ^ e := by
  have hpow : (2 : ℚ) ^ (e - q).toNat * 2 ^ q = 2 ^ e := by
    rw [← zpow_natCast, Int.toNat_of_nonneg (by omega), ← zpow_add₀ two_ne_zero, Int.sub_add_cancel]
  cases s <;> simp [signed, mul_assoc, hpow]

theorem signed_scaled_lt_iff (s t : Bool) (m n : Nat) (e f : Int) :
    signed s (m * 2 ^ (e - min e f).toNat) < signed t (n * 2 ^ (f - min e f).toNat) ↔
      (signed s m : ℚ) * 2 ^ e < signed t n * 2 ^ f := by
  rw [← signed_scaled s m (min_le_left e f), ← signed_scaled t n (min_le_right e f),
    mul_lt_mul_iff_left₀ (zpow_pos two_pos _), Int.cast_lt]

theorem signed_eq_zero_iff {s : Bool} {m : Nat} : signed s m = 0 ↔ m = 0 := by
  cases s <;> simp [signed]

theorem Num.rank_inf_lt_inf {s t : Bool} : (Num.inf s).rank < (Num.inf t).rank ↔ s = true ∧ t = false := by
  cases s <;> cases t <;> simp [Num.rank, Prod.Lex.toLex_lt_toLex]

theorem Num.rank_inf_lt_fin {s t : Bool} {n : Nat} {f : Int} : (Num.inf s).rank < (Num.fin t n f).rank ↔ s = true := by
  cases s <;> simp [Num.rank, Prod.Lex.toLex_lt_toLex]

theorem Num.rank_fin_lt_inf {s t : Bool} {m : Nat} {e : Int} : (Num.fin s m e).rank < (Num.inf t).rank ↔ t = false := by
  cases t <;> simp [Num.rank, Prod.Lex.toLex_lt_toLex]

theorem Num.rank_zero_lt_zero {s t : Bool} {e f : Int} : (Num.fin s 0 e).rank < (Num.fin t 0 f).rank ↔ s = true ∧ t = false := by
  cases s <;> cases t <;> simp [Num.rank, signed, Prod.Lex.toLex_lt_toLex]

/-- Of two finite numbers that are not both zero the values alone decide. -/
theorem Num.rank_fin_lt_fin {s t : Bool} {m n : Nat} {e f : Int} (h : ¬(m = 0 ∧ n = 0)) :
    (Num.fin s m e).rank < (Num.fin t n f).rank ↔ (signed s m : ℚ) * 2 ^ e < signed t n * 2 ^ f := by
  simp only [Num.rank, Prod.Lex.toLex_lt_toLex, lt_irrefl, true_and, false_or]
  refine or_iff_left fun ⟨hval, hsign⟩ => ?_
  by_cases hm : m = 0
  · have hn : n = 0 := by simpa [hm, signed_eq_zero_iff.2, zpow_ne_zero, signed_eq_zero_iff] using hval.symm
    exact h ⟨hm, hn⟩
  · split at hsign <;> split at hsign <;> simp_all

/-- The comparison of R179 is the strict order of the ranks. -/
theorem Num.lt_iff_rank {a b : Num} (ha : isNaN a = false) (hb : isNaN b = false) : Num.lt true a b = true ↔ a.rank < b.rank := by
  match a, b with
  | .inf s, .inf t => simp [Num.lt, Num.rank_inf_lt_inf]
  | .inf s, .fin t n f => simp [Num.lt, Num.rank_inf_lt_fin]
  | .fin s m e, .inf t => simp [Num.lt, Num.rank_fin_lt_inf]
  | .fin s m e, .fin t n f =>
    by_cases h : m = 0 ∧ n = 0
    · obtain ⟨rfl, rfl⟩ := h
      simp [Num.lt, Num.rank_zero_lt_zero]
    · rw [Num.rank_fin_lt_fin h, ← signed_scaled_lt_iff]
      simp [Num.lt, h]

theorem Num.lt_false_iff_rank {a b : Num} (ha : isNaN a = false) (hb : isNaN b = false) : Num.lt true a b = false ↔ b.rank ≤ a.rank := by
  rw [← Bool.not_eq_true, Num.lt_iff_rank ha hb, not_lt]

-- ## The element that no other exceeds or falls below (R188)

/-- Element `q` of type `ty` does not exceed `p` (`mx`), or does not fall below it. -/
def Best (mx : Bool) (ty p q : Nat) : Prop :=
  Num.lt true (decodeTy ty (if mx then p else q)) (decodeTy ty (if mx then q else p)) = false

section
variable {mx : Bool} {ty p q r : Nat}

theorem Best.refl (hp : isNaN (decodeTy ty p) = false) : Best mx ty p p := by
  cases mx <;> exact (Num.lt_false_iff_rank hp hp).2 le_rfl

theorem Best.trans (hp : isNaN (decodeTy ty p) = false) (hq : isNaN (decodeTy ty q) = false) (hr : isNaN (decodeTy ty r) = false)
    (hpq : Best mx ty p q) (hqr : Best mx ty q r) : Best mx ty p r := by
  cases mx
  case false => exact (Num.lt_false_iff_rank hr hp).2 (((Num.lt_false_iff_rank hq hp).1 hpq).trans ((Num.lt_false_iff_rank hr hq).1 hqr))
  case true => exact (Num.lt_false_iff_rank hp hr).2 (((Num.lt_false_iff_rank hq hr).1 hqr).trans ((Num.lt_false_iff_rank hp hq).1 hpq))

/-- Of two elements that are not NaN one is picked, and it is at least as good as both. -/
theorem pickMinMax_spec (mx : Bool) (hp : isNaN (decodeTy ty p) = false) (hq : isNaN (decodeTy ty q) = false) :
    (pickMinMax mx ty p q = p ∨ pickMinMax mx ty p q = q) ∧
      Best mx ty (pickMinMax mx ty p q) p ∧ Best mx ty (pickMinMax mx ty p q) q := by
  have heq : pickMinMax mx ty p q =
      if Num.lt true (decodeTy ty p) (decodeTy ty q) then (if mx then q else p) else (if mx then p else q) := by
    simp [pickMinMax, hp, hq]
  rw [heq]
  cases hlt : Num.lt true (decodeTy ty p) (decodeTy ty q)
  case false =>
    cases mx
    · exact ⟨Or.inr rfl, hlt, Best.refl hq⟩
    · exact ⟨Or.inl rfl, Best.refl hp, hlt⟩
  case true =>
    have hgt : Num.lt true (decodeTy ty q) (decodeTy ty p) = false :=
      (Num.lt_false_iff_rank hq hp).2 ((Num.lt_iff_rank hp hq).1 hlt).le
    cases mx
    · exact ⟨Or.inl rfl, Best.refl hp, hgt⟩
    · exact ⟨Or.inr rfl, hgt, Best.refl hq⟩

end

/-- The reduction of elements none of which is NaN is one of them, and at least as good as each. -/
theorem foldl_pickMinMax_spec (mx : Bool) (ty : Nat) (rest : List Nat) (p : Nat) (h : ∀ f ∈ p :: rest, isNaN (decodeTy ty f) = false) :
    rest.foldl (pickMinMax mx ty) p ∈ p :: rest ∧ ∀ f ∈ p :: rest, Best mx ty (rest.foldl (pickMinMax mx ty) p) f := by
  induction rest generalizing p with
  | nil =>
    have hp : isNaN (decodeTy ty p) = false := h p List.mem_cons_self
    exact ⟨List.mem_cons_self, List.forall_mem_singleton.2 (Best.refl hp)⟩
  | cons q rest ih =>
    obtain ⟨hp, hq, hrest⟩ : _ ∧ _ ∧ _ := by simpa only [List.forall_mem_cons] using h
    obtain ⟨hpick, hbp, hbq⟩ := pickMinMax_spec mx hp hq
    have hnum : isNaN (decodeTy ty (pickMinMax mx ty p q)) = false := by rcases hpick with e | e <;> rwa [e]
    have hnums : ∀ f ∈ pickMinMax mx ty p q :: rest, isNaN (decodeTy ty f) = false := List.forall_mem_cons.2 ⟨hnum, hrest⟩
    obtain ⟨hmem, hbest⟩ := ih (pickMinMax mx ty p q) hnums
    have hr := hnums _ hmem
    obtain ⟨hbpick, hbrest⟩ := List.forall_mem_cons.1 hbest
    refine ⟨?_, List.forall_mem_cons.2 ⟨hbpick.trans hr hnum hp hbp, List.forall_mem_cons.2 ⟨hbpick.trans hr hnum hq hbq, hbrest⟩⟩⟩
    rcases List.mem_cons.1 hmem with heq | hin
    · rw [List.foldl_cons, heq]
      rcases hpick with e | e <;> simp [e]
    · exact List.mem_cons_of_mem p (List.mem_cons_of_mem q hin)

theorem redMinMax_nan {ty : Nat} {es : List Nat} (mx : Bool) (h : ∃ e ∈ es, isNaN (decodeTy ty e) = true) :
    redMinMax mx ty es = canonNaN ty := by
  cases es with
  | nil => simp at h
  | cons p rest => exact if_pos (List.any_eq_true.2 h)

theorem redMinMax_numbers {ty : Nat} {es : List Nat} (mx : Bool) (hne : es ≠ []) (h : ∀ e ∈ es, isNaN (decodeTy ty e) = false) :
    redMinMax mx ty es ∈ es ∧ ∀ f ∈ es, Best mx ty (redMinMax mx ty es) f := by
  cases es with
  | nil => exact absurd rfl hne
  | cons p rest =>
    have hno : ((p :: rest).any fun e => isNaN (decodeTy ty e)) = false := List.any_eq_false.2 fun e he => by simp [h e he]
    have hfold : redMinMax mx ty (p :: rest) = rest.foldl (pickMinMax mx ty) p := if_neg (by simp [hno])
    rw [hfold]
    exact foldl_pickMinMax_spec mx ty rest p h

theorem redMax_nil (ty : Nat) : redMinMax true ty [] =
    if ty < 2 then (if ty = 0 then 0xFF80 * 2 ^ 16 else if ty = 1 then 0xFF80 else 0)
    else if ty = 2 then 0xFF else if ty = 3 then 0x80 else 0x80000000 := by
  match ty with
  | 0 | 1 | 2 | 3 => rfl
  | n + 4 => simp [redMinMax]

theorem redMin_nil (ty : Nat) : redMinMax false ty [] =
    if ty < 2 then (if ty = 0 then 0x7F80 * 2 ^ 16 else if ty = 1 then 0x7F80 else 0) else if ty < 4 then 0x7F else 0x7FFFFFFF := by
  match ty with
  | 0 | 1 | 2 | 3 => rfl
  | n + 4 => simp [redMinMax]

/-- What the scalar of VRED.max or VRED.min stands for: the value of no elements, the canonical NaN, or the best of the elements. -/
theorem redWord_redMinMax (mx : Bool) (ty : Nat) (es : List Nat) :
    (es = [] → redWord ty (redMinMax mx ty es) = redWord ty (redMinMax mx ty [])) ∧
    ((∃ e ∈ es, isNaN (decodeTy ty e) = true) → redWord ty (redMinMax mx ty es) = redWord ty (canonNaN ty)) ∧
    (es ≠ [] → (∀ e ∈ es, isNaN (decodeTy ty e) = false) →
      ∃ e ∈ es, redWord ty (redMinMax mx ty es) = redWord ty e ∧ ∀ f ∈ es, Best mx ty e f) := by
  refine ⟨fun h => by rw [h], fun h => by rw [redMinMax_nan mx h], fun hne h => ?_⟩
  obtain ⟨hmem, hbest⟩ := redMinMax_numbers mx hne h
  exact ⟨_, hmem, rfl, hbest⟩

/-- The scalar that VRED.max or VRED.min writes. -/
def State.redBest (s : State) (mx : Bool) (a : Code) (x : Ext) : Word :=
  redWord (vxT x) (redMinMax mx (vxT x) (selected (vxT x) (s.rdV a) (s.maskAt (vxM x))))

theorem exec_vredMax_runs {s : State} {g : Guard} {d a : Code} {x : Ext} (h : s.runs (.vredMax g d a x) = true) :
    let u := s.entered (.vredMax g d a x)
    exec (.vredMax g d a x) s = .next (u.putS 9 0 d (u.redBest true a x)) := by
  dsimp only [exec]
  rw [execVredMax, vredMM, sop_runs h]
  rfl

theorem exec_vredMin_runs {s : State} {g : Guard} {d a : Code} {x : Ext} (h : s.runs (.vredMin g d a x) = true) :
    let u := s.entered (.vredMin g d a x)
    exec (.vredMin g d a x) s = .next (u.putS 9 0 d (u.redBest false a x)) := by
  dsimp only [exec]
  rw [execVredMin, vredMM, sop_runs h]
  rfl

-- ## The sum (R160, R167, R188)

theorem treeLevel_length : ∀ l : List (Nat × Bool), (treeLevel l).length = (l.length + 1) / 2
  | [] => rfl
  | [_] => by simp [treeLevel]
  | _ :: _ :: rest => by
    simp only [treeLevel, List.length_cons, treeLevel_length rest]
    omega

/-- Seven levels bring 128 lanes to one sum. -/
theorem treeSum_singleton {l : List (Nat × Bool)} (h : l.length = 128) : ∃ v o, treeSum l = [(v, o)] := by
  have hlen : (treeSum l).length = 1 := by simp only [treeSum, treeLevel_length, h]
  obtain ⟨⟨v, o⟩, hl⟩ := List.length_eq_one_iff.1 hlen
  exact ⟨v, o, hl⟩

theorem nvIf_eq (r : Num) (ops : List Num) : nvIf r ops = if isNaN r ∧ ∀ n ∈ ops, isNaN n = false then cNV else 0 := by
  simp only [nvIf, causeIf, Bool.and_eq_true, List.all_eq_true, Bool.not_eq_true']

theorem redWord_float {ty : Nat} (h : ty < 3) (n : Nat) : redWord ty n = BitVec.ofNat 64 n := by
  rw [redWord, if_neg (by omega), if_neg (by omega)]

theorem foldl_add_eq_sum_map (f : Nat → Int) (l : List Nat) : l.foldl (fun acc p => acc + f p) 0 = (l.map f).sum := by
  rw [List.sum_eq_foldl, List.foldl_map]

/-- VRED.add of .i8: the exact sum modulo 2^64, without a cause. -/
theorem redAdd_i8 (s : State) (rm : Nat) (v : Vec) (m : Mask) :
    redAdd s 3 rm v m = (BitVec.ofInt 64 ((selected 3 v m).map fun p => (BitVec.ofNat 8 p).toInt).sum, 0) := by
  rw [← foldl_add_eq_sum_map]
  rfl

/-- VRED.add of .i32: the exact sum modulo 2^64, without a cause. -/
theorem redAdd_i32 (s : State) (rm : Nat) (v : Vec) (m : Mask) :
    redAdd s 4 rm v m = (BitVec.ofInt 64 ((selected 4 v m).map fun p => (BitVec.ofNat 32 p).toInt).sum, 0) := by
  rw [← foldl_add_eq_sum_map]
  rfl

/-- The 128 numbers that VRED.add sums: a lane that the mask leaves out is +0 (R160). -/
def redNums (ty : Nat) (v : Vec) (m : Mask) : List Num :=
  (List.range 128).map fun l => if m.getLsbD l then decodeTy ty (elem ty v l) else Num.fin false 0 0

/-- VRED.add of a floating type whose tree gives `v` with overflow `o`. -/
theorem redAdd_float (s : State) {ty : Nat} (h : ty < 3) (rm : Nat) (a : Vec) (m : Mask) {v : Nat} {o : Bool}
    (ht : treeSum ((redNums ty a m).map fun n => ((rnd48 n).1, false)) = [(v, o)]) :
    let z := encodeTy ty rm s.ftz (fp48 v)
    redAdd s ty rm a m = (BitVec.ofNat 64 z.bits, z.causes ||| (if o then cOF ||| cNX else 0) |||
      (if isNaN (fp48 v) ∧ ∀ n ∈ redNums ty a m, isNaN n = false then cNV else 0) |||
      offExact ty ((redNums ty a m).foldl (Num.add rm) (.fin false 0 0)) z.bits) := by
  rw [redNums] at ht ⊢
  simp only [redAdd, if_pos h, ht, List.headD_cons, redWord_float h, redNv, nvIf_eq, causeIf]

theorem exec_vredAdd_runs {s : State} {g : Guard} {d a : Code} {x : Ext} (h : s.runs (.vredAdd g d a x) = true) :
    let u := s.entered (.vredAdd g d a x)
    let r := redAdd u (vxT x) (u.rm (vxR x)) (u.rdV a) (u.maskAt (vxM x))
    exec (.vredAdd g d a x) s = .next (u.putS 9 r.2 d r.1) := by
  dsimp only [exec]
  rw [execVredAdd, sop_runs h]

-- ## Conversion (R187)

theorem cvtElem_same (s : State) (ty rm p : Nat) :
    cvtElem s ty ty rm p = (if ty < 3 ∧ isNaN (decodeTy ty p) then canonNaN ty else p, 0) := by
  rw [cvtElem, if_pos rfl]
  by_cases h : ty < 3 ∧ isNaN (decodeTy ty p) <;> simp [h]

theorem cvtElem_other (s : State) {src dst : Nat} (h : src ≠ dst) (rm p : Nat) :
    cvtElem s src dst rm p = ((encodeTy dst rm s.ftz (decodeTy src p)).bits, (encodeTy dst rm s.ftz (decodeTy src p)).causes) :=
  if_neg h

/-- The rounding of a minor: its own mode, or RNDMODE's (R65, R162). -/
theorem State.rm3_eq (s : State) (r : BitVec 3) : s.rm3 r.toNat = if r = 7 then s.cur.rnd.toNat % 8 else r.toNat := by
  have h7 : r.toNat = 7 ↔ r = 7 := (BitVec.toNat_inj (y := 7))
  simp only [State.rm3, bits_low, h7]
  rfl

theorem exec_vcvt_runs {s : State} {g : Guard} {r : BitVec 3} {d a : Code} {x : Ext} (h : s.runs (.vcvt g r d a x) = true) :
    let u := s.entered (.vcvt g r d a x)
    let v := vframe 0 (BitVec.allOnes 128) fun l => cvtElem u (vxT x) (vxM x) (u.rm3 r.toNat) (elem (vxT x) (u.rdV a) l)
    exec (.vcvt g r d a x) s = .next (u.putV 3 v.2 d v.1) := by
  dsimp only [exec]
  rw [execVcvt, sop_runs h]

/-- The lanes of a frame that writes every lane (R187). -/
theorem vframe_allOnes_lane (old : Vec) (f : Nat → Nat × Causes) {l : Nat} (h : l < 128) :
    ((vframe old (BitVec.allOnes 128) f).1.lane l).toNat = (f l).1 % 2 ^ 32 := by
  rw [vframe_lane _ _ _ h, if_pos (BitVec.getLsbD_allOnes.trans (decide_eq_true h)), BitVec.toNat_ofNat]

theorem vframe_allOnes_causes (old : Vec) (f : Nat → Nat × Causes) (k : Nat) :
    (vframe old (BitVec.allOnes 128) f).2.getLsbD k = true ↔ ∃ l, l < 128 ∧ (f l).2.getLsbD k = true := by
  rw [vframe_causes]
  exact exists_congr fun l => and_congr_right fun hl => and_iff_right (BitVec.getLsbD_allOnes.trans (decide_eq_true hl))

/-- Settles O23: the sum is the exact one or the tree's, the extreme is the fold of a total order, and VCVT is the frame of all lanes. -/
theorem vectorReduceAndConvert : Obligations.VectorReduceAndConvert := by
  intro s g r d a x
  refine ⟨fun h => ?add, fun h => ?max, fun h => ?min, fun h => ?cvt⟩
  case add =>
    refine ⟨_, _, exec_vredAdd_runs h, fun ht => ?_, fun ht => ?_, fun ht => ?_⟩
    · rw [ht, redAdd_i8]
      exact ⟨rfl, rfl⟩
    · rw [ht, redAdd_i32]
      exact ⟨rfl, rfl⟩
    · obtain ⟨v, o, hsum⟩ := treeSum_singleton (l := (redNums (vxT x) ((s.entered (.vredAdd g d a x)).rdV a)
        ((s.entered (.vredAdd g d a x)).maskAt (vxM x))).map fun n => ((rnd48 n).1, false)) (by simp [redNums])
      refine ⟨v, o, hsum, ?_⟩
      rw [redAdd_float _ ht _ _ _ hsum]
      exact ⟨rfl, rfl⟩
  case max =>
    refine ⟨_, exec_vredMax_runs h, ?_⟩
    rw [← redMax_nil]
    exact redWord_redMinMax true _ _
  case min =>
    refine ⟨_, exec_vredMin_runs h, ?_⟩
    rw [← redMin_nil]
    exact redWord_redMinMax false _ _
  case cvt =>
    refine ⟨_, _, exec_vcvt_runs h, fun l hl => ?_, fun k => ?_⟩
    · rw [vframe_allOnes_lane _ _ hl, State.rm3_eq]
      by_cases hty : vxT x = vxM x
      · rw [if_pos hty, ← hty, cvtElem_same]
      · rw [if_neg hty, cvtElem_other _ hty]
    · rw [vframe_allOnes_causes, State.rm3_eq]
      by_cases hty : vxT x = vxM x
      · simp [← hty, cvtElem_same]
      · simp only [cvtElem_other _ hty, ne_eq, hty, not_false_eq_true, true_and]

end Sys2Proof.Machine
end

section
/-! SUPPORT. The element-wise vector operations: the frame of a masked operation, arithmetic, minimum and maximum, and the functions of one
element (R177 to R180). -/

namespace Sys2Proof.Machine

-- ## The frame of a masked operation (R177)

/-- An element-wise operation completes with its lanes. What its lanes give may be judged where its encoding keeps its limits. -/
theorem completesV_of_vlanes {i : Instr} {lat : Nat} {d : Code} {x : Ext} {f g : State → Nat → Nat × Causes}
    (hx : ∀ s, exec i s = vlanes i lat d x s f) (hf : i.wf = true → ∀ u l, l < 128 → f u l = g u l) : CompletesV i lat d x g := by
  intro s h u
  obtain ⟨hwf, -⟩ := State.runs_iff.1 h
  refine ⟨_, _, (hx s).trans (sop_runs h _), fun l hl => ?_, fun k => ?_⟩
  · rw [vframe_lane _ _ _ hl, hf hwf u l hl]
  · rw [vframe_causes]
    exact exists_congr fun l => and_congr_right fun hl => by rw [hf hwf u l hl]

/-- An element-wise operation that breaks a limit of its encoding raises ILLEGAL_OP. -/
theorem vlanes_illegal {i : Instr} {lat : Nat} {d : Code} {x : Ext} {f : State → Nat → Nat × Causes} {s : State} (h : i.wf = false) :
    vlanes i lat d x s f = s.illegal :=
  sop_illegal _ (Or.inl h) _

-- ## Arithmetic, minimum and maximum (R179)

section
variable {i : Instr} {lat : Nat} {d a b : Code} {x : Ext}

/-- A two-operand arithmetic operation rounds its exact result once. -/
theorem completesV_of_varith2 {f : Nat → Num → Num → Num}
    (hx : ∀ s, exec i s = varith i lat d a b x s (fun rm _ p q => f rm p q) false) :
    CompletesV i lat d x fun u l =>
      let p := decodeTy (vxT x) (elem (vxT x) (u.rdV a) l)
      let q := decodeTy (vxT x) (elem (vxT x) (u.rdV b) l)
      let r := f (u.rm (vxR x)) p q
      let o := encodeTy (vxT x) (u.rm (vxR x)) u.ftz r
      (o.bits, o.causes ||| (if isNaN r ∧ ∀ n ∈ [p, q], isNaN n = false then cNV else 0)) :=
  completesV_of_vlanes hx fun _ _ _ _ => by simp only [arith, nvIf_eq]; rfl

/-- A fused operation rounds its exact result once; its destination is a register, which it reads at issue. -/
theorem completesV_of_varith3 {f : Nat → Num → Num → Num → Num} (hx : ∀ s, exec i s = varith i lat d a b x s f true)
    (hd : i.wf = true → d.toNat < 48) :
    CompletesV i lat d x fun u l =>
      let w := decodeTy (vxT x) (elem (vxT x) (u.rdV d) l)
      let p := decodeTy (vxT x) (elem (vxT x) (u.rdV a) l)
      let q := decodeTy (vxT x) (elem (vxT x) (u.rdV b) l)
      let r := f (u.rm (vxR x)) w p q
      let o := encodeTy (vxT x) (u.rm (vxR x)) u.ftz r
      (o.bits, o.causes ||| (if isNaN r ∧ ∀ n ∈ [w, p, q], isNaN n = false then cNV else 0)) :=
  completesV_of_vlanes hx fun hwf u _ _ => by
    have hold : u.oldV d = u.rdV d := if_pos (hd hwf)
    simp only [arith, nvIf_eq, hold]; rfl

end

theorem pickMinMax_eq (mx : Bool) (ty p q : Nat) :
    pickMinMax mx ty p q = if isNaN (decodeTy ty p) ∨ isNaN (decodeTy ty q) then canonNaN ty
      else if Num.lt true (decodeTy ty p) (decodeTy ty q) = mx then q else p := by
  simp only [pickMinMax, Bool.or_eq_true]
  cases Num.lt true (decodeTy ty p) (decodeTy ty q) <;> cases mx <;> rfl

/-- Minimum and maximum pick an operand's bits and record nothing. -/
theorem completesV_of_vminmax {i : Instr} {d a b : Code} {x : Ext} {mx : Bool} (hx : ∀ s, exec i s = vminmax i mx d a b x s) :
    CompletesV i 4 d x fun u l =>
      let p := elem (vxT x) (u.rdV a) l
      let q := elem (vxT x) (u.rdV b) l
      (if isNaN (decodeTy (vxT x) p) ∨ isNaN (decodeTy (vxT x) q) then canonNaN (vxT x)
        else if Num.lt true (decodeTy (vxT x) p) (decodeTy (vxT x) q) = mx then q else p, 0) :=
  completesV_of_vlanes hx fun _ _ _ _ => by rw [pickMinMax_eq]

/-- A code below 48 names a register. -/
theorem code_lt_of_register {d : Code} {q r : Bool} (h : (decide (d < 48) && q && r) = true) : d.toNat < 48 := by
  simp only [Bool.and_eq_true, decide_eq_true_eq] at h
  exact h.1.1

section
variable (g : Guard) (d a b : Code) (x : Ext) (s : State)

-- the arms of arithmetic, minimum and maximum
theorem exec_vadd : exec (.vadd g d a b x) s = execVadd g d a b x s := rfl
theorem exec_vsub : exec (.vsub g d a b x) s = execVsub g d a b x s := rfl
theorem exec_vmul : exec (.vmul g d a b x) s = execVmul g d a b x s := rfl
theorem exec_vfma : exec (.vfma g d a b x) s = execVfma g d a b x s := rfl
theorem exec_vfms : exec (.vfms g d a b x) s = execVfms g d a b x s := rfl
theorem exec_vmin : exec (.vmin g d a b x) s = execVmin g d a b x s := rfl
theorem exec_vmax : exec (.vmax g d a b x) s = execVmax g d a b x s := rfl

end

/-- Settles O19: each operation is the frame of R177 over its exact result; the fused ones need a register as destination. -/
theorem vectorArithmetic : Obligations.VectorArithmetic := by
  intro s g d a b x
  refine ⟨?add, ?sub, ?mul, ?fma, ?fms, ?min, ?max, fun hnul => ?nul⟩
  case add => exact completesV_of_varith2 (exec_vadd g d a b x)
  case sub => exact completesV_of_varith2 (exec_vsub g d a b x)
  case mul => exact completesV_of_varith2 (exec_vmul g d a b x)
  case fma => exact completesV_of_varith3 (exec_vfma g d a b x) code_lt_of_register
  case fms => exact completesV_of_varith3 (exec_vfms g d a b x) code_lt_of_register
  case min => exact completesV_of_vminmax (exec_vmin g d a b x)
  case max => exact completesV_of_vminmax (exec_vmax g d a b x)
  case nul =>
    subst hnul
    have hfma : (Instr.vfma g 63 a b x).wf = false := rfl
    have hfms : (Instr.vfms g 63 a b x).wf = false := rfl
    rw [exec_vfma, exec_vfms, execVfma, execVfms, varith, varith, vlanes_illegal hfma, vlanes_illegal hfms]
    exact ⟨rfl, rfl⟩

end Sys2Proof.Machine
end

section
/-! SUPPORT. The vector compares and the mask operations (R182, R184). -/

namespace Sys2Proof.Machine

-- ## Compares (R182)

/-- What relation `cc` says of two numbers, of which the first is below (`lt`) or above (`gt`) the second. -/
def relOf (cc : Nat) (lt gt : Bool) : Bool :=
  if cc = 0 then !lt && !gt else if cc = 1 then lt || gt else if cc = 2 then lt
  else if cc = 3 then !gt else if cc = 4 then gt else if cc = 5 then !lt else false

theorem relation_eq (cc ty p q : Nat) :
    relation cc ty p q = if isNaN (decodeTy ty p) || isNaN (decodeTy ty q) then decide (cc = 1 ∨ cc = 6)
      else relOf cc (Num.lt false (decodeTy ty p) (decodeTy ty q)) (Num.lt false (decodeTy ty q) (decodeTy ty p)) := rfl

section
variable {i : Instr} {cc : Nat} {m a b : Code} {x : Ext} {s : State}

/-- A compare that may take effect puts one mask in flight: in each selected lane the relation of the two values, or, where one of them is
NaN, whether the relation holds of NaN. -/
theorem vcmp_completes (hx : exec i s = vcmp i cc m a b x s) (h : s.runs i = true) :
    let u := s.entered i
    let val := fun (c : Code) (l : Nat) => decodeTy (vxT x) (elem (vxT x) (u.rdV c) l)
    ∃ k : Mask, exec i s = .next (u.later 4 0 (.mask m.toNat k)) ∧ ∀ l, l < 128 →
      k.getLsbD l = ((u.maskAt (vxM x)).getLsbD l &&
        if isNaN (val a l) || isNaN (val b l) then decide (cc = 1 ∨ cc = 6)
        else relOf cc (Num.lt false (val a l) (val b l)) (Num.lt false (val b l) (val a l))) :=
  ⟨_, hx.trans (sop_runs h _), fun _ hl => (maskOf_bit _ hl).trans (by rw [relation_eq])⟩

theorem vcmp_illegal (h : i.wf = false) : vcmp i cc m a b x s = s.illegal := sop_illegal _ (Or.inl h) _

-- ## Mask operations (R184)

theorem vmaskOp_runs {f : State → Mask} (h : s.runs i = true) :
    vmaskOp i m s f = .next ((s.entered i).later 4 0 (.mask m.toNat (f (s.entered i)))) := by
  rw [vmaskOp, sop_runs h]

theorem vmaskOp_illegal {f : State → Mask} (h : i.wf = false) : vmaskOp i m s f = s.illegal := sop_illegal _ (Or.inl h) _

end

-- ## The limits of their encodings (R62, R72)

/-- m0 is not written, and there is no mask above m7. -/
theorem maskDst_eq_false {m : Code} (h : m = 0 ∨ 8 ≤ m.toNat) : maskDst m = false := by
  simp only [maskDst, Bool.and_eq_false_iff, decide_eq_false_iff_not]
  rcases h with rfl | h
  · exact Or.inl (by decide)
  · exact Or.inr (by omega)

theorem not_mask_of_le {y : Code} (h : 8 ≤ y.toNat) : decide (y < 8) = false := by
  rw [decide_eq_false_iff_not, BitVec.lt_def]
  exact not_lt.2 h

theorem maskSource_bad {m y : Code} (h : m = 0 ∨ 8 ≤ m.toNat ∨ 8 ≤ y.toNat) : (maskDst m && decide (y < 8)) = false := by
  rcases or_assoc.2 h with h | h
  · rw [maskDst_eq_false h, Bool.false_and]
  · rw [not_mask_of_le h, Bool.and_false]

theorem maskSources_bad {m y z : Code} (h : m = 0 ∨ 8 ≤ m.toNat ∨ 8 ≤ y.toNat ∨ 8 ≤ z.toNat) :
    (maskDst m && decide (y < 8) && decide (z < 8)) = false := by
  by_cases hz : 8 ≤ z.toNat
  · rw [not_mask_of_le hz, Bool.and_false]
  · rw [maskSource_bad (by tauto), Bool.false_and]

section
variable (g : Guard) (m a b y z : Code) (x : Ext) (s : State)

-- the arms of the compares and the mask operations
theorem exec_vcmpEq : exec (.vcmpEq g m a b x) s = execVcmpEq g m a b x s := rfl
theorem exec_vcmpNe : exec (.vcmpNe g m a b x) s = execVcmpNe g m a b x s := rfl
theorem exec_vcmpLt : exec (.vcmpLt g m a b x) s = execVcmpLt g m a b x s := rfl
theorem exec_vcmpLe : exec (.vcmpLe g m a b x) s = execVcmpLe g m a b x s := rfl
theorem exec_vcmpGt : exec (.vcmpGt g m a b x) s = execVcmpGt g m a b x s := rfl
theorem exec_vcmpGe : exec (.vcmpGe g m a b x) s = execVcmpGe g m a b x s := rfl
theorem exec_vcmpUn : exec (.vcmpUn g m a b x) s = execVcmpUn g m a b x s := rfl

end

/-- Settles O22: a compare is its relation in each selected lane, and a mask operation combines whole masks. -/
theorem vectorCompareAndMasks : Obligations.VectorCompareAndMasks := by
  intro s g m a b y z x
  refine ⟨vcmp_completes (exec_vcmpEq ..), vcmp_completes (exec_vcmpNe ..), vcmp_completes (exec_vcmpLt ..),
    vcmp_completes (exec_vcmpLe ..), vcmp_completes (exec_vcmpGt ..), vcmp_completes (exec_vcmpGe ..), vcmp_completes (exec_vcmpUn ..),
    fun h => ?and, fun h => ?or, fun h => ?xor, fun h => ?andn, fun h => ?not, fun h => ?badCmp, fun h => ?badNot, fun h => ?badMask⟩ <;>
    dsimp only [exec]
  case and | or | xor | andn | not => exact vmaskOp_runs h
  case badCmp =>
    have bad {op : Instr} {cc : Nat} (hop : op.wf = (maskDst m && extVxTM x && arithT x)) : vcmp op cc m a b x s = s.illegal :=
      vcmp_illegal (by rw [hop, maskDst_eq_false h, Bool.false_and, Bool.false_and])
    exact ⟨bad rfl, bad rfl, bad rfl, bad rfl, bad rfl, bad rfl, bad rfl⟩
  case badNot => exact vmaskOp_illegal (maskSource_bad h)
  case badMask =>
    have bad {op : Instr} {f : State → Mask} (hop : op.wf = (maskDst m && decide (y < 8) && decide (z < 8))) :
        vmaskOp op m s f = s.illegal := vmaskOp_illegal (hop.trans (maskSources_bad h))
    exact ⟨bad rfl, bad rfl, bad rfl, bad rfl⟩

end Sys2Proof.Machine
end

section
/-! SUPPORT. The vector operations of residue mode (R189, R190). -/

namespace Sys2Proof.Machine

/-- Where a unit is absent, an operation that keeps the limits of its encoding raises ABSENT_UNIT, whatever its guard reads (R21, R191). -/
theorem sop_gone {i : Instr} {s : State} (hwf : i.wf = true) (hover : s.iss.over i = false) (hlatch : s.latchBad i = false)
    (k : State → Out3) : sop i false true s k = s.absent := by
  simp [sop, hwf, hover, hlatch]

theorem modValid_iff {m : Nat} : modValid m = true ↔ m % 2 = 1 ∧ 3 ≤ m := by
  rw [modValid, Bool.and_eq_true, decide_eq_true_iff, decide_eq_true_iff]

theorem residue_lt (v : Vec) (j : Nat) : residue v j < 2 ^ 64 := (v.extractLsb' (64 * j) 64).isLt

/-- The modulus that the extension byte names (R111). -/
def State.modulus (s : State) (x : Ext) : Nat := (NMap.getD s.cur.md (vxR x) 0).toNat

theorem State.modulus_lt (s : State) (x : Ext) : s.modulus x < 2 ^ 64 := (NMap.getD s.cur.md (vxR x) 0).isLt

/-- Operand residue `j`, taken modulo the modulus that the extension byte names (R189). -/
def State.reduced (s : State) (x : Ext) (a : Code) (j : Nat) : Nat := residue (s.rdV a) j % s.modulus x

/-- The common shape of the residue operations and of the butterflies: a group of `group` residues is selected by the mask bit of its first
lane, and `f` gives each residue (R189, R190). -/
def residueOp (i : Instr) (lat group : Nat) (d : Code) (x : Ext) (s : State) (f : State → Nat → Nat) : Out3 :=
  sop i false (!s.hasRes) s fun u =>
    .next (u.putV lat (causeIf (!modValid (u.modulus x)) cBADMOD) d (ofResidues fun j =>
      if (u.maskAt (vxM x)).getLsbD (2 * group * (j / group)) then (if modValid (u.modulus x) then f u j else 0)
      else residue (u.oldV d) j))

theorem vresidue_eq (i : Instr) (lat : Nat) (d a b : Code) (x : Ext) (s : State) (f : Nat → Nat → Nat → Nat) :
    vresidue i lat d a b x s f = residueOp i lat 1 d x s fun u j => f (u.modulus x) (u.reduced x a j) (u.reduced x b j) := by
  simp only [residueOp, Nat.div_one, Nat.mul_one]
  rfl

/-- An even place is the first of its butterfly, an odd one the second (R190). -/
theorem vbutterfly_eq (i : Instr) (d a b : Code) (x : Ext) (s : State) (f : Nat → Nat → Nat → Nat → Nat × Nat) :
    vbutterfly i d a b x s f = residueOp i 9 2 d x s fun u j =>
      if j % 2 = 0 then (f (u.modulus x) (u.reduced x a j) (u.reduced x a (j + 1)) (u.reduced x b j)).1
      else (f (u.modulus x) (u.reduced x a (j - 1)) (u.reduced x a j) (u.reduced x b (j - 1))).2 := by
  have hplace (u : State) (j : Nat) :
      (let r := f (u.modulus x) (u.reduced x a (2 * (j / 2))) (u.reduced x a (2 * (j / 2) + 1)) (u.reduced x b (2 * (j / 2)))
        if j % 2 = 0 then r.1 else r.2) =
      if j % 2 = 0 then (f (u.modulus x) (u.reduced x a j) (u.reduced x a (j + 1)) (u.reduced x b j)).1
      else (f (u.modulus x) (u.reduced x a (j - 1)) (u.reduced x a j) (u.reduced x b (j - 1))).2 := by
    dsimp only
    split_ifs with hj
    · rw [show 2 * (j / 2) = j by omega]
    · rw [show 2 * (j / 2) + 1 = j by omega, show 2 * (j / 2) = j - 1 by omega]
  simp only [← hplace]
  rfl

/-- A residue operation whose results are those of `F` modulo the modulus, from the operands' residues: its residues and its record, and
ABSENT_UNIT without residue mode. -/
theorem residueOp_completes {i : Instr} {lat group : Nat} {d a b : Code} {x : Ext} {s : State} {f : State → Nat → Nat}
    {F : (Nat → Nat) → (Nat → Nat) → Nat → Nat → Int} (hx : exec i s = residueOp i lat group d x s f)
    (hf : ∀ u j, 0 < u.modulus x → f u j = (F (u.reduced x a) (u.reduced x b) (u.modulus x) j % u.modulus x).toNat) :
    (s.runs i = true → s.hasRes = true →
      let u := s.entered i
      let m := u.modulus x
      let ok := m % 2 = 1 ∧ 3 ≤ m
      ∃ (v : Vec) (c : Causes), exec i s = .next (u.putV lat c d v) ∧
        (∀ j, j < 64 → residue v j =
          if (u.maskAt (vxM x)).getLsbD (2 * group * (j / group)) then
            (if ok then (F (u.reduced x a) (u.reduced x b) m j % m).toNat else 0)
          else residue (u.oldV d) j) ∧
        c = if ok then 0 else cBADMOD) ∧
    (s.hasRes = false → i.wf = true → s.iss.over i = false → s.latchBad i = false → exec i s = s.absent) := by
  rw [hx, residueOp]
  refine ⟨fun h hres => ?_, fun hres hwf hover hlatch => by rw [hres]; exact sop_gone hwf hover hlatch _⟩
  rw [hres, Bool.not_true, sop_runs h]
  intro u m ok
  refine ⟨_, _, rfl, fun j hj => ?_, causeIf_not_modValid _⟩
  rw [residue_ofResidues _ hj]
  have hm : m < 2 ^ 64 := u.modulus_lt x
  split_ifs with hon hvalid hok hok
  · have hpos : 0 < m := by omega
    have hlt := Int.emod_lt_of_pos (F (u.reduced x a) (u.reduced x b) m j) (Int.natCast_pos.2 hpos)
    have hval : f u j = (F (u.reduced x a) (u.reduced x b) m j % m).toNat := hf u j hpos
    rw [hval]
    exact Nat.mod_eq_of_lt (by omega)
  · exact absurd (modValid_iff.1 hvalid) hok
  · exact absurd (modValid_iff.2 hok) hvalid
  · rfl
  · exact Nat.mod_eq_of_lt (residue_lt _ _)

-- ## The five results modulo m (R189, R190)

section
variable {m : Nat}

theorem toNat_emod_natCast (n : Nat) : ((n : Int) % m).toNat = n % m := by
  rw [← Int.natCast_mod, Int.toNat_natCast]

/-- A difference is taken modulo `m` by way of the sum with `m`, which the subtrahend does not exceed. -/
theorem toNat_emod_sub {v : Nat} (u : Nat) (hv : v ≤ m) : (((u : Int) - v) % m).toNat = (u + m - v) % m := by
  rw [← toNat_emod_natCast, Nat.cast_sub (by omega), Nat.cast_add, add_sub_right_comm, Int.add_emod_right]

/-- The same of such a difference that is multiplied. -/
theorem toNat_emod_sub_mul {v : Nat} (u w : Nat) (hv : v ≤ m) : (((u : Int) - v) * w % m).toNat = (u + m - v) * w % m := by
  rw [← toNat_emod_natCast, Nat.cast_mul, Nat.cast_sub (by omega), Nat.cast_add, add_sub_right_comm, add_mul, Int.add_mul_emod_self_left]

end

section
variable (g : Guard) (d a b : Code) (x : Ext) (s : State)

-- the arms of the residue operations and the butterflies, in their common shape
theorem exec_vmodadd : exec (.vmodadd g d a b x) s =
    residueOp (.vmodadd g d a b x) 4 1 d x s fun u j => (u.reduced x a j + u.reduced x b j) % u.modulus x := by
  dsimp only [exec]
  rw [execVmodadd, vresidue_eq]

theorem exec_vmodsub : exec (.vmodsub g d a b x) s =
    residueOp (.vmodsub g d a b x) 4 1 d x s fun u j => (u.reduced x a j + u.modulus x - u.reduced x b j) % u.modulus x := by
  dsimp only [exec]
  rw [execVmodsub, vresidue_eq]

theorem exec_vmodmul : exec (.vmodmul g d a b x) s =
    residueOp (.vmodmul g d a b x) 8 1 d x s fun u j => (u.reduced x a j * u.reduced x b j) % u.modulus x := by
  dsimp only [exec]
  rw [execVmodmul, vresidue_eq]

theorem exec_vbfly : exec (.vbfly g d a b x) s = residueOp (.vbfly g d a b x) 9 2 d x s fun u j =>
    if j % 2 = 0 then (u.reduced x a j + u.reduced x b j * u.reduced x a (j + 1)) % u.modulus x
    else (u.reduced x a (j - 1) + u.modulus x - u.reduced x b (j - 1) * u.reduced x a j % u.modulus x) % u.modulus x := by
  dsimp only [exec]
  rw [execVbfly, vbutterfly_eq]

theorem exec_vibfly : exec (.vibfly g d a b x) s = residueOp (.vibfly g d a b x) 9 2 d x s fun u j =>
    if j % 2 = 0 then (u.reduced x a j + u.reduced x a (j + 1)) % u.modulus x
    else (u.reduced x a (j - 1) + u.modulus x - u.reduced x a j) * u.reduced x b (j - 1) % u.modulus x := by
  dsimp only [exec]
  rw [execVibfly, vbutterfly_eq]

end

/-- Settles O24: the five operations share one shape, and each result is its formula's remainder. -/
theorem residueArithmetic : Obligations.ResidueArithmetic := by
  intro s g d a b x op
  have complete {i : Instr} {lat group : Nat} {f : State → Nat → Nat} {F : (Nat → Nat) → (Nat → Nat) → Nat → Nat → Int}
      (hx : exec i s = residueOp i lat group d x s f)
      (hf : ∀ u j, 0 < u.modulus x → f u j = (F (u.reduced x a) (u.reduced x b) (u.modulus x) j % u.modulus x).toNat) :
      op i lat group F := residueOp_completes hx hf
  clear_value op
  refine ⟨complete (exec_vmodadd ..) fun u j hm => ?add, complete (exec_vmodsub ..) fun u j hm => ?sub,
    complete (exec_vmodmul ..) fun u j hm => ?mul, complete (exec_vbfly ..) fun u j hm => ?bfly,
    complete (exec_vibfly ..) fun u j hm => ?ibfly⟩
  case add => exact (toNat_emod_natCast _).symm
  case sub => exact (toNat_emod_sub _ (Nat.mod_lt _ hm).le).symm
  case mul => exact (toNat_emod_natCast _).symm
  case bfly =>
    split_ifs with hj
    · exact (toNat_emod_natCast _).symm
    · rw [← toNat_emod_sub _ (Nat.mod_lt _ hm).le, Int.natCast_mod, Int.sub_emod_emod]
      rfl
  case ibfly =>
    split_ifs with hj
    · exact (toNat_emod_natCast _).symm
    · exact (toNat_emod_sub_mul _ _ (Nat.mod_lt _ hm).le).symm

end Sys2Proof.Machine
end

section
/-! SUPPORT. The vector operations on bits and the lane moves, and the lane patterns of VSHUF (R181, R183, R185, R186). -/

namespace Sys2Proof.Machine

/-- An operation on the bits of 32-bit lanes completes with its lanes and no cause (R181). -/
theorem completesV_of_vbits {i : Instr} {d : Code} {x : Ext} {f : State → Nat → BitVec 32} (hx : ∀ s, exec i s = vbits i d x s f) :
    CompletesV i 4 d x fun u l => ((f u l).toNat, 0) :=
  completesV_of_vlanes hx fun _ _ _ _ => rfl

-- ## Operations that write every lane (R183, R185)

theorem vall_runs {i : Instr} {d : Code} {s : State} {f : State → Nat → Nat} {g : State → Nat → BitVec 32}
    (hx : exec i s = vall i 4 d s f) (hg : ∀ u l, BitVec.ofNat 32 (f u l) = g u l) (h : s.runs i = true) :
    ∃ v : Vec, exec i s = .next ((s.entered i).putV 4 0 d v) ∧ ∀ l, l < 128 → v.lane l = g (s.entered i) l :=
  ⟨_, hx.trans (sop_runs h _), fun l hl => (lane_ofLanesN _ hl).trans (hg _ l)⟩

theorem ofNat_lane (v : Vec) (l : Nat) : BitVec.ofNat 32 (v.lane l).toNat = v.lane l := by
  rw [BitVec.ofNat_toNat, BitVec.setWidth_eq]

/-- The immediate of VBCAST.i in a lane is its field extended to 32 bits (R33, R185). -/
theorem ofNat_immS20 (x : Ext) (i : BitVec 12) :
    BitVec.ofNat 32 ((immS20 x i).toNat % 2 ^ 32) = match x with | none => i.signExtend 32 | some e => (e ++ i).signExtend 32 := by
  have low (v : Word) : BitVec.ofNat 32 (v.toNat % 2 ^ 32) = v.setWidth 32 := BitVec.eq_of_toNat_eq (by simp)
  have narrow {n : Nat} (v : BitVec n) : (v.signExtend 64).setWidth 32 = v.signExtend 32 := by
    ext k hk
    simp [BitVec.getElem_signExtend, show k < 64 by omega]
  cases x <;> simp only [immS20, low, narrow]

-- ## The limits of shift amounts and of VBCAST's source (R62, R42)

theorem not_shift_of_le {n : Code} (h : 31 < n.toNat) : decide (n < 32) = false := by
  rw [decide_eq_false_iff_not, BitVec.lt_def]
  exact not_lt.2 h

/-- A source that names a latch of the other kind raises ILLEGAL_OP where the guard reads true (R42). -/
theorem sop_latchBad {i : Instr} {s : State} {bad gone : Bool} (hon : s.guardOn i = true) (hbad : s.latchBad i = true) (k : State → Out3) :
    sop i bad gone s k = s.illegal := by
  simp [sop, hon, hbad]

-- ## The lane patterns (R186)

section
variable {k : Nat} (l : Nat)

theorem shufSrc_exchange (hk : k < 7) : shufSrc k l = l ^^^ 2 ^ k := by
  simp only [shufSrc, show k / 8 = 0 by omega, show k % 8 = k by omega, hk.ne, if_true, if_false]

theorem shufSrc_rotateDown (hk : k < 7) : shufSrc (8 + k) l = (l + 2 ^ k) % 128 := by
  simp only [shufSrc, show (8 + k) / 8 = 1 by omega, show (8 + k) % 8 = k by omega, reduceIte, Nat.reduceEqDiff]

theorem shufSrc_rotateUp (hk : k < 7) : shufSrc (16 + k) l = (l + 128 - 2 ^ k) % 128 := by
  simp only [shufSrc, show (16 + k) / 8 = 2 by omega, show (16 + k) % 8 = k by omega, reduceIte, OfNat.ofNat_ne_zero, Nat.reduceEqDiff]

theorem shufSrc_groupFirst (hk : k < 7) : shufSrc (24 + k) l = l / 2 ^ k * 2 ^ k := by
  have hgroup : l - l % 2 ^ k = l / 2 ^ k * 2 ^ k := by rw [Nat.sub_eq_iff_eq_add (Nat.mod_le ..), Nat.div_add_mod']
  simp only [shufSrc, show (24 + k) / 8 = 3 by omega, show (24 + k) % 8 = k by omega, reduceIte, OfNat.ofNat_ne_zero,
    Nat.reduceEqDiff, hk.ne, hgroup]

theorem shufSrc_groupPlace (hk : k < 7) : shufSrc (56 + k) l = l % 2 ^ k := by
  simp only [shufSrc, show (56 + k) / 8 = 7 by omega, show (56 + k) % 8 = k by omega, reduceIte, OfNat.ofNat_ne_zero, Nat.reduceEqDiff, hk.ne]

end

section
variable {k r : Nat} (j : Nat)

/-- Lane `r` of group `j`. -/
theorem group_of_lane (hr : r < 2 ^ k) : (j * 2 ^ k + r) / 2 ^ k = j ∧ (j * 2 ^ k + r) % 2 ^ k = r := by
  rw [Nat.mul_comm]
  exact ⟨by rw [Nat.mul_add_div (Nat.two_pow_pos k), Nat.div_eq_of_lt hr, Nat.add_zero],
    by rw [Nat.mul_add_mod, Nat.mod_eq_of_lt hr]⟩

/-- The interleave of the two halves takes groups of the lower half to even places, of the upper half to odd ones. -/
theorem shufSrc_deal (hk : k < 7) (hr : r < 2 ^ k) : shufSrc (32 + k) (j * 2 ^ k + r) =
    (if j < 128 / 2 ^ k / 2 then 2 * j else 2 * (j - 128 / 2 ^ k / 2) + 1) * 2 ^ k + r := by
  obtain ⟨hj, hplace⟩ := group_of_lane j hr
  simp only [shufSrc, show (32 + k) / 8 = 4 by omega, show (32 + k) % 8 = k by omega, reduceIte, OfNat.ofNat_ne_zero, Nat.reduceEqDiff,
    hk.ne, hj, hplace]
  split_ifs <;> rfl

theorem shufSrc_undeal (hk : k < 7) (hr : r < 2 ^ k) : shufSrc (40 + k) (j * 2 ^ k + r) =
    (if j % 2 = 0 then j / 2 else 128 / 2 ^ k / 2 + (j - 1) / 2) * 2 ^ k + r := by
  obtain ⟨hj, hplace⟩ := group_of_lane j hr
  simp only [shufSrc, show (40 + k) / 8 = 5 by omega, show (40 + k) % 8 = k by omega, reduceIte, OfNat.ofNat_ne_zero, Nat.reduceEqDiff,
    hk.ne, hj, hplace]
  split_ifs <;> rfl

end

-- ## Bit reversal (R186, kind 6)

/-- The number whose bit `n - 1 - t` is `p t`, as VSHUF sums it. -/
def reverseBits (p : Nat → Bool) (n : Nat) : Nat := (List.range n).foldl (fun acc t => acc + (if p t then 2 ^ (n - 1 - t) else 0)) 0

theorem reverseBits_eq_sum (p : Nat → Bool) (n : Nat) : reverseBits p n = ∑ t ∈ Finset.range n, if p t then 2 ^ (n - 1 - t) else 0 := by
  rw [reverseBits, ← List.foldl_map (f := fun t => if p t then 2 ^ (n - 1 - t) else 0) (g := (· + ·)), ← List.sum_eq_foldl]
  rfl

theorem reverseBits_succ (p : Nat → Bool) (n : Nat) : reverseBits p (n + 1) = 2 * reverseBits p n + (p n).toNat := by
  rw [reverseBits_eq_sum, reverseBits_eq_sum, Finset.sum_range_succ, Finset.mul_sum]
  congr 1
  · refine Finset.sum_congr rfl fun t ht => ?_
    have hexp : n + 1 - 1 - t = n - 1 - t + 1 := by have := Finset.mem_range.1 ht; omega
    rw [hexp, mul_ite, Nat.mul_zero, Nat.pow_succ']
  · cases p n <;> simp

theorem reverseBits_lt (p : Nat → Bool) (n : Nat) : reverseBits p n < 2 ^ n := by
  induction n with
  | zero => exact Nat.one_pos
  | succ n ih =>
    have hbit := Bool.toNat_lt (p n)
    rw [reverseBits_succ, Nat.pow_succ]
    omega

theorem testBit_reverseBits (p : Nat → Bool) {n t : Nat} (h : t < n) : (reverseBits p n).testBit t = p (n - 1 - t) := by
  induction n generalizing t with
  | zero => omega
  | succ n ih =>
    rw [reverseBits_succ]
    cases t with
    | zero => cases hp : p n <;> simp [hp]
    | succ t =>
      have hhalf : (2 * reverseBits p n + (p n).toNat) / 2 = reverseBits p n := by
        have := Bool.toNat_lt (p n)
        omega
      rw [Nat.testBit_succ, hhalf, ih (by omega)]
      congr 1
      omega

/-- Bit reversal of the k + 1 low bits of the lane number; the bits above them stay. -/
theorem testBit_shufSrc_reverse {k : Nat} (l t : Nat) (hk : k < 7) :
    (shufSrc (48 + k) l).testBit t = l.testBit (if t ≤ k then k - t else t) := by
  have hrev : shufSrc (48 + k) l = 2 ^ (k + 1) * (l / 2 ^ (k + 1)) + reverseBits (l % 2 ^ (k + 1)).testBit (k + 1) := by
    have hhigh : l - l % 2 ^ (k + 1) = 2 ^ (k + 1) * (l / 2 ^ (k + 1)) := by rw [Nat.sub_eq_iff_eq_add (Nat.mod_le ..), Nat.div_add_mod]
    simp only [shufSrc, show (48 + k) / 8 = 6 by omega, show (48 + k) % 8 = k by omega, reduceIte, OfNat.ofNat_ne_zero,
      Nat.reduceEqDiff, hk.ne, hhigh, reverseBits]
  rw [hrev, Nat.testBit_two_pow_mul_add _ (reverseBits_lt _ _)]
  by_cases hlow : t ≤ k
  · have hin : k - t < k + 1 := by omega
    have ht : t < k + 1 := Nat.lt_succ_of_le hlow
    rw [if_pos ht, if_pos hlow, testBit_reverseBits _ ht, Nat.testBit_mod_two_pow, Nat.add_sub_cancel, decide_eq_true hin, Bool.true_and]
  · rw [if_neg (by omega), if_neg hlow, Nat.testBit_div_two_pow, Nat.sub_add_cancel (by omega)]

/-- k = 7 of each kind. -/
theorem shufSrc_seven {l : Nat} (hl : l < 128) :
    shufSrc 7 l = 127 - l ∧ shufSrc 31 l = 0 ∧ ∀ n ∈ [15, 23, 39, 47, 55, 63], shufSrc n l = l := by
  have hdown : shufSrc 15 l = l := by
    change (l + 128) % 128 = l
    omega
  have hup : shufSrc 23 l = l := by
    change (l + 128 - 128) % 128 = l
    omega
  have hstay : ∀ n ∈ [39, 47, 55, 63], shufSrc n l = l := by
    intro n hn
    fin_cases hn <;> rfl
  refine ⟨?_, rfl, List.forall_mem_cons.2 ⟨hdown, List.forall_mem_cons.2 ⟨hup, hstay⟩⟩⟩
  · have hflip : 127 - l = 2 ^ 7 - (l + 1) := by omega
    rw [hflip]
    refine Nat.eq_of_testBit_eq fun t => ?_
    rw [Nat.testBit_two_pow_sub_succ hl, show shufSrc 7 l = l ^^^ (2 ^ 7 - 1) from rfl, Nat.testBit_xor, Nat.testBit_two_pow_sub_one]
    by_cases ht : t < 7
    · simp [ht]
    · have htop : l.testBit t = false := Nat.testBit_lt_two_pow (hl.trans_le (Nat.pow_le_pow_right (n := 2) two_pos (not_lt.1 ht)))
      simp [ht, htop]

section
variable (g : Guard) (d a b n p : Code) (x : Ext) (s : State)

-- the arms of the bit operations and the lane moves
theorem exec_vand : exec (.vand g d a b x) s = execVand g d a b x s := rfl
theorem exec_vor : exec (.vor g d a b x) s = execVor g d a b x s := rfl
theorem exec_vxor : exec (.vxor g d a b x) s = execVxor g d a b x s := rfl
theorem exec_vshl : exec (.vshl g d a b x) s = execVshl g d a b x s := rfl
theorem exec_vshr : exec (.vshr g d a b x) s = execVshr g d a b x s := rfl
theorem exec_vsar : exec (.vsar g d a b x) s = execVsar g d a b x s := rfl
theorem exec_vshlI : exec (.vshlI g d a n x) s = execVshlI g d a n x s := rfl
theorem exec_vshrI : exec (.vshrI g d a n x) s = execVshrI g d a n x s := rfl
theorem exec_vsarI : exec (.vsarI g d a n x) s = execVsarI g d a n x s := rfl
theorem exec_vsel : exec (.vsel g d a b x) s = execVsel g d a b x s := rfl
theorem exec_vmov : exec (.vmov g d a x) s = execVmov g d a x s := rfl
theorem exec_vbcast : exec (.vbcast g d a x) s = execVbcast g d a x s := rfl
theorem exec_vbcastI (i : BitVec 12) : exec (.vbcastI g d i x) s = execVbcastI g d i x s := rfl
theorem exec_vlane : exec (.vlane g d x) s = execVlane g d x s := rfl
theorem exec_vperm : exec (.vperm g d a b x) s = execVperm g d a b x s := rfl
theorem exec_vshuf : exec (.vshuf g d a p x) s = execVshuf g d a p x s := rfl

end

/-- Settles O21: the lanes of each operation, the limits of its encoding, and the patterns kind by kind. -/
theorem vectorBitsAndMoves : Obligations.VectorBitsAndMoves := by
  intro s g d a b n p i x
  refine ⟨?and, ?or, ?xor, ?shl, ?shr, ?sar, ?shlI, ?shrI, ?sarI, fun h => ?tooFar, ?sel, ?mov, ?bcast, fun hon hv ha => ?latch, ?bcastI, ?lane,
    ?perm, ?shuf, fun k l hk hl => ?patterns, fun k j r hk hj hr => ?halves, fun k l t hk hl => ?reversed, fun l hl => ?seven⟩
  case and => exact completesV_of_vbits (exec_vand g d a b x)
  case or => exact completesV_of_vbits (exec_vor g d a b x)
  case xor => exact completesV_of_vbits (exec_vxor g d a b x)
  case shl => exact completesV_of_vbits (exec_vshl g d a b x)
  case shr => exact completesV_of_vbits (exec_vshr g d a b x)
  case sar => exact completesV_of_vbits (exec_vsar g d a b x)
  case shlI => exact completesV_of_vbits (exec_vshlI g d a n x)
  case shrI => exact completesV_of_vbits (exec_vshrI g d a n x)
  case sarI => exact completesV_of_vbits (exec_vsarI g d a n x)
  case mov => exact completesV_of_vlanes (exec_vmov g d a x) fun _ _ _ _ => rfl
  case bcast => exact completesV_of_vlanes (exec_vbcast g d a x) fun _ _ _ _ => by rw [BitVec.toNat_setWidth]
  case lane => exact completesV_of_vlanes (exec_vlane g d x) fun _ _ l hl => by rw [BitVec.toNat_ofNat, Nat.mod_eq_of_lt (by omega)]
  case perm => exact completesV_of_vlanes (exec_vperm g d a b x) fun _ _ _ _ => rfl
  case shuf => exact completesV_of_vlanes (exec_vshuf g d a p x) fun _ _ _ _ => rfl
  case sel =>
    refine vall_runs (g := fun u l => if (u.maskAt (vxM x)).getLsbD l then (u.rdV a).lane l else (u.rdV b).lane l)
      (exec_vsel g d a b x s) fun u l => ?_
    rw [apply_ite (BitVec.ofNat 32), ofNat_lane, ofNat_lane]
  case bcastI => exact vall_runs (exec_vbcastI g d x s i) fun u l => ofNat_immS20 x i
  case tooFar =>
    have bad {op : Instr} {f : State → Nat → BitVec 32} (hop : op.wf = (dstOk d && decide (n < 32) && extVxTM x && laneT x)) :
        vbits op d x s f = s.illegal := vlanes_illegal (by rw [hop, not_shift_of_le h, Bool.and_false, Bool.false_and, Bool.false_and])
    rw [exec_vshlI, exec_vshrI, exec_vsarI]
    exact ⟨bad rfl, bad rfl, bad rfl⟩
  case latch =>
    have hbad : s.latchBad (.vbcast g d a x) = true := by
      obtain ⟨v, hv⟩ := hv
      have hsrc : (Instr.vbcast g d a x).ssrc = [a.toNat] := rfl
      simp [State.latchBad, hsrc, hv, ha]
    rw [exec_vbcast, execVbcast, vlanes, sop_latchBad hon hbad]
  case patterns =>
    exact ⟨shufSrc_exchange l hk, shufSrc_rotateDown l hk, shufSrc_rotateUp l hk, shufSrc_groupFirst l hk, shufSrc_groupPlace l hk⟩
  case halves => exact ⟨shufSrc_deal j hk hr, shufSrc_undeal j hk hr⟩
  case reversed => exact testBit_shufSrc_reverse l t hk
  case seven => exact shufSrc_seven hl

end Sys2Proof.Machine
end

section
/-! SUPPORT. The values of VRCP, VRSQ, VEXP2 and VLOG2 before they are rounded: exact, or with a sticky last bit strictly between their
neighbours (R162, R180). -/

namespace Sys2Proof.Machine

theorem sticky_inexact (t : Bool) (m : Nat) (e : Int) : sticky t m e false = .fin t (2 * m + 1) (e - 1) := rfl

-- ## Reciprocal (R180)

/-- The reciprocal's quotient is twice as fine as its last place: even where it is exact, else strictly between its neighbours. -/
theorem rcpNum_spec (t : Bool) {m : Nat} (e : Int) (hm : m ≠ 0) : ∃ w, rcpNum t m e = .fin t w (-257 - e) ∧
    (w % 2 = 0 → w * m = 2 ^ 257) ∧ (w % 2 = 1 → (w - 1) * m < 2 ^ 257 ∧ 2 ^ 257 < (w + 1) * m) := by
  have hexp : -256 - e - 1 = -257 - e := by omega
  have hdiv := Nat.div_add_mod' (2 ^ 256) m
  have hrem := Nat.mod_lt (2 ^ 256) (Nat.pos_of_ne_zero hm)
  have htwo : 2 ^ 257 = 2 * 2 ^ 256 := by omega
  rw [rcpNum, sticky, hexp, htwo]
  generalize 2 ^ 256 = p at *
  by_cases hexact : p % m = 0
  · refine ⟨2 * (p / m), by simp [hexact], fun _ => ?_, fun hodd => by omega⟩
    rw [mul_assoc]
    omega
  · refine ⟨2 * (p / m) + 1, by simp [hexact], fun heven => by omega, fun _ => ?_⟩
    have hlow : (2 * (p / m) + 1 - 1) * m = 2 * (p / m * m) := by rw [Nat.add_sub_cancel, mul_assoc]
    have hhigh : (2 * (p / m) + 1 + 1) * m = 2 * (p / m * m) + 2 * m := by ring
    omega

-- ## Reciprocal square root (R180)

/-- The root by bits lies in the interval in which it was sought. -/
theorem isqrtAux_spec {n : Nat} (k r : Nat) (hlo : r * r ≤ n) (hhi : n < (r + 2 ^ k) * (r + 2 ^ k)) :
    isqrtAux n k r * isqrtAux n k r ≤ n ∧ n < (isqrtAux n k r + 1) * (isqrtAux n k r + 1) := by
  induction k generalizing r with
  | zero => exact ⟨hlo, hhi⟩
  | succ k ih =>
    rw [isqrtAux]
    split_ifs with hbit
    · exact ih _ hbit (by rwa [Nat.add_assoc, ← Nat.two_mul, ← Nat.pow_succ'])
    · exact ih _ hlo (not_le.1 hbit)

theorem rsqNum_spec {m : Nat} (e : Int) (hm : m ≠ 0) :
    let n := if e % 2 = 0 then m else 2 * m
    ∃ w k, rsqNum m e = .fin false w k ∧ 2 * k = -514 - (if e % 2 = 0 then e else e - 1) ∧ (w % 2 = 0 → w ^ 2 * n = 2 ^ 514) ∧
      (w % 2 = 1 → (w - 1) ^ 2 * n < 2 ^ 514 ∧ 2 ^ 514 < (w + 1) ^ 2 * n) := by
  intro n
  have hn : 0 < n := by simp only [n]; split_ifs <;> omega
  obtain ⟨r, hr⟩ : ∃ r, isqrtAux (2 ^ 512 / n) 257 0 = r := ⟨_, rfl⟩
  have hroot : r * r ≤ 2 ^ 512 / n ∧ 2 ^ 512 / n < (r + 1) * (r + 1) := by
    rw [← hr]
    refine isqrtAux_spec 257 0 (Nat.zero_le _) ((Nat.div_le_self _ _).trans_lt ?_)
    omega
  have hlow : r * r * n ≤ 2 ^ 512 := (Nat.le_div_iff_mul_le hn).1 hroot.1
  have hhigh : 2 ^ 512 < (r + 1) * (r + 1) * n := (Nat.div_lt_iff_lt_mul hn).1 hroot.2
  have hfour : 2 ^ 514 = 4 * 2 ^ 512 := by omega
  have heven : (if e % 2 = 0 then e else e - 1) % 2 = 0 := by split_ifs <;> omega
  have hval : rsqNum m e = sticky false r (-256 - (if e % 2 = 0 then e else e - 1) / 2) (decide (r * r * n = 2 ^ 512)) := by
    rw [rsqNum, ← hr]
  rw [hval, sticky, hfour]
  generalize 2 ^ 512 = p at *
  by_cases hexact : r * r * n = p
  · refine ⟨2 * r, _, by rw [if_pos (decide_eq_true hexact)], by omega, fun _ => ?_, fun hodd => by omega⟩
    rw [← hexact]
    ring
  · refine ⟨2 * r + 1, _, by rw [if_neg (by simpa using hexact)], by omega, fun heven => by omega, fun _ => ?_⟩
    have hbelow : (2 * r + 1 - 1) ^ 2 * n = 4 * (r * r * n) := by rw [Nat.add_sub_cancel]; ring
    have habove : (2 * r + 1 + 1) ^ 2 * n = 4 * ((r + 1) * (r + 1) * n) := by ring
    omega

-- ## Power of two (R180)

theorem cast_div_two_pow_le (a n : Nat) : ((a / 2 ^ n : Nat) : ℝ) ≤ a / 2 ^ n := by
  simpa using Nat.cast_div_le (α := ℝ) (m := a) (n := 2 ^ n)

/-- The terms of the fixed-point exponential, each cut off, do not exceed those of the series from `x ^ k / k!` on. -/
theorem expAux_le {y : Nat} {x c : ℝ} (hx : x = y / 2 ^ 400) (n k t : Nat) (ht : (t : ℝ) ≤ c * (x ^ k / k.factorial)) :
    (expAux y n k t : ℝ) ≤ c * ∑ i ∈ Finset.range n, x ^ (k + i) / (k + i).factorial := by
  induction n generalizing k t with
  | zero => simp [expAux]
  | succ n ih =>
    have hx0 : 0 ≤ x := by rw [hx]; positivity
    have hstep : ((t * y / 2 ^ 400 / (k + 1) : Nat) : ℝ) ≤ c * (x ^ (k + 1) / (k + 1).factorial) := by
      calc ((t * y / 2 ^ 400 / (k + 1) : Nat) : ℝ) ≤ (t * y / 2 ^ 400 : Nat) / (k + 1 : Nat) := Nat.cast_div_le
        _ ≤ (t * y : Nat) / 2 ^ 400 / (k + 1 : Nat) := by gcongr; exact cast_div_two_pow_le ..
        _ = t * x / (k + 1 : Nat) := by rw [hx, Nat.cast_mul, mul_div_assoc]
        _ ≤ c * (x ^ k / k.factorial) * x / (k + 1 : Nat) := by gcongr
        _ = c * (x ^ (k + 1) / (k + 1).factorial) := by rw [Nat.factorial_succ, Nat.cast_mul, pow_succ x k]; field_simp
    rw [expAux, Finset.sum_range_succ', mul_add, add_comm, Nat.cast_add]
    refine add_le_add ?_ ht
    simpa only [Nat.add_assoc, Nat.add_comm 1] using ih (k + 1) _ hstep

/-- The terms of the series of artanh 1/3, each cut off, do not exceed the series. -/
theorem ln2Aux_le (p n k t : Nat) {c : ℝ} (ht : (t : ℝ) ≤ c * (1 / 3) ^ (2 * k + 1)) :
    (ln2Aux p n k t : ℝ) ≤ c * ∑ i ∈ Finset.range n, 1 / (2 * ((k + i : Nat) : ℝ) + 1) * (1 / 3) ^ (2 * (k + i) + 1) := by
  induction n generalizing k t with
  | zero => simp [ln2Aux]
  | succ n ih =>
    have hstep : ((t / 9 : Nat) : ℝ) ≤ c * (1 / 3) ^ (2 * (k + 1) + 1) := by
      calc ((t / 9 : Nat) : ℝ) ≤ t / (9 : Nat) := Nat.cast_div_le
        _ ≤ c * (1 / 3) ^ (2 * k + 1) / (9 : Nat) := by gcongr
        _ = c * (1 / 3) ^ (2 * (k + 1) + 1) := by
          rw [show 2 * (k + 1) + 1 = 2 * k + 1 + 2 by omega, pow_add (1 / 3 : ℝ)]
          ring
    have hterm : ((t / (2 * k + 1) : Nat) : ℝ) ≤ c * (1 / (2 * (k : ℝ) + 1) * (1 / 3) ^ (2 * k + 1)) := by
      calc ((t / (2 * k + 1) : Nat) : ℝ) ≤ t / (2 * k + 1 : Nat) := Nat.cast_div_le
        _ ≤ c * (1 / 3) ^ (2 * k + 1) / (2 * k + 1 : Nat) := by gcongr
        _ = c * (1 / (2 * (k : ℝ) + 1) * (1 / 3) ^ (2 * k + 1)) := by push_cast; ring
    rw [ln2Aux, Finset.sum_range_succ', mul_add, add_comm, Nat.cast_add]
    refine add_le_add ?_ hterm
    simpa only [Nat.add_assoc, Nat.add_comm 1] using ih (k + 1) _ hstep

/-- ln 2 in fixed point is not above ln 2. -/
theorem ln2Fixed_le : (ln2Fixed : ℝ) ≤ 2 ^ 400 * Real.log 2 := by
  have hseries : HasSum (fun i : Nat => (2 : ℝ) * (1 / (2 * i + 1)) * (1 / 3) ^ (2 * i + 1)) (Real.log 2) := by
    have h := Real.hasSum_log_sub_log_of_abs_lt_one (x := 1 / 3) (by norm_num [abs_of_pos])
    rwa [← Real.log_div (by norm_num) (by norm_num), show (1 + 1 / 3 : ℝ) / (1 - 1 / 3) = 2 by norm_num] at h
  have hfirst : ((2 ^ 400 / 3 : Nat) : ℝ) ≤ 2 ^ 400 * (1 / 3) ^ (2 * 0 + 1) := by
    calc ((2 ^ 400 / 3 : Nat) : ℝ) ≤ (2 ^ 400 : Nat) / (3 : Nat) := Nat.cast_div_le
      _ = 2 ^ 400 * (1 / 3) ^ (2 * 0 + 1) := by
        rw [Nat.cast_pow, Nat.mul_zero, Nat.zero_add, pow_one, mul_one_div, Nat.cast_ofNat, Nat.cast_ofNat]
  calc (ln2Fixed : ℝ) = 2 * ln2Aux 400 140 0 (2 ^ 400 / 3) := by rw [ln2Fixed, Nat.cast_mul, Nat.cast_ofNat]
    _ ≤ 2 * (2 ^ 400 * ∑ i ∈ Finset.range 140, 1 / (2 * ((0 + i : Nat) : ℝ) + 1) * (1 / 3) ^ (2 * (0 + i) + 1)) := by
      gcongr
      exact ln2Aux_le 400 140 0 _ hfirst
    _ = 2 ^ 400 * ∑ i ∈ Finset.range 140, (2 : ℝ) * (1 / (2 * i + 1)) * (1 / 3) ^ (2 * i + 1) := by
      simp only [Nat.zero_add, mul_assoc, ← Finset.mul_sum]
      rw [mul_left_comm]
    _ ≤ 2 ^ 400 * Real.log 2 := by
      gcongr
      exact sum_le_hasSum _ (fun i _ => by positivity) hseries

theorem le_expAux (y n k t : Nat) : t ≤ expAux y (n + 1) k t := Nat.le_add_right ..

/-- Below 1 the fixed-point power of two stays below 2. -/
theorem expAux_lt {f : Nat} (hf : f < 2 ^ 300) : expAux (f * ln2Fixed / 2 ^ 300) 100 0 (2 ^ 400) < 2 ^ 401 := by
  obtain ⟨x, hx⟩ : ∃ x : ℝ, x = (f * ln2Fixed / 2 ^ 300 : Nat) / 2 ^ 400 := ⟨_, rfl⟩
  have hx0 : 0 ≤ x := by rw [hx]; positivity
  have hlog : x < Real.log 2 := by
    calc x ≤ (f * ln2Fixed : Nat) / 2 ^ 300 / 2 ^ 400 := by rw [hx]; gcongr; exact cast_div_two_pow_le ..
      _ = f / 2 ^ 300 * (ln2Fixed / 2 ^ 400) := by rw [Nat.cast_mul, mul_div_right_comm, mul_div_assoc]
      _ ≤ f / 2 ^ 300 * Real.log 2 := by
        gcongr
        rw [div_le_iff₀' (by positivity)]
        exact ln2Fixed_le
      _ < 1 * Real.log 2 := by
        have hfrac : (f : ℝ) / 2 ^ 300 < 1 := by
          rw [div_lt_one (by positivity), ← Nat.cast_two, ← Nat.cast_pow]
          exact Nat.cast_lt.2 hf
        have hlog := Real.log_pos one_lt_two
        gcongr
      _ = Real.log 2 := one_mul _
  have hsum : (expAux (f * ln2Fixed / 2 ^ 300) 100 0 (2 ^ 400) : ℝ) < 2 ^ 400 * 2 := by
    calc (expAux (f * ln2Fixed / 2 ^ 300) 100 0 (2 ^ 400) : ℝ)
        ≤ 2 ^ 400 * ∑ i ∈ Finset.range 100, x ^ (0 + i) / (0 + i).factorial := expAux_le hx 100 0 _ (by
            rw [pow_zero, Nat.factorial_zero, Nat.cast_one, div_one, mul_one, Nat.cast_pow, Nat.cast_ofNat])
      _ ≤ 2 ^ 400 * Real.exp x := by
        simp only [Nat.zero_add]
        gcongr
        exact Real.sum_le_exp_of_nonneg hx0 100
      _ < 2 ^ 400 * Real.exp (Real.log 2) := by gcongr
      _ = 2 ^ 400 * 2 := by rw [Real.exp_log two_pos]
  have hnat : expAux (f * ln2Fixed / 2 ^ 300) 100 0 (2 ^ 400) < 2 ^ 400 * 2 := by
    rw [← Nat.cast_lt (α := ℝ), Nat.cast_mul, Nat.cast_pow]
    exact hsum
  omega

/-- VEXP2 is exact at integers; elsewhere its last bit is sticky and it lies strictly between the neighbouring powers. -/
theorem exp2Num_spec (t : Bool) {m : Nat} {e : Int} (hm : m ≠ 0) (hbig : magLt 4096 0 m e = false) :
    let z : Int := (if t then -1 else 1) * (m * 2 ^ (e + 300).toNat : Nat)
    (z % 2 ^ 300 = 0 → exp2Num t m e = .fin false 1 (z / 2 ^ 300)) ∧
    (z % 2 ^ 300 ≠ 0 → ∃ w, exp2Num t m e = .fin false w (z / 2 ^ 300 - 401) ∧ 2 ^ 401 < w ∧ w < 2 ^ 402) := by
  intro z
  have hz : signed t (m * 2 ^ (e + 300).toNat) = z := by cases t <;> simp [signed, z]
  have hval : exp2Num t m e = if (z % 2 ^ 300).toNat = 0 then .fin false 1 (z / 2 ^ 300)
      else sticky false (expAux ((z % 2 ^ 300).toNat * ln2Fixed / 2 ^ 300) 100 0 (2 ^ 400)) (z / 2 ^ 300 - 400) false := by
    simp only [exp2Num, if_neg hm, hbig, hz]
    rfl
  have hnonneg : 0 ≤ z % 2 ^ 300 := Int.emod_nonneg _ (by positivity)
  have hlt : z % 2 ^ 300 < 2 ^ 300 := Int.emod_lt_of_pos _ (by positivity)
  rw [hval]
  generalize z / 2 ^ 300 = whole, z % 2 ^ 300 = part at *
  refine ⟨fun hint => ?_, fun hfrac => ?_⟩
  · rw [hint, Int.toNat_zero, if_pos rfl]
  · have hlow : 2 ^ 400 ≤ expAux (part.toNat * ln2Fixed / 2 ^ 300) 100 0 (2 ^ 400) := le_expAux _ 99 0 _
    have hhigh := expAux_lt (f := part.toNat) (by omega)
    have hexp : whole - 400 - 1 = whole - 401 := by omega
    rw [if_neg (by omega), sticky_inexact, hexp]
    exact ⟨_, rfl, by omega, by omega⟩

-- ## Logarithm (R180)

/-- The logarithm's fraction is `acc` with `n` bits appended. -/
theorem log2Aux_lt (n m acc : Nat) : log2Aux n m acc < (acc + 1) * 2 ^ n := by
  induction n generalizing m acc with
  | zero => simp [log2Aux]
  | succ n ih =>
    have hpow : (acc + 1) * 2 ^ (n + 1) = (2 * acc + 1 + 1) * 2 ^ n := by ring
    rw [log2Aux, hpow]
    split_ifs
    · exact ih _ _
    · exact (ih _ _).trans_le (Nat.mul_le_mul_right _ (Nat.le_succ _))

theorem log2Num_two_pow (k : Nat) (e : Int) : log2Num (2 ^ k) e = numOfInt (k + e) := by
  simp only [log2Num, Nat.log2_two_pow, if_true]

theorem log2Num_between {m k : Nat} (e : Int) (hlo : 2 ^ k < m) (hhi : m < 2 ^ (k + 1)) : ∃ t w, log2Num m e = .fin t w (-201) ∧
    ((k : Int) + e) * 2 ^ 201 < (if t then -1 else 1) * (w : Int) ∧ (if t then -1 else 1) * (w : Int) < ((k : Int) + e + 1) * 2 ^ 201 := by
  have hlog : Nat.log2 m = k := (Nat.log2_eq_iff (by omega)).2 ⟨hlo.le, hhi⟩
  have hfrac : log2Aux 200 (m * 2 ^ (600 - k)) 0 < 2 ^ 200 := by simpa using log2Aux_lt 200 (m * 2 ^ (600 - k)) 0
  simp only [log2Num, hlog, if_neg hlo.ne', sticky_inexact]
  generalize log2Aux 200 (m * 2 ^ (600 - k)) 0 = frac at *
  generalize (k : Int) + e = n
  split_ifs with hz
  · exact ⟨false, _, rfl, by simp only [Bool.false_eq_true, if_false]; omega, by simp only [Bool.false_eq_true, if_false]; omega⟩
  · exact ⟨true, _, rfl, by simp only [if_true]; omega, by simp only [if_true]; omega⟩

end Sys2Proof.Machine
end

section
/-! SUPPORT. The vector functions of one element: signs, and the functions with their special operands (R180). -/

namespace Sys2Proof.Machine

-- ## Absolute value and negation (R180)

theorem elem_lt {ty : Nat} (v : Vec) (l : Nat) (h : ty ≤ 4) : elem ty v l < 2 ^ tyBits ty := by
  rw [elem, if_neg (by omega)]
  exact Nat.mod_lt _ (Nat.two_pow_pos _)

/-- An integer has no fraction to round. -/
theorem roundInt_integer (rm : Nat) (z : Int) : roundInt rm (decide (z < 0)) z.natAbs 0 = z := by
  simp only [roundInt, le_refl, if_true, Int.toNat_zero, pow_zero, mul_one, decide_eq_true_eq]
  omega

/-- Two's complement of `w` bits: the upper half of the patterns stands for the negative numbers. -/
theorem toInt_ofNat_cases {w top p : Nat} (hw : 2 ^ w = 2 * top) (hp : p < 2 * top) :
    (BitVec.ofNat w p).toInt = if top ≤ p then (p : Int) - 2 * top else p := by
  rw [BitVec.toInt_eq_toNat_cond, BitVec.toNat_ofNat, hw, Nat.mod_eq_of_lt hp]
  push_cast
  split_ifs <;> omega

/-- Of the integers up to the top, only the top itself does not fit and saturates. -/
theorem encodeInt_integer {w top : Nat} (htop : 2 ^ (w - 1) = top) (hw : 2 ^ w = 2 * top) (rm : Nat) {z : Int}
    (hlo : -(top : Int) < z) (hhi : z ≤ top) :
    ((encodeInt w rm (numOfInt z)).bits, (encodeInt w rm (numOfInt z)).causes) =
      if z = top then (top - 1, cSAT) else ((z % (2 * top)).toNat, (0 : Causes)) := by
  have hmax : (2 ^ (w - 1) : Int) = top := by rw [← htop]; push_cast; rfl
  have hmod : ((2 ^ w : Nat) : Int) = 2 * top := by rw [hw]; push_cast; rfl
  have hbits (n : Int) : (BitVec.ofInt w n).toNat = (n % (2 * top)).toNat := by rw [BitVec.toNat_ofInt, hmod]
  simp only [encodeInt, numOfInt, roundInt_integer, hmax, hbits]
  by_cases hz : z = top
  · have hsat : ((top : Int) - 1) % (2 * top) = top - 1 := Int.emod_eq_of_lt (by omega) (by omega)
    rw [if_pos (by omega), if_pos hz, hsat]
    simp
  · rw [if_neg (by omega), if_neg (by omega), if_neg hz]

/-- The sign of a number in a type with a sign bit (R180): a NaN is canonical, and 0x00 and 0x80 of .mk8 stand. -/
theorem signOp_float {ty : Nat} (flip : Bool) (p : Nat) (hty : ty ≤ 2) :
    signOp flip ty p = if ty = 2 ∧ p % 128 = 0 then (p, 0) else if ty < 2 ∧ isNaN (decodeTy ty p) then (canonNaN ty, 0)
      else if flip then (if p < 2 ^ (tyBits ty - 1) then p + 2 ^ (tyBits ty - 1) else p - 2 ^ (tyBits ty - 1), 0)
      else (p % 2 ^ (tyBits ty - 1), 0) := by
  by_cases h2 : ty = 2
  · subst h2
    simp [signOp, tyBits]
  · have hlt : ty < 2 := by omega
    simp [signOp, hlt, h2]

/-- The sign of an integer (R180): the top of the range, which has no pattern, saturates. -/
theorem signOp_integer {ty p : Nat} (flip : Bool) (hty : ty = 3 ∨ ty = 4) (hp : p < 2 ^ tyBits ty) :
    let top := 2 ^ (tyBits ty - 1)
    let z : Int := if top ≤ p then (p : Int) - 2 * top else p
    let w := if flip then -z else |z|
    signOp flip ty p = if w = top then (top - 1, cSAT) else ((w % (2 * top)).toNat, (0 : Causes)) := by
  intro top z w
  have hbits : tyBits ty = if ty = 3 then 8 else 32 := by rcases hty with rfl | rfl <;> rfl
  have hpow : 2 ^ tyBits ty = 2 * top := by
    rw [← pow_succ', Nat.sub_add_cancel]
    split_ifs at hbits <;> omega
  have hpos : 0 < top := Nat.two_pow_pos _
  have hz : (if ty = 3 then (BitVec.ofNat 8 p).toInt else (BitVec.ofNat 32 p).toInt) = z := by
    rw [hpow] at hp
    rcases hty with rfl | rfl <;> exact toInt_ofNat_cases hpow hp
  have hw : (if (flip || decide (z < 0)) = true then -z else z) = w := by
    cases flip
    · by_cases hneg : z < 0
      · simp [w, hneg, abs_of_neg hneg]
      · simp [w, hneg, abs_of_nonneg (not_lt.1 hneg)]
    · simp [w]
  have hrange : -(top : Int) < w ∧ w ≤ top := by
    have hz : -(top : Int) ≤ z ∧ z < top := by
      simp only [z]
      split_ifs <;> omega
    rw [← hw]
    split_ifs with hneg
    · omega
    · have hpos : ¬z < 0 := fun h => hneg (by simp [h])
      omega
  rw [← encodeInt_integer rfl hpow 0 hrange.1 hrange.2, ← hw, ← hz, signOp, if_neg (by omega), if_neg (by omega)]

/-- VABS and VNEG of one element (R180). -/
theorem signOp_eq {ty p : Nat} (flip : Bool) (hty : ty ≤ 4) (hp : p < 2 ^ tyBits ty) :
    let top := 2 ^ (tyBits ty - 1)
    signOp flip ty p =
      if ty = 3 ∨ ty = 4 then
        let z : Int := if top ≤ p then (p : Int) - 2 * top else p
        let w := if flip then -z else |z|
        if w = top then (top - 1, cSAT) else ((w % (2 * top)).toNat, (0 : Causes))
      else if ty = 2 ∧ p % 128 = 0 then (p, 0)
      else if ty < 2 ∧ isNaN (decodeTy ty p) then (canonNaN ty, 0)
      else if flip then (if p < top then p + top else p - top, 0) else (p % top, 0) := by
  intro top
  by_cases h : ty = 3 ∨ ty = 4
  · rw [if_pos h]
    exact signOp_integer flip h hp
  · rw [if_neg h]
    exact signOp_float flip p (by omega)

-- ## The functions with their special operands (R180)

/-- What a function writes: its value rounded once, with NV where NaN is new and DZ where it is asked for. -/
theorem special_eq (s : State) (ty rm : Nat) (v r : Num) (dz : Bool) :
    special s ty rm v r dz = ((encodeTy ty rm s.ftz r).bits,
      (encodeTy ty rm s.ftz r).causes ||| (if isNaN r ∧ isNaN v = false then cNV else 0) ||| (if dz then cDZ else 0)) := by
  simp only [special, nvIf_eq, List.forall_mem_singleton, causeIf]

section
variable {i : Instr} {d a : Code} {x : Ext} {g : State → Nat → Nat × Causes}

theorem completesV_of_sign {flip : Bool}
    (hx : ∀ s, exec i s = vlanes i 4 d x s fun u l => signOp flip (vxT x) (elem (vxT x) (u.rdV a) l))
    (hwf : i.wf = (dstOk d && extVxTMR x && arithT x))
    (hg : vxT x ≤ 4 → ∀ u l, signOp flip (vxT x) (elem (vxT x) (u.rdV a) l) = g u l) : CompletesV i 4 d x g :=
  completesV_of_vlanes hx fun h u l _ => hg (by simp_all [arithT]) u l

theorem completesV_of_vfunc {f : Num → Num × Bool} (hx : ∀ s, exec i s = vfunc i d a x s f)
    (hg : ∀ u l v, decodeTy (vxT x) (elem (vxT x) (u.rdV a) l) = v → special u (vxT x) (u.rm (vxR x)) v (f v).1 (f v).2 = g u l) :
    CompletesV i 9 d x g :=
  completesV_of_vlanes hx fun _ u l _ => hg u l _ rfl

end

section
variable (g : Guard) (d a : Code) (x : Ext) (s : State)

-- the arms of the one-operand functions
theorem exec_vabs : exec (.vabs g d a x) s = execVabs g d a x s := rfl
theorem exec_vneg : exec (.vneg g d a x) s = execVneg g d a x s := rfl
theorem exec_vrcp : exec (.vrcp g d a x) s = execVrcp g d a x s := rfl
theorem exec_vrsq : exec (.vrsq g d a x) s = execVrsq g d a x s := rfl
theorem exec_vexp2 : exec (.vexp2 g d a x) s = execVexp2 g d a x s := rfl
theorem exec_vlog2 : exec (.vlog2 g d a x) s = execVlog2 g d a x s := rfl

end

/-- Settles O20: the signs and the special operands case by case, and each function's value against its neighbours. -/
theorem vectorFunctions : Obligations.VectorFunctions := by
  intro g d a x ty val out top sign
  refine ⟨?abs, ?neg, ?rcp, ?rsq, ?exp2, ?log2, fun t m e hm => rcpNum_spec t e hm, fun m e hm => rsqNum_spec e hm, fun t e => rfl,
    fun t m e hm _ hbig => exp2Num_spec t hm hbig, log2Num_two_pow, fun m k e hlo hhi _ => log2Num_between e hlo hhi⟩
  case abs =>
    exact completesV_of_sign (exec_vabs g d a x) rfl fun hty u l => signOp_eq false hty (elem_lt _ _ hty)
  case neg =>
    exact completesV_of_sign (exec_vneg g d a x) rfl fun hty u l => signOp_eq true hty (elem_lt _ _ hty)
  case rcp =>
    refine completesV_of_vfunc (exec_vrcp g d a x) fun u l v hv => ?_
    rw [show val u l = v from hv]
    cases v with
    | nan | inf => exact special_eq ..
    | fin t m e =>
      simp only [rcpFn]
      split_ifs <;> exact special_eq ..
  case rsq =>
    refine completesV_of_vfunc (exec_vrsq g d a x) fun u l v hv => ?_
    rw [show val u l = v from hv]
    cases v with
    | nan | inf => exact special_eq ..
    | fin t m e =>
      simp only [rsqFn]
      split_ifs <;> exact special_eq ..
  case exp2 =>
    refine completesV_of_vfunc (exec_vexp2 g d a x) fun u l v hv => ?_
    rw [show val u l = v from hv]
    cases v <;> exact special_eq ..
  case log2 =>
    refine completesV_of_vfunc (exec_vlog2 g d a x) fun u l v hv => ?_
    rw [show val u l = v from hv]
    cases v with
    | nan | inf => exact special_eq ..
    | fin t m e =>
      simp only [log2Fn]
      split_ifs <;> exact special_eq ..

end Sys2Proof.Machine
end

section
/-! SUPPORT. The bytes of words and vectors, and the scratchpad's bytes in a load (R4, R195, R206). -/

namespace Sys2Proof.Machine

/-- Field `k` of `w` bits at a place below the modulus. -/
theorem mod_two_pow_div_mod (a : Nat) {n k w : Nat} (h : k + w ≤ n) : a % 2 ^ n / 2 ^ k % 2 ^ w = a / 2 ^ k % 2 ^ w := by
  obtain ⟨r, rfl⟩ := Nat.exists_eq_add_of_le h
  rw [Nat.add_assoc, Nat.pow_add, Nat.mod_mul_right_div_self, Nat.mod_mod_of_dvd _ (pow_dvd_pow 2 (Nat.le_add_right w r))]

/-- Byte `j` of bytes read as a number (R4). -/
theorem leNat_div_mod (bs : List Byte) (j : Nat) : leNat bs / 2 ^ (8 * j) % 2 ^ 8 = (bs.getD j 0).toNat := by
  induction bs generalizing j with
  | nil => simp [leNat]
  | cons b bs ih =>
    have hb := b.isLt
    cases j with
    | zero =>
      rw [leNat, Nat.mul_zero, Nat.pow_zero, Nat.div_one, List.getD_cons_zero]
      omega
    | succ j =>
      have hpow : 2 ^ (8 * (j + 1)) = 256 * 2 ^ (8 * j) := by rw [Nat.mul_succ, pow_add]; ring
      have hdiv : (b.toNat + 256 * leNat bs) / 256 = leNat bs := by omega
      rw [leNat, hpow, ← Nat.div_div_eq_div_mul, hdiv, ih, List.getD_cons_succ]

/-- Byte `j` of the register that bytes fill (R4). -/
theorem extract_ofNat_leNat {n : Nat} (bs : List Byte) {j : Nat} (h : 8 * j + 8 ≤ n) :
    (BitVec.ofNat n (leNat bs)).extractLsb' (8 * j) 8 = bs.getD j 0 := by
  refine BitVec.eq_of_toNat_eq ?_
  rw [BitVec.extractLsb'_toNat, BitVec.toNat_ofNat, Nat.shiftRight_eq_div_pow, mod_two_pow_div_mod _ h, leNat_div_mod]

theorem extract_vecOfBytes (bs : List Byte) {j : Nat} (h : j < 512) : (vecOfBytes bs).extractLsb' (8 * j) 8 = bs.getD j 0 :=
  extract_ofNat_leNat bs (by omega)

/-- The bytes of a number are those of the register that holds it (R4). -/
theorem leBytes_eq_map (n w : Nat) : leBytes n w = (List.range n).map fun j => BitVec.ofNat 8 (w / 2 ^ (8 * j)) := by
  induction n generalizing w with
  | zero => rfl
  | succ n ih =>
    rw [leBytes, ih, List.range_succ_eq_map, List.map_cons, List.map_map, Nat.mul_zero, Nat.pow_zero, Nat.div_one]
    congr 2
    funext j
    rw [Function.comp_apply, Nat.div_div_eq_div_mul, Nat.succ_eq_add_one, Nat.mul_succ, Nat.add_comm, pow_add]
    rfl

theorem leBytes_toNat {m : Nat} (n : Nat) (v : BitVec m) : leBytes n v.toNat = (List.range n).map fun j => v.extractLsb' (8 * j) 8 := by
  simp only [leBytes_eq_map, BitVec.extractLsb', Nat.shiftRight_eq_div_pow]

theorem leBytes_getElem? {m : Nat} (n : Nat) (v : BitVec m) {j : Nat} (h : j < n) :
    (leBytes n v.toNat)[j]? = some (v.extractLsb' (8 * j) 8) := by
  rw [leBytes_toNat, List.getElem?_map, List.getElem?_range h, Option.map_some]

theorem bytesOfVec_eq (v : Vec) : bytesOfVec v = (List.range 512).map fun j => v.extractLsb' (8 * j) 8 := leBytes_toNat 512 v

theorem bytesOfVec_length (v : Vec) : (bytesOfVec v).length = 512 := leBytes_length 512 v.toNat

/-- Bytes `k` to `k + m - 1` of a vector. -/
theorem bytesOfVec_slice (v : Vec) {k m : Nat} (h : k + m ≤ 512) :
    ((bytesOfVec v).drop k).take m = (List.range m).map fun j => v.extractLsb' (8 * (k + j)) 8 := by
  refine List.ext_getElem? fun j => ?_
  by_cases hj : j < m
  · rw [List.getElem?_take_of_lt hj, List.getElem?_drop, bytesOfVec_eq, List.getElem?_map, List.getElem?_map, List.getElem?_range hj,
      List.getElem?_range (by omega), Option.map_some, Option.map_some]
  · rw [List.getElem?_eq_none (by simp; omega), List.getElem?_eq_none (by simp; omega)]

theorem bytesOfVec_getD (v : Vec) {j : Nat} (h : j < 512) : (bytesOfVec v).getD j 0 = v.extractLsb' (8 * j) 8 := by
  rw [List.getD_eq_getElem?_getD, bytesOfVec, leBytes_getElem? 512 v h, Option.getD_some]

/-- Byte `j` of a load is the scratchpad's byte at the wrapped address (R195). -/
theorem spadRead_getD (m : Memory) (a : Nat) {n j : Nat} (h : j < n) : (spadRead m a n).getD j 0 = Memory.read m ((a + j) % 2 ^ 20) := by
  rw [List.getD_eq_getElem?_getD, spadRead, Memory.readVia, List.getElem?_map, List.getElem?_range h]
  rfl

theorem spadRead_length (m : Memory) (a n : Nat) : (spadRead m a n).length = n := by
  rw [spadRead, Memory.readVia, List.length_map, List.length_range]

end Sys2Proof.Machine
end

section
/-! SUPPORT. What an operation finds where it takes effect: the record of an empty latch leaves all but the results in flight of the context in issue
(R42, R115). -/

namespace Sys2Proof.Machine

theorem State.guardOn_of_runs {s : State} {i : Instr} (h : s.runs i = true) : s.guardOn i = true := by
  obtain ⟨-, -, -, -, hg⟩ := State.runs_iff.1 h
  exact hg

theorem State.guardOn_of_guardOff {s : State} {i : Instr} (h : s.guardOff i = true) : s.guardOn i = false := by
  simp only [State.guardOff, Bool.and_eq_true, Bool.not_eq_true'] at h
  exact h.2

section
variable (s : State) (i : Instr)

theorem State.entered_cases : s.entered i = s ∨ s.entered i = s.later 1 cLATCH .note := by
  unfold State.entered
  split
  · exact Or.inr rfl
  · exact Or.inl rfl

theorem State.core_entered_of {α : Type} (g : Core → α) (hg : ∀ (k : Core) (x : Nat) (f : Ctx → Ctx), g (k.modCtx x f) = g k) (d : Nat) :
    g ((s.entered i).core d) = g (s.core d) := by
  rcases s.entered_cases i with h | h <;> rw [h]
  exact s.core_later g hg _ _ _ d

theorem State.ctx_entered_of {α : Type} (g : Ctx → α) (hg : ∀ (x : Ctx) fl, g { x with flight := fl } = g x) (c x : Nat) :
    g ((s.entered i).ctx c x) = g (s.ctx c x) := by
  rcases s.entered_cases i with h | h <;> rw [h]
  by_cases hc : c = s.iss.core ∧ x = s.iss.ctx
  · obtain ⟨rfl, rfl⟩ := hc
    exact (congrArg g (s.cur_later _ _ _)).trans (hg _ _)
  · rw [s.ctx_later_other _ _ _ hc]

@[simp] theorem State.entered_worldOf (c x : Nat) : (s.entered i).worldOf c x = s.worldOf c x := by
  simp only [State.worldOf, s.core_entered_of i Core.world fun _ _ _ => rfl, s.ctx_entered_of i Ctx.world fun _ _ => rfl]

@[simp] theorem State.entered_ports : (s.entered i).curCore.ports = s.curCore.ports := by
  simp only [State.curCore, State.entered_iss, s.core_entered_of i Core.ports fun _ _ _ => rfl]

@[simp] theorem State.entered_proc : (s.entered i).cur.proc = s.cur.proc := by
  simp only [State.cur, State.entered_iss, s.ctx_entered_of i Ctx.proc fun _ _ => rfl]

@[simp] theorem State.entered_hasCmp : (s.entered i).hasCmp = s.hasCmp := by
  rcases s.entered_cases i with h | h <;> rw [h]
  rfl

end

end Sys2Proof.Machine
end

section
/-! SUPPORT. Scratchpad loads and stores as they issue, the tagged load, bank formats (R200, R202, R206). -/

namespace Sys2Proof.Machine

/-- The scratchpad address of base and scaled offset wraps at 2^20, for all that the sum wraps at 2^64 (R206). -/
theorem State.spadEA_eq (s : State) (a : Code) (off : Word) {z : Nat} (hz : z < 2 ^ 64) :
    s.spadEA a off z = ((s.rdS a).toNat + off.toNat * z) % 2 ^ 20 := by
  rw [State.spadEA, BitVec.toNat_add, BitVec.toNat_mul, BitVec.toNat_ofNat, Nat.mod_eq_of_lt hz, Nat.add_mod_mod,
    Nat.mod_mod_of_dvd _ (pow_dvd_pow 2 (by norm_num : 20 ≤ 64))]

section
variable {i : Instr} {s : State} {a : Code} {off : Word} {z : Nat} {f : State → Nat → State}

/-- A scratchpad access is the common frame with the check of its address and its effect there (R206). -/
def spadOp (i : Instr) (a : Code) (off : Word) (z : Nat) (s : State) (f : State → Nat → State) : Out3 :=
  sop i false false s fun u =>
    if u.spadEA a off z % z ≠ 0 then u.align3 (BitVec.ofNat 64 (u.spadEA a off z)) else .next (f u (u.spadEA a off z))

theorem spadOp_aligned (h : s.runs i = true) {p : Nat} (hp : (s.entered i).spadEA a off z = p) (hal : p % z = 0) :
    spadOp i a off z s f = .next (f (s.entered i) p) := by
  rw [spadOp, sop_runs h, hp, if_neg (not_not_intro hal)]

theorem spadOp_misaligned (h : s.runs i = true) {p : Nat} (hp : (s.entered i).spadEA a off z = p) (hmis : p % z ≠ 0) :
    ∃ w0 w1, spadOp i a off z s f = (s.entered i).raise fALIGN w0 w1 := by
  rw [spadOp, sop_runs h, hp, if_pos hmis]
  exact ⟨_, _, rfl⟩

theorem spadOp_guardOff (h : s.guardOff i = true) : spadOp i a off z s f = .next s := sop_guardOff h _

end

section
variable (g : Guard) (d v a o : Code) (x : Ext) (s : State)

theorem exec_lds : exec (.lds g d a o x) s = spadOp (.lds g d a o x) a (immS14 x o) 512 s fun u p =>
    u.putV 6 0 d (vecOfBytes (spadRead u.issueSpad p 512)) := rfl
theorem exec_ldss : exec (.ldss g d a o x) s = spadOp (.ldss g d a o x) a (immS14 x o) 8 s fun u p =>
    u.putS 6 0 d (BitVec.ofNat 64 (leNat (spadRead u.issueSpad p 8))) := rfl
theorem exec_sts : exec (.sts g v a o x) s = spadOp (.sts g v a o x) a (immS14 x o) 512 s fun u p =>
    u.later 2 0 (.store u.tPort p (bytesOfVec (u.rdV v))) := rfl
theorem exec_stss : exec (.stss g v a o x) s = spadOp (.stss g v a o x) a (immS14 x o) 8 s fun u p =>
    u.later 2 0 (.store u.tPort p (leBytes 8 (u.rdS v).toNat)) := rfl

end

/-- Settles O25: on an aligned address the bytes of the value are those of the scratchpad, and the other way round. -/
theorem scratchpadAccess : Obligations.ScratchpadAccess := by
  intro s g d v a o x off at_ here off_
  have hoff : off = immS14 x o := by cases x <;> rfl
  have ea {z : Nat} (hz : z < 2 ^ 64) (u : State) : u.spadEA a (immS14 x o) z = at_ u z := hoff ▸ u.spadEA_eq a off hz
  have ea512 := ea (z := 512) (by norm_num)
  have ea8 := ea (z := 8) (by norm_num)
  have offs {i : Instr} {z : Nat} {f : State → Nat → State} (hx : exec i s = spadOp i a (immS14 x o) z s f)
      (hz : ∀ u : State, u.spadEA a (immS14 x o) z = at_ u z) : off_ i z :=
    ⟨fun h hmis => hx ▸ spadOp_misaligned h (hz _) hmis, fun h => hx.trans (spadOp_guardOff h)⟩
  have loaded (u : State) {p n j : Nat} (hn : j < n) : (spadRead u.issueSpad p n).getD j 0 = here u p j := spadRead_getD _ _ hn
  refine ⟨fun h hal => ⟨_, (exec_lds ..).trans (spadOp_aligned h (ea512 _) hal), fun j hj => ?lds⟩,
    fun h hal => ⟨_, (exec_ldss ..).trans (spadOp_aligned h (ea8 _) hal), fun j hj => ?ldss⟩,
    fun h hal => ⟨_, _, (exec_sts ..).trans (spadOp_aligned h (ea512 _) hal), leBytes_length _ _, fun j hj => leBytes_getElem? _ _ hj⟩,
    fun h hal => ⟨_, _, (exec_stss ..).trans (spadOp_aligned h (ea8 _) hal), leBytes_length _ _, fun j hj => leBytes_getElem? _ _ hj⟩,
    offs (exec_lds ..) ea512, offs (exec_ldss ..) ea8, offs (exec_sts ..) ea512, offs (exec_stss ..) ea8⟩
  case lds => rw [extract_vecOfBytes _ hj, loaded _ hj]
  case ldss => rw [extract_ofNat_leNat _ (by omega), loaded _ hj]

-- ## The tagged load (R202)

/-- The tag of a tile in the scratchpad: the first two bytes of the load (R202). -/
theorem vecOfBytes_low16 (m : Memory) {p : Nat} (hp : p < 2 ^ 20) : (vecOfBytes (spadRead m p 512)).toNat % 2 ^ 16 =
    (Memory.read m p).toNat + 256 * (Memory.read m ((p + 1) % 2 ^ 20)).toNat := by
  have h0 := leNat_div_mod (spadRead m p 512) 0
  have h1 := leNat_div_mod (spadRead m p 512) 1
  rw [spadRead_getD _ _ (by norm_num), Nat.add_zero, Nat.mod_eq_of_lt hp] at h0
  rw [spadRead_getD _ _ (by norm_num)] at h1
  rw [vecOfBytes, BitVec.toNat_ofNat, Nat.mod_mod_of_dvd _ (pow_dvd_pow 2 (by norm_num : 16 ≤ 4096)), ← h0, ← h1]
  omega

-- ## Bank formats (R199, R200)

/-- The format that a value gives a bank: formats 6 and 7 as 0, CMP only with compress units (R199). -/
theorem bankfmtOf_toNat (cmpu : Bool) (v : Word) : bankfmtOf cmpu v =
    (if v.toNat % 8 < 6 then v.toNat % 8 else 0) + (if cmpu = true ∧ v.toNat.testBit 3 = true then 8 else 0) := by
  rw [bankfmtOf_eq]
  simp only [Bool.and_eq_true]
  rfl

/-- Settles O28: the tagged load's checks in their order, and the format that R199 makes of a value. -/
theorem taggedLoadAndFormats : Obligations.TaggedLoadAndFormats := by
  intro s g d a k t
  refine ⟨fun h => ?tagged, fun h hc => ?format, fun h hc hbit => ?gone, fun h => ?off⟩ <;> dsimp only [exec]
  case tagged =>
    rw [execLdsTag, sop_runs h]
    dsimp only
    rw [vecOfBytes_low16 _ (Nat.mod_lt _ (by norm_num))]
    have uncompressed {b : Bool} (hb : b = false) := ne_true_of_eq_false hb
    refine ⟨fun hcmp => ⟨_, _, if_pos hcmp⟩, fun hcmp hal => ?align, fun hcmp hal htag => ?tag, fun hcmp hal htag => ?loaded⟩
    case align => exact ⟨_, _, (if_neg (uncompressed hcmp)).trans (if_pos hal)⟩
    case tag => exact ⟨_, _, (if_neg (uncompressed hcmp)).trans ((if_neg (not_not_intro hal)).trans (if_pos htag))⟩
    case loaded =>
      refine ⟨_, (if_neg (uncompressed hcmp)).trans ((if_neg (not_not_intro hal)).trans (if_neg (not_not_intro htag))), fun j hj => ?_⟩
      rw [extract_vecOfBytes _ hj, spadRead_getD _ _ hj]
  case format =>
    have here : (s.guardOn (.bfmt g k a) && !s.hasCmp && (s.rdS a).getLsbD 3) = false := by
      rcases hc with hc | hc <;> rw [hc]
      · rw [Bool.not_true, Bool.and_false, Bool.false_and]
      · exact Bool.and_false _
    rw [execBfmt, sop_runs_of h rfl here]
    dsimp only
    rw [bankfmtOf_toNat, State.entered_hasCmp]
    refine ⟨fun hset hwas => ⟨_, if_pos ?_⟩, fun hor => if_neg ?_⟩
    · rw [Bool.and_eq_true, Bool.not_eq_true']
      exact ⟨hset, hwas⟩
    · rw [Bool.and_eq_true, Bool.not_eq_true']
      rintro ⟨hset, hwas⟩
      rcases hor with h0 | h1
      · exact Bool.false_ne_true (h0.symm.trans hset)
      · exact Bool.false_ne_true (hwas.symm.trans h1)
  case gone =>
    rw [execBfmt, State.guardOn_of_runs h, hc, hbit]
    exact sop_absent h _
  case off =>
    rw [execBfmt, State.guardOn_of_guardOff h]
    exact sop_guardOff h _

end Sys2Proof.Machine
end

section
/-! SUPPORT. The stores of the scratchpad: the order of the T ports, the bytes that the stores of a port write, what they leave (R195, R198,
R206). -/

namespace Sys2Proof.Machine

-- ## The bytes of a store (R195)

/-- A write of at most the scratchpad's size puts each byte at its place, modulo 2^20 (R195). -/
theorem read_spadWrite_wrapped {m : Memory} (w : m.wf = true) {a : Nat} {vs : List Byte} (fits : vs.length ≤ 2 ^ 20) {j : Nat} (hj : j < vs.length) :
    Memory.read (spadWrite m a vs) ((a + j) % 2 ^ 20) = vs[j] :=
  Memory.read_writeVia_at spadAddr a vs w hj fun i hi e => by
    simp only [spadAddr] at e
    omega

/-- A store from `p` on writes the byte at address `a`. -/
def Covers (a p : Nat) (bs : List Byte) : Prop := ∃ j, j < bs.length ∧ (p + j) % 2 ^ 20 = a

theorem read_spadWrite_uncovered {m : Memory} (w : m.wf = true) {a p : Nat} {bs : List Byte} (h : ¬Covers a p bs) :
    Memory.read (spadWrite m p bs) a = Memory.read m a :=
  Memory.read_writeVia_other spadAddr p bs w a fun j hj e => h ⟨j, hj, e.symm⟩

/-- The scratchpad after the effect of a store. -/
def storeInto (m : Memory) (f : Flight) : Memory := match f.eff with
  | .store _ a d => spadWrite m a d
  | _ => m

theorem storeInto_store (m : Memory) {f : Flight} {q p : Nat} {bs : List Byte} (h : f.eff = .store q p bs) :
    storeInto m f = spadWrite m p bs := by
  rw [storeInto, h]

theorem wf_storeInto {m : Memory} (w : m.wf = true) (f : Flight) : (storeInto m f).wf = true := by
  unfold storeInto
  split
  · exact Memory.wf_spadWrite _ _ w
  · exact w

theorem read_storeInto_uncovered {m : Memory} (w : m.wf = true) {f : Flight} {a : Nat}
    (h : ∀ q p bs, f.eff = .store q p bs → ¬Covers a p bs) : Memory.read (storeInto m f) a = Memory.read m a := by
  unfold storeInto
  split
  · next he => exact read_spadWrite_uncovered w (h _ _ _ he)
  · rfl

/-- A byte that none of the stores covers reads as before. -/
theorem read_storesInto_uncovered {m : Memory} (w : m.wf = true) {fs : List Flight} {a : Nat}
    (h : ∀ f ∈ fs, ∀ q p bs, f.eff = .store q p bs → ¬Covers a p bs) : Memory.read (fs.foldl storeInto m) a = Memory.read m a := by
  induction fs generalizing m with
  | nil => rfl
  | cons f fs ih =>
    obtain ⟨hf, hfs⟩ := List.forall_mem_cons.1 h
    rw [List.foldl_cons, ih (wf_storeInto w f) hfs, read_storeInto_uncovered w hf]

-- ## The order of the ports (R198)

/-- The stores through T port `p` that are due, and the port whose turn it is. -/
def Ctx.storesDue (y : Ctx) (p : Nat) : List Flight := y.flight.filter (y.storeDue p)
def Ctx.duePort (y : Ctx) : Nat := if y.storesDue 0 = [] then 1 else 0

theorem Ctx.storeDue_iff {y : Ctx} {p : Nat} {f : Flight} :
    y.storeDue p f = true ↔ f.due ≤ y.clk ∧ ∃ a d, f.eff = .store p a d := by
  unfold Ctx.storeDue
  split
  · next he => simp [he]
  · next he => simpa using fun _ => he p

/-- The state in which the due stores of port `p` have performed. -/
def State.stored (s : State) (c x p : Nat) : State :=
  (s.modCore c fun k => { k with spad := ((s.ctx c x).storesDue p).foldl storeInto k.spad }).modCtx c x fun y =>
    { y with flight := y.flight.filter fun f => !(s.ctx c x).storeDue p f }

theorem Ctx.duePort_eq (y : Ctx) : y.duePort = if y.flight.any (y.storeDue 0) then 0 else 1 := by
  unfold Ctx.duePort Ctx.storesDue
  cases h : y.flight.any (y.storeDue 0)
  · exact if_pos (List.filter_eq_nil_iff.2 (List.any_eq_false.1 h))
  · exact if_neg fun e => by simp [List.any_eq_false.2 (List.filter_eq_nil_iff.1 e)] at h

theorem exec_scratchpadStorePerform (s : State) (c x : Nat) :
    exec (.scratchpadStorePerform c x) s = .next (s.stored c x (s.ctx c x).duePort) := by
  dsimp only [exec]
  unfold execScratchpadStorePerform
  dsimp only
  rw [← Ctx.duePort_eq, State.stored, Ctx.storesDue]
  simp only [List.foldl_filter]
  congr 4
  funext k
  congr 2
  funext m f
  rw [storeInto]
  cases (s.ctx c x).storeDue (s.ctx c x).duePort f
  · split <;> rfl
  · rfl

section
variable (s : State) (c x p : Nat)

theorem State.stored_ctx : (s.stored c x p).ctx c x =
    { s.ctx c x with flight := (s.ctx c x).flight.filter fun f => !(s.ctx c x).storeDue p f } := by
  rw [State.stored, State.ctx_modCtx, State.ctx_modSpad s c fun m => ((s.ctx c x).storesDue p).foldl storeInto m]

theorem State.stored_ctx_other {n : Nat} (h : n ≠ x) : (s.stored c x p).ctx c n = s.ctx c n := by
  rw [State.stored, State.ctx_modCtx_other _ fun e => h e.2, State.ctx_modSpad s c fun m => ((s.ctx c x).storesDue p).foldl storeInto m]

theorem State.stored_core_other {n : Nat} (h : n ≠ c) : (s.stored c x p).core n = s.core n := by
  rw [State.stored, State.modCtx, State.core_modCore_other _ h, State.core_modCore_other _ h]

theorem State.stored_spad : ((s.stored c x p).core c).spad = ((s.ctx c x).storesDue p).foldl storeInto (s.core c).spad := by
  rw [State.stored, State.core_modCtx_of _ Core.spad (fun _ _ _ => rfl), State.core_modCore]

/-- Once the stores of port `p` have performed, none of its stores is due, and those of another port are due as before. -/
theorem State.stored_storesDue (q : Nat) : ((s.stored c x p).ctx c x).storesDue q = if q = p then [] else (s.ctx c x).storesDue q := by
  have hdue : ∀ f, ((s.stored c x p).ctx c x).storeDue q f = (s.ctx c x).storeDue q f := fun f => by rw [State.stored_ctx]; rfl
  have hflight : ((s.stored c x p).ctx c x).flight = (s.ctx c x).flight.filter fun f => !(s.ctx c x).storeDue p f := by rw [State.stored_ctx]
  rw [Ctx.storesDue, funext hdue, hflight, List.filter_filter]
  split
  · next h =>
    subst h
    simp
  · next h =>
    refine List.filter_congr fun f _ => ?_
    cases hq : (s.ctx c x).storeDue q f
    · rfl
    · obtain ⟨-, a, d, he⟩ := Ctx.storeDue_iff.1 hq
      have hp : (s.ctx c x).storeDue p f = false := eq_false_of_ne_true fun e => by
        obtain ⟨-, b, d', he'⟩ := Ctx.storeDue_iff.1 e
        rw [he] at he'
        cases he'
        exact h rfl
      rw [hp]
      rfl

end

/-- The bytes of the only due store of a port stand after it. -/
theorem State.stored_stands {s : State} {c x p : Nat} (w : (s.core c).spad.wf = true) {f : Flight} {q a : Nat} {bs : List Byte}
    (hf : (s.ctx c x).storesDue p = [f]) (he : f.eff = .store q a bs) (fits : bs.length ≤ 2 ^ 20) {j : Nat} (hj : j < bs.length) :
    Memory.read ((s.stored c x p).core c).spad ((a + j) % 2 ^ 20) = bs[j] := by
  rw [State.stored_spad, hf, List.foldl_cons, List.foldl_nil, storeInto_store _ he]
  exact read_spadWrite_wrapped w fits hj

/-- A byte that no due store of the port covers reads as before. -/
theorem State.stored_uncovered {s : State} {c : Nat} (w : (s.core c).spad.wf = true) (x p : Nat) {a : Nat}
    (h : ∀ f ∈ (s.ctx c x).storesDue p, ∀ q r bs, f.eff = .store q r bs → ¬Covers a r bs) :
    Memory.read ((s.stored c x p).core c).spad a = Memory.read (s.core c).spad a := by
  rw [State.stored_spad]
  exact read_storesInto_uncovered w h

theorem wf_storesInto {m : Memory} (w : m.wf = true) (fs : List Flight) : (fs.foldl storeInto m).wf = true := by
  induction fs generalizing m with
  | nil => exact w
  | cons f fs ih => exact ih (wf_storeInto w f)

theorem State.wf_stored_spad {s : State} {c : Nat} (w : (s.core c).spad.wf = true) (x p : Nat) : ((s.stored c x p).core c).spad.wf = true := by
  rw [State.stored_spad]
  exact wf_storesInto w _

/-- Settles O26: the due stores of one port perform; where each port has one, a second event performs T1's, which prevails. -/
theorem scratchpadStorePerforms : Obligations.ScratchpadStorePerforms := by
  intro s c x due port covers stands w
  have hdue : ∀ u p, due u p = (u.ctx c x).storesDue p := fun _ _ => rfl
  have gone : ∀ f ∈ (s.ctx c x).flight, decide (f ∉ due s port) = !(s.ctx c x).storeDue port f := fun f hf => by
    simp [hdue, Ctx.storesDue, hf]
  have first : exec (.scratchpadStorePerform c x) s = .next (s.stored c x port) := exec_scratchpadStorePerform s c x
  refine ⟨s.stored c x port, first, ?_, fun n hn => s.stored_ctx_other c x port hn,
    fun n hn => s.stored_core_other c x port hn, fun a ha => State.stored_uncovered w x port ha, fun f q p bs hf he fits j hj _ => ?_,
    fun f h p bs r cs hf hh he heh fits fitsh => ?_⟩
  · rw [State.stored_ctx, List.filter_congr gone]
  · rw [State.stored_stands w hf he fits hj, List.getElem?_eq_getElem hj]
  · have hport : port = 0 := if_neg (by rw [hf]; exact List.cons_ne_nil f [])
    rw [hport]
    rw [hdue] at hf hh
    have due0 : ((s.stored c x 0).ctx c x).storesDue 0 = [] := s.stored_storesDue c x 0 0
    have due1 : ((s.stored c x 0).ctx c x).storesDue 1 = [h] := (s.stored_storesDue c x 0 1).trans hh
    have second := exec_scratchpadStorePerform (s.stored c x 0) c x
    rw [show ((s.stored c x 0).ctx c x).duePort = 1 from if_pos due0] at second
    have w0 := State.wf_stored_spad w x 0
    refine ⟨_, second, fun j hj _ => ?_, fun j hj hnot => ?_⟩
    · rw [State.stored_stands w0 due1 heh fitsh hj, List.getElem?_eq_getElem hj]
    · have apart : ∀ g ∈ ((s.stored c x 0).ctx c x).storesDue 1, ∀ q a ds, g.eff = .store q a ds → ¬Covers ((p + j) % 2 ^ 20) a ds := by
        rw [due1]
        rintro g hg q a ds hgs
        rw [List.mem_singleton.1 hg, heh] at hgs
        cases hgs
        exact hnot
      rw [State.stored_uncovered w0 x 1 apart, State.stored_stands w hf he fits hj, List.getElem?_eq_getElem hj]

end Sys2Proof.Machine
end

section
/-! SUPPORT. The operand FIFOs as the bundle in issue finds them (R57, R207, R209). -/

namespace Sys2Proof.Machine

/-- Packed fields as a sum. -/
theorem packNat_eq_sum (w : Nat) (f : Nat → Nat) (n : Nat) :
    packNat w f n = ((List.range n).map fun i => f i % 2 ^ w * 2 ^ (w * i)).sum := by
  induction n with
  | zero => rfl
  | succ n ih => rw [packNat, ih, List.range_succ, List.map_append, List.sum_append, List.map_singleton, List.sum_singleton]

/-- The core in issue holds no FIFO: it is a supervisor core, or ARRMODE gives the array to the other core (R207, R430). -/
theorem State.noFifo_eq_false_iff {s : State} : s.noFifo = false ↔
    isSupervisor s.iss.core = false ∧ (s.curArr.mode = 2 ∨ s.curArr.mode = s.iss.core % 2) := by
  rw [State.noFifo, Arr.holds, Nat.mod_mod, Bool.or_eq_false_iff, Bool.not_eq_false', Bool.or_eq_true, decide_eq_true_eq, decide_eq_true_eq]

/-- A FIFO read reads no register and no latch; what it does but for its value `v` (R57, R209). -/
theorem fifoOp_spec {i : Instr} {s : State} {d : Code} {v : State → Word} (hs : i.ssrc = []) (hv : i.vsrc = [])
    (hx : exec i s = sop i false (isSupervisor s.iss.core) s fun u => if u.noFifo then u.windowMiss else .next (u.putS 1 0 d (v u))) :
    (s.runs i = true → isSupervisor s.iss.core = false → s.curArr.mode = 2 ∨ s.curArr.mode = s.iss.core % 2 →
      exec i s = .next (s.putS 1 0 d (v s))) ∧
    (s.runs i = true → isSupervisor s.iss.core = false → ¬(s.curArr.mode = 2 ∨ s.curArr.mode = s.iss.core % 2) →
      exec i s = s.windowMiss) ∧
    (isSupervisor s.iss.core = true → i.wf = true → s.iss.over i = false → exec i s = s.absent) ∧
    (i.wf = false → exec i s = s.illegal) := by
  have hent : s.entered i = s := State.entered_of_no_source hs hv s
  refine ⟨fun h hsup held => ?_, fun h hsup held => ?_, fun hsup hwf hover => ?_, fun hwf => ?_⟩ <;> rw [hx]
  · rw [sop_runs_of h rfl hsup, hent, State.noFifo_eq_false_iff.2 ⟨hsup, held⟩]
    rfl
  · have hno : s.noFifo = true := by
      rw [← Bool.not_eq_false, State.noFifo_eq_false_iff]
      exact fun e => held e.2
    rw [sop_runs_of h rfl hsup, hent, hno]
    rfl
  · have hlatch : s.latchBad i = false := by rw [State.latchBad, hs, hv]; rfl
    simp [sop, hwf, hover, hlatch, hsup]
  · exact sop_illegal _ (Or.inl hwf) _

/-- The word of FPEEK: 0 for an empty FIFO, else bytes 0 to 7 of its head (R209). -/
def Fifo.peek (f : Fifo) : Word := match f.q with
  | [] => 0
  | e :: _ => entryHead e.1 e.2

theorem entryHead_eq (fmt : Nat) (e : Vec) : entryHead fmt e = if fmt = 5 then e.extractLsb' 0 64
    else BitVec.ofNat 64 (((List.range (64 / tyBits fmt)).map fun i => (e.lane i).toNat % 2 ^ tyBits fmt * 2 ^ (tyBits fmt * i)).sum) := by
  rw [entryHead, packNat_eq_sum, residue, BitVec.ofNat_toNat, BitVec.setWidth_eq]

/-- The FIFO that FLEV and FPEEK of `f` read, as the bundle in issue finds it (R57, R209). -/
def State.issueFifo (s : State) (f : Code) : Fifo := s.issuePos.fifo (decide (f.toNat = 1))

theorem State.issueFifo_eq (s : State) (f : Code) : s.issueFifo f =
    let me := s.iss.core % 2
    let first := match s.curCore.first with | some b => b.arr.pos me | none => (s.arr (pairOf s.iss.core)).pos me
    if f = 1 then first.fb else first.fa := by
  have hf : f.toNat = 1 ↔ f = 1 := (BitVec.toNat_inj (y := 1))
  simp only [State.issueFifo, State.issuePos, State.issueArr, Pos.fifo, hf, decide_eq_true_eq]
  cases s.curCore.first <;> rfl

section
variable (g : Guard) (d f : Code) (s : State)

theorem exec_flev : exec (.flev g d f) s = sop (.flev g d f) false (isSupervisor s.iss.core) s fun u =>
    if u.noFifo then u.windowMiss else .next (u.putS 1 0 d (u.issueFifo f).level) := rfl

theorem exec_fpeek : exec (.fpeek g d f) s = sop (.fpeek g d f) false (isSupervisor s.iss.core) s fun u =>
    if u.noFifo then u.windowMiss else .next (u.putS 1 0 d (u.issueFifo f).peek) := by
  dsimp only [exec]
  rw [execFpeek]
  congr 1
  funext u
  unfold Fifo.peek State.issueFifo
  cases (u.issuePos.fifo (decide (f.toNat = 1))).q <;> rfl

end

/-- Settles O29: both read the FIFO of the bundle's first issue cycle, and share the faults of R207 and R430. -/
theorem fifoReads : Obligations.FifoReads := by
  intro s g d f me r held first q is
  have hq : s.issueFifo f = q := s.issueFifo_eq f
  have bad (h : 2 ≤ f.toNat) : (dstOk d && decide (f < 2)) = false := by
    rw [decide_eq_false (by rw [BitVec.lt_def]; exact Nat.not_lt.2 h), Bool.and_false]
  obtain ⟨hlev, hlevMiss, hlevGone, hlevBad⟩ := fifoOp_spec rfl rfl (exec_flev g d f s)
  obtain ⟨hpeek, hpeekMiss, hpeekGone, hpeekBad⟩ := fifoOp_spec rfl rfl (exec_fpeek g d f s)
  clear_value q
  subst hq
  refine ⟨⟨hlev, hlevMiss, hlevGone, fun h => hlevBad (bad h)⟩,
    fun h hsup hheld => (hpeek h hsup hheld).trans ?_, hpeekMiss, hpeekGone, fun h => hpeekBad (bad h)⟩
  unfold Fifo.peek
  cases (s.issueFifo f).q with
  | nil => rfl
  | cons e rest => exact congrArg (fun v => Host.Outcome.next (s.putS 1 0 d v)) (entryHead_eq e.1 e.2)

end Sys2Proof.Machine
end

section
/-! SUPPORT. What the transform units compute: convert, transpose, gather, ECDSA (R214 to R218), and the entries that moves push (R208). -/

namespace Sys2Proof.Machine

-- ## Convert (R214)

/-- The residues that a conversion to U64R makes. -/
theorem residue_convertVec (sr : Nat) (v : Vec) {j : Nat} (hj : j < 64) :
    residue (convertVec 5 sr v).1 j = (moveElem sr 5 (elem sr v j)).bits % 2 ^ 64 := residue_ofResidues _ hj

/-- The lanes that a conversion to another type makes; from U64R it makes 64. -/
theorem lane_convertVec {dst sr : Nat} (hdst : dst ≠ 5) (v : Vec) {l : Nat} (hl : l < 128) :
    ((convertVec dst sr v).1.lane l).toNat = if sr = 5 ∧ 64 ≤ l then 0 else (moveElem sr dst (elem sr v l)).bits % 2 ^ 32 := by
  have hval : (convertVec dst sr v).1 =
      ofLanesN fun i => if i < (if dst = 5 ∨ sr = 5 then 64 else 128) then (moveElem sr dst (elem sr v i)).bits else 0 := if_neg hdst
  rw [hval, lane_ofLanesN _ hl, BitVec.toNat_ofNat]
  by_cases h : sr = 5 ∧ 64 ≤ l
  · rw [if_pos h, if_neg (by rw [if_pos (Or.inr h.1)]; omega), Nat.zero_mod]
  · rw [if_neg h, if_pos (by split_ifs <;> omega)]

-- ## Transpose (R215)

/-- Byte `a` of lists of `k` bytes laid one after the other. -/
theorem flatten_getD {f : Nat → List Byte} {k : Nat} (hf : ∀ i, (f i).length = k) (hk : 0 < k) {n a : Nat} (h : a < n * k) :
    ((List.range n).map f).flatten.getD a 0 = (f (a / k)).getD (a % k) 0 := by
  induction n with
  | zero => omega
  | succ n ih =>
    have hlen : ((List.range n).map f).flatten.length = n * k := by simp [List.length_flatten, Function.comp_def, hf]
    rw [List.range_succ, List.map_append, List.flatten_append, List.map_singleton, List.flatten_singleton]
    by_cases hn : a < n * k
    · rw [List.getD_append _ _ _ _ (hlen ▸ hn), ih hn]
    · have hge : n * k ≤ a := not_lt.1 hn
      have hlt : a - n * k < k := by rw [Nat.succ_mul] at h; omega
      have hdiv : a / k = n := by
        rw [← Nat.sub_add_cancel hge, Nat.add_mul_div_right _ _ hk, Nat.div_eq_of_lt hlt, Nat.zero_add]
      have hmod : a % k = a - n * k := by
        conv_lhs => rw [← Nat.sub_add_cancel hge, Nat.add_mul_mod_self_right, Nat.mod_eq_of_lt hlt]
      rw [List.getD_append_right _ _ _ _ (hlen ▸ hge), hlen, hdiv, hmod]

/-- Byte `a` of the eight lines of the transpose unit's staging ports. -/
def Core.staged (k : Core) (a : Nat) : Byte := (k.port (0xD0 + a / 512)).extractLsb' (8 * (a % 512)) 8

theorem staged_getD (k : Core) {a : Nat} (h : a < 4096) :
    (((List.range 8).map fun i => bytesOfVec (k.port (0xD0 + i))).flatten).getD a 0 = k.staged a := by
  rw [flatten_getD (f := fun i => bytesOfVec (k.port (0xD0 + i))) (fun _ => bytesOfVec_length _) (by norm_num) h,
    bytesOfVec_getD _ (Nat.mod_lt _ (by norm_num)), Core.staged]

/-- Where byte `a` of the transposed lines comes from, for elements of `b` bytes: rows and columns of its 32 by 32 block exchanged. -/
def transposedFrom (b a : Nat) : Nat :=
  a / (1024 * b) * (1024 * b) + (32 * (a % (1024 * b) / b % 32) + a % (1024 * b) / b / 32) * b + a % b

theorem transposedFrom_eq {b m r c j : Nat} (hb : b = 1 ∨ b = 2 ∨ b = 4) (hr : r < 32) (hc : c < 32) (hj : j < b) :
    transposedFrom b (m * (1024 * b) + (32 * r + c) * b + j) = m * (1024 * b) + (32 * c + r) * b + j := by
  rcases hb with rfl | rfl | rfl <;> simp only [transposedFrom] <;> omega

/-- Byte `a` of the transposed lines. -/
theorem transposeLines_byte (k : Core) {b a : Nat} (hb : b = 1 ∨ b = 2 ∨ b = 4) (ha : a < 4096) :
    ((transposeLines (8 * b) k).getD (a / 512) 0).extractLsb' (8 * (a % 512)) 8 = k.staged (transposedFrom b a) := by
  have hw : 8 * b / 8 = b := by omega
  have hline : a / 512 < 8 := by omega
  have hbyte : a % 512 < 512 := Nat.mod_lt _ (by norm_num)
  have hfrom : transposedFrom b a < 4096 := by rcases hb with rfl | rfl | rfl <;> simp only [transposedFrom] <;> omega
  rw [transposeLines]
  simp only [hw, List.getD_eq_getElem?_getD, List.getElem?_map, List.getElem?_range hline, Option.map_some, Option.getD_some]
  rw [extract_vecOfBytes _ hbyte]
  simp only [List.getD_eq_getElem?_getD, List.getElem?_map, List.getElem?_range hbyte, Option.map_some, Option.getD_some, Nat.div_add_mod]
  rw [← List.getD_eq_getElem?_getD]
  exact staged_getD k hfrom

/-- Rows and columns of each 32 by 32 block of elements of `b` bytes are exchanged (R215). -/
theorem transposeLines_exchange (k : Core) {b m r c j : Nat} (hb : b = 1 ∨ b = 2 ∨ b = 4) (hm : m < 4 / b) (hr : r < 32) (hc : c < 32)
    (hj : j < b) :
    let to_ := m * (1024 * b) + (32 * r + c) * b + j
    ((transposeLines (8 * b) k).getD (to_ / 512) 0).extractLsb' (8 * (to_ % 512)) 8 = k.staged (m * (1024 * b) + (32 * c + r) * b + j) := by
  have hto : m * (1024 * b) + (32 * r + c) * b + j < 4096 := by rcases hb with rfl | rfl | rfl <;> omega
  dsimp only
  rw [transposeLines_byte k hb hto, transposedFrom_eq hb hr hc hj]

theorem transposeLines_length (w : Nat) (k : Core) : (transposeLines w k).length = 8 := by
  rw [transposeLines, List.length_map, List.length_range]

-- ## Gather (R216) and the FIFO entries (R208)

/-- A number of at most four bytes fits a lane. -/
theorem toNat_lane_leNat (bs : Nat → List Byte) (hbs : ∀ l, (bs l).length ≤ 4) {l : Nat} (hl : l < 128) :
    ((ofLanesN fun i => leNat (bs i)).lane l).toNat = leNat (bs l) := by
  have hlt : leNat (bs l) < 2 ^ 32 := by
    calc leNat (bs l) < 256 ^ (bs l).length := leNat_lt _
      _ ≤ 256 ^ 4 := Nat.pow_le_pow_right (by norm_num) (hbs l)
      _ = 2 ^ 32 := by norm_num
  rw [lane_ofLanesN _ hl, BitVec.toNat_ofNat, Nat.mod_eq_of_lt hlt]

/-- Each element of an entry is cut to the width of its format (R175, R208). -/
theorem lane_entryOf {fmt : Nat} (h : fmt ≠ 5) (v : Vec) {l : Nat} (hl : l < 128) :
    ((entryOf fmt v).lane l).toNat = (v.lane l).toNat % 2 ^ tyBits fmt := by
  rw [entryOf, if_neg h, lane_ofLanesN _ hl, BitVec.toNat_ofNat, Nat.mod_eq_of_lt]
  exact Nat.lt_of_le_of_lt (Nat.mod_le _ _) (v.lane l).isLt

-- ## Lane 0 of a status (R217 to R219)

theorem lane0_of_lt {n : Nat} (h : n < 2 ^ 32) : lane0 n = BitVec.ofNat 4096 n := by
  rw [lane0, Nat.mod_eq_of_lt h]

theorem ecdsaVerify_lt (qx qy z r s : Nat) : ecdsaVerify qx qy z r s < 2 ^ 32 := by
  unfold ecdsaVerify
  split
  · norm_num
  · dsimp only
    split
    · norm_num
    · split <;> norm_num

end Sys2Proof.Machine
end

section
/-! SUPPORT. The landing of the transform units' results (R173, R198, R212). -/

namespace Sys2Proof.Machine

theorem NMap.set_set {α : Type} (m : NMap α) (k : Nat) (u v : α) : NMap.set (NMap.set m k u) k v = NMap.set m k v := by
  induction m with
  | nil => simp [NMap.set]
  | cons p m ih =>
    obtain ⟨j, w⟩ := p
    simp only [NMap.set]
    split_ifs with h1 h2 <;> simp only [NMap.set, lt_irrefl, if_false, if_true]
    rw [if_neg h1, if_neg h2, ih]

theorem State.modCore_modCore (s : State) (c : Nat) (f g : Core → Core) : (s.modCore c f).modCore c g = s.modCore c fun k => g (f k) := by
  rw [State.modCore, State.core_modCore, State.modCore, State.modCore, State.setCore, State.setCore, State.setCore, NMap.set_set]

section
variable {s : State} {c : Nat}

/-- The event always answers a next state. -/
theorem exec_unitResultLanding_next (s : State) (c : Nat) : ∃ r, exec (.unitResultLanding c) s = .next r := by
  dsimp only [exec]
  rw [execUnitResultLanding]
  split
  · exact ⟨_, rfl⟩
  · exact ⟨_, rfl⟩

/-- The only result in flight lands in its port once it is due (R212). -/
theorem exec_unitResultLanding_port {f : UFlight} {p : Nat} {v : Vec} (hf : (s.core c).flight = [f]) (hd : f.due ≤ (s.core c).ccyc)
    (he : f.eff = .port p v) : exec (.unitResultLanding c) s =
      .next (s.modCore c fun k => { k with flight := [], ports := NMap.set k.ports p v }) := by
  have hdue : (s.core c).unitDue false f = true := by simp [Core.unitDue, he, hd]
  have hland (t : State) : t.landUnit c f = t.modCore c fun k => { k with ports := NMap.set k.ports p v } := by rw [State.landUnit, he]
  dsimp only [exec]
  rw [execUnitResultLanding]
  simp only [hf, List.any_cons, hdue, Bool.true_or, Bool.not_true, List.filter_cons, if_true, List.filter_nil, List.isEmpty_cons, Bool.false_eq_true,
    if_false, List.foldl_cons, List.foldl_nil, hland, State.modCore_modCore]
  simp only [State.modCore, hf, List.filter_cons, hdue, Bool.not_true, Bool.false_eq_true, if_false, List.filter_nil]

/-- With nothing due, a list entry's turn has come (R173). -/
theorem exec_unitResultLanding_idle (h : ∀ f ∈ (s.core c).flight, (s.core c).ccyc < f.due) :
    exec (.unitResultLanding c) s = .next (s.writeList c) := by
  have hdue : ∀ t f, f ∈ (s.core c).flight → ¬(s.core c).unitDue t f = true := fun t f hf => by
    simp [Core.unitDue, Nat.not_le.2 (h f hf)]
  have hnone : ∀ t, (s.core c).flight.filter ((s.core c).unitDue t) = [] := fun t => List.filter_eq_nil_iff.2 (hdue t)
  dsimp only [exec]
  rw [execUnitResultLanding]
  simp only [hnone, List.isEmpty_nil, if_true]

theorem State.writeList_nil (h : (s.core c).lists = []) : s.writeList c = s := by
  rw [State.writeList, h]

theorem State.writeList_held {o : ListOut} {rest : List ListOut} (h : (s.core c).lists = o :: rest)
    (hc : s.listClear o.by_ 0 o.peer o.world o.base o.len 1 = false) : s.writeList c = s := by
  rw [State.writeList, h]
  simp only [hc, Bool.not_false, if_true]

/-- An entry is written: its list goes on with the others, or is done with its last (R173). -/
theorem State.writeList_written {o : ListOut} {rest : List ListOut} {t : State} (h : (s.core c).lists = o :: rest)
    (hc : s.listClear o.by_ 0 o.peer o.world o.base o.len 1 = true) (ht : s.outAll { o with es := o.es.take 1 } = (t, none)) :
    (s.writeList c).dies = t.dies ∧
      if o.es.length ≤ 1 then ((s.writeList c).core c).lists = rest
      else ∃ r, ((s.writeList c).core c).lists = { o with es := o.es.drop 1, ridx := some r } :: rest := by
  rw [State.writeList, h]
  simp only [hc, Bool.not_true, Bool.false_eq_true, if_false, ht, State.core_modCore]
  refine ⟨rfl, ?_⟩
  by_cases hlen : o.es.length ≤ 1
  · simp only [if_pos hlen]
  · simp only [if_neg hlen]
    exact ⟨_, rfl⟩

end

end Sys2Proof.Machine
end

section
/-! SUPPORT. Moves: the common frame of MV and MVI, what each port does with a value, the reads of result ports (R208, R210 to R213, R220). -/

namespace Sys2Proof.Machine

-- ## Ports that start no unit (R210, R212)

theorem unitOf_eq_none {p : Nat} (h : p < 0x80 ∨ (0xD0 ≤ p ∧ p ≤ 0xD7) ∨ p = 0xF0 ∨ p = 0xC1 ∨ p = 0x100) : unitOf p = none := by
  simp (disch := omega) only [unitOf, if_neg]

theorem Iss.triggers_of_no_unit {p : Nat} (h : unitOf p = none) (i : Iss) : i.triggers p = false := by
  rw [Iss.triggers, h]
  rfl

theorem State.unitTaken_of_no_unit {p : Nat} (h : unitOf p = none) (s : State) : s.unitTaken p = false := by
  rw [State.unitTaken, h]

theorem State.portGone_of_lt {p : Nat} (h : p < 0x120) (s : State) (hf : p = 0x40 ∨ p = 0x41 → isSupervisor s.iss.core = false) :
    s.portGone p = false := by
  rw [State.portGone, decide_eq_false (by omega), Bool.false_and, Bool.false_or]
  by_cases hp : p = 0x40 ∨ p = 0x41
  · rw [hf hp, Bool.and_false]
  · rw [decide_eq_false hp, Bool.false_and]

-- ## The common frame of a move (R37, R211, R212)

/-- Where `i` may take effect, it is ILLEGAL_OP or ABSENT_UNIT for its port `p`, or the move of value `v` into it. -/
structure IsMove (s : State) (i : Instr) (p : Nat) (d : Code) (v : State → Vec) : Prop where
  taken : s.iss.triggers p = true ∨ s.unitTaken p = true → exec i s = s.illegal
  gone : s.iss.triggers p = false → s.unitTaken p = false → s.portGone p = true → exec i s = s.absent
  into : s.iss.triggers p = false → s.unitTaken p = false → s.portGone p = false →
    exec i s = (s.entered i).moveInto p d (v (s.entered i))

theorem isMove_of_sop {s : State} {i : Instr} {p : Nat} {d : Code} {v : State → Vec} {gone : Bool} {k : State → Out3} (h : s.runs i = true)
    (hx : exec i s = sop i (s.iss.triggers p || (s.guardOn i && s.unitTaken p)) gone s k) (hgone : gone = s.portGone p)
    (hk : k (s.entered i) = (s.entered i).moveInto p d (v (s.entered i))) : IsMove s i p d v := by
  have hg := State.guardOn_of_runs h
  subst hgone
  refine ⟨fun ht => ?_, fun ht hu hp => ?_, fun ht hu hp => ?_⟩ <;> rw [hx, hg, Bool.true_and]
  · exact sop_illegal _ (Or.inr (Or.inr (by rw [Bool.or_eq_true]; exact ht))) _
  · rw [ht, hu, hp]
    exact sop_absent h _
  · rw [ht, hu, hp, ← hk]
    exact sop_runs h k

/-- A port that starts no unit takes a move whatever else the bundle does. -/
theorem IsMove.into_plain {s : State} {i : Instr} {p : Nat} {d : Code} {v : State → Vec} (m : IsMove s i p d v) (hu : unitOf p = none)
    (hp : s.portGone p = false) : exec i s = (s.entered i).moveInto p d (v (s.entered i)) :=
  m.into (Iss.triggers_of_no_unit hu _) (s.unitTaken_of_no_unit hu) hp

-- ## What each port does with a value (R208, R210)

section
variable (u : State) {p : Nat} (d : Code) (v : Vec)

theorem State.moveInto_register (h : p < 0x30) : u.moveInto p d v = .next (u.putV 1 0 d v) := if_pos h

theorem State.moveInto_port (h : (0xD0 ≤ p ∧ p ≤ 0xD7) ∨ p = 0xF0 ∨ p = 0xC1 ∨ (p = 0x100 ∧ u.worldOf u.iss.core u.iss.ctx ≠ 0)) :
    u.moveInto p d v = .next (u.unitLater 1 p (.port p v)) := by
  by_cases h0 : p = 0x100
  · simp (disch := omega) only [State.moveInto, if_neg, if_pos]
  · simp (disch := omega) only [State.moveInto, if_neg]

theorem State.moveInto_convert (h : 0x80 ≤ p) (h' : p < 0xC0) : u.moveInto p d v = u.convertTrigger p v := by
  simp (disch := omega) only [State.moveInto, if_neg, if_pos]

theorem State.moveInto_transpose (h : 0xD8 ≤ p) (h' : p ≤ 0xDA) : u.moveInto p d v =
    .next ((u.unitBusy 1 16).unitLater 16 0xE0 (.lines (transposeLines (8 * 2 ^ (p - 0xD8)) u.curCore))) := by
  have hbits : 8 * 2 ^ (p - 0xD8) = 2 ^ (p - 0xD8 + 3) := by ring
  rw [hbits]
  simp (disch := omega) only [State.moveInto, if_neg, if_pos]

theorem State.moveInto_gather (h : 0xF1 ≤ p) (h' : p ≤ 0xF3) : u.moveInto p d v = u.gatherTrigger p v := by
  simp (disch := omega) only [State.moveInto, if_neg, if_pos]

theorem State.moveInto_world (h : 0x100 ≤ p) (h' : p ≤ 0x103) (hw : u.worldOf u.iss.core u.iss.ctx = 0) :
    u.moveInto p d v = u.raise fWORLD 0 0 := by
  simp (disch := omega) only [State.moveInto, if_neg, if_pos]

theorem State.moveInto_sha (h : p = 0x101 ∨ p = 0x103) (hw : u.worldOf u.iss.core u.iss.ctx ≠ 0) : u.moveInto p d v = u.shaTrigger p v := by
  simp (disch := omega) only [State.moveInto, if_neg, if_pos]

theorem State.moveInto_ecdsa (h : p = 0x111) : u.moveInto p d v = if u.cur.proc then u.ecdsaTrigger v else u.perm 1 := by
  simp (disch := omega) only [State.moveInto, if_neg, if_pos]

theorem State.moveInto_expand (h : p = 0x120) : u.moveInto p d v = u.expandTrigger v := by
  simp (disch := omega) only [State.moveInto, if_neg, if_pos]

theorem State.moveInto_compress (h : p = 0x121) : u.moveInto p d v = u.compressTrigger v := by
  simp (disch := omega) only [State.moveInto, if_neg, if_pos]

/-- The port of operand FIFO A, or B. -/
def fifoPort (b : Bool) : Nat := if b then 0x41 else 0x40

/-- A move into an operand FIFO of a core that holds it: an entry pushed, or TIMING_MISS (R208). -/
theorem State.moveInto_fifo (b : Bool) (h : u.noFifo = false) : u.moveInto (fifoPort b) d v =
    if u.curArr.cap ≤ (u.curPos.fifo b).q.length then u.raise fTIMING (BitVec.ofNat 64 (1 + (if b then 256 else 0))) 0
    else .next ((u.unpush (u.iss.core % 2) b).arrLater 1 (.push (u.iss.core % 2) b (mFmt u.curPos.mode) (entryOf (mFmt u.curPos.mode) v))) := by
  have hb : decide (fifoPort b = 0x41) = b := by cases b <;> rfl
  have hp : fifoPort b = 0x40 ∨ fifoPort b = 0x41 := by cases b <;> simp [fifoPort]
  simp (disch := omega) only [State.moveInto, if_neg, if_pos hp, hb, h, Bool.false_eq_true, if_false]

end

-- ## Pushes of a bundle into one FIFO (R211)

section
variable {u : State} {q : Nat} {b : Bool}

theorem State.unpush_of_guards_off (h : ∀ o ∈ u.iss.ops, moveDst o = some (fifoPort b) → u.guardOn o = false) : u.unpush q b = u := by
  refine if_neg ?_
  rw [List.any_eq_true]
  rintro ⟨o, ho, hm⟩
  rw [Bool.and_eq_true, decide_eq_true_eq] at hm
  exact Bool.false_ne_true ((h o ho hm.1).symm.trans hm.2)

theorem State.curArr_modCurArr (s : State) (f : Arr → Arr) : (s.modCurArr f).curArr = f s.curArr := s.arr_modArr (pairOf s.iss.core) f

/-- A push into FIFO `b` of position `q` by the bundle that issues in array cycle `t`. -/
def AFlight.pushes (f : AFlight) (q : Nat) (b : Bool) (t : Nat) : Bool :=
  decide (f.iss = t) && (match f.eff with | .push p c _ _ => decide (p = q) && c == b | _ => false)

theorem AFlight.pushes_of {f : AFlight} {n : Nat} {e : Vec} (he : f.eff = .push q b n e) : f.pushes q b f.iss = true := by
  simp [AFlight.pushes, he]

/-- A lower position's push into the FIFO is no longer in flight. -/
theorem State.unpush_flight {o : Instr} (ho : o ∈ u.iss.ops) (hd : moveDst o = some (fifoPort b)) (hg : u.guardOn o = true) {f : AFlight}
    (hf : f ∈ (u.unpush q b).curArr.flight) (hi : f.iss = u.curArr.clk) (n : Nat) (e : Vec) : f.eff ≠ .push q b n e := by
  have hlower : (u.iss.ops.any fun o => decide (moveDst o = some (fifoPort b)) && u.guardOn o) = true :=
    List.any_eq_true.2 ⟨o, ho, by rw [Bool.and_eq_true, decide_eq_true_eq]; exact ⟨hd, hg⟩⟩
  have hun : u.unpush q b = u.modCurArr fun a => { a with flight := a.flight.filter fun f => !f.pushes q b a.clk } := if_pos hlower
  rw [hun, State.curArr_modCurArr, List.mem_filter, ← hi, Bool.not_eq_true'] at hf
  exact fun he => Bool.false_ne_true (hf.2.symm.trans (AFlight.pushes_of he))

end

-- ## What the triggers of the units answer (R214 to R219)

theorem State.curCore_unitLater (s : State) (lat p : Nat) (e : UEff) :
    (s.unitLater lat p e).curCore = { s.curCore with flight := s.curCore.flight ++ [⟨s.curCore.ccyc + lat, p, e⟩] } :=
  s.core_modCore s.iss.core _

section
variable (u : State) {p : Nat} (v : Vec)

theorem State.convertTrigger_range (h : movePairOk (p % 8) ((p - 0x80) / 8) = false) :
    ∃ w0 w1, u.convertTrigger p v = u.raise fLAYRANGE w0 w1 :=
  ⟨_, _, if_pos (by rw [h]; rfl)⟩

/-- A convert trigger: the result is in flight to its port; beside it, an exception list, where CVTLIST selects one (R214). -/
theorem State.convertTrigger_lands (h : movePairOk (p % 8) ((p - 0x80) / 8) = true) :
    let r := (convertVec ((p - 0x80) / 8) (p % 8) v).1
    ∃ t, u.convertTrigger p v = .next t ∧ (⟨u.curCore.ccyc + 4, 0xC0, .port 0xC0 r⟩ : UFlight) ∈ t.curCore.flight ∧
      ((u.curCore.port 0xC1).getLsbD 4 = true → t = u.unitLater 4 0xC0 (.port 0xC0 r)) := by
  intro r
  have hmem : (⟨u.curCore.ccyc + 4, 0xC0, .port 0xC0 r⟩ : UFlight) ∈ (u.unitLater 4 0xC0 (.port 0xC0 r)).curCore.flight := by
    rw [State.curCore_unitLater]
    exact List.mem_append_right _ List.mem_cons_self
  unfold State.convertTrigger
  simp only [h, Bool.not_true, Bool.false_eq_true, if_false]
  split
  · exact ⟨_, rfl, hmem, fun _ => rfl⟩
  · next hlist =>
    refine ⟨_, rfl, ?_, fun hnone => absurd ?_ hlist⟩
    · rw [State.curCore_unitLater]
      exact List.mem_append_left _ hmem
    · rw [Bool.or_eq_true, Bool.or_eq_true]
      exact Or.inl (Or.inl hnone)

/-- The elements of a transpose trigger have 1, 2 or 4 bytes (R215). -/
theorem transpose_width (h : 0xD8 ≤ p) (h' : p ≤ 0xDA) : 2 ^ (p - 0xD8) = 1 ∨ 2 ^ (p - 0xD8) = 2 ∨ 2 ^ (p - 0xD8) = 4 := by
  obtain rfl | rfl | rfl : p = 0xD8 ∨ p = 0xD9 ∨ p = 0xDA := by omega
  · exact Or.inl rfl
  · exact Or.inr (Or.inl rfl)
  · exact Or.inr (Or.inr rfl)

/-- The width of the elements that a gather trigger loads, in bytes (R216). -/
def gatherWidth (p : Nat) : Nat := if p = 0xF1 then 4 else if p = 0xF2 then 2 else 1

theorem gatherWidth_le (p : Nat) : gatherWidth p ≤ 4 := by
  unfold gatherWidth
  split_ifs <;> norm_num

/-- A gather trigger: ALIGN on a misaligned base, or the elements at base plus lane (R216). -/
theorem State.gatherTrigger_spec :
    let n := gatherWidth p
    let b := (u.curCore.port 0xF0).toNat % 2 ^ 20
    (b % n ≠ 0 → ∃ w0 w1, u.gatherTrigger p v = u.raise fALIGN w0 w1) ∧
    (b % n = 0 → ∃ r : Vec, u.gatherTrigger p v = .next (u.unitLater 8 0xF4 (.port 0xF4 r)) ∧
      ∀ l, l < 128 → (r.lane l).toNat = leNat (spadRead u.issueSpad ((b + (v.lane l).toNat * n) % 2 ^ 20) n)) := by
  refine ⟨fun h => ⟨_, _, if_pos h⟩, fun h => ⟨_, if_neg (not_not_intro h), fun l hl => ?_⟩⟩
  exact toNat_lane_leNat _ (fun _ => (spadRead_length _ _ _).trans_le (gatherWidth_le p)) hl

/-- A SHA-256 trigger: the block function of the chaining state and the value's first 64 bytes (R217). -/
theorem State.shaTrigger_block (hp : p = 0x101) : u.shaTrigger p v =
    let h := shaVec (shaBlock (shaOfVec (u.curCore.port 0x100)) ((List.range 64).map fun j => v.extractLsb' (8 * (0 + j)) 8))
    .next (((u.unitBusy 3 72).unitLater 72 0x100 (.port 0x100 h)).unitLater 72 0x102 (.port 0x102 h)) := by
  rw [← bytesOfVec_slice v (by norm_num), hp]
  rfl

theorem State.shaTrigger_init (hp : p = 0x103) : u.shaTrigger p v =
    .next (((u.unitBusy 3 1).unitLater 1 0x100 (.port 0x100 (shaVec shaInit))).unitLater 1 0x102 (.port 0x102 (shaVec shaInit))) := by
  rw [hp]
  rfl

/-- The operands of an ECDSA trigger are the value's five 32-byte fields (R218). -/
theorem State.ecdsaTrigger_eq : u.ecdsaTrigger v =
    let n := fun (k : Nat) => beNat ((List.range 32).map fun j => v.extractLsb' (8 * (32 * k + j)) 8)
    .next ((u.unitBusy 4 180000).unitLater 180000 0x112
      (.port 0x112 (BitVec.ofNat 4096 (ecdsaVerify (n 0) (n 1) (n 2) (n 3) (n 4))))) := by
  have field {k : Nat} (hk : k < 5) : ((bytesOfVec v).drop (32 * k)).take 32 = (List.range 32).map fun j => v.extractLsb' (8 * (32 * k + j)) 8 :=
    bytesOfVec_slice v (by omega)
  rw [State.ecdsaTrigger]
  simp only [field (show 0 < 5 by norm_num), field (show 1 < 5 by norm_num), field (show 2 < 5 by norm_num), field (show 3 < 5 by norm_num),
    field (show 4 < 5 by norm_num), lane0_of_lt (ecdsaVerify_lt ..)]

theorem tileTag_eq (e : Nat) : tileTag e = e % 2 ^ 16 := bits_low e 15

theorem tileLen_lt (e : Nat) : tileLen e < 2 ^ 13 := Nat.mod_lt _ (Nat.two_pow_pos 13)

/-- An expand trigger: its checks in their order, or the tile with its length, a tile that disagrees with its entry as zeros (R219). -/
theorem State.expandTrigger_spec :
    let bank := (v.lane 0).toNat % 16
    let dst := (v.lane 3).toNat % 2 ^ 20
    let e := tileEntry u.issueSpad bank ((v.lane 1).toNat % 64)
    let miss := (v.lane 2).getLsbD 16 = true ∧ e % 2 ^ 16 ≠ (v.lane 2).toNat % 2 ^ 16
    let cmp := u.bankCmp u.iss.core
    (cmp bank = false ∨ e.testBit 63 = false → ∃ w0 w1, u.expandTrigger v = u.raise fLAYRANGE w0 w1) ∧
    (cmp bank = true → e.testBit 63 = true → miss → ∃ w0 w1, u.expandTrigger v = u.raise fTAG w0 w1) ∧
    (cmp bank = true → e.testBit 63 = true → ¬miss → dst % 4096 ≠ 0 → ∃ w0 w1, u.expandTrigger v = u.raise fALIGN w0 w1) ∧
    (cmp bank = true → e.testBit 63 = true → ¬miss → dst % 4096 = 0 → cmp (dst / 2 ^ 16) = true →
      ∃ w0 w1, u.expandTrigger v = u.raise fLAYRANGE w0 w1) ∧
    (cmp bank = true → e.testBit 63 = true → ¬miss → dst % 4096 = 0 → cmp (dst / 2 ^ 16) = false →
      let r := match expandTile u.issueSpad bank e with
        | some bs => (bs, e / 2 ^ 28 % 2 ^ 13)
        | none => (List.replicate 4096 0, 2 ^ 32 - 1)
      u.expandTrigger v = .next (((u.unitBusy 5 48).unitLater 48 0 (.write dst r.1)).unitLater 48 0x122 (.port 0x122 (BitVec.ofNat 4096 r.2)))) := by
  intro bank dst e miss cmp
  have hmiss : ((v.lane 2).getLsbD 16 && decide (tileTag e ≠ (v.lane 2).toNat % 2 ^ 16)) = true ↔ miss := by
    rw [Bool.and_eq_true, decide_eq_true_eq, tileTag_eq]
  have hgone {b : Bool} : (!b) = true ↔ b = false := by rw [Bool.not_eq_true']
  have hheld {b : Bool} (h : b = true) : ¬(!b) = true := by rw [h]; exact Bool.false_ne_true
  refine ⟨fun h => ?range, fun hc hp hm => ?tag, fun hc hp hm ha => ?align, fun hc hp hm ha hd => ?dest, fun hc hp hm ha hd => ?done⟩
  case range =>
    by_cases hc : cmp bank = false
    · exact ⟨_, _, if_pos (hgone.2 hc)⟩
    · exact ⟨_, _, (if_neg (mt hgone.1 hc)).trans (if_pos (hgone.2 (h.resolve_left hc)))⟩
  case tag => exact ⟨_, _, (if_neg (hheld hc)).trans ((if_neg (hheld hp)).trans (if_pos (hmiss.2 hm)))⟩
  case align => exact ⟨_, _, (if_neg (hheld hc)).trans ((if_neg (hheld hp)).trans ((if_neg (mt hmiss.1 hm)).trans (if_pos ha)))⟩
  case dest =>
    exact ⟨_, _, (if_neg (hheld hc)).trans ((if_neg (hheld hp)).trans ((if_neg (mt hmiss.1 hm)).trans
      ((if_neg (not_not_intro ha)).trans (if_pos hd))))⟩
  case done =>
    refine (if_neg (hheld hc)).trans ((if_neg (hheld hp)).trans ((if_neg (mt hmiss.1 hm)).trans
      ((if_neg (not_not_intro ha)).trans ((if_neg (ne_true_of_eq_false hd)).trans ?_))))
    have hlen : tileLen e < 2 ^ 32 := (tileLen_lt e).trans (by norm_num)
    cases expandTile u.issueSpad bank e with
    | none => exact congrArg (fun r => Host.Outcome.next ((State.unitLater _ 48 0 _).unitLater 48 0x122 (.port 0x122 r))) (lane0_of_lt (by norm_num))
    | some bs => exact congrArg (fun r => Host.Outcome.next ((State.unitLater _ 48 0 _).unitLater 48 0x122 (.port 0x122 r))) (lane0_of_lt hlen)

/-- A compress trigger: its checks in their order, or the stored form, its entry and its length (R219). -/
theorem State.compressTrigger_spec :
    let from_ := (v.lane 0).toNat % 2 ^ 20
    let bank := (v.lane 1).toNat % 16
    let start := (v.lane 3).toNat
    let cmp := u.bankCmp u.iss.core
    let formats := cmp (from_ / 2 ^ 16) = false ∧ cmp bank = true
    let fits := 32 ≤ start ∧ 16 * start + 4096 ≤ 65536
    (from_ % 4096 ≠ 0 → ∃ w0 w1, u.compressTrigger v = u.raise fALIGN w0 w1) ∧
    (from_ % 4096 = 0 → ¬(formats ∧ fits) → ∃ w0 w1, u.compressTrigger v = u.raise fLAYRANGE w0 w1) ∧
    (from_ % 4096 = 0 → formats → fits →
      let t := compressTile (spadRead u.issueSpad from_ 4096)
      let len := t.2.length / 16
      let e := 2 ^ 63 + (if t.1 then 2 ^ 62 else 0) + len * 2 ^ 28 + start * 2 ^ 16 + (v.lane 4).toNat % 2 ^ 16
      u.compressTrigger v = .next ((((u.unitBusy 5 72).unitLater 72 0 (.write (bank * 2 ^ 16 + 16 * start) t.2)).unitLater 72 0
        (.write (bank * 2 ^ 16 + 8 * ((v.lane 2).toNat % 64)) (leBytes 8 e))).unitLater 72 0x122 (.port 0x122 (lane0 len)))) := by
  intro from_ bank start cmp formats fits
  have hfits : ¬(start < 32 ∨ 65536 < 16 * start + 4096) ↔ fits := by
    rw [not_or, Nat.not_lt, Nat.not_lt]
  have hbank : ¬(!cmp bank) = true ↔ cmp bank = true := by rw [Bool.not_eq_true', Bool.not_eq_false]
  refine ⟨fun ha => ⟨_, _, if_pos ha⟩, fun ha hbad => ?range, fun ha hf hs => ?done⟩
  case range =>
    by_cases hc : cmp (from_ / 2 ^ 16) = true
    · exact ⟨_, _, (if_neg (not_not_intro ha)).trans (if_pos hc)⟩
    · by_cases hb : (!cmp bank) = true
      · exact ⟨_, _, (if_neg (not_not_intro ha)).trans ((if_neg hc).trans (if_pos hb))⟩
      · have hno : start < 32 ∨ 65536 < 16 * start + 4096 :=
          not_not.1 fun h => hbad ⟨⟨eq_false_of_ne_true hc, hbank.1 hb⟩, hfits.1 h⟩
        exact ⟨_, _, (if_neg (not_not_intro ha)).trans ((if_neg hc).trans ((if_neg hb).trans (if_pos hno)))⟩
  case done =>
    obtain ⟨hc, hb⟩ := hf
    refine (if_neg (not_not_intro ha)).trans ((if_neg (ne_true_of_eq_false hc)).trans ((if_neg (hbank.2 hb)).trans ((if_neg (hfits.2 hs)).trans ?_)))
    cases compressTile (spadRead u.issueSpad from_ 4096)
    rfl

end

-- ## Reads of result ports (R213)

/-- A port that a result has landed in shows it (R213; log 65). -/
theorem State.portRead_landed {s : State} {q : Nat} {w : Vec} (h : NMap.get? s.curCore.ports q = some w) : s.portRead q = w := by
  have hport : s.curCore.port q = w := by rw [Core.port, NMap.getD, h, Option.getD_some]
  rw [State.portRead]
  simp only [h, Option.isSome_some, if_true, hport]

section
variable {s : State} {g : Guard} {d t : Code} {x : Ext}

theorem exec_mvi (n : BitVec 12) : exec (.mvi g d n x) s =
    sop (.mvi g d n x) (s.iss.triggers (mvDst d x) || (s.guardOn (.mvi g d n x) && s.unitTaken (mvDst d x))) (s.portGone (mvDst d x)) s fun u =>
      u.moveInto (mvDst d x) d (lane0 (n.signExtend 32).toNat) := rfl

theorem exec_mv : exec (.mv g d t x) s =
    sop (.mv g d t x) (s.iss.triggers (mvDst d x) || (s.guardOn (.mv g d t x) && s.unitTaken (mvDst d x)))
      (s.portGone (mvDst d x) || s.portGone (mvSrc t x)) s fun u =>
        if mvSrc t x = 0x102 ∧ u.worldOf u.iss.core u.iss.ctx = 0 then u.raise fWORLD 0 0
        else if mvSrc t x = 0x112 ∧ u.cur.proc = false then u.perm 1
        else u.moveInto (mvDst d x) d (if mvSrc t x < 0x40 then u.rdVn (mvSrc t x) else u.portRead (mvSrc t x)) := rfl

theorem isMove_mvi {n : BitVec 12} (h : s.runs (.mvi g d n x) = true) :
    IsMove s (.mvi g d n x) (mvDst d x) d fun _ => BitVec.ofNat 4096 (n.signExtend 32).toNat :=
  isMove_of_sop h (exec_mvi n) rfl (by rw [← lane0_of_lt (n.signExtend 32).isLt])

theorem isMove_mv_register (hq : mvSrc t x < 0x40) (h : s.runs (.mv g d t x) = true) :
    IsMove s (.mv g d t x) (mvDst d x) d fun u => u.rdVn (mvSrc t x) := by
  have hgone : s.portGone (mvSrc t x) = false := s.portGone_of_lt (by omega) fun hf => by omega
  refine isMove_of_sop h exec_mv (by rw [hgone, Bool.or_false]) ?_
  simp (disch := omega) only [if_neg, if_pos hq]

theorem isMove_mv_port {w : Vec} (hq : 0x40 ≤ mvSrc t x) (hw : NMap.get? s.curCore.ports (mvSrc t x) = some w)
    (hgone : s.portGone (mvSrc t x) = false) (hsha : mvSrc t x = 0x102 → s.worldOf s.iss.core s.iss.ctx ≠ 0)
    (hecdsa : mvSrc t x = 0x112 → s.cur.proc = true) (h : s.runs (.mv g d t x) = true) :
    IsMove s (.mv g d t x) (mvDst d x) d fun _ => w := by
  refine isMove_of_sop h exec_mv (by rw [hgone, Bool.or_false]) ?_
  rw [State.entered_iss, State.entered_worldOf, State.entered_proc, if_neg fun e => hsha e.1 e.2,
    if_neg fun e => Bool.false_ne_true (e.2.symm.trans (hecdsa e.1)), if_neg (Nat.not_lt.2 hq),
    State.portRead_landed ((congrArg (NMap.get? · _) (s.entered_ports _)).trans hw)]

/-- Reads of SHAOUT in world 0 and of ECDSAOUT outside a proctor context fault once nothing else does (R217, R218). -/
theorem exec_mv_open (h : s.runs (.mv g d t x) = true) (hp : s.iss.triggers (mvDst d x) = false ∧ s.unitTaken (mvDst d x) = false ∧
      s.portGone (mvDst d x) = false ∧ s.portGone (mvSrc t x) = false) :
    let u := s.entered (.mv g d t x)
    (mvSrc t x = 0x102 → s.worldOf s.iss.core s.iss.ctx = 0 → exec (.mv g d t x) s = u.raise fWORLD 0 0) ∧
    (mvSrc t x = 0x112 → s.cur.proc = false → exec (.mv g d t x) s = u.raise fPERM 0 (src 2 1)) := by
  obtain ⟨ht, hu, hd, hs⟩ := hp
  rw [exec_mv, sop_runs_of h (by rw [ht, hu, Bool.and_false]; rfl) (by rw [hd, hs]; rfl), State.entered_iss, State.entered_worldOf,
    State.entered_proc]
  refine ⟨fun hq hw => if_pos ⟨hq, hw⟩, fun hq hproc => (if_neg fun e => ?_).trans (if_pos ⟨hq, hproc⟩)⟩
  omega

end

end Sys2Proof.Machine
end

section
/-! SUPPORT. Moves as a bundle finds them: each port's answer, past the common frame (R208 to R219). -/

namespace Sys2Proof.Machine

section
variable {s : State} {i : Instr} {p : Nat} {d : Code} {v : State → Vec}

theorem IsMove.register (m : IsMove s i p d v) (hp : p < 0x30) : exec i s = .next ((s.entered i).putV 1 0 d (v (s.entered i))) := by
  rw [m.into_plain (unitOf_eq_none (by omega)) (s.portGone_of_lt (by omega) fun hf => by omega), State.moveInto_register _ _ _ hp]

theorem IsMove.port (m : IsMove s i p d v)
    (hp : 0xD0 ≤ p ∧ p ≤ 0xD7 ∨ p = 0xF0 ∨ p = 0xC1 ∨ (p = 0x100 ∧ s.worldOf s.iss.core s.iss.ctx ≠ 0)) :
    exec i s = .next ((s.entered i).unitLater 1 p (.port p (v (s.entered i)))) := by
  rw [m.into_plain (unitOf_eq_none (by omega)) (s.portGone_of_lt (by omega) fun hf => by omega), State.moveInto_port]
  rwa [State.entered_iss, State.entered_worldOf]

/-- A move into an operand FIFO that the core holds: the push, which takes the place of a lower position's, or TIMING_MISS (R208, R211). -/
theorem IsMove.fifo (m : IsMove s i p d v) {b : Bool} (hp : p = fifoPort b) (hsup : isSupervisor s.iss.core = false)
    (hmode : (s.entered i).curArr.mode = 2 ∨ (s.entered i).curArr.mode = s.iss.core % 2) :
    let u := s.entered i
    let me := u.curArr.pos (s.iss.core % 2)
    exec i s = if u.curArr.cap ≤ (me.fifo b).q.length then u.raise fTIMING (BitVec.ofNat 64 (1 + (if b then 256 else 0))) 0
      else .next ((u.unpush (s.iss.core % 2) b).arrLater 1 (.push (s.iss.core % 2) b (mFmt me.mode) (entryOf (mFmt me.mode) (v u)))) := by
  have hport : p = 0x40 ∨ p = 0x41 := by cases b <;> simp [hp, fifoPort]
  have hno : (s.entered i).noFifo = false := State.noFifo_eq_false_iff.2 (by rw [State.entered_iss]; exact ⟨hsup, hmode⟩)
  have hpos : (s.entered i).curPos = (s.entered i).curArr.pos (s.iss.core % 2) := by rw [State.curPos, State.entered_iss]
  rw [m.into_plain (unitOf_eq_none (by omega)) (s.portGone_of_lt (by omega) fun _ => hsup), hp, State.moveInto_fifo _ _ _ _ hno, hpos,
    State.entered_iss]

end

/-- Settles O30: a move is the answer of its port, which each unit's trigger gives; what is due lands in its port, and a list's entry after it. -/
theorem moves : Obligations.Moves := by
  intro s g d t n x c moves fires
  have hmoves {i : Instr} {v : State → Vec} (mv : s.runs i = true → IsMove s i (mvDst d x) d v) : moves i v := by
    intro h u p me fifo deep alone
    have m := mv h
    refine ⟨m.register, m.port, fun hp hsup hmode => ?_⟩
    obtain ⟨b, hb⟩ : ∃ b, p = fifoPort b := hp.elim (fun e => ⟨false, e⟩) fun e => ⟨true, e⟩
    have hpb : (p == 0x41) = b := by rw [hb]; cases b <;> rfl
    have hfifo : fifo = me.fifo b := by
      cases b
      · exact if_pos hb
      · exact if_neg (by rw [hb]; decide)
    have halone : alone = u.unpush (s.iss.core % 2) b := congrArg (u.unpush _) hpb
    have hx := m.fifo hb hsup hmode
    rw [hpb, hfifo]
    refine ⟨fun hlt => ⟨_, ?_, fun h5 => if_pos h5, fun h5 l hl => lane_entryOf h5 _ hl⟩, fun hoff => ?_, fun o ho hd hg f hf hi n e => ?_,
      fun hge => ⟨_, _, hx.trans (if_pos hge)⟩⟩
    · rw [halone]
      exact hx.trans (if_neg (Nat.not_le.2 hlt))
    · exact halone.trans (State.unpush_of_guards_off fun o ho hd => hoff o ho (hd.trans (congrArg some hb.symm)))
    · exact State.unpush_flight ho (hd.trans (congrArg some hb)) hg (halone ▸ hf) hi n e
  have hfires {i : Instr} {v : State → Vec} (mv : s.runs i = true → IsMove s i (mvDst d x) d v) : fires i v := by
    intro h u p w world port bytes spad cmp
    have m := mv h
    have hworld : u.worldOf u.iss.core u.iss.ctx = world := by rw [State.entered_iss, State.entered_worldOf]
    refine ⟨m.taken, m.gone, fun ht hu hg => ?_⟩
    have hx := m.into ht hu hg
    refine ⟨fun hl hh => ?convert, fun hl hh => ?transpose, fun hl hh => ?gather, fun hl hh hw => ?world, fun hp hw => ?sha, fun hp hw => ?shaInit,
      fun hp => ?ecdsa, fun hp => ?expand, fun hp => ?compress⟩
    case convert =>
      rw [hx, State.moveInto_convert _ _ _ hl hh]
      refine ⟨State.convertTrigger_range u w, fun hok => ?_⟩
      obtain ⟨t, ht, hmem, hlist⟩ := State.convertTrigger_lands u w hok
      refine ⟨t, _, ht, hmem, hlist, fun h5 j hj => ?_, fun h5 l hl => lane_convertVec h5 w hl⟩
      rw [h5]
      exact residue_convertVec _ _ hj
    case transpose =>
      exact ⟨_, hx.trans (State.moveInto_transpose _ _ _ hl hh), transposeLines_length _ _, fun m r c j =>
        transposeLines_exchange _ (transpose_width hl hh)⟩
    case gather =>
      rw [hx, State.moveInto_gather _ _ _ hl hh]
      exact State.gatherTrigger_spec _ _
    case world => exact hx.trans (State.moveInto_world _ _ _ hl hh (hworld.trans hw))
    case sha => exact hx.trans ((State.moveInto_sha _ _ _ (Or.inl hp) (hworld.trans_ne hw)).trans (State.shaTrigger_block _ _ hp))
    case shaInit => exact hx.trans ((State.moveInto_sha _ _ _ (Or.inr hp) (hworld.trans_ne hw)).trans (State.shaTrigger_init _ _ hp))
    case ecdsa =>
      rw [hx, State.moveInto_ecdsa _ _ _ hp]
      exact ⟨fun hproc => if_neg (ne_true_of_eq_false hproc), fun hproc => (if_pos hproc).trans (State.ecdsaTrigger_eq _ _)⟩
    case expand =>
      rw [hx, State.moveInto_expand _ _ _ hp]
      exact State.expandTrigger_spec u w
    case compress =>
      rw [hx, State.moveInto_compress _ _ _ hp]
      exact State.compressTrigger_spec u w
  clear_value moves fires
  refine ⟨fun hq => ⟨hmoves (isMove_mv_register hq), hfires (isMove_mv_register hq)⟩,
    ⟨fun w hq hw hg hs he => ?port, fun hq hw ho h => ?shaOut, fun hq hp ho h => ?ecdsaOut⟩, ⟨hmoves isMove_mvi, hfires isMove_mvi⟩,
    exec_unitResultLanding_next s c, fun f p v hf hd he => exec_unitResultLanding_port hf hd he, fun hnone => ?idle⟩
  case port => exact ⟨hmoves (isMove_mv_port hq hw hg hs he), hfires (isMove_mv_port hq hw hg hs he)⟩
  case shaOut =>
    obtain ⟨hsha, -⟩ := exec_mv_open h ho
    exact hsha hq hw
  case ecdsaOut =>
    obtain ⟨-, hecdsa⟩ := exec_mv_open h ho
    exact hecdsa hq hp
  case idle =>
    rw [exec_unitResultLanding_idle hnone]
    refine ⟨fun hl => ?_, fun o rest hl => ⟨fun hc => ?_, fun t hc ht => ⟨_, rfl, State.writeList_written hl hc ht⟩⟩⟩
    · rw [State.writeList_nil hl]
    · rw [State.writeList_held hl hc]

end Sys2Proof.Machine
end

section
/-! SUPPORT. Copy channels and records as the commands of the C slot find and leave them (R222, R225, R231, R238, R242, R245, R246, R313). -/

namespace Sys2Proof.Machine

-- ## What the record of an empty latch leaves (R42)

section
variable (s : State) (i : Instr)

@[simp] theorem State.entered_chan (cl n : Nat) : (s.entered i).chan cl n = s.chan cl n := by
  rcases s.entered_cases i with h | h <;> rw [h]
  rfl

@[simp] theorem State.entered_cyc : (s.entered i).cyc = s.cyc := by
  rcases s.entered_cases i with h | h <;> rw [h]
  rfl

@[simp] theorem State.entered_collides (cl : Nat) (cs : List (Nat × Nat)) : (s.entered i).collides cl cs = s.collides cl cs := by
  simp only [State.collides, State.entered_chan]

theorem State.entered_cur_of {α : Type} (g : Ctx → α) (hg : ∀ (x : Ctx) fl, g { x with flight := fl } = g x) :
    g (s.entered i).cur = g s.cur := by
  rw [State.cur, State.entered_iss]
  exact s.ctx_entered_of i g hg _ _

/-- The checks of R232 read neither results in flight nor latches. -/
theorem State.copyBad_later (n : Nat) (q : Causes) (e : Eff) (timed x : Bool) (a b : CRec) :
    (s.later n q e).copyBad timed x a b = s.copyBad timed x a b := by
  have hbank := s.core_later Core.bankfmt (fun _ _ _ => rfl) n q e
  have hworld := s.core_later Core.world (fun _ _ _ => rfl) n q e
  have hfmt : (s.later n q e).bankFmt = s.bankFmt := by
    funext c b
    rw [State.bankFmt, hbank, State.bankFmt]
  have hcmp : (s.later n q e).bankCmp = s.bankCmp := by
    funext c b
    rw [State.bankCmp, hbank, State.bankCmp]
  rw [State.copyBad, hfmt, hcmp, hworld, hworld, hworld]
  rfl

@[simp] theorem State.entered_copyBad (timed x : Bool) (a b : CRec) : (s.entered i).copyBad timed x a b = s.copyBad timed x a b := by
  rcases s.entered_cases i with h | h <;> rw [h]
  exact s.copyBad_later _ _ _ _ _ _ _

end

/-- The channel that an extension byte names (R221). -/
theorem Ext.channel_eq (x : Ext) : bits x.byte.toNat 1 0 = x.byte.toNat % 4 := bits_low _ _

-- ## Records in slots (R222, R225)

/-- What the checks of R225 answer, by the first that fails. -/
theorem State.checkRec_cases (s : State) (r : CRec) (reg : Option Nat) (k : State → Out3) :
    (∀ w, recBadWord r = some w → ∃ w0 w1, s.checkRec r reg k = s.raise fLAYRES w0 w1) ∧
    (recBadWord r = none → recWtag r ≠ s.worldOf s.iss.core s.iss.ctx → ∃ w0 w1, s.checkRec r reg k = s.raise fWORLD w0 w1) ∧
    (∀ v, recBadWord r = none → recWtag r = s.worldOf s.iss.core s.iss.ctx → recRange r = some v →
      ∃ w0 w1, s.checkRec r reg k = s.raise fLAYRANGE w0 w1) ∧
    (recBadWord r = none → recWtag r = s.worldOf s.iss.core s.iss.ctx → recRange r = none → s.checkRec r reg k = k s) := by
  unfold State.checkRec
  refine ⟨fun w hw => ?_, fun hb hw => ?_, fun v hb hw hr => ?_, fun hb hw hr => ?_⟩
  · rw [hw]
    exact ⟨_, _, rfl⟩
  · rw [hb]
    exact ⟨_, _, if_pos hw⟩
  · rw [hb, hr]
    exact ⟨_, _, if_neg (not_not.2 hw)⟩
  · rw [hb, hr]
    exact if_neg (not_not.2 hw)

/-- The record in a slot (R222). -/
def State.slotWords (s : State) (n : Nat) : CRec := (NMap.getD s.cur.lrec n {}).rec_

/-- A slot whose record has passed its checks, or has never been patched (R222, R366). -/
def State.slotChecked (s : State) (n : Nat) : Prop := (NMap.getD s.cur.lrec n {}).unchecked = false

theorem State.slotRec_checked {s : State} {n : Nat} (h : s.slotChecked n) (k : CRec → State → Out3) :
    s.slotRec n k = k (s.slotWords n) s := if_neg (ne_true_of_eq_false h)

theorem State.slotGone_checked {s : State} {n : Nat} (h : s.slotChecked n) : s.slotGone n = false := by
  have h' : (NMap.getD s.cur.lrec n {}).unchecked = false := h
  simp only [State.slotGone, h', Bool.false_and]

/-- A copy command on two checked slots: the first check of R232 that fails raises its fault, else the command goes on (R232). -/
theorem copyOp_checked {i : Instr} {l m : Code} {s : State} (h : s.runs i = true) (hl : s.slotChecked l.toNat) (hm : s.slotChecked m.toNat)
    (timed x : Bool) (k : CRec → CRec → State → Out3) : copyOp i l m timed x s k =
      (s.copyBad timed x (s.slotWords l.toNat) (s.slotWords m.toNat)).elim (k (s.slotWords l.toNat) (s.slotWords m.toNat) (s.entered i))
        fun f => (s.entered i).raise f.1 f.2.1 f.2.2 := by
  have hlrec : (s.entered i).cur.lrec = s.cur.lrec := s.entered_cur_of i Ctx.lrec fun _ _ => rfl
  have hwords (n : Nat) : (s.entered i).slotWords n = s.slotWords n := by
    rw [State.slotWords, hlrec, State.slotWords]
  have hkept (n : Nat) (hn : s.slotChecked n) : (s.entered i).slotChecked n := by
    rwa [State.slotChecked, hlrec]
  have hgone : (s.guardOn i && (s.slotGone l.toNat || s.slotGone m.toNat)) = false := by
    rw [State.slotGone_checked hl, State.slotGone_checked hm, Bool.or_false, Bool.and_false]
  rw [copyOp, sop_runs_of h rfl hgone, State.slotRec_checked (hkept _ hl), State.slotRec_checked (hkept _ hm), hwords, hwords,
    State.entered_copyBad]
  cases s.copyBad timed x (s.slotWords l.toNat) (s.slotWords m.toNat) <;> rfl

-- ## The queue of tracked copies (R238, R240, R242, R245)

/-- The command of a tracked copy as CPY and CPYX queue it (R242, R245). -/
def State.command (s : State) (ch : Nat) (x : Bool) (a b : CRec) : Tracked :=
  let c := s.iss.core
  s.mapped (s.chan (clusterOf c) ch).map
    { id := (s.chan (clusterOf c) ch).next, core := c, ctx := s.iss.ctx, gen := s.cur.gen, launch := s.cur.launch, world := s.worldOf c s.iss.ctx,
      x := x, src := a, dst := b, seq := s.curCore.nextAccess, sclk := s.cur.clk }

theorem State.queueCopy_chan (s : State) (ch : Nat) (x : Bool) (a b : CRec) :
    (s.queueCopy ch x a b).chan (clusterOf s.iss.core) ch =
      let h := s.chan (clusterOf s.iss.core) ch
      { h with next := (h.next + 1) % 2 ^ 32, queue := h.queue ++ [s.command ch x a b],
               map := h.map ++ (s.command ch x a b).map.filter fun e => !h.map.contains e } :=
  State.chan_modChan _ _ _ _

/-- The result that a command returns is in flight (R44, R242). -/
theorem State.putS_lands (s : State) (d : Code) (v : Word) :
    ∃ f ∈ (s.putS 1 0 d v).cur.flight, f.due = s.cur.clk + 1 ∧ f.eff = .sreg (s.dstS d) v := by
  rw [State.putS, State.cur_later]
  exact ⟨_, List.mem_append_right _ (List.mem_singleton.2 rfl), rfl, rfl⟩

-- ## Invalidation (R245, R313)

theorem NMap.get?_map {α : Type} (f : Nat → α → α) (m : NMap α) (k : Nat) :
    NMap.get? (m.map fun q => (q.1, f q.1 q.2)) k = (NMap.get? m k).map (f k) := by
  induction m with
  | nil => rfl
  | cons p m ih =>
    obtain ⟨j, v⟩ := p
    simp only [List.map_cons, NMap.get?, ih]
    split_ifs with h
    · rw [h]
      rfl
    · rfl

/-- What a map over the values reads, where it leaves the default as it is. -/
theorem NMap.getD_map {α : Type} {f : Nat → α → α} {k : Nat} {d : α} (hd : f k d = d) (m : NMap α) :
    NMap.getD (m.map fun q => (q.1, f q.1 q.2)) k d = f k (NMap.getD m k d) := by
  rw [NMap.getD, NMap.getD, NMap.get?_map]
  cases NMap.get? m k with
  | none => exact hd.symm
  | some v => rfl

/-- A translation under an invalidation of those that `p` selects, which serve until CYC `t` (R313). -/
def TlbEntry.killed (p : TlbEntry → Bool) (t : Nat) (e : TlbEntry) : TlbEntry := if p e && e.dead.isNone then { e with dead := some t } else e

theorem TlbEntry.killed_eq (p : TlbEntry → Bool) (t : Nat) (e : TlbEntry) : e.killed p t = { e with dead := (e.killed p t).dead } := by
  unfold TlbEntry.killed
  split <;> rfl

theorem TlbEntry.killed_dead {p : TlbEntry → Bool} {e : TlbEntry} (h : p e = true) (t : Nat) : (e.killed p t).dead ≠ none := by
  unfold TlbEntry.killed
  cases hd : e.dead <;> simp [h, hd]

/-- A core's buffer and a cluster's channels under an invalidation (R245, R313). -/
def Core.killed (p : TlbEntry → Bool) (t : Nat) (k : Core) : Core := { k with tlb := k.tlb.map (TlbEntry.killed p t) }
def Cluster.forget (p : TlbEntry → Bool) (k : Cluster) : Cluster := { k with ch := k.ch.map fun q => (q.1, q.2.forget p) }

section
variable (s : State) (d : Nat) (p : TlbEntry → Bool)

theorem State.invalidate_core (c : Nat) :
    (s.invalidate d p).core c = if dieOf c = d then (s.core c).killed p (s.cyc + 256) else s.core c :=
  NMap.getD_map (f := fun c (k : Core) => if dieOf c = d then k.killed p (s.cyc + 256) else k) (k := c) (d := {}) (ite_self _) s.cores

theorem State.invalidate_cluster (cl : Nat) :
    (s.invalidate d p).cluster cl = if cl / 64 = d then (s.cluster cl).forget p else s.cluster cl :=
  NMap.getD_map (f := fun cl (k : Cluster) => if cl / 64 = d then k.forget p else k) (k := cl) (d := {}) (ite_self _) s.clusters

theorem State.invalidate_chan (cl n : Nat) :
    (s.invalidate d p).chan cl n = if cl / 64 = d then (s.chan cl n).forget p else s.chan cl n := by
  rw [State.chan, State.invalidate_cluster]
  split
  · exact NMap.getD_map (f := fun _ h => h.forget p) (k := n) (d := {}) rfl (s.cluster cl).ch
  · rfl

end

end Sys2Proof.Machine
end

section
/-! SUPPORT. The copy commands: LREC, CPY, CPYX, CPYT, CIDW, CIDR, CINV and CHALT, and the end of a CIDW's wait (R225, R231 to R236, R242 to R246). -/

namespace Sys2Proof.Machine

/-- What a CIDW on identifier `id` of channel `ch` does (R243). -/
def State.awaitCopy (s : State) (ch id : Nat) : State :=
  if (s.chan (clusterOf s.iss.core) ch).covered id then s.modIss fun i => { i with yield := true } else s.await (.cid ch id)

/-- The translations of world `w` that stand for the tenant-level page of `va` (R313). -/
def TlbEntry.onPage (w va : Nat) (e : TlbEntry) : Bool := decide (e.world = w) && decide (e.va / 2 ^ lvlShift e.tlvl = va / 2 ^ lvlShift e.tlvl)

/-- The invalidation of the tenant-level page of `va` and its marker (R245, R313). -/
def State.invalidatePage (s : State) (ch va : Nat) : State :=
  let c := s.iss.core
  let w := s.worldOf c s.iss.ctx
  (s.invalidate (dieOf c) (TlbEntry.onPage w va)).markChan (clusterOf c) ch w (va / 65536)

section
variable (g : Guard) (a d l m k : Code) (x : Ext) (s : State)

theorem exec_lrec : exec (.lrec g k a) s =
    sop (.lrec g k a) false (s.guardOn (.lrec g k a) && !s.hasCmp && recCt (s.run12 a.toNat)) s fun u =>
      u.checkRec (u.run12 a.toNat) (some a.toNat) fun v => .next (v.later 1 0 (.lrec k.toNat ⟨false, u.run12 a.toNat⟩)) := rfl
theorem exec_cpy : exec (.cpy g d l m x) s = trackedOp (.cpy g d l m x) d l m x false s := rfl
theorem exec_cpyx : exec (.cpyx g d l m x) s = trackedOp (.cpyx g d l m x) d l m x true s := rfl
theorem exec_cidw : exec (.cidw g a x) s = sop (.cidw g a x) false false s fun u =>
    match (u.chan (clusterOf u.iss.core) (bits x.byte.toNat 1 0)).flagFor u.iss.core u.iss.ctx u.cur.gen ((u.rdS a).toNat % 2 ^ 32) with
    | some f => u.raise f.cause (BitVec.ofNat 64 f.va) (f.detail (bits x.byte.toNat 1 0))
    | none => .next (u.awaitCopy (bits x.byte.toNat 1 0) ((u.rdS a).toNat % 2 ^ 32)) := rfl
theorem exec_cidr : exec (.cidr g d x) s = sop (.cidr g d x) false false s fun u =>
    let h := u.chan (clusterOf u.iss.core) (bits x.byte.toNat 1 0)
    let again := h.repushed.any fun t => t.of u.iss.core u.iss.ctx u.cur.gen
    let flag := h.flags.any fun f => f.of u.iss.core u.iss.ctx u.cur.gen
    .next (u.putS 1 0 d (BitVec.ofNat 64 (h.done_ + b2n again (2 ^ 62) + b2n flag (2 ^ 63)))) := rfl
theorem exec_cinv : exec (.cinv g a x) s = sop (.cinv g a x) false false s fun u =>
    .next (u.invalidatePage (bits x.byte.toNat 1 0) (u.rdS a).toNat) := rfl
theorem exec_chalt : exec (.chalt g x) s = sop (.chalt g x) false false s fun u =>
    .next (u.modChan (clusterOf u.iss.core) (bits x.byte.toNat 1 0) fun h => h.halt u.iss.core u.iss.ctx u.cur.gen) := rfl
theorem exec_cidwWake (c n : Nat) : exec (.cidwWake c n) s =
    .next (s.endWait c n fun w => match w with | .cid ch id => (s.chan (clusterOf c) ch).covered id | _ => false) := rfl
end

-- ## LREC (R225, R231)

section
variable {g : Guard} {k a : Code} {s : State}

/-- A part without compress units has no compressed records (R21, R225). -/
theorem exec_lrec_absent (h : s.runs (.lrec g k a) = true) (hcmp : s.hasCmp = false) (hct : recCt (s.run12 a.toNat) = true) :
    exec (.lrec g k a) s = s.absent := by
  rw [exec_lrec, State.guardOn_of_runs h, hcmp, hct]
  exact sop_absent h _

theorem exec_lrec_checks (h : s.runs (.lrec g k a) = true) (hpart : s.hasCmp = true ∨ recCt (s.run12 a.toNat) = false) :
    exec (.lrec g k a) s = s.checkRec (s.run12 a.toNat) (some a.toNat) fun v =>
      .next (v.later 1 0 (.lrec k.toNat ⟨false, s.run12 a.toNat⟩)) := by
  have hgone : (s.guardOn (.lrec g k a) && !s.hasCmp && recCt (s.run12 a.toNat)) = false := by
    rcases hpart with hp | hp <;> simp [hp]
  rw [exec_lrec, sop_runs_of h rfl hgone, State.entered_of_no_source rfl rfl]
end

-- ## CPYT (R233 to R236)

/-- The timed copy that a CPYT asks for (R233, R234). -/
def State.timedCopy (s : State) (ch t : Nat) (a b : CRec) : Timed :=
  { id := (s.chan (clusterOf s.iss.core) ch).nextTimed, core := s.iss.core, ctx := s.iss.ctx, gen := s.cur.gen, launch := s.cur.launch,
    addr := s.iss.addr, t := t, packets := packetsOf a b, per := perPacket a b,
    dly := if recSpace b = 3 then 104 else if recSpace a = 3 then 112 else 72, src := a, dst := b }

/-- The admission of a timed copy (R236). -/
def State.acceptTimed (s : State) (ch t : Nat) (a b : CRec) : Out3 :=
  let cl := clusterOf s.iss.core
  let q := s.timedCopy ch t a b
  if t < s.cyc + 8 ∨ s.cyc + 2 ^ 20 < t ∨ 32 ≤ (s.chan cl ch).tlev ∨ s.collides cl (q.claims ch) = true then s.raise fTIMING 2 0
  else if q.packets = 0 then .next s
  else .next (s.modChan cl ch fun h => { h with timed := h.timed ++ [q], nextTimed := h.nextTimed + 1 })

section
variable {g : Guard} {a l m : Code} {x : Ext} {s : State}

theorem exec_cpyt : exec (.cpyt g a l m x) s = copyOp (.cpyt g a l m x) l m true false s fun src dst u =>
    u.acceptTimed (bits x.byte.toNat 1 0) (u.rdS a).toNat src dst := rfl

theorem exec_cpyt_fits (h : s.runs (.cpyt g a l m x) = true) (hl : s.slotChecked l.toNat) (hm : s.slotChecked m.toNat)
    (hfit : s.copyBad true false (s.slotWords l.toNat) (s.slotWords m.toNat) = none) : exec (.cpyt g a l m x) s =
      (s.entered (.cpyt g a l m x)).acceptTimed (x.byte.toNat % 4) ((s.entered (.cpyt g a l m x)).rdS a).toNat
        (s.slotWords l.toNat) (s.slotWords m.toNat) := by
  rw [exec_cpyt, copyOp_checked h hl hm, hfit, Ext.channel_eq]
  rfl

theorem State.entered_timedCopy (s : State) (i : Instr) (ch t : Nat) (a b : CRec) :
    (s.entered i).timedCopy ch t a b = s.timedCopy ch t a b := by
  simp only [State.timedCopy, State.entered_iss, State.entered_chan, s.entered_cur_of i Ctx.gen fun _ _ => rfl,
    s.entered_cur_of i Ctx.launch fun _ _ => rfl]

end

-- ## CIDW and its wait (R243)

section
variable {g : Guard} {a : Code} {x : Ext} {s : State}

theorem State.awaitCopy_covered {ch id : Nat} (h : (s.chan (clusterOf s.iss.core) ch).covered id = true) :
    s.awaitCopy ch id = s.modIss fun i => { i with yield := true } := if_pos h

theorem State.awaitCopy_waits {ch id : Nat} (h : (s.chan (clusterOf s.iss.core) ch).covered id = false) :
    s.awaitCopy ch id = s.await (.cid ch id) := if_neg (ne_true_of_eq_false h)

theorem exec_cidw_runs (h : s.runs (.cidw g a x) = true) :
    let u := s.entered (.cidw g a x)
    let ch := x.byte.toNat % 4
    let id := (u.rdS a).toNat % 2 ^ 32
    exec (.cidw g a x) s = ((s.chan (clusterOf s.iss.core) ch).flagFor s.iss.core s.iss.ctx s.cur.gen id).elim (.next (u.awaitCopy ch id))
      fun f => u.raise f.cause (BitVec.ofNat 64 f.va) (f.detail ch) := by
  intro u ch id
  have hgen : u.cur.gen = s.cur.gen := s.entered_cur_of _ Ctx.gen fun _ _ => rfl
  have hflag : (u.chan (clusterOf u.iss.core) (bits x.byte.toNat 1 0)).flagFor u.iss.core u.iss.ctx u.cur.gen id =
      (s.chan (clusterOf s.iss.core) ch).flagFor s.iss.core s.iss.ctx s.cur.gen id := by
    rw [hgen, State.entered_iss, State.entered_chan, Ext.channel_eq]
  rw [exec_cidw, sop_runs h, hflag, Ext.channel_eq]
  cases (s.chan (clusterOf s.iss.core) ch).flagFor s.iss.core s.iss.ctx s.cur.gen id <;> rfl

end

-- ## CINV and CHALT (R245, R246, R313)

/-- A command that takes the mapping it still lacks changes in nothing else (R245). -/
theorem State.remapped_eq (s : State) (t : Tracked) : s.remapped t = { t with map := (s.remapped t).map, holes := (s.remapped t).holes } := by
  unfold State.remapped
  split <;> rfl

/-- A marker takes its place behind the commands of its channel, which keep the mapping they have (R245). -/
theorem State.markChan_chan (s : State) (cl n w page : Nat) : ∃ q : Tracked, q.marker = some (w, page) ∧ (s.markChan cl n w page).chan cl n =
    { s.chan cl n with queue := (s.chan cl n).queue.map s.remapped ++ [q], run := (s.chan cl n).run.map s.remapped } :=
  ⟨_, rfl, State.chan_modChan _ _ _ _⟩

/-- A marker leaves the translations that the channels hand on (R245). -/
theorem State.markChan_map (s : State) (cl n w page b i : Nat) : ((s.markChan cl n w page).chan b i).map = (s.chan b i).map := by
  by_cases hb : b = cl
  · subst hb
    by_cases hi : i = n
    · subst hi
      obtain ⟨q, -, hq⟩ := s.markChan_chan b i w page
      rw [hq]
    · rw [State.markChan, State.chan_modChan_other s b hi]
  · rw [State.markChan, State.modChan, State.chan, State.cluster, NMap.getD_set_other _ hb]
    rfl

theorem exec_cinv_runs {g : Guard} {a : Code} {x : Ext} {s : State} (h : s.runs (.cinv g a x) = true) :
    exec (.cinv g a x) s = .next ((s.entered (.cinv g a x)).invalidatePage (x.byte.toNat % 4) ((s.entered (.cinv g a x)).rdS a).toNat) := by
  rw [exec_cinv, sop_runs h, Ext.channel_eq]

theorem State.invalidatePage_tlb (s : State) (ch va c : Nat) (hc : dieOf c = dieOf s.iss.core) :
    ((s.invalidatePage ch va).core c).tlb =
      (s.core c).tlb.map (TlbEntry.killed (TlbEntry.onPage (s.worldOf s.iss.core s.iss.ctx) va) (s.cyc + 256)) := by
  have hcore := s.invalidate_core (dieOf s.iss.core) (TlbEntry.onPage (s.worldOf s.iss.core s.iss.ctx) va) c
  rw [if_pos hc] at hcore
  exact congrArg Core.tlb hcore

theorem State.invalidatePage_map (s : State) (ch va b i : Nat) (hb : b / 64 = dieOf s.iss.core) :
    ((s.invalidatePage ch va).chan b i).map =
      (s.chan b i).map.filter fun e => !TlbEntry.onPage (s.worldOf s.iss.core s.iss.ctx) va e := by
  rw [State.invalidatePage, State.markChan_map, State.invalidate_chan, if_pos hb]
  rfl

theorem State.invalidate_queue (s : State) (d : Nat) (p : TlbEntry → Bool) (cl n : Nat) :
    ((s.invalidate d p).chan cl n).queue = (s.chan cl n).queue ∧ ((s.invalidate d p).chan cl n).run = (s.chan cl n).run := by
  rw [State.invalidate_chan]
  split <;> exact ⟨rfl, rfl⟩

/-- What a CINV leaves of the translations and in its own channel's queue, where an entry stands for the page (R245, R313). -/
theorem State.invalidatePage_spec (s : State) (ch va : Nat) :
    let w := s.worldOf s.iss.core s.iss.ctx
    let t := s.invalidatePage ch va
    let h := s.chan (clusterOf s.iss.core) ch
    (∀ c, dieOf c = dieOf s.iss.core → ∀ e ∈ (t.core c).tlb, e.world = w →
      e.va / 2 ^ lvlShift e.tlvl = va / 2 ^ lvlShift e.tlvl → e.dead ≠ none) ∧
    (∀ b i, b / 64 = dieOf s.iss.core → ∀ e ∈ (t.chan b i).map, e.world = w → e.va / 2 ^ lvlShift e.tlvl ≠ va / 2 ^ lvlShift e.tlvl) ∧
    ∃ (q : Tracked) (f : Tracked → Tracked), (t.chan (clusterOf s.iss.core) ch).queue = h.queue.map f ++ [q] ∧
      (t.chan (clusterOf s.iss.core) ch).run = h.run.map f ∧ q.marker = some (w, va / 65536) ∧
      ∀ r, f r = { r with map := (f r).map, holes := (f r).holes } := by
  intro w t h
  refine ⟨fun c hc e he hw hva => ?buffers, fun b i hb e he hw hva => ?channels, ?queue⟩
  case buffers =>
    rw [s.invalidatePage_tlb ch va c hc] at he
    obtain ⟨e', -, rfl⟩ := List.mem_map.1 he
    rw [TlbEntry.killed_eq] at hw hva
    exact TlbEntry.killed_dead (by rw [TlbEntry.onPage, decide_eq_true hw, decide_eq_true hva]; rfl) _
  case channels =>
    rw [s.invalidatePage_map ch va b i hb] at he
    obtain ⟨-, hp⟩ := List.mem_filter.1 he
    rw [TlbEntry.onPage, decide_eq_true hw, decide_eq_true hva] at hp
    exact absurd hp (by decide)
  case queue =>
    obtain ⟨q, hq, hchan⟩ := (s.invalidate (dieOf s.iss.core) (TlbEntry.onPage w va)).markChan_chan (clusterOf s.iss.core) ch w (va / 65536)
    obtain ⟨hqueue, hrun⟩ := s.invalidate_queue (dieOf s.iss.core) (TlbEntry.onPage w va) (clusterOf s.iss.core) ch
    rw [hqueue, hrun] at hchan
    exact ⟨q, _, congrArg Channel.queue hchan, congrArg Channel.run hchan, hq, State.remapped_eq _⟩

/-- The end of a copy moves identifiers alone (R238). -/
theorem Channel.complete_of {α : Type} (f : Channel → α) (hf : ∀ (h : Channel) l n, f { h with finished := l, done_ := n } = f h)
    (h : Channel) (t : Tracked) : f (h.complete t) = f h := by
  unfold Channel.complete Channel.advance
  split
  · rfl
  · exact (hf { h with finished := h.finished ++ [t.id] } _ _).trans (hf h _ h.done_)

/-- What a CHALT takes out of its channel (R246). -/
theorem Channel.halt_spec (h : Channel) (c x : Nat) (g : BitVec 16) :
    (h.halt c x g).queue = h.queue.filter (fun q => !q.of c x g) ∧ (h.halt c x g).timed = h.timed.filter (fun q => !q.of c x g) ∧
    (h.halt c x g).run = h.run :=
  ⟨foldl_keeps Channel.queue _ _ (fun t _ k => k.complete_queue t) _,
   foldl_keeps Channel.timed _ _ (fun t _ k => k.complete_of Channel.timed (fun _ _ _ => rfl) t) _,
   foldl_keeps Channel.run _ _ (fun t _ k => k.complete_of Channel.run (fun _ _ _ => rfl) t) _⟩

theorem exec_chalt_runs {g : Guard} {x : Ext} {s : State} (h : s.runs (.chalt g x) = true) : exec (.chalt g x) s =
    .next (s.modChan (clusterOf s.iss.core) (x.byte.toNat % 4) fun h => h.halt s.iss.core s.iss.ctx s.cur.gen) := by
  rw [exec_chalt, sop_runs h, State.entered_of_no_source rfl rfl, Ext.channel_eq]

-- ## The statement

/-- CPY and CPYX with two checked records, by their checks and the room in the queue (R232, R242). -/
theorem trackedOp_spec {i : Instr} {d l m : Code} {x : Ext} {swap : Bool} {s : State} (hi : exec i s = trackedOp i d l m x swap s)
    (hs : i.ssrc = []) (hv : i.vsrc = []) (h : s.runs i = true) (hl : s.slotChecked l.toNat) (hm : s.slotChecked m.toNat) :
    let bad := s.copyBad false swap (s.slotWords l.toNat) (s.slotWords m.toNat)
    let ch := x.byte.toNat % 4
    (∀ code w0 w1, bad = some (code, w0, w1) → exec i s = s.raise code w0 w1) ∧
    (bad = none → 64 ≤ (s.chan (clusterOf s.iss.core) ch).qlev → exec i s = .next (s.putS 1 0 d (BitVec.ofNat 64 (2 ^ 63)))) ∧
    (bad = none → (s.chan (clusterOf s.iss.core) ch).qlev < 64 → exec i s =
      .next ((s.queueCopy ch swap (s.slotWords l.toNat) (s.slotWords m.toNat)).putS 1 0 d
        (BitVec.ofNat 64 (s.chan (clusterOf s.iss.core) ch).next))) := by
  rw [hi, trackedOp, copyOp_checked h hl hm, State.entered_of_no_source hs hv, Ext.channel_eq]
  refine ⟨fun code w0 w1 hbad => ?_, fun hbad hfull => ?_, fun hbad hroom => ?_⟩ <;> rw [hbad]
  · rfl
  · exact if_pos hfull
  · exact if_neg (Nat.not_le.2 hroom)

/-- Settles O41: the checks of records in their order, the admission of copies, and what each command leaves in its channel. -/
theorem copyCommands : Obligations.CopyCommands := by
  intro s g d l m a k x c n here cl ch h world slot checked tracked
  have htracked {i : Instr} {swap : Bool} (hi : exec i s = trackedOp i d l m x swap s) (hs : i.ssrc = []) (hv : i.vsrc = []) :
      tracked i swap := by
    intro hrun hchecked
    obtain ⟨hl, hm⟩ := hchecked
    obtain ⟨hbad, hfull, hroom⟩ := trackedOp_spec hi hs hv hrun hl hm
    refine ⟨hbad, hfull, fun hfit hq => ?_⟩
    have hchan := s.queueCopy_chan ch swap (slot l) (slot m)
    exact ⟨_, s.command ch swap (slot l) (slot m), hroom hfit hq, congrArg Channel.queue hchan, congrArg Channel.next hchan, rfl, rfl, rfl, rfl,
      rfl, rfl, rfl, rfl, rfl, rfl, State.putS_lands _ _ _⟩
  refine ⟨fun hrun => ?lrec, htracked (exec_cpy g d l m x s) rfl rfl, htracked (exec_cpyx g d l m x s) rfl rfl,
    fun hrun hchecked hfit => ?cpyt, fun hrun => ?cidw, fun b i hst => ?wake, fun hrun => ?cidr, fun hrun => ?cinv, fun hrun => ?chalt⟩
  case lrec =>
    refine ⟨exec_lrec_absent hrun, fun hpart => ?_⟩
    rw [exec_lrec_checks hrun hpart, State.entered_of_no_source rfl rfl]
    exact s.checkRec_cases (s.run12 a.toNat) _ _
  case cpyt =>
    intro u at_ p
    obtain ⟨hl, hm⟩ := hchecked
    rw [exec_cpyt_fits hrun hl hm hfit, State.acceptTimed, State.entered_timedCopy, State.entered_iss, State.entered_chan, State.entered_cyc,
      State.entered_collides]
    refine ⟨fun hmiss => ⟨_, _, if_pos (hmiss.imp_right (Or.imp_right Or.inl))⟩, fun hnear hfar hroom hp q hq => ?_⟩
    obtain rfl : q = s.timedCopy ch at_ (slot l) (slot m) := hq
    refine ⟨fun hfree => (if_neg ?_).trans (if_neg (Nat.pos_iff_ne_zero.1 hp)), fun hclash => ⟨_, _, if_pos (Or.inr (Or.inr (Or.inr hclash)))⟩⟩
    rintro (hlate | hearly | hfull | hclash)
    · exact absurd hnear (Nat.not_le.2 hlate)
    · exact absurd hfar (Nat.not_le.2 hearly)
    · exact absurd hroom (Nat.not_lt.2 hfull)
    · exact Bool.false_ne_true (hfree.symm.trans hclash)
  case cidw =>
    intro u id
    have hexec := exec_cidw_runs hrun
    have hchan : u.chan (clusterOf u.iss.core) ch = h := by
      rw [State.entered_iss, State.entered_chan]
    refine ⟨fun f hf => ⟨f.detail ch, hexec.trans ?_⟩, fun hf hcov => hexec.trans ?_, fun hf hcov => hexec.trans ?_⟩ <;> rw [hf]
    · rfl
    · exact congrArg Host.Outcome.next (State.awaitCopy_covered (hchan ▸ hcov))
    · exact congrArg Host.Outcome.next (State.awaitCopy_waits (hchan ▸ hcov))
  case wake =>
    rw [exec_cidwWake]
    refine ⟨fun hcov => ⟨_, rfl, ?_⟩, fun hcov => ?_⟩
    · rw [State.endWait, State.ctx_modCtx, Ctx.endWaits_over hst hcov]
    · rw [State.endWait, State.modCtx_congr (f' := id)]
      exact Ctx.endWaits_stays hst hcov
  case cidr =>
    rw [exec_cidr, sop_runs hrun, State.entered_of_no_source rfl rfl, Ext.channel_eq]
    rfl
  case cinv =>
    have hspec := (s.entered (.cinv g a x)).invalidatePage_spec ch ((s.entered (.cinv g a x)).rdS a).toNat
    rw [State.entered_iss, State.entered_worldOf] at hspec
    simp only [State.entered_chan] at hspec
    exact ⟨_, exec_cinv_runs hrun, hspec⟩
  case chalt =>
    obtain ⟨hqueue, htimed, hkeep⟩ := h.halt_spec here s.iss.ctx s.cur.gen
    have hchan := s.chan_modChan cl ch fun h => h.halt here s.iss.ctx s.cur.gen
    exact ⟨_, exec_chalt_runs hrun, hchan ▸ hqueue, hchan ▸ htimed, hchan ▸ hkeep, rfl⟩

end Sys2Proof.Machine
end

section
/-! SUPPORT. The events of copies: the packets of timed copies, and the start, elements and completion of tracked copies (R227, R230, R234, R237,
R238, R240). -/

namespace Sys2Proof.Machine

-- ## The packets of timed copies (R234, R237)

section
variable {s : State} {cl ch id : Nat} {t : Timed}

/-- The next packet of a timed copy as it is read and converted (R165, R234). -/
def State.readRow (s : State) (t : Timed) : List (Nat × Nat × Nat) :=
  (t.elems t.read).map fun j =>
    let e := recElem t.src j
    let o := moveElem (recFmt t.src) (recFmt t.dst) (s.localElem t.core t.src e)
    (o.bits, o.entry, off48 e.2)

variable (hfind : (s.chan cl ch).timed.find? (fun q => decide (q.id = id)) = some t)
include hfind

theorem exec_timedPacketRead_reads (hleft : t.read < t.packets) (hdue : t.t + t.read ≤ s.cyc) :
    exec (.timedPacketRead cl ch id) s = .next (s.modTimed cl ch id fun q =>
      { q with read := q.read + 1, data := q.data ++ [(t.read, s.readRow t)] }) := by
  simp only [exec, execTimedPacketRead, hfind]
  rw [if_neg (by omega)]
  rfl

theorem exec_timedPacketRead_waits (h : t.packets ≤ t.read ∨ s.cyc < t.t + t.read) : exec (.timedPacketRead cl ch id) s = .next s := by
  simp only [exec, execTimedPacketRead, hfind]
  exact if_pos h

theorem exec_timedPacketWrite_waits (h : t.read ≤ t.wrote ∨ s.cyc < t.t + t.wrote + t.dly) : exec (.timedPacketWrite cl ch id) s = .next s := by
  simp only [exec, execTimedPacketWrite, hfind]
  exact if_pos h

end

/-- A space of a scratchpad is none of a FIFO (R224). -/
theorem fifoSpace_of_spadSpace {sp : Nat} (h : spadSpace sp = true) : fifoSpace sp = false := by
  simp only [spadSpace, fifoSpace, decide_eq_true_eq, decide_eq_false_iff_not] at h ⊢
  omega

/-- The elements of the next packet of a timed copy stored through its destination record (R226, R234). -/
def State.storeRow (s : State) (t : Timed) (row : List (Nat × Nat × Nat)) : State :=
  (List.range row.length).foldl
    (fun v i => v.storeElem t.core t.dst (recElem t.dst ((t.elems t.wrote).getD i 0)) (row.getD i (0, 0, 0)).1) s

/-- A timed copy whose next packet is written: it is counted, or with the last one the copy is taken out (R234, R237). -/
def State.wrotePacket (s : State) (cl ch id : Nat) (t : Timed) : State :=
  let u := s.modTimed cl ch id fun q => { q with wrote := t.wrote + 1, data := q.data.filter fun r => decide (t.wrote ≤ r.1), ridx := t.ridx }
  if t.packets ≤ t.wrote + 1 then u.modChan cl ch fun h => { h with timed := h.timed.filter fun q => decide (q.id ≠ id) } else u

/-- A record without a list takes no entries (R172). -/
theorem State.timedList_of_no_list {t : Timed} (h : recXlen t.dst = 0) (s : State) (row : List (Nat × Nat × Nat)) :
    s.timedList t row = (s, t.ridx) := if_pos (Or.inl h)

theorem exec_timedPacketWrite_writes {s : State} {cl ch id : Nat} {t : Timed} {row : List (Nat × Nat × Nat)}
    (hfind : (s.chan cl ch).timed.find? (fun q => decide (q.id = id)) = some t) (hleft : t.wrote < t.read)
    (hdue : t.t + t.wrote + t.dly ≤ s.cyc) (hlost : t.lost = false) (hspace : spadSpace (recSpace t.dst) = true)
    (htag : recTagen t.dst = false) (hlist : recXlen t.dst = 0)
    (hrow : t.data.find? (fun r => decide (r.1 = t.wrote)) = some (t.wrote, row)) :
    exec (.timedPacketWrite cl ch id) s = .next ((s.storeRow t row).wrotePacket cl ch id t) := by
  simp only [exec, execTimedPacketWrite, hfind, hlost, fifoSpace_of_spadSpace hspace, htag, hrow, State.timedList_of_no_list hlist,
    Option.map_some, Option.getD_some, Bool.false_eq_true, if_false]
  rw [if_neg (by omega)]
  rfl

theorem State.wrotePacket_cores (s : State) (cl ch id : Nat) (t : Timed) : (s.wrotePacket cl ch id t).cores = s.cores := by
  unfold State.wrotePacket
  split <;> rfl

theorem State.wrotePacket_last {s : State} {cl ch id : Nat} {t : Timed} (h : t.packets ≤ t.wrote + 1) {q : Timed}
    (hq : q ∈ ((s.wrotePacket cl ch id t).chan cl ch).timed) : q.id ≠ id := by
  rw [State.wrotePacket, if_pos h, State.chan_modChan] at hq
  exact of_decide_eq_true (List.mem_filter.1 hq).2

theorem State.wrotePacket_counts {s : State} {cl ch id : Nat} {t : Timed} (h : t.wrote + 1 < t.packets) {q : Timed}
    (hq : q ∈ ((s.wrotePacket cl ch id t).chan cl ch).timed) (hid : q.id = id) : q.wrote = t.wrote + 1 := by
  rw [State.wrotePacket, if_neg (Nat.not_le.2 h), State.modTimed, State.chan_modChan] at hq
  obtain ⟨r, -, rfl⟩ := List.mem_map.1 hq
  by_cases hr : r.id = id
  · rw [if_pos hr]
  · rw [if_neg hr] at hid
    exact absurd hid hr

-- ## The start and the elements of tracked copies (R227, R240, R245)

section
variable {s : State} {cl ch : Nat} {t : Tracked}

theorem exec_trackedCopyStart_next {rest : List Tracked} (hq : (s.chan cl ch).queue = t :: rest) (hrun : (s.chan cl ch).run = none) :
    exec (.trackedCopyStart cl ch) s = .next (if t.marker.isSome then s.modChan cl ch fun h => { h with queue := rest }
      else s.modChan cl ch fun h => { h with queue := rest, run := some { t with started := true } }) := by
  simp only [exec, execTrackedCopyStart, hq, hrun]
  exact (apply_ite _ _ _ _).symm

theorem exec_trackedCopyElement_run (hrun : (s.chan cl ch).run = some t) : exec (.trackedCopyElement cl ch) s =
    .next (if t.stopped || decide (recN t.dst ≤ t.pos) || !s.copyReady t then s else s.stepCopy cl ch t) := by
  simp only [exec, execTrackedCopyElement, hrun]

theorem exec_trackedCopyElement_steps (hrun : (s.chan cl ch).run = some t) (hready : s.copyReady t = true) (hstop : t.stopped = false)
    (hpos : t.pos < recN t.dst) : exec (.trackedCopyElement cl ch) s = .next (s.stepCopy cl ch t) := by
  rw [exec_trackedCopyElement_run hrun, hready, hstop, decide_eq_false (Nat.not_le.2 hpos)]
  rfl

/-- A destination without tags, list or FIFO takes an element as soon as it is read and written (R227, R240). -/
theorem State.stepCopy_moves {v : Nat} {u : State} (htag : recTagen t.dst = false) (hlist : recXlen t.dst = 0)
    (hfifo : fifoSpace (recSpace t.dst) = false)
    (hread : s.copyRead (s.chan cl ch).queue t (srcElem t.x t.src t.dst t.pos) = .ok v)
    (hwrite : s.copyWrite cl ch t (recElem t.dst t.pos) (moveElem (recFmt t.src) (recFmt t.dst) v).bits = .ok u) :
    s.stepCopy cl ch t = u.modRun cl ch fun q => { q with pos := t.pos + 1, acc := [] } := by
  have hentry (w : State) (c o : Nat) : w.copyList cl ch t c o = w := if_pos (Or.inr (Or.inl hlist))
  have htags (w : State) (n : Nat) : w.copyTags t n = w := if_neg (ne_true_of_eq_false htag)
  simp only [State.stepCopy, hread, hwrite, hfifo, hlist, hentry, htags, ne_eq, not_true_eq_false, and_false, decide_false, Bool.false_and,
    Bool.false_eq_true, if_false, ite_self]

/-- An element that may not be read stops a copy that has collected no part of a FIFO entry (R240). -/
theorem State.stepCopy_stops {cause va : Nat} (hacc : t.acc = [])
    (hread : s.copyRead (s.chan cl ch).queue t (srcElem t.x t.src t.dst t.pos) = .error (some (cause, va))) :
    s.stepCopy cl ch t = (s.logCopy (s.chan cl ch).queue t (srcElem t.x t.src t.dst t.pos)).stopCopy cl ch t cause t.pos va := by
  simp only [State.stepCopy, hread, hacc, List.isEmpty_nil, if_true]

end

section
variable {α : Type} (f : State → α) (hf : ∀ (s : State) l w n d, f { s with evlog := l, evwidx := w, msix := n, evdrop := d } = f s) (s : State)
include hf

/-- A log entry changes the log alone (R429). -/
theorem State.logAt_of (code core ctx world : Nat) (a b : Word) : f (s.logAt code core ctx world a b) = f s := by
  unfold State.logAt
  dsimp only
  split
  · exact hf s _ _ _ s.evdrop
  · exact hf s s.evlog s.evwidx s.msix _

theorem State.logBad_of (who : Who) (code : Nat) (d : Word) : f (s.logBad who code d) = f s := by
  unfold State.logBad
  split
  · rw [State.logWho, State.logAt_of f hf]
  · rfl

/-- The log of a copy that stops changes the log alone (R401, R429). -/
theorem State.logCopy_of (q : List Tracked) (t : Tracked) (e : Bool × Int) : f (s.logCopy q t e) = f s := by
  unfold State.logCopy
  dsimp only
  split
  · split
    · rw [State.logLine, if_pos rfl, State.logBad_of f hf]
    · rfl
  · rfl

end

/-- A stopped copy's entry in the flag file, its context standing and the file having room (R240). -/
theorem State.stopCopy_chan {s : State} {cl ch : Nat} {t : Tracked} (htag : recTagen t.dst = false) (hgen : (s.ctx t.core t.ctx).gen = t.gen)
    (hst : (s.ctx t.core t.ctx).st ≠ .free) (hroom : (s.chan cl ch).flags.length < 16) (cause index va : Nat) :
    (s.stopCopy cl ch t cause index va).chan cl ch =
      let h := s.chan cl ch
      { h with flags := h.flags ++ [{ id := t.id, cause := cause, index := index, va := va, core := t.core, ctx := t.ctx, gen := t.gen }],
               run := h.run.map fun q => { q with stopped := true } } := by
  have htags : s.copyTags t index = s := if_neg (ne_true_of_eq_false htag)
  rw [State.stopCopy, htags, State.addFlag, if_pos ⟨hgen, hst, hroom⟩, State.modRun, State.chan_modChan, State.chan_modChan]

-- ## The completion of tracked copies (R238, R376)

section
variable {s : State} {cl ch : Nat} {t : Tracked} (hrun : (s.chan cl ch).run = some t)
include hrun

theorem exec_trackedCopyComplete_waits (hstop : t.stopped = false) (hpos : t.pos < recN t.dst) :
    exec (.trackedCopyComplete cl ch) s = .next s := by
  simp only [exec, execTrackedCopyComplete, hrun]
  rw [hstop, decide_eq_false (Nat.not_le.2 hpos)]
  rfl

/-- A copy that has come to its end, with no packet of its own under way, leaves its channel free (R238, R376). -/
theorem exec_trackedCopyComplete_frees (hend : t.stopped = true ∨ recN t.dst ≤ t.pos)
    (hpackets : ∀ p ∈ s.packets, p.lost = true ∨ p.copy ≠ some (cl, ch, t.id)) :
    ∃ u, exec (.trackedCopyComplete cl ch) s = .next u ∧ u.chan cl ch = { (s.chan cl ch).complete t with run := none } := by
  have hgoes : (t.stopped || decide (recN t.dst ≤ t.pos)) = true := by
    rwa [Bool.or_eq_true, decide_eq_true_eq]
  have hnone : (s.packets.any fun p => !p.lost && decide (p.copy = some (cl, ch, t.id))) = false :=
    List.any_eq_false.2 fun p hp => by
      rcases hpackets p hp with h | h <;> simp [h]
  have hchan := s.chan_modChan cl ch fun h => { h.complete t with run := none }
  simp only [exec, execTrackedCopyComplete, hrun]
  rw [hgoes, hnone]
  refine ⟨_, rfl, ?_⟩
  split <;> exact hchan

end

/-- DONE passes the identifier of the oldest copy as it completes (R238). -/
theorem Channel.complete_done {h : Channel} {t : Tracked} (hpush : t.repush = false) (hfin : h.finished = []) (hdone : h.done_ = t.id) :
    (h.complete t).done_ = (t.id + 1) % 2 ^ 32 := by
  simp [Channel.complete, Channel.advance, hpush, hfin, hdone]

/-- Settles O42: the packets of timed copies in turn, and a tracked copy from its start to its completion. -/
theorem copyEvents : Obligations.CopyEvents := by
  intro s cl ch id h
  refine ⟨fun t ht => ⟨exec_timedPacketRead_reads ht, exec_timedPacketRead_waits ht, exec_timedPacketWrite_waits ht,
      fun row hleft hdue hlost hspace htag hlist hrow => ?write⟩,
    fun t rest hq hrun => ?start, fun t hrun hwait => ?waits, fun t hrun hready hstop hpos htag hlist hfifo => ?element,
    fun t hrun => ⟨exec_trackedCopyComplete_waits hrun, fun hend hpackets => ?complete⟩⟩
  case write =>
    exact ⟨_, exec_timedPacketWrite_writes ht hleft hdue hlost hspace htag hlist hrow, State.wrotePacket_cores _ _ _ _ _,
      fun hlast _ hq => State.wrotePacket_last hlast hq, fun hmore _ hq => State.wrotePacket_counts hmore hq⟩
  case start =>
    rw [exec_trackedCopyStart_next hq hrun]
    refine ⟨fun hmark => ?_, fun hmark => ?_⟩
    · rw [if_pos (Option.isSome_iff_ne_none.2 hmark)]
    · rw [hmark]
      rfl
  case waits => rw [exec_trackedCopyElement_run hrun, hwait, Bool.not_false, Bool.or_true, if_pos rfl]
  case element =>
    rw [exec_trackedCopyElement_steps hrun hready hstop hpos]
    refine ⟨fun v u hread hwrite => congrArg Host.Outcome.next (State.stepCopy_moves htag hlist hfifo hread hwrite),
      fun cause va hread hacc hgen hst hroom => ⟨_, congrArg Host.Outcome.next (State.stepCopy_stops hacc hread), ?_⟩⟩
    let u := s.logCopy h.queue t (srcElem t.x t.src t.dst t.pos)
    have hctx : u.ctx t.core t.ctx = s.ctx t.core t.ctx := s.logCopy_of (fun u => u.ctx t.core t.ctx) (fun _ _ _ _ _ => rfl) _ _ _
    have hchan : u.chan cl ch = h := s.logCopy_of (fun u => u.chan cl ch) (fun _ _ _ _ _ => rfl) _ _ _
    have hstopped := State.stopCopy_chan (s := u) (cl := cl) (ch := ch) htag (hctx ▸ hgen) (hctx ▸ hst) (hchan ▸ hroom) cause t.pos va
    rw [hchan] at hstopped
    exact ⟨congrArg Channel.flags hstopped, _, (congrArg Channel.run hstopped).trans (congrArg (Option.map _) hrun), rfl⟩
  case complete =>
    obtain ⟨u, hexec, hchan⟩ := exec_trackedCopyComplete_frees hrun hend hpackets
    exact ⟨u, hexec, congrArg Channel.run hchan, (congrArg Channel.queue hchan).trans (h.complete_queue t),
      fun hpush hfin hdone => (congrArg Channel.done_ hchan).trans (Channel.complete_done hpush hfin hdone)⟩

end Sys2Proof.Machine
end

section
/-! SUPPORT. The array that the core in issue belongs to: what the record of an empty latch leaves of it, its effects in flight, and the frame of
an X word (R256, R258, R270, R430). -/

namespace Sys2Proof.Machine

-- ## What an operation finds of the array

section
variable (s : State) (i : Instr)

@[simp] theorem State.entered_arrs : (s.entered i).arrs = s.arrs := by
  rcases s.entered_cases i with h | h <;> rw [h]
  rfl

@[simp] theorem State.entered_arr (p : Nat) : (s.entered i).arr p = s.arr p := by
  rw [State.arr, State.entered_arrs, State.entered_cyc, State.arr]

@[simp] theorem State.entered_curArr : (s.entered i).curArr = s.curArr := by
  rw [State.curArr, State.entered_arr, State.entered_iss, State.curArr]

@[simp] theorem State.entered_curPos : (s.entered i).curPos = s.curPos := by
  rw [State.curPos, State.entered_curArr, State.entered_iss, State.curPos]

@[simp] theorem State.entered_curP : (s.entered i).curP = s.curP := by
  rw [State.curP, State.entered_iss, State.curP]

@[simp] theorem State.entered_dbg : (s.entered i).dbg = s.dbg := by
  rcases s.entered_cases i with h | h <;> rw [h]
  rfl

@[simp] theorem State.entered_windowOk (rows : List Nat) : (s.entered i).windowOk rows = s.windowOk rows := by
  simp only [State.windowOk, State.entered_curArr, State.entered_curP]

end

/-- An effect asked of the array joins the end of its list, and nothing else of the array changes (R270). -/
theorem State.curArr_arrLater (s : State) (n : Nat) (e : AEff) :
    (s.arrLater n e).curArr = { s.curArr with flight := s.curArr.flight ++ [⟨s.curArr.clk + n, s.curArr.clk, e⟩] } :=
  s.curArr_modCurArr _

theorem State.windowMiss_raises (s : State) : ∃ w0 w1, s.windowMiss = s.raise fWINDOW w0 w1 := ⟨_, _, rfl⟩
theorem State.range_raises (s : State) (n : Nat) (v : Word) : ∃ w0 w1, s.range n v = s.raise fLAYRANGE w0 w1 := ⟨_, _, rfl⟩

-- ## The window and the rows of a position (R258)

/-- The position holds the array, and in shared mode this is an array cycle of its own (R258). -/
def Arr.Inside (a : Arr) (p : Nat) : Prop := (a.mode = 2 ∨ a.mode = p) ∧ (a.mode = 2 → a.acyc % (2 * 2 ^ a.wsz) / 2 ^ a.wsz = p)

/-- In shared mode the row is the position's own (R258). -/
theorem Arr.owns_iff {a : Arr} {c r : Nat} : a.owns (c % 2) r = true ↔ (a.mode = 2 → r / 32 = c % 2) := by
  rw [Arr.owns, Nat.mod_mod, Bool.or_eq_true, decide_eq_true_eq, decide_eq_true_eq, imp_iff_not_or]

/-- An X word goes ahead inside the window, on rows of its own (R258). -/
theorem State.windowOk_iff {s : State} {rows : List Nat} : s.windowOk rows = true ↔
    s.curArr.Inside (s.iss.core % 2) ∧ ∀ r ∈ rows, s.curArr.mode = 2 → r / 32 = s.iss.core % 2 := by
  simp only [State.windowOk, State.curP, Bool.and_eq_true, List.all_eq_true, Arr.owns_iff, Arr.holds, Arr.inWindow, Arr.w, Nat.mod_mod,
    Bool.or_eq_true, decide_eq_true_eq, Arr.Inside, imp_iff_not_or, ne_eq]

section
variable {i : Instr} {s : State} {bad gone : Bool} {rows : List Nat} (h : s.runs i = true) (hsup : isSupervisor s.iss.core = false)
include h hsup

/-- An X word that may take effect does so inside its window and on its own rows (R258). -/
theorem xop_inside (hbad : bad = false) (hgone : gone = false) (hok : s.windowOk rows = true) (k : State → Out3) :
    xop i bad gone rows s k = k (s.entered i) := by
  rw [xop, sop_runs_of h hbad (by rw [hsup, hgone]; rfl), State.entered_windowOk, hok]
  rfl

/-- Elsewhere it is WINDOW_MISS (R258). -/
theorem xop_outside (hbad : bad = false) (hgone : gone = false) (hok : s.windowOk rows ≠ true) (k : State → Out3) :
    xop i bad gone rows s k = (s.entered i).windowMiss := by
  rw [xop, sop_runs_of h hbad (by rw [hsup, hgone]; rfl), State.entered_windowOk, if_neg hok]

end

/-- Where its unit is absent, an X word that keeps its limits is ABSENT_UNIT (R21). -/
theorem xop_absent {i : Instr} {s : State} (h : s.runs i = true) (rows : List Nat) (k : State → Out3) : xop i false true rows s k = s.absent := by
  rw [xop, Bool.or_true]
  exact sop_absent h _

end Sys2Proof.Machine
end

section
/-! SUPPORT. CWR to ARRMODE, and the landing of its write (R82, R257, R430). -/

namespace Sys2Proof.Machine

theorem exec_cwrArrmode (g : Guard) (a : Code) (s : State) : exec (.cwrArrmode g a) s =
    sop (.cwrArrmode g a) false (isSupervisor s.iss.core) s fun u =>
      if bits (u.rdS a).toNat 1 0 = 3 then u.range 0 3
      else if (u.curArr.mode ≠ 2 ∧ u.curArr.mode ≠ u.iss.core % 2) ∨ u.curArr.inFlight 0 = true ∨ u.curArr.inFlight 1 = true then
        u.windowMiss
      else .next (u.arrLater 1 (.arrmode (u.rdS a))) := rfl

/-- Settles O9: the checks of the write in their order, and the fields that its landing sets. -/
theorem arrayModeWrite : Obligations.ArrayModeWrite := by
  intro s g a
  refine ⟨fun h => ⟨fun hsup => ?absent, fun hsup hv => ?range, fun hsup hv ht => ?miss, fun hsup hv ht => ?write⟩,
    fun r n w => ⟨bits_low w.toNat 1, rfl, ?acyc, rfl, rfl, rfl, rfl, rfl, rfl, rfl, rfl, rfl, rfl, rfl, rfl, rfl, rfl, rfl, rfl⟩⟩
  case absent =>
    rw [exec_cwrArrmode, hsup]
    exact sop_absent h _
  case acyc => simp only [Arr.acyc, Arr.land, Nat.sub_self, Nat.zero_mod]
  all_goals
    rw [exec_cwrArrmode, sop_runs_of h rfl hsup]
    rw [bits_low]
  case range => exact if_pos hv
  case miss => exact (if_neg hv).trans (if_pos ((s.entered_iss _).symm ▸ ht))
  case write => exact (if_neg hv).trans (if_neg ((s.entered_iss _).symm ▸ ht))

end Sys2Proof.Machine
end

section
/-! SUPPORT. Fields of a word that must be zero, tolerances, and the mode words that XMODE takes (R260, R261, R273). -/

namespace Sys2Proof.Machine

/-- A word has zeros under a field's mask where the field is zero. -/
theorem and_field_eq_zero_iff (m : Word) {k w : Nat} (h : k + w ≤ 64) :
    m &&& (BitVec.ofNat 64 (2 ^ w - 1) <<< k) = 0 ↔ m.toNat / 2 ^ k % 2 ^ w = 0 := by
  have hw : w ≤ 64 := by omega
  have hfield : m &&& (BitVec.ofNat 64 (2 ^ w - 1) <<< k) = BitVec.ofNat 64 (m.toNat / 2 ^ k % 2 ^ w) <<< k := by
    rw [← extract_eq_ofNat m k hw, BitVec.shiftLeft_and_distrib]
    refine BitVec.eq_of_getLsbD_eq fun i hi => ?_
    simp only [BitVec.getLsbD_and, BitVec.getLsbD_shiftLeft, BitVec.getLsbD_ushiftRight, getLsbD_lowMask hw]
    by_cases hk : k ≤ i
    · simp [hi, Nat.not_lt.2 hk, Nat.add_sub_cancel' hk]
    · simp [Nat.not_le.1 hk]
  have hlt : m.toNat / 2 ^ k % 2 ^ w < 2 ^ w := Nat.mod_lt _ (Nat.two_pow_pos w)
  have hfit : m.toNat / 2 ^ k % 2 ^ w * 2 ^ k < 2 ^ 64 := calc
    _ < 2 ^ w * 2 ^ k := Nat.mul_lt_mul_of_pos_right hlt (Nat.two_pow_pos k)
    _ = 2 ^ (k + w) := by rw [← pow_add, Nat.add_comm]
    _ ≤ 2 ^ 64 := Nat.pow_le_pow_right (by omega) h
  have hle : m.toNat / 2 ^ k % 2 ^ w < 2 ^ 64 := Nat.lt_of_lt_of_le hlt (Nat.pow_le_pow_right (by omega) hw)
  rw [hfield, ← BitVec.toNat_inj, BitVec.toNat_shiftLeft, BitVec.toNat_ofNat, Nat.mod_eq_of_lt hle, Nat.shiftLeft_eq, Nat.mod_eq_of_lt hfit]
  simp

/-- A tolerance is refused unless it is a number that is not negative (R261, R273). -/
theorem tauBad_eq_false_iff (t : Nat) : tauBad t = false ↔ ∃ z n e, decodeBin 23 t = .fin z n e ∧ (z = true → n = 0) := by
  unfold tauBad
  cases decodeBin 23 t with
  | nan | inf => simp
  | fin z n e =>
    simp only [Bool.and_eq_false_iff, decide_eq_false_iff_not, not_not, Num.fin.injEq]
    constructor
    · exact fun h => ⟨z, n, e, ⟨rfl, rfl, rfl⟩, fun hz => h.resolve_left (by simp [hz])⟩
    · rintro ⟨_, _, _, ⟨rfl, rfl, rfl⟩, h⟩
      cases z with
      | false => exact Or.inl rfl
      | true => exact Or.inr (h rfl)

-- ## Mode words (R260, R261)

theorem mFmt_eq (m : Word) : mFmt m = m.toNat % 8 := bits_low _ _
theorem mKr_eq (m : Word) : mKr m = m.toNat / 2 ^ 8 % 128 + 1 := rfl
theorem mNc_eq (m : Word) : mNc m = m.toNat / 2 ^ 16 % 128 + 1 := rfl
theorem mTau_eq (m : Word) : mTau m = m.toNat / 2 ^ 32 := by
  have := m.isLt
  rw [mTau, bits]
  omega

/-- The mode words that R261 permits, field by field. -/
def ModeLegal (m : Word) : Prop :=
  let n := m.toNat
  let f := n % 8
  let kr := n / 2 ^ 8 % 128 + 1
  let nc := n / 2 ^ 16 % 128 + 1
  n / 2 ^ 25 % 128 = 0 ∧ n / 2 ^ 23 % 2 = 0 ∧ n / 2 ^ 15 % 2 = 0 ∧ n / 8 % 32 = 0 ∧ (f < 4 ∨ f = 5) ∧
    (f = 0 → kr ≤ 64 ∧ nc ≤ 64) ∧ (f = 5 → kr ≤ 32 ∧ nc ≤ 32) ∧
    (n.testBit 24 = true → f ≠ 3 ∧ f ≠ 5 ∧ ∃ z k e, decodeBin 23 (n / 2 ^ 32) = .fin z k e ∧ (z = true → k = 0))

/-- The bits of a mode word that must be zero (R261). -/
theorem modeReserved_eq_zero_iff (m : Word) : m &&& 0xFE8080F8 = 0 ↔
    m.toNat / 2 ^ 25 % 128 = 0 ∧ m.toNat / 2 ^ 23 % 2 = 0 ∧ m.toNat / 2 ^ 15 % 2 = 0 ∧ m.toNat / 8 % 32 = 0 := by
  have hfields : (0xFE8080F8 : Word) = (BitVec.ofNat 64 (2 ^ 7 - 1) <<< 25) ||| ((BitVec.ofNat 64 (2 ^ 1 - 1) <<< 23) |||
      ((BitVec.ofNat 64 (2 ^ 1 - 1) <<< 15) ||| (BitVec.ofNat 64 (2 ^ 5 - 1) <<< 3))) := by decide
  rw [hfields, BitVec.and_or_distrib_left, BitVec.and_or_distrib_left, BitVec.and_or_distrib_left]
  exact BitVec.or_eq_zero_iff.trans (and_congr (and_field_eq_zero_iff m (k := 25) (w := 7) (by omega))
    (BitVec.or_eq_zero_iff.trans (and_congr (and_field_eq_zero_iff m (k := 23) (w := 1) (by omega))
      (BitVec.or_eq_zero_iff.trans (and_congr (and_field_eq_zero_iff m (k := 15) (w := 1) (by omega))
        (and_field_eq_zero_iff m (k := 3) (w := 5) (by omega)))))))

/-- Of checks in their order none fails. -/
theorem check_eq_none_iff {α : Type} {p : Prop} [Decidable p] {v : α} {o : Option α} : (if p then some v else o) = none ↔ ¬p ∧ o = none := by
  split <;> simp [*]

theorem modeBad_eq_none_iff (m : Word) : modeBad m = none ↔ ModeLegal m := by
  simp only [modeBad, check_eq_none_iff, ne_eq, not_not, modeReserved_eq_zero_iff, mFmt_eq, mKr_eq, mNc_eq, mTau_eq, and_true, and_assoc]
  refine and_congr_right fun _ => and_congr_right fun _ => and_congr_right fun _ => and_congr_right fun _ => ?_
  have hck : mCk m = m.toNat.testBit 24 := rfl
  rw [hck, ← tauBad_eq_false_iff]
  generalize m.toNat.testBit 24 = ck
  generalize tauBad (m.toNat / 2 ^ 32) = bad
  have hf : m.toNat % 8 < 8 := Nat.mod_lt _ (by omega)
  have hkr : m.toNat / 2 ^ 8 % 128 < 128 := Nat.mod_lt _ (by omega)
  have hnc : m.toNat / 2 ^ 16 % 128 < 128 := Nat.mod_lt _ (by omega)
  generalize m.toNat % 8 = f at *
  generalize m.toNat / 2 ^ 8 % 128 = kr at *
  generalize m.toNat / 2 ^ 16 % 128 = nc at *
  have hfits : (¬(if f = 0 then 64 else if f = 5 then 32 else 128) < kr + 1 ∧ ¬(if f = 0 then 64 else if f = 5 then 32 else 128) < nc + 1) ↔
      (f = 0 → kr + 1 ≤ 64 ∧ nc + 1 ≤ 64) ∧ (f = 5 → kr + 1 ≤ 32 ∧ nc + 1 ≤ 32) := by
    split_ifs <;> omega
  have hknown : ¬(f = 4 ∨ f = 6 ∨ f = 7) ↔ f < 4 ∨ f = 5 := by omega
  have hchecked : (¬(ck && decide (f = 3 ∨ f = 5)) = true ∧ ¬(ck && bad) = true) ↔ (ck = true → f ≠ 3 ∧ f ≠ 5 ∧ bad = false) := by
    cases ck <;> simp [not_or, and_assoc]
  rw [hknown, hchecked, ← and_assoc (c := ck = true → _), hfits, and_assoc]

end Sys2Proof.Machine
end

section
/-! SUPPORT. The controls of an array: XMODE, XZERO, XRES, XWIN, XINJ and the end of XWIN's wait (R258, R259, R261, R271, R275, R277). -/

namespace Sys2Proof.Machine

section
variable (g : Guard) (a b k r : Code) (s : State)
theorem exec_xmode : exec (.xmode g a) s = execXmode g a s := rfl
theorem exec_xzero : exec (.xzero g r) s = xop (.xzero g r) false false [r.toNat] s fun u => .next (u.arrLater 1 (.xzero r.toNat)) := rfl
theorem exec_xres : exec (.xres g k) s = xop (.xres g k) false (!s.hasRes) [] s fun u =>
    .next (u.arrLater 1 (.xres u.curP (NMap.getD u.cur.md k.toNat 0))) := rfl
theorem exec_xwin : exec (.xwin g a) s = sop (.xwin g a) false (isSupervisor s.iss.core) s fun u =>
    let n := (u.rdS a).toNat % 16
    if !u.curArr.holds u.curP then u.windowMiss
    else if (u.curArr.mode = 2 ∧ 2 * 2 ^ u.curArr.wsz ≤ n) ∨ (u.curArr.mode ≠ 2 ∧ n ≠ 0) then u.range 0 (BitVec.ofNat 64 n)
    else .next (u.await (.win n)) := rfl
theorem exec_xinj : exec (.xinj g r a b) s = sop (.xinj g r a b) false (isSupervisor s.iss.core) s fun u =>
    let v := u.rdS a
    if !(u.cur.proc || u.dbg) then u.perm 1
    else if !u.windowOk [] then u.windowMiss
    else if v &&& 0xFFFFFFFFFFFFFF00 ≠ 0 then u.range 0 (v &&& 0xFFFFFFFFFFFFFF00)
    else .next (u.arrLater 1 (.flip r.toNat (bits v.toNat 6 0) (v.getLsbD 7) ((u.rdS b).setWidth 48))) := rfl
end

/-- With no rows named, only the window counts. -/
theorem State.windowOk_nil_iff {s : State} : s.windowOk [] = true ↔ s.curArr.Inside (s.iss.core % 2) := by
  rw [State.windowOk_iff, and_iff_left (by simp)]

theorem State.windowOk_singleton_iff {s : State} {r : Nat} : s.windowOk [r] = true ↔
    s.curArr.Inside (s.iss.core % 2) ∧ (s.curArr.mode = 2 → r / 32 = s.iss.core % 2) := by
  simp only [State.windowOk_iff, List.mem_singleton, forall_eq]

section
variable {g : Guard} {a b k r : Code} {s : State}

/-- XMODE where residue mode is there or not asked for, and nothing of its position is in flight (R261). -/
theorem exec_xmode_runs (h : s.runs (.xmode g a) = true) (hsup : isSupervisor s.iss.core = false)
    (hfl : s.curArr.inFlight s.curP = false) (hres : s.hasRes = true ∨ (s.rdS a).toNat % 8 ≠ 5) :
    let u := s.entered (.xmode g a)
    (s.curArr.Inside (s.iss.core % 2) → ModeLegal (u.rdS a) → exec (.xmode g a) s = .next (u.arrLater 1 (.xmode (s.iss.core % 2) (u.rdS a)))) ∧
    (s.curArr.Inside (s.iss.core % 2) → ¬ModeLegal (u.rdS a) → ∃ w0 w1, exec (.xmode g a) s = u.raise fLAYRANGE w0 w1) ∧
    (¬s.curArr.Inside (s.iss.core % 2) → ∃ w0 w1, exec (.xmode g a) s = u.raise fWINDOW w0 w1) := by
  intro u
  have hgone : (s.guardOn (.xmode g a) && !s.hasRes && decide (mFmt (s.rdS a) = 5)) = false := by
    rcases hres with hres | hres <;> simp [hres, mFmt_eq]
  have hin (hok : s.windowOk [] = true) := xop_inside (rows := []) h hsup hfl hgone hok
  rw [exec_xmode, execXmode, ← State.windowOk_nil_iff, ← modeBad_eq_none_iff]
  refine ⟨fun hok hlegal => ?_, fun hok hlegal => ?_, fun hok => ?_⟩
  · rw [hin hok, hlegal, State.entered_curP]
    rfl
  · obtain ⟨v, hv⟩ := Option.ne_none_iff_exists'.1 hlegal
    rw [hin hok, hv]
    exact u.range_raises _ _
  · rw [xop_outside (rows := []) h hsup hfl hgone hok]
    exact u.windowMiss_raises

/-- XWIN's number fits where its window is one of the two positions' cycles, or 0 for a single owner (R259). -/
theorem exec_xwin_runs (h : s.runs (.xwin g a) = true) (hsup : isSupervisor s.iss.core = false) :
    let u := s.entered (.xwin g a)
    let n := (u.rdS a).toNat % 16
    let owns := s.curArr.mode = 2 ∨ s.curArr.mode = s.iss.core % 2
    let fits := if s.curArr.mode = 2 then n < 2 * 2 ^ s.curArr.wsz else n = 0
    (owns → fits → exec (.xwin g a) s = .next (u.await (.win n))) ∧
    (owns → ¬fits → ∃ w0 w1, exec (.xwin g a) s = u.raise fLAYRANGE w0 w1) ∧
    (¬owns → ∃ w0 w1, exec (.xwin g a) s = u.raise fWINDOW w0 w1) := by
  intro u n owns fits
  have howns : s.curArr.holds s.curP = true ↔ owns := by
    rw [Arr.holds, State.curP, Nat.mod_mod, Bool.or_eq_true, decide_eq_true_eq, decide_eq_true_eq]
  have hfits : (s.curArr.mode = 2 ∧ 2 * 2 ^ s.curArr.wsz ≤ n) ∨ (s.curArr.mode ≠ 2 ∧ n ≠ 0) ↔ ¬fits := by
    by_cases hm : s.curArr.mode = 2 <;> simp [fits, hm]
  rw [exec_xwin, sop_runs_of h rfl hsup]
  simp only [State.entered_curArr, State.entered_curP]
  refine ⟨fun ho hf => ?_, fun ho hf => ?_, fun ho => ?_⟩
  · rw [howns.2 ho]
    exact if_neg (mt hfits.1 (not_not.2 hf))
  · rw [howns.2 ho, Bool.not_true, if_neg Bool.false_ne_true, if_pos (hfits.2 hf)]
    exact u.range_raises _ _
  · rw [Bool.eq_false_iff.2 (mt howns.1 ho)]
    exact u.windowMiss_raises

/-- The bits of XINJ's first operand that must be zero (R277). -/
theorem injReserved_eq_zero_iff (v : Word) : v &&& 0xFFFFFFFFFFFFFF00 = 0 ↔ v.toNat < 256 := by
  have hfield : (0xFFFFFFFFFFFFFF00 : Word) = BitVec.ofNat 64 (2 ^ 56 - 1) <<< 8 := by decide
  rw [hfield, and_field_eq_zero_iff v (by omega)]
  have := v.isLt
  omega

/-- XINJ's checks in their order, and its request (R277, R368). -/
theorem exec_xinj_runs (h : s.runs (.xinj g r a b) = true) (hsup : isSupervisor s.iss.core = false) :
    let u := s.entered (.xinj g r a b)
    let v := (u.rdS a).toNat
    let inside := s.curArr.Inside (s.iss.core % 2)
    let may := u.cur.proc = true ∨ s.dbg = true
    (¬may → ∃ w0 w1, exec (.xinj g r a b) s = u.raise fPERM w0 w1) ∧
    (may → ¬inside → ∃ w0 w1, exec (.xinj g r a b) s = u.raise fWINDOW w0 w1) ∧
    (may → inside → v < 256 →
      exec (.xinj g r a b) s = .next (u.arrLater 1 (.flip r.toNat (v % 128) (decide (128 ≤ v)) ((u.rdS b).setWidth 48)))) ∧
    (may → inside → 256 ≤ v → ∃ w0 w1, exec (.xinj g r a b) s = u.raise fLAYRANGE w0 w1) := by
  intro u v inside may
  have hmay : (u.cur.proc || s.dbg) = true ↔ may := Bool.or_eq_true _ _ |>.to_iff
  rw [exec_xinj, sop_runs_of h rfl hsup]
  simp only [State.entered_dbg, State.entered_windowOk]
  refine ⟨fun hm => ?_, fun hm hi => ?_, fun hm hi hv => ?_, fun hm hi hv => ?_⟩
  · rw [Bool.eq_false_iff.2 (mt hmay.1 hm)]
    exact ⟨_, _, rfl⟩
  all_goals rw [hmay.2 hm, Bool.not_true, if_neg Bool.false_ne_true]
  · rw [Bool.eq_false_iff.2 (mt State.windowOk_nil_iff.1 hi)]
    exact u.windowMiss_raises
  all_goals rw [State.windowOk_nil_iff.2 hi, Bool.not_true, if_neg Bool.false_ne_true]
  · have hbit : (u.rdS a).getLsbD 7 = decide (128 ≤ v) := by
      rw [BitVec.getLsbD, Nat.testBit_eq_decide_div_mod_eq, decide_eq_decide]
      omega
    rw [if_neg (not_not.2 ((injReserved_eq_zero_iff _).2 hv)), bits_low, hbit]
    rfl
  · rw [if_pos (mt (injReserved_eq_zero_iff _).1 (Nat.not_lt.2 hv))]
    exact u.range_raises _ _

end

-- ## The end of XWIN's wait (R259)

/-- The waits that array cycle `A` ends (R259). -/
def Wait.windowOf (A : Arr) : Wait → Bool
  | .win n => A.atWin n
  | _ => false

theorem exec_xwinWake (s : State) (c x : Nat) :
    exec (.xwinWake c x) s = .next (s.modCtx c x fun y => y.endWaits (Wait.windowOf (s.arr (pairOf c)))) := rfl

theorem Arr.atWin_iff {A : Arr} {n : Nat} : A.atWin n = true ↔ A.mode ≠ 2 ∨ A.acyc % (2 * 2 ^ A.wsz) = n := by
  rw [Arr.atWin, Arr.w, Bool.or_eq_true, decide_eq_true_eq, decide_eq_true_eq]

/-- Settles O32: each control's faults and request, instruction by instruction, and the end of a wait for a window cycle. -/
theorem arrayControls : Obligations.ArrayControls := by
  intro s g a b k r c x me pair A owns inside row compute
  have hzero_entered : s.entered (.xzero g r) = s := State.entered_of_no_source rfl rfl s
  have hres_entered : s.entered (.xres g k) = s := State.entered_of_no_source rfl rfl s
  refine ⟨fun h hc hfl hres hf => ?xmodeAbsent, fun h hc hfl hres => exec_xmode_runs h hc hfl hres, fun hfl => ?xmodeBusy,
    fun h hc => ?xzero, fun h hc hres hin => ?xres, fun h hc hres hin => ?xresOutside, fun h hres => ?xresAbsent,
    fun h hc => exec_xwin_runs h hc, fun h hc => ?xinj, fun n hst => ⟨fun hn => ?wakes, fun hm hn => ?stays⟩⟩
  case xmodeAbsent =>
    have hgone : (s.guardOn (.xmode g a) && !s.hasRes && decide (mFmt (s.rdS a) = 5)) = true := by
      rw [State.guardOn_of_runs h, hres, mFmt_eq, hf]
      rfl
    rw [exec_xmode, execXmode, hgone, show s.curArr.inFlight s.curP = false from hfl]
    exact xop_absent h _ _
  case xmodeBusy =>
    rw [exec_xmode, execXmode, xop]
    exact sop_illegal _ (Or.inr (Or.inr hfl)) _
  case xzero =>
    refine ⟨fun hin hrow => ?_, fun hout => ?_⟩ <;> rw [exec_xzero]
    · rw [xop_inside h hc rfl rfl (State.windowOk_singleton_iff.2 ⟨hin, hrow⟩), hzero_entered]
    · rw [xop_outside h hc rfl rfl (mt State.windowOk_singleton_iff.1 hout), hzero_entered]
      exact s.windowMiss_raises
  case xres =>
    rw [exec_xres, hres, Bool.not_true, xop_inside h hc rfl rfl (State.windowOk_nil_iff.2 hin), hres_entered]
    rfl
  case xresOutside =>
    rw [exec_xres, hres, Bool.not_true, xop_outside h hc rfl rfl (mt State.windowOk_nil_iff.1 hin), hres_entered]
    exact s.windowMiss_raises
  case xresAbsent =>
    rw [exec_xres, hres]
    exact xop_absent h _ _
  case xinj =>
    obtain ⟨hperm, hmiss, hgoes, hrange⟩ := exec_xinj_runs h hc
    refine ⟨fun hp hd => hperm ?_, hmiss, hgoes, hrange⟩
    rw [hp, hd]
    simp
  case wakes =>
    refine ⟨_, exec_xwinWake s c x, ?_⟩
    rw [State.ctx_modCtx, Ctx.endWaits_over hst (Arr.atWin_iff.2 hn)]
  case stays =>
    rw [exec_xwinWake, State.modCtx_congr (f' := id)]
    exact Ctx.endWaits_stays hst (Bool.eq_false_iff.2 (mt Arr.atWin_iff.1 (by tauto)))

end Sys2Proof.Machine
end

section
/-! SUPPORT. What an array holds: elements of rows, entries of maps, the two positions, and the fields that an effect leaves (R255, R264). -/

namespace Sys2Proof.Machine

-- ## Elements of a row

theorem getLsbD_setRowEl (v : AccRow) (c x : Nat) {j : Nat} (h : j < 8192) :
    (setRowEl v c x).getLsbD j = if j / 64 = c then x.testBit (j % 64) else v.getLsbD j := by
  have hsub : j - 64 * c < 8192 := by omega
  simp only [setRowEl, BitVec.getLsbD_or, BitVec.getLsbD_and, BitVec.getLsbD_not, BitVec.getLsbD_shiftLeft, BitVec.getLsbD_ofNat,
    Nat.testBit_two_pow_sub_one, Nat.testBit_mod_two_pow, h, hsub, decide_true, Bool.true_and]
  by_cases hc : j / 64 = c
  · have hge : ¬j < 64 * c := by omega
    have hlt : j - 64 * c < 64 := by omega
    have hmod : j - 64 * c = j % 64 := by omega
    rw [hmod] at hlt ⊢
    simp [hc, hge, hlt]
  · have hout : j < 64 * c ∨ ¬j - 64 * c < 64 := by omega
    rcases hout with hout | hout <;> simp [hc, hout]

theorem testBit_rowEl (v : AccRow) (c i : Nat) : (rowEl v c).testBit i = (decide (i < 64) && v.getLsbD (64 * c + i)) := by
  rw [rowEl, BitVec.testBit_toNat, BitVec.getLsbD_extractLsb']

theorem rowEl_lt (v : AccRow) (c : Nat) : rowEl v c < 2 ^ 64 := (v.extractLsb' (64 * c) 64).isLt

/-- An element written reads as its low 64 bits; every other element stands. -/
theorem rowEl_setRowEl (v : AccRow) (c x : Nat) {d : Nat} (h : d < 128) :
    rowEl (setRowEl v c x) d = if d = c then x % 2 ^ 64 else rowEl v d := by
  refine Nat.eq_of_testBit_eq fun i => ?_
  rw [testBit_rowEl]
  by_cases hi : i < 64
  · have hplace : (64 * d + i) / 64 = d ∧ (64 * d + i) % 64 = i := by omega
    rw [getLsbD_setRowEl _ _ _ (by omega), hplace.1, hplace.2]
    split
    · rw [Nat.testBit_mod_two_pow]
    · rw [testBit_rowEl]
  · split
    · rw [Nat.testBit_mod_two_pow, decide_eq_false hi, Bool.false_and, Bool.false_and]
    · rw [testBit_rowEl, decide_eq_false hi, Bool.false_and, Bool.false_and]

/-- The first `n` elements of a row replaced; the others stand. -/
theorem rowEl_mapRow (v : AccRow) (f : Nat → Nat) (n : Nat) {c : Nat} (h : c < 128) :
    rowEl (mapRow v f n) c = if c < n then f c % 2 ^ 64 else rowEl v c := by
  induction n with
  | zero => rfl
  | succ n ih =>
    have hstep : mapRow v f (n + 1) = setRowEl (mapRow v f n) n (f n) := by
      rw [mapRow, List.range_succ, List.foldl_append]
      rfl
    rw [hstep, rowEl_setRowEl _ _ _ h, ih]
    by_cases hc : c = n
    · simp [hc]
    · simp only [hc, if_false, show c < n + 1 ↔ c < n by omega]

-- ## Maps after several writes

theorem NMap.getD_erase {α : Type} (m : NMap α) (k j : Nat) (d : α) :
    NMap.getD (NMap.erase m k) j d = if j = k then d else NMap.getD m j d :=
  (NMap.getD_foldl_erase [k] m j d).trans (by simp only [List.mem_singleton])

/-- What a map reads after writes at `n` places from `u` on. -/
theorem NMap.getD_foldl_set_range {α : Type} (m : NMap α) (u n : Nat) (v : Nat → α) (k : Nat) (d : α) :
    NMap.getD ((List.range n).foldl (fun m j => NMap.set m (u + j) (v j)) m) k d =
      if u ≤ k ∧ k < u + n then v (k - u) else NMap.getD m k d := by
  induction n with
  | zero => rw [if_neg (by omega)]; rfl
  | succ n ih =>
    rw [List.range_succ, List.foldl_append, List.foldl_cons, List.foldl_nil, NMap.getD_set, ih]
    by_cases hk : k = u + n
    · rw [if_pos hk, if_pos (by omega), show k - u = n by omega]
    · simp only [hk, if_false, show u ≤ k ∧ k < u + (n + 1) ↔ u ≤ k ∧ k < u + n by omega]

/-- The same for writes at the first `n` places. -/
theorem NMap.getD_foldl_set_first {α : Type} (m : NMap α) (n : Nat) (v : Nat → α) (k : Nat) (d : α) :
    NMap.getD ((List.range n).foldl (fun m j => NMap.set m j (v j)) m) k d = if k < n then v k else NMap.getD m k d := by
  simpa using NMap.getD_foldl_set_range m 0 n v k d

theorem NMap.getD_foldl_set_other {α : Type} {l : List (Nat × α)} {k : Nat} (h : ∀ e ∈ l, e.1 ≠ k) (m : NMap α) (d : α) :
    NMap.getD (l.foldl (fun m e => NMap.set m e.1 e.2) m) k d = NMap.getD m k d := by
  induction l generalizing m with
  | nil => rfl
  | cons e l ih =>
    obtain ⟨he, hl⟩ := List.forall_mem_cons.1 h
    exact (ih hl _).trans (NMap.getD_set_other m (Ne.symm he) _ _)

/-- Where all pairs of a key agree, the map reads what they say. -/
theorem NMap.getD_foldl_set_same {α : Type} {l : List (Nat × α)} {k : Nat} {v : α} (hk : ∃ e ∈ l, e.1 = k)
    (hv : ∀ e ∈ l, e.1 = k → e.2 = v) (m : NMap α) (d : α) : NMap.getD (l.foldl (fun m e => NMap.set m e.1 e.2) m) k d = v := by
  induction l generalizing m with
  | nil => simp at hk
  | cons e l ih =>
    obtain ⟨he, hl⟩ := List.forall_mem_cons.1 hv
    by_cases hlater : ∃ e ∈ l, e.1 = k
    · exact ih hlater hl _
    · have hek : e.1 = k := by simpa [hlater] using hk
      have hother : ∀ e ∈ l, e.1 ≠ k := fun e' h' h => hlater ⟨e', h', h⟩
      exact (NMap.getD_foldl_set_other hother _ d).trans ((NMap.getD_set m e.1 k e.2 d).trans ((if_pos hek.symm).trans (he hek)))

-- ## The two positions

section
variable (a : Arr) (p : Nat) (f : Pos → Pos)

@[simp] theorem Arr.pos_modPos : (a.modPos p f).pos p = f (a.pos p) := by
  unfold Arr.modPos Arr.pos
  split <;> rfl

/-- An update of one position leaves the other, and all that the array holds beside them. -/
theorem Arr.modPos_of {α : Type} (g : Arr → α) (hg : ∀ (b : Arr) q r, g { b with p0 := q, p1 := r } = g b) : g (a.modPos p f) = g a := by
  unfold Arr.modPos
  split
  · exact hg a (f a.p0) a.p1
  · exact hg a a.p0 (f a.p1)

theorem Arr.modPos_alone (h : p = 0 ∨ p = 1) : (a.modPos p f).pos (1 - p) = a.pos (1 - p) ∧ (a.modPos p f).rows = a.rows := by
  rcases h with rfl | rfl <;> exact ⟨rfl, rfl⟩

/-- What an update of a position leaves of each position, it leaves of both. -/
theorem Arr.modPos_p0_of {α : Type} (g : Pos → α) (hg : ∀ q, g (f q) = g q) : g (a.modPos p f).p0 = g a.p0 := by
  unfold Arr.modPos
  split
  · exact hg a.p0
  · rfl
theorem Arr.modPos_p1_of {α : Type} (g : Pos → α) (hg : ∀ q, g (f q) = g q) : g (a.modPos p f).p1 = g a.p1 := by
  unfold Arr.modPos
  split
  · rfl
  · exact hg a.p1

theorem Arr.row_modPos (r : Nat) : (a.modPos p f).row r = a.row r := a.modPos_of p f (Arr.row · r) fun _ _ _ => rfl

end

end Sys2Proof.Machine
end

section
/-! SUPPORT. The landings of an array, effect by effect: what each sets and what it leaves (R261, R263, R264, R268, R271, R277, R285, R290, R296). -/

namespace Sys2Proof.Machine

-- ## Contributions and GORB's terms (R264, R296)

/-- A sticky bit set is all that an overflow changes. -/
theorem Arr.stick_eq (a : Arr) (fmt row : Nat) (sat : Bool) : ∃ o t, a.stick fmt row sat = { a with of_ := o, sat_ := t } := by
  unfold Arr.stick
  split
  · exact ⟨_, _, rfl⟩
  · split <;> exact ⟨_, _, rfl⟩

/-- A contribution changes one row, its coordinate and prediction, the sticky bits, and what is checked at its position (R264, R272). -/
theorem Arr.landContrib_eq (a : Arr) (p row : Nat) (sh : Bool) (fmt nc m : Nat) (sums : List Num) (ofl : Bool) (cks : Option Num) (tag : Nat) :
    ∃ fl o t rp, ∃ (ck : Pos → BitVec 64) (cp : Pos → NMap Nat), (∀ r, r ≠ row → NMap.getD rp r 0 = NMap.getD a.rpred r 0) ∧
      a.landContrib p row sh fmt nc m sums ofl cks tag = ({ a with
        flight := fl, of_ := o, sat_ := t, rpred := rp
        rows := NMap.set a.rows row (mapRow (a.row row) (fun c => (accAdd fmt m sh (rowEl (a.row row) c) (sums.getD c (.fin false 0 0))).1) nc)
        coord := if sh then NMap.set a.coord row tag else a.coord } : Arr).modPos p fun q => { q with checked := ck q, cpred := cp q } := by
  unfold Arr.landContrib
  obtain ⟨o, t, hst⟩ := Arr.stick_eq (a.noteFix row nc fun c => ⟨fmt, m, sh, sums.getD c (.fin false 0 0)⟩) fmt row
    (ofl || (List.range nc).any fun c => (accAdd fmt m sh (rowEl (a.row row) c) (sums.getD c (.fin false 0 0))).2)
  dsimp only
  rw [hst]
  cases cks with
  | none => exact ⟨_, o, t, a.rpred, _, Pos.cpred, fun _ _ => rfl, rfl⟩
  | some q => exact ⟨_, o, t, _, _, _, fun r hr => NMap.getD_set_other _ hr _ _, rfl⟩

/-- One term of a GORB changes its row, its coordinate and the sticky bits (R296). -/
theorem Arr.landOrb_one (a : Arr) (b nc fmt t : Nat) (x : Num) (xs : List Num) : ∃ fl o u, a.landOrb b nc fmt [(t, x, xs)] = { a with
    flight := fl, of_ := o, sat_ := u
    rows := NMap.set a.rows (b + t)
      (mapRow (a.row (b + t)) (fun c => (accAdd fmt 0 false (rowEl (a.row (b + t)) c) (Num.mul x (xs.getD c (.fin false 0 0)))).1) nc)
    coord := NMap.erase a.coord (b + t) } := by
  rw [Arr.landOrb, List.foldl_cons, List.foldl_nil]
  dsimp only
  obtain ⟨o, u, hst⟩ := Arr.stick_eq (a.touch (b + t) fun y => if y.col < nc then
      { y with pre := (accAdd fmt 0 false y.pre (Num.mul x (xs.getD y.col (.fin false 0 0)))).1 } else y) fmt (b + t)
    ((List.range nc).any fun c => (accAdd fmt 0 false (rowEl (a.row (b + t)) c) (Num.mul x (xs.getD c (.fin false 0 0)))).2)
  rw [hst]
  exact ⟨_, o, u, rfl⟩

-- ## XZERO (R271)

/-- The bit of a row among 64. -/
theorem getLsbD_rowBit {r : Nat} (row : Nat) (h : r < 64) : (BitVec.ofNat 64 (2 ^ row)).getLsbD r = decide (r = row) := by
  rw [BitVec.getLsbD_ofNat, Nat.testBit_two_pow, decide_eq_true h, Bool.true_and, decide_eq_decide]
  exact eq_comm

/-- XZERO clears one row, its prediction and coordinate, its sticky bits, and its bit of the position's verdict (R271). -/
theorem Arr.land_xzero (a : Arr) (newer : Nat → Bool) (r : Nat) : ∃ fl p, ∃ (fr : Pos → BitVec 64), a.land newer (.xzero r) = ({ a with
    flight := fl, rows := NMap.erase a.rows r, of_ := a.of_ &&& ~~~BitVec.ofNat 64 (2 ^ r), sat_ := a.sat_ &&& ~~~BitVec.ofNat 64 (2 ^ r)
    rpred := NMap.erase a.rpred r, coord := NMap.erase a.coord r } : Arr).modPos p fun q => { q with fr := fr q } := by
  rw [Arr.land]
  split <;> exact ⟨_, _, _, rfl⟩

-- ## XMODE (R261)

theorem Pos.landMode_eq (q : Pos) (w : Word) : q.landMode w = { q with
    mode := w, srp := 0, cpred := [], ux := false, checked := 0
    fa := if w.toNat % 8 = q.mode.toNat % 8 then q.fa else emptyFifo q.fa
    fb := if w.toNat % 8 = q.mode.toNat % 8 then q.fb else emptyFifo q.fb
    sel := if w.toNat % 8 = q.mode.toNat % 8 ∧ w.toNat / 2 ^ 8 % 2 ^ 7 = q.mode.toNat / 2 ^ 8 % 2 ^ 7 then q.sel else 0 } := by
  have hfmt : mFmt q.mode = mFmt w ↔ w.toNat % 8 = q.mode.toNat % 8 := by rw [mFmt_eq, mFmt_eq, eq_comm]
  have hkr : mKr q.mode = mKr w ↔ w.toNat / 2 ^ 8 % 2 ^ 7 = q.mode.toNat / 2 ^ 8 % 2 ^ 7 := Nat.succ_inj.trans eq_comm
  unfold Pos.landMode
  simp only [← hfmt, ← hkr]
  by_cases hf : mFmt q.mode = mFmt w
  · simp only [hf, ne_eq, not_true, false_or, true_and, ite_not, if_true, if_false]
    split <;> rfl
  · simp only [hf, ne_eq, not_false_eq_true, true_or, false_and, if_true, if_false]
    rfl

-- ## What a GLOAD fills (R282, R285)

/-- Bytes of ones add up to a quotient by 255. -/
theorem packNat_ones (n : Nat) : packNat 8 (fun _ => 1) n * 255 + 1 = 2 ^ (8 * n) := by
  induction n with
  | zero => rfl
  | succ n ih =>
    have hpow : 2 ^ (8 * (n + 1)) = 2 ^ (8 * n) * 2 ^ 8 := by rw [← pow_add, Nat.mul_succ]
    rw [packNat, hpow, ← ih]
    ring

theorem packNat_sixties (n : Nat) : packNat 8 (fun _ => 63) n = packNat 8 (fun _ => 1) n * 63 := by
  induction n with
  | zero => rfl
  | succ n ih =>
    rw [packNat, packNat, ih]
    omega

/-- Each index of a Cayley row keeps its six bits. -/
theorem sixBits_eq : sixBits = BitVec.ofNat 512 (packNat 8 (fun _ => 63) 64) := by
  have hpow : 2 ^ 512 = 2 ^ (8 * 64) := congrArg (2 ^ ·) (show 512 = 8 * 64 from rfl)
  rw [sixBits, hpow, ← packNat_ones, Nat.add_sub_cancel, Nat.mul_div_cancel _ (by omega), ← packNat_sixties]

theorem extract_sixBits {h : Nat} (hh : h < 64) : sixBits.extractLsb' (8 * h) 6 = BitVec.allOnes 6 := by
  have hlt : packNat 8 (fun _ => 63) 64 < 2 ^ 512 := packNat_lt 8 _ 64
  have hfield : packNat 8 (fun _ => 63) 64 / 2 ^ (8 * h) % 2 ^ 8 = 63 := packNat_field 8 _ hh
  refine BitVec.eq_of_toNat_eq ?_
  rw [sixBits_eq, BitVec.extractLsb'_toNat, BitVec.toNat_ofNat, Nat.mod_eq_of_lt hlt, Nat.shiftRight_eq_div_pow, BitVec.toNat_allOnes]
  omega

theorem extract_and_sixBits (v : BitVec 512) {h : Nat} (hh : h < 64) : (v &&& sixBits).extractLsb' (8 * h) 6 = v.extractLsb' (8 * h) 6 := by
  rw [BitVec.extractLsb'_and, extract_sixBits hh, BitVec.and_allOnes]

theorem extract_extract {w : Nat} (v : BitVec w) {n m l k : Nat} (h : m + k ≤ l) :
    (v.extractLsb' n l).extractLsb' m k = v.extractLsb' (n + m) k := by
  refine BitVec.eq_of_getLsbD_eq fun i hi => ?_
  simp only [BitVec.getLsbD_extractLsb', hi, decide_true, Bool.true_and, show m + i < l by omega, Nat.add_assoc]

/-- A table read after a GLOAD: of the elements loaded, the unit of the image; of any other, as before. -/
theorem Arr.entry_gtables (a : Arr) (newer : Nat → Bool) (n kind inex g t : Nat) :
    (a.land newer (.gtables n kind inex)).entry g t = if g < n then ((a.gunits.getD g 0).lane t).toNat else a.entry g t := by
  have htab : (a.land newer (.gtables n kind inex)).table g = if g < n then a.gunits.getD g 0 else a.table g :=
    NMap.getD_foldl_set_first _ _ _ _ _
  rw [Arr.entry, htab, Arr.entry]
  split <;> rfl

/-- A Cayley row read after a GLOAD of kind 0: of the elements loaded, its part of the image's unit; of any other, as before. -/
theorem Arr.cay_gtables (a : Arr) (newer : Nat → Bool) (n kind inex g : Nat) {h : Nat} (hh : h < 64) :
    (a.land newer (.gtables n kind inex)).cay g h = if kind = 0 ∧ g < n
      then ((a.gunits.getD (n + g / 8) 0).extractLsb' (512 * (g % 8) + 8 * h) 6).toNat else a.cay g h := by
  have hcay : (a.land newer (.gtables n kind inex)).cayley = if kind = 0 then (List.range n).foldl (fun m g => NMap.set m g
      (BitVec.extractLsb' (512 * (g % 8)) 512 (a.gunits.getD (n + g / 8) 0) &&& sixBits)) a.cayley else a.cayley := rfl
  rw [Arr.cay, hcay]
  by_cases hk : kind = 0
  · rw [if_pos hk, NMap.getD_foldl_set_first]
    by_cases hg : g < n
    · rw [if_pos hg, if_pos ⟨hk, hg⟩, extract_and_sixBits _ hh, extract_extract _ (by omega)]
    · rw [if_neg hg, if_neg (by tauto), Arr.cay]
  · rw [if_neg hk, if_neg (by tauto), Arr.cay]

-- ## Which effect lands (R268)

theorem State.landArr_due {s : State} {n : Nat} {kind : AEff → Bool} {f : AFlight} (h : (s.arr n).dueOf kind = some f) :
    ∃ late, s.landArr n kind = s.modArr n fun a => (a.without f).land late f.eff := by
  unfold State.landArr
  rw [h]
  exact ⟨_, rfl⟩

theorem isOther_of_isMode {e : AEff} (h : isMode e = true) : isOther e = true := by
  cases e with
  | xmode | arrmode => rfl
  | _ => exact absurd h Bool.false_ne_true

/-- Where nothing but a write of a mode is due, the first effect due is the first such write. -/
theorem Arr.dueOf_other {a : Arr} (h : a.dueOf (fun e => isOther e && !isMode e) = none) : a.dueOf isOther = a.dueOf isMode := by
  unfold Arr.dueOf at h ⊢
  rw [List.find?_eq_none] at h
  refine List.find?_congr fun f hf => ?_
  have hplain := h f hf
  cases hdue : decide (f.due ≤ a.clk) with
  | false => rfl
  | true =>
    cases hmode : isMode f.eff with
    | true => rw [isOther_of_isMode hmode]
    | false => simpa [hdue, hmode] using hplain

end Sys2Proof.Machine
end

section
/-! SUPPORT. The landings of an array as events: which effect lands, and the verdict of a GCHK (R268, R290). -/

namespace Sys2Proof.Machine

section
variable (n : Nat) (s : State)
theorem exec_contributionLanding : exec (.contributionLanding n) s = .next (s.landArr n isContrib) := rfl
theorem exec_arrayEffectLanding : exec (.arrayEffectLanding n) s = execArrayEffectLanding n s := rfl
theorem exec_gorbLanding : exec (.gorbLanding n) s = .next (s.landArr n isOrb) := rfl
theorem exec_groupLoadLanding : exec (.groupLoadLanding n) s = execGroupLoadLanding n s := rfl
theorem exec_gchkVerdict : exec (.gchkVerdict n) s = execGchkVerdict n s := rfl
end

/-- The state in which the first due effect of a kind has landed (R268). -/
def Lands (s : State) (n : Nat) (kind : AEff → Bool) (o : Out3) : Prop := ∀ f, (s.arr n).dueOf kind = some f →
  ∃ (t : State) (late : Nat → Bool), o = .next t ∧ t.arr n = ((s.arr n).without f).land late f.eff ∧ t.cores = s.cores

theorem State.landArr_lands (s : State) (n : Nat) (kind : AEff → Bool) : Lands s n kind (.next (s.landArr n kind)) := by
  intro f hf
  obtain ⟨late, hland⟩ := State.landArr_due hf
  exact ⟨_, late, rfl, by rw [hland, State.arr_modArr], by rw [hland]; rfl⟩

theorem exec_arrayEffectLanding_plain (s : State) (n : Nat) :
    Lands s n (fun e => isOther e && !isMode e) (exec (.arrayEffectLanding n) s) := by
  intro f hf
  have hsome : ((s.arr n).dueOf fun e => isOther e && !isMode e).isSome = true := by rw [hf]; rfl
  rw [exec_arrayEffectLanding, execArrayEffectLanding, if_pos hsome]
  exact s.landArr_lands n _ f hf

/-- A write of a mode waits until nothing else is due (R257, R261). -/
theorem exec_arrayEffectLanding_mode {s : State} {n : Nat} (h : (s.arr n).dueOf (fun e => isOther e && !isMode e) = none) :
    Lands s n isMode (exec (.arrayEffectLanding n) s) := by
  intro f hf
  rw [exec_arrayEffectLanding, execArrayEffectLanding, h, if_neg (by simp)]
  exact s.landArr_lands n _ f ((Arr.dueOf_other h).trans hf)

theorem exec_groupLoadLanding_due (s : State) (n : Nat) : Lands s n isGroupLoad (exec (.groupLoadLanding n) s) := by
  intro f hf
  have hsome : ((s.arr n).dueOf isGroupLoad).isSome = true := by rw [hf]; rfl
  rw [exec_groupLoadLanding, execGroupLoadLanding, if_pos hsome]
  exact s.landArr_lands n _ f hf

-- ## The verdict of a GCHK (R290)

theorem State.arr_modLaunch (s : State) (l : Nat) (f : Launch → Launch) (n : Nat) : (s.modLaunch l f).arr n = s.arr n := by
  unfold State.modLaunch
  split <;> rfl

/-- A deferred fault goes to the context, or to the orphan record of its launch (R290, R356). -/
theorem State.defer_cases (s : State) (c x gen launch code : Nat) (d0 d1 : Word) (addr : Nat) : ∃ f,
    s.defer c x gen launch code d0 d1 addr = s.modCtx c x f ∨
      s.defer c x gen launch code d0 d1 addr = s.orphan launch 2 code 0 c x gen addr := ⟨_, ite_eq_or_eq _ _ _⟩

theorem State.arr_defer (s : State) (c x gen launch code : Nat) (d0 d1 : Word) (addr n : Nat) :
    (s.defer c x gen launch code d0 d1 addr).arr n = s.arr n := by
  obtain ⟨f, h | h⟩ := s.defer_cases c x gen launch code d0 d1 addr <;> rw [h]
  · rfl
  · exact s.arr_modLaunch _ _ _

/-- A fault deferred for a context that is still the one that asked (R290). -/
theorem State.ctx_defer {s : State} {c x : Nat} {ge : BitVec 16} (hgen : (s.ctx c x).gen = ge) (hst : (s.ctx c x).st ≠ .free)
    (launch code : Nat) (d0 d1 : Word) (addr : Nat) : ((s.defer c x ge.toNat launch code d0 d1 addr).ctx c x).deferred =
      (s.ctx c x).deferred ++ [{ code := code, d0 := d0, d1 := d1, addr := addr }] := by
  have hdefer : s.defer c x ge.toNat launch code d0 d1 addr = s.modCtx c x fun k =>
      { k with deferred := k.deferred ++ [{ code := code, d0 := d0, d1 := d1, addr := addr }] } := by
    refine if_pos ?_
    rw [hgen, decide_eq_true rfl, Bool.true_and]
    cases hs : (s.ctx c x).st with
    | free => exact absurd hs hst
    | _ => rfl
  rw [hdefer, State.ctx_modCtx]

theorem exec_gchkVerdict_due {s : State} {n : Nat} {f : AFlight} (h : (s.arr n).dueOf isVerdict = some f) :
    ∃ (t : State) (late : Nat → Bool), exec (.gchkVerdict n) s = .next t ∧ t.arr n = ((s.arr n).without f).land late f.eff ∧
      (∀ k d st c x ge l w, f.eff = .gchkEnd k d st c x ge l w → st.getLsbD 0 = false → (s.ctx c x).gen = ge → (s.ctx c x).st ≠ .free →
        ∃ y ∈ (t.ctx c x).deferred, y.code = fGROUP ∧ y.d0 = st ∧ y.d1 = BitVec.ofNat 64 w) := by
  obtain ⟨late, hland⟩ := State.landArr_due h
  have harr : (s.landArr n isVerdict).arr n = ((s.arr n).without f).land late f.eff := by rw [hland, State.arr_modArr]
  have hctx (c x : Nat) : (s.landArr n isVerdict).ctx c x = s.ctx c x := by rw [hland]; rfl
  rw [exec_gchkVerdict, execGchkVerdict, h]
  dsimp only
  split
  · next k d st c x ge l w heff =>
    split
    · next hpass =>
      refine ⟨_, late, rfl, harr, fun k' d' st' c' x' ge' l' w' heff' hfail => ?_⟩
      obtain ⟨-, -, rfl, -⟩ := AEff.gchkEnd.inj (heff.symm.trans heff')
      exact absurd (hpass.symm.trans hfail) Bool.noConfusion
    · refine ⟨_, late, rfl, (State.arr_defer ..).trans harr, fun k' d' st' c' x' ge' l' w' heff' _ hgen hst => ?_⟩
      obtain ⟨rfl, rfl, rfl, rfl, rfl, rfl, rfl, rfl⟩ := AEff.gchkEnd.inj (heff.symm.trans heff')
      rw [← hctx] at hgen hst
      rw [State.ctx_defer hgen hst]
      exact ⟨_, List.mem_append_right _ (List.mem_singleton_self _), rfl, rfl, rfl⟩
  · next hno => exact ⟨_, late, rfl, harr, fun k d st c x ge l w heff => absurd heff (hno k d st c x ge l w)⟩

end Sys2Proof.Machine
end

section
/-! SUPPORT. The landings of an array, statement by statement (R261, R263, R264, R268, R271, R272, R273, R275, R277, R285, R290, R292, R296). -/

namespace Sys2Proof.Machine

/-- Settles O34: each event lands the first due effect of its kind, and each effect has the fields of its rule. -/
theorem arrayLandings : Obligations.ArrayLandings := by
  intro s n lands
  refine ⟨s.landArr_lands n isContrib, exec_arrayEffectLanding_plain s n, exec_arrayEffectLanding_mode, s.landArr_lands n isOrb,
    exec_groupLoadLanding_due s n, fun f => exec_gchkVerdict_due, fun A late p row sh fmt nc m sums o q tag => ?contrib,
    fun A late k n e => ?fifo, fun A late p hp => ?position, fun A late row el v hel => ?flip, fun A late m kind inex u => ?groupLoad,
    fun A late k d c x l w ge st => ?verdict, fun A late b nc fmt t x xs ts => ?orb⟩
  case contrib =>
    obtain ⟨fl, of', sat, rp, ck, cp, hrp, heq⟩ := A.landContrib_eq p row sh fmt nc m sums o q tag
    intro B
    have hB : B = _ := heq
    rw [hB]
    refine ⟨fun r hr => ⟨?_, ?_, ?_⟩, fun c hc => ?_, ?_, ?_, ?_, ?_, ?_, ?_⟩
    · rw [Arr.row_modPos]
      exact NMap.getD_set_other _ hr _ _
    · rw [Arr.modPos_of _ _ _ Arr.coord fun _ _ _ => rfl]
      cases sh
      · rfl
      · exact NMap.getD_set_other _ hr _ _
    · rw [Arr.modPos_of _ _ _ Arr.rpred fun _ _ _ => rfl]
      exact hrp r hr
    · rw [Arr.row_modPos, Arr.row, NMap.getD_set_same, rowEl_mapRow _ _ _ hc]
    · exact Arr.modPos_p0_of _ _ _ Pos.fa fun _ => rfl
    · exact Arr.modPos_p0_of _ _ _ Pos.act fun _ => rfl
    · exact Arr.modPos_p0_of _ _ _ Pos.mode fun _ => rfl
    · exact Arr.modPos_p1_of _ _ _ Pos.fa fun _ => rfl
    · exact Arr.modPos_p1_of _ _ _ Pos.act fun _ => rfl
    · exact Arr.modPos_of _ _ _ Arr.tables fun _ _ _ => rfl
  case fifo =>
    obtain ⟨fl, p, fr, hzero⟩ := A.land_xzero late k
    refine ⟨rfl, rfl, rfl, rfl, rfl, rfl, rfl, ?_, fun r hr => ?_, ?_, ?_, fun r hr => ?_⟩ <;> rw [hzero]
    · rw [Arr.row_modPos, Arr.row, NMap.getD_erase, if_pos rfl]
    · rw [Arr.row_modPos, Arr.row, NMap.getD_erase, if_neg hr, Arr.row]
    · rw [Arr.modPos_of _ _ _ Arr.rpred fun _ _ _ => rfl, NMap.getD_erase, if_pos rfl]
    · rw [Arr.modPos_of _ _ _ Arr.coord fun _ _ _ => rfl, NMap.getD_erase, if_pos rfl]
    · rw [Arr.modPos_of _ _ _ Arr.of_ fun _ _ _ => rfl, BitVec.getLsbD_and, BitVec.getLsbD_not, getLsbD_rowBit k hr, decide_eq_true hr,
        Bool.true_and, decide_not]
  case position =>
    intro q alone
    have halone (f : Pos → Pos) := A.modPos_alone p f hp
    refine ⟨fun w => ?_, fun m => ⟨halone _, A.pos_modPos p _⟩, fun g => ⟨halone _, A.pos_modPos p _⟩, fun row v rs tag kr => ?_,
      fun fr fc rr cr ux => ?_, fun row v => ?_⟩
    · have hr : (A.land late (.xmode p w)).pos p = q.landMode w := A.pos_modPos p _
      rw [hr, Pos.landMode_eq]
      refine ⟨halone _, rfl, rfl, rfl, rfl, rfl, fun hne => ?_, fun he => ⟨if_pos he, if_pos he⟩, rfl, rfl, rfl, rfl, rfl, rfl, rfl⟩
      rw [if_neg hne, if_neg hne]
      exact ⟨rfl, rfl, rfl, rfl⟩
    · have hr : (A.land late (.shadow p row v rs tag kr)).pos p = _ := A.pos_modPos p _
      rw [hr]
      exact ⟨halone _, fun k => NMap.getD_set _ _ _ _ _, fun k => NMap.getD_set _ _ _ _ _, rfl, rfl, rfl, rfl, rfl, rfl, rfl⟩
    · have hr : (A.land late (.verdict p fr fc rr cr ux)).pos p = _ := A.pos_modPos p _
      rw [hr]
      exact ⟨halone _, rfl, rfl, rfl, fun k v => ⟨fun hk hv => NMap.getD_foldl_set_same hk hv _ _, fun h => NMap.getD_foldl_set_other h _ _⟩,
        fun k v => ⟨fun hk hv => NMap.getD_foldl_set_same hk hv _ _, fun h => NMap.getD_foldl_set_other h _ _⟩, rfl, rfl, rfl⟩
    · have hr : (A.land late (.rowFail p row v)).pos p = _ := A.pos_modPos p _
      rw [hr]
      refine ⟨halone _, fun k hk => ?_, fun k => NMap.getD_set _ _ _ _ _, rfl, rfl, rfl⟩
      rw [BitVec.getLsbD_or, getLsbD_rowBit row hk]
  case flip =>
    have hlt : rowEl (A.row row) el ^^^ v.toNat < 2 ^ 64 :=
      Nat.xor_lt_two_pow (rowEl_lt _ _) (Nat.lt_of_lt_of_le v.isLt (Nat.pow_le_pow_right (by omega) (by omega)))
    have hrow : (A.land late (.flip row el false v)).row row = setRowEl (A.row row) el (rowEl (A.row row) el ^^^ v.toNat) :=
      NMap.getD_set_same _ _ _ _
    refine ⟨?_, fun c hc hne => ?_, fun k hk => NMap.getD_set_other _ hk _ _, rfl, rfl, rfl, rfl, NMap.getD_set_same _ _ _ _,
      fun k hk => NMap.getD_set_other _ hk _ _, rfl, rfl, rfl, rfl⟩
    · rw [hrow, rowEl_setRowEl _ _ _ hel, if_pos rfl, Nat.mod_eq_of_lt hlt]
    · rw [hrow, rowEl_setRowEl _ _ _ hc, if_neg hne]
  case groupLoad =>
    exact ⟨rfl, rfl, rfl, rfl, rfl, fun g t _ => A.entry_gtables late m kind inex g t, fun g h hh => A.cay_gtables late m kind inex g hh,
      rfl, rfl, rfl, rfl, rfl, rfl, rfl, rfl, rfl, fun k => NMap.getD_foldl_set_range _ _ _ _ _ _, rfl, rfl, rfl, rfl⟩
  case verdict =>
    intro E
    have hE : E = if st.getLsbD 0 then { A with chk := 1, krc := k, dev := d } else { A with chk := 2, dev := 0 } := rfl
    rw [hE]
    cases st.getLsbD 0 with
    | true => exact ⟨rfl, rfl, rfl, rfl, rfl, fun _ => ⟨rfl, rfl, rfl⟩, fun h => absurd h Bool.noConfusion⟩
    | false => exact ⟨rfl, rfl, rfl, rfl, rfl, fun h => absurd h Bool.noConfusion, fun _ => ⟨rfl, rfl, rfl⟩⟩
  case orb =>
    obtain ⟨fl, of', sat, heq⟩ := A.landOrb_one b nc fmt t x xs
    intro B
    have hB : B = _ := heq
    refine ⟨rfl, rfl, ?_⟩
    rw [hB]
    refine ⟨fun c hc => ?_, ?_, fun r hr => ⟨NMap.getD_set_other _ hr _ _, ?_⟩, rfl, rfl, rfl⟩
    · rw [Arr.row, NMap.getD_set_same, rowEl_mapRow _ _ _ hc]
    · rw [NMap.getD_erase, if_pos rfl]
    · rw [NMap.getD_erase, if_neg hr]

end Sys2Proof.Machine
end

section
/-! SUPPORT. The blocks and tests of XCKS and XFIX: legal blocks, the sets and counts of what fails (R272, R273). -/

namespace Sys2Proof.Machine

-- ## Blocks of rows (R273)

/-- The block words that R273 permits, field by field. -/
def BlockLegal (v : Word) : Prop :=
  v.toNat / 2 ^ 6 % 4 = 0 ∧ v.toNat / 2 ^ 14 = 0 ∧ v.toNat % 64 + (v.toNat / 2 ^ 8 % 64 + 1) ≤ 64

theorem blockOf_eq (v : Word) : blockOf v = (v.toNat % 64, v.toNat / 2 ^ 8 % 64 + 1) := by
  rw [blockOf, bits_low]
  rfl

theorem blockRows_eq (v : Word) : blockRows v = (List.range (v.toNat / 2 ^ 8 % 64 + 1)).map fun i => v.toNat % 64 + i := by
  rw [blockRows, blockOf_eq]

theorem blockRows_sorted (v : Word) : (blockRows v).Pairwise (· < ·) :=
  List.pairwise_map.2 (List.pairwise_lt_range.imp fun h => Nat.add_lt_add_left h _)

theorem blockReserved_eq_zero_iff (v : Word) : v &&& 0xFFFFFFFFFFFFC0C0 = 0 ↔ v.toNat / 2 ^ 6 % 4 = 0 ∧ v.toNat / 2 ^ 14 = 0 := by
  have hfields : (0xFFFFFFFFFFFFC0C0 : Word) = (BitVec.ofNat 64 (2 ^ 2 - 1) <<< 6) ||| (BitVec.ofNat 64 (2 ^ 50 - 1) <<< 14) := by decide
  have hhigh : v.toNat / 2 ^ 14 % 2 ^ 50 = 0 ↔ v.toNat / 2 ^ 14 = 0 := by
    have := v.isLt
    omega
  rw [hfields, BitVec.and_or_distrib_left, ← hhigh]
  exact BitVec.or_eq_zero_iff.trans
    (and_congr (and_field_eq_zero_iff v (k := 6) (w := 2) (by omega)) (and_field_eq_zero_iff v (k := 14) (w := 50) (by omega)))

theorem blockBad_eq_none_iff (v : Word) : blockBad v = none ↔ BlockLegal v := by
  rw [blockBad, check_eq_none_iff, check_eq_none_iff, blockOf_eq, not_not, blockReserved_eq_zero_iff, and_iff_left rfl, Nat.not_lt, and_comm,
    and_assoc]
  rfl

-- ## What fails (R272, R273)

/-- A test of a row or column: its number, whether it fails, its residue. -/
abbrev SumTest := Nat × Bool × Nat
/-- The set of the numbers that fail, as a mask. -/
def failSet (l : List SumTest) : Nat := (l.filter fun e => e.2.1).foldl (fun n e => n + 2 ^ e.1) 0
def failCount (l : List SumTest) : Nat := (l.filter fun e => e.2.1).length
/-- Tests of the numbers `ks`. -/
def testsOf (ks : List Nat) (fails : Nat → Bool) (res : Nat → Nat) : List SumTest := ks.map fun k => (k, fails k, res k)

section
variable (ks : List Nat) (fails : Nat → Bool) (res : Nat → Nat)

theorem filter_testsOf : ((testsOf ks fails res).filter fun e => e.2.1) = (ks.filter fails).map fun k => (k, fails k, res k) := by
  rw [testsOf, List.filter_map]
  rfl

theorem failCount_testsOf : failCount (testsOf ks fails res) = (ks.filter fails).length := by
  rw [failCount, filter_testsOf, List.length_map]

theorem residues_testsOf : ((testsOf ks fails res).map fun e => (e.1, e.2.2)) = ks.map fun k => (k, res k) := by
  rw [testsOf, List.map_map]
  rfl

end

/-- Powers of two in rising order add up to the number with those bits. -/
theorem testBit_foldl_two_pow {l : List Nat} (hl : l.Pairwise (· < ·)) {n : Nat} (hn : ∀ k ∈ l, n < 2 ^ k) (j : Nat) :
    (l.foldl (fun n k => n + 2 ^ k) n).testBit j = (n.testBit j || decide (j ∈ l)) := by
  induction l generalizing n with
  | nil => simp
  | cons k l ih =>
    obtain ⟨hk, hrest⟩ := List.pairwise_cons.1 hl
    have hlt : n < 2 ^ k := hn k List.mem_cons_self
    have hnext : ∀ e ∈ l, n + 2 ^ k < 2 ^ e := fun e he => calc
      n + 2 ^ k < 2 ^ (k + 1) := by rw [Nat.pow_succ]; omega
      _ ≤ 2 ^ e := Nat.pow_le_pow_right (by omega) (hk e he)
    have hor : n + 2 ^ k = 2 ^ k ||| n := by
      rw [Nat.add_comm, ← Nat.mul_one (2 ^ k), Nat.two_pow_add_eq_or_of_lt hlt]
    rw [List.foldl_cons, ih hrest hnext, hor, Nat.testBit_or, Nat.testBit_two_pow]
    simp only [List.mem_cons, Bool.decide_or, @eq_comm _ k j]
    cases n.testBit j <;> cases decide (j = k) <;> rfl

theorem testBit_failSet {ks : List Nat} (h : ks.Pairwise (· < ·)) (fails : Nat → Bool) (res : Nat → Nat) (j : Nat) :
    (failSet (testsOf ks fails res)).testBit j = decide (j ∈ ks.filter fails) := by
  rw [failSet, filter_testsOf, List.foldl_map]
  refine (testBit_foldl_two_pow (h.filter _) (fun k _ => Nat.two_pow_pos k) j).trans ?_
  rw [Nat.zero_testBit, Bool.false_or]

-- ## XCKS's verdict (R273)

section
variable (u : State) (tau : Num) (v : Word)

/-- An element of the array as an FP48 value. -/
def State.elAt (k c : Nat) : Num := fp48 (rowEl (u.curArr.row k) c)
def State.rowSum (k : Nat) : Num := sum48 ((List.range (mNc u.curPos.mode)).map fun c => u.elAt k c)
def State.rowPred (k : Nat) : Num := fp48 (NMap.getD u.curArr.rpred k 0)
def State.colSum (c : Nat) : Num := sum48 ((blockRows v).map fun k => u.elAt k c)
def State.colPred (c : Nat) : Num := fp48 (NMap.getD u.curPos.cpred c 0)
def State.allChecked : Bool := (blockRows v).all fun k => u.curPos.checked.getLsbD k
/-- A sum less its prediction, in FP48 (R273). -/
def residueOf (x p : Num) : Nat := (rnd48 (Num.add 0 x p.neg)).1
/-- What XCKS finds of the rows of a block, and of the columns. -/
def State.rowTests : List SumTest := testsOf (blockRows v)
  (fun k => sumFails tau (u.rowSum k) (u.rowPred k) || !u.curPos.checked.getLsbD k) fun k => residueOf (u.rowSum k) (u.rowPred k)
def State.colTests : List SumTest := testsOf (List.range (mNc u.curPos.mode))
  (fun c => sumFails tau (u.colSum v c) (u.colPred c) || !u.allChecked v) fun c => residueOf (u.colSum v c) (u.colPred c)

/-- The state in which XCKS has asked for its verdict and its status word (R273). -/
def State.judged (d : Code) (rs cs : List SumTest) (allck : Bool) : State :=
  (((u.modCurArr fun a => a.modPos u.curP fun q => { q with cpred := [], checked := 0 }).arrLater 10 (.busy u.curP)).arrLater 10
    (.verdict u.curP (BitVec.ofNat 64 (failSet rs)) (BitVec.ofNat 128 (failSet cs)) (rs.map fun e => (e.1, e.2.2))
      (cs.map fun e => (e.1, e.2.2)) (!allck))).putS (10 + u.heldFor) 0 d
    (BitVec.ofNat 64 (failCount rs + failCount cs * 2 ^ 8 + (if allck then 0 else 2 ^ 61) +
      (if decide (failCount rs + failCount cs ≠ 0) then 2 ^ 63 else 0)))

end

/-- Do all rows of a block belong to the position (R258)? -/
def State.ownsBlock (u : State) (v : Word) : Bool := (blockRows v).all fun k => u.curArr.owns u.curP k

theorem State.ownsBlock_iff {u : State} {v : Word} : u.ownsBlock v = true ↔
    (u.curArr.mode = 2 → ∀ k ∈ blockRows v, k / 32 = u.iss.core % 2) := by
  simp only [State.ownsBlock, List.all_eq_true, State.curP, Arr.owns_iff]
  exact ⟨fun h hm k hk => h k hk hm, fun h k hk hm => h hm k hk⟩

/-- XCKS on block word `v` with tolerance `t` (R273). -/
def State.xcks (u : State) (d : Code) (v : Word) (t : Nat) : Out3 :=
  if let some x := blockBad v then u.range 0 x
  else if tauBad t then u.range 0 (BitVec.ofNat 64 t)
  else if !mCk u.curPos.mode then u.range 0 0
  else if !u.ownsBlock v then u.windowMiss
  else .next (u.judged d (u.rowTests (decodeBin 23 t) v) (u.colTests (decodeBin 23 t) v) (u.allChecked v))

theorem exec_xcks (g : Guard) (d a b : Code) (s : State) : exec (.xcks g d a b) s =
    xop (.xcks g d a b) false false [] s fun u => u.xcks d (u.rdS a) ((u.rdS b).toNat % 2 ^ 32) := rfl

section
variable (u : State) (d : Code) (v : Word) (t : Nat)

theorem State.xcks_range (h : tauBad t = true ∨ blockBad v ≠ none ∨ mCk u.curPos.mode = false) :
    ∃ w0 w1, u.xcks d v t = u.raise fLAYRANGE w0 w1 := by
  unfold State.xcks
  cases hblk : blockBad v with
  | some x => exact u.range_raises _ _
  | none =>
    cases htau : tauBad t with
    | true => exact u.range_raises _ _
    | false =>
      have hck : mCk u.curPos.mode = false := by simpa [hblk, htau] using h
      rw [hck]
      exact u.range_raises _ _

variable {v t} (hblk : blockBad v = none) (htau : tauBad t = false) (hck : mCk u.curPos.mode = true)
include hblk htau hck

theorem State.xcks_miss (h : u.ownsBlock v = false) : u.xcks d v t = u.windowMiss := by
  rw [State.xcks, hblk, htau, hck, h]
  rfl

theorem State.xcks_judges (h : u.ownsBlock v = true) :
    u.xcks d v t = .next (u.judged d (u.rowTests (decodeBin 23 t) v) (u.colTests (decodeBin 23 t) v) (u.allChecked v)) := by
  rw [State.xcks, hblk, htau, hck, h]
  rfl

end

end Sys2Proof.Machine
end

section
/-! SUPPORT. What XCKS and XFIX ask of the array, and the landing of a correction (R268, R273, R274). -/

namespace Sys2Proof.Machine

-- ## XCKS's request (R273)

section
variable (u : State) (d : Code) (rs cs : List SumTest) (allck : Bool)

theorem State.judged_arr : (u.judged d rs cs allck).arr (pairOf u.iss.core) =
    { u.curArr.modPos u.curP fun q => { q with cpred := [], checked := 0 } with
      flight := u.curArr.flight ++ [⟨u.curArr.clk + 10, u.curArr.clk, .busy u.curP⟩] ++ [⟨u.curArr.clk + 10, u.curArr.clk,
        .verdict u.curP (BitVec.ofNat 64 (failSet rs)) (BitVec.ofNat 128 (failSet cs)) (rs.map fun e => (e.1, e.2.2))
          (cs.map fun e => (e.1, e.2.2)) (!allck)⟩] } := by
  have harr (n m : Nat) (e f : AEff) (g : Arr → Arr) : (((u.modCurArr g).arrLater n e).arrLater m f).curArr = { g u.curArr with
      flight := (g u.curArr).flight ++ [⟨(g u.curArr).clk + n, (g u.curArr).clk, e⟩] ++ [⟨(g u.curArr).clk + m, (g u.curArr).clk, f⟩] } := by
    rw [State.curArr_arrLater, State.curArr_arrLater, State.curArr_modCurArr]
  refine (harr 10 10 _ _ _).trans ?_
  rw [Arr.modPos_of _ _ _ Arr.clk fun _ _ _ => rfl, Arr.modPos_of _ _ _ Arr.flight fun _ _ _ => rfl]

theorem State.judged_pos : ((u.judged d rs cs allck).arr (pairOf u.iss.core)).pos u.curP = { u.curPos with cpred := [], checked := 0 } := by
  rw [State.judged_arr]
  exact u.curArr.pos_modPos u.curP _

theorem State.judged_verdict : ∃ f ∈ ((u.judged d rs cs allck).arr (pairOf u.iss.core)).flight, f.due = u.curArr.clk + 10 ∧
    f.eff = .verdict u.curP (BitVec.ofNat 64 (failSet rs)) (BitVec.ofNat 128 (failSet cs)) (rs.map fun e => (e.1, e.2.2))
      (cs.map fun e => (e.1, e.2.2)) (!allck) := by
  rw [State.judged_arr]
  exact ⟨_, List.mem_append_right _ (List.mem_singleton_self _), rfl, rfl⟩

theorem State.judged_lands : ∃ f ∈ (u.judged d rs cs allck).cur.flight, f.due = u.cur.clk + (10 + u.heldFor) ∧ f.causes = 0 ∧
    f.eff = .sreg (u.dstS d) (BitVec.ofNat 64 (failCount rs + failCount cs * 2 ^ 8 + (if allck then 0 else 2 ^ 61) +
      (if decide (failCount rs + failCount cs ≠ 0) then 2 ^ 63 else 0))) := by
  rw [State.judged, State.putS, State.cur_later]
  exact ⟨_, List.mem_append_right _ (List.mem_singleton_self _), rfl, rfl, rfl⟩

end

-- ## XFIX (R274)

/-- XFIX once its block is legal and owned, with the failing rows and columns (R274). -/
def State.fixOf (u : State) (d : Code) (fr fc : List Nat) : Out3 :=
  let n := fr.length + fc.length * 2 ^ 8
  if u.curPos.ux || decide (2 ≤ fr.length * fc.length) then u.raise fCHECKSUM (BitVec.ofNat 64 n) 0
  else
    let s1 := u.arrLater 10 (.busy u.curP)
    match fr, fc with
    | [], [] => .next (s1.putS (10 + u.heldFor) 0 d 0)
    | [k], [c] =>
      .next ((s1.arrLater 10 (.fix u.curP (some { row := k, col := c, pre := rowEl (u.curArr.row k) c }))).putS (10 + u.heldFor) 0 d
        (BitVec.ofNat 64 (c * 2 ^ 8 + k + 2 ^ 63)))
    | _, _ => .next ((s1.arrLater 10 (.fix u.curP none)).putS (10 + u.heldFor) 0 d (BitVec.ofNat 64 (n + 2 ^ 62)))

/-- The rows of a block and the columns that the position's verdict holds (R273). -/
def State.failedRows (u : State) (v : Word) : List Nat := (blockRows v).filter fun k => u.curPos.fr.getLsbD k
def State.failedCols (u : State) : List Nat := (List.range 128).filter fun c => u.curPos.fc.getLsbD c

/-- XFIX on block word `v` (R274). -/
def State.xfix (u : State) (d : Code) (v : Word) : Out3 :=
  if let some x := blockBad v then u.range 0 x
  else if !mCk u.curPos.mode then u.range 0 0
  else if !u.ownsBlock v then u.windowMiss
  else u.fixOf d (u.failedRows v) u.failedCols

theorem exec_xfix (g : Guard) (d a : Code) (s : State) : exec (.xfix g d a) s =
    xop (.xfix g d a) false false [] s fun u => u.xfix d (u.rdS a) := rfl

section
variable (u : State) (d : Code)

theorem State.xfix_range {v : Word} (h : blockBad v ≠ none ∨ mCk u.curPos.mode = false) : ∃ w0 w1, u.xfix d v = u.raise fLAYRANGE w0 w1 := by
  unfold State.xfix
  cases hblk : blockBad v with
  | some x => exact u.range_raises _ _
  | none =>
    have hck : mCk u.curPos.mode = false := by simpa [hblk] using h
    rw [hck]
    exact u.range_raises _ _

theorem State.xfix_goes {v : Word} (hblk : blockBad v = none) (hck : mCk u.curPos.mode = true) (h : u.ownsBlock v = true) :
    u.xfix d v = u.fixOf d (u.failedRows v) u.failedCols := by
  rw [State.xfix, hblk, hck, h]
  rfl

theorem State.fixOf_several {fr fc : List Nat} (h : u.curPos.ux = true ∨ 2 ≤ fr.length * fc.length) :
    ∃ w0 w1, u.fixOf d fr fc = u.raise fCHECKSUM w0 w1 :=
  ⟨_, _, if_pos (by rwa [Bool.or_eq_true, decide_eq_true_eq])⟩

variable (hux : u.curPos.ux = false)
include hux

theorem State.fixOf_nothing : u.fixOf d [] [] = .next ((u.arrLater 10 (.busy u.curP)).putS (10 + u.heldFor) 0 d 0) := by
  rw [State.fixOf, hux]
  rfl

theorem State.fixOf_element (k c : Nat) : u.fixOf d [k] [c] = .next (((u.arrLater 10 (.busy u.curP)).arrLater 10
    (.fix u.curP (some { row := k, col := c, pre := rowEl (u.curArr.row k) c }))).putS (10 + u.heldFor) 0 d
      (BitVec.ofNat 64 (c * 2 ^ 8 + k + 2 ^ 63))) := by
  rw [State.fixOf, hux]
  rfl

/-- Failing rows without a column, or columns without a row, are cleared and counted (R274). -/
theorem State.fixOf_onesided {fr fc : List Nat} (h : (fr = [] ∧ fc ≠ []) ∨ (fr ≠ [] ∧ fc = [])) : u.fixOf d fr fc =
    .next (((u.arrLater 10 (.busy u.curP)).arrLater 10 (.fix u.curP none)).putS (10 + u.heldFor) 0 d
      (BitVec.ofNat 64 (fr.length + fc.length * 2 ^ 8 + 2 ^ 62))) := by
  rw [State.fixOf, hux]
  rcases h with ⟨rfl, h⟩ | ⟨h, rfl⟩
  · obtain ⟨c, cs, rfl⟩ := List.exists_cons_of_ne_nil h
    rw [List.length_nil, Nat.zero_mul]
    rfl
  · obtain ⟨k, ks, rfl⟩ := List.exists_cons_of_ne_nil h
    rw [List.length_nil, Nat.mul_zero]
    cases ks <;> rfl

end

-- ## A correction lands (R274)

theorem FixAt.kept_one {x : FixAt} {k : Late} (h : x.late = [k]) (newer : Nat → Bool) : x.kept newer = if newer 0 then [k] else [] := by
  rw [FixAt.kept, h]
  cases hn : newer 0 <;> simp [hn]

/-- A correction changes its element and the position's sets (R274). -/
theorem Arr.land_fix (a : Arr) (newer : Nat → Bool) (p : Nat) (x : FixAt) : ∃ fl, a.land newer (.fix p (some x)) =
    { a.modPos p fun q => { q with fr := 0, fc := 0 } with
      flight := fl
      rows := NMap.set a.rows x.row (setRowEl (a.row x.row) x.col ((x.kept newer).foldl (fun v k => k.addTo v)
        (rnd48 (Num.add 0 (fp48 x.pre) (fp48 (NMap.getD (a.pos p).cres x.col 0)).neg)).1)) } := by
  have hpos := a.pos_modPos p fun q => { q with fr := 0, fc := 0 }
  rw [Arr.land]
  dsimp only
  rw [Arr.landFix, hpos, Arr.row_modPos, Arr.modPos_of _ _ _ Arr.rows fun _ _ _ => rfl]
  exact ⟨_, rfl⟩

end Sys2Proof.Machine
end

section
/-! SUPPORT. XCKS and XFIX, statement by statement (R272 to R274). -/

namespace Sys2Proof.Machine

/-- Settles O33: the checks of both in their order, the verdict as the tests of R272, and the correction that lands. -/
theorem checksumVerdicts : Obligations.ChecksumVerdicts := by
  intro s g d a b me pair A q inside compute block legal mine
  refine ⟨fun h hc hin => ?xcks, fun h hc hin => ?xfix, fun B late p x hx => ?lands⟩
  case xcks =>
    intro u v t tau fits
    have hq : u.curPos = q := s.entered_curPos _
    have harr : u.curArr = A := s.entered_curArr _
    have hrows : blockRows v = block v := blockRows_eq v
    have hfits : tauBad t = false ↔ fits := tauBad_eq_false_iff t
    have hlegal : blockBad v = none ↔ legal v := blockBad_eq_none_iff v
    have hmine : u.ownsBlock v = true ↔ mine v := by
      rw [State.ownsBlock_iff, harr, hrows, State.entered_iss]
    rw [exec_xcks, xop_inside h hc rfl rfl (State.windowOk_nil_iff.2 hin), ← hfits, ← hlegal, ← hmine, ← hq]
    refine ⟨fun hbad => u.xcks_range d v t ?_, fun ht hb hck hm => ?_, fun ht hb hck hm => ?_⟩
    · rwa [Bool.not_eq_false] at hbad
    · rw [State.xcks_miss u d hb ht hck (Bool.eq_false_iff.2 hm)]
      exact u.windowMiss_raises
    · intro nc el unchecked fr fc
      have hpair : pairOf u.iss.core = pair := by rw [State.entered_iss]
      have hme : u.curP = me := s.entered_curP _
      have hunchecked : (!u.allChecked v) = unchecked := by rw [State.allChecked, List.not_all_eq_any_not, hrows]
      have hrowSum (k : Nat) : u.rowSum k = sum48 ((List.range nc).map fun c => el k c) := by
        simp only [State.rowSum, State.elAt, harr]
        rfl
      have hcolSum (c : Nat) : u.colSum v c = sum48 ((block v).map fun k => el k c) := by
        simp only [State.colSum, State.elAt, harr, hrows]
        rfl
      have hrowPred (k : Nat) : u.rowPred k = fp48 (NMap.getD A.rpred k 0) := by rw [State.rowPred, harr]
      have hrowTests : u.rowTests tau v = testsOf (block v) (fun k => !u.curPos.checked.getLsbD k ||
          sumFails tau (sum48 ((List.range nc).map fun c => el k c)) (fp48 (NMap.getD A.rpred k 0)))
          fun k => residueOf (sum48 ((List.range nc).map fun c => el k c)) (fp48 (NMap.getD A.rpred k 0)) := by
        rw [State.rowTests, hrows]
        simp only [hrowSum, hrowPred, Bool.or_comm (sumFails _ _ _)]
      have hcolTests : u.colTests tau v = testsOf (List.range nc) (fun c => unchecked ||
          sumFails tau (sum48 ((block v).map fun k => el k c)) (u.colPred c))
          fun c => residueOf (sum48 ((block v).map fun k => el k c)) (u.colPred c) := by
        rw [State.colTests, hunchecked]
        simp only [hcolSum, Bool.or_comm (sumFails _ _ _)]
        rfl
      have hsorted : (block v).Pairwise (· < ·) := hrows ▸ blockRows_sorted v
      rw [← hpair, ← hme]
      refine ⟨_, State.xcks_judges u d hb ht hck hm, ?_, ?_, ?_, ?_⟩
      · obtain ⟨f, hf, hdue, hcauses, heff⟩ := u.judged_lands d (u.rowTests tau v) (u.colTests tau v) (u.allChecked v)
        refine ⟨f, hf, hdue, hcauses, heff.trans ?_⟩
        have hall : (if u.allChecked v then 0 else 2 ^ 61) = if unchecked then 2 ^ 61 else 0 := by
          rw [← hunchecked]
          cases u.allChecked v <;> rfl
        have hany : (if decide (fr.length + fc.length ≠ 0) then 2 ^ 63 else 0) = if fr = [] ∧ fc = [] then 0 else 2 ^ 63 := by
          simp only [decide_eq_true_eq, ne_eq, Nat.add_eq_zero_iff, List.length_eq_zero_iff, ite_not]
        rw [hrowTests, hcolTests, failCount_testsOf, failCount_testsOf, hall]
        exact congrArg (fun n => Eff.sreg _ (BitVec.ofNat 64 (fr.length + fc.length * 2 ^ 8 + (if unchecked then 2 ^ 61 else 0) + n))) hany
      · rw [State.judged_pos]
      · rw [State.judged_pos]
      · obtain ⟨f, hf, hdue, heff⟩ := u.judged_verdict d (u.rowTests tau v) (u.colTests tau v) (u.allChecked v)
        refine ⟨f, hf, harr ▸ hdue, BitVec.ofNat 64 (failSet (u.rowTests tau v)), BitVec.ofNat 128 (failSet (u.colTests tau v)),
          heff.trans ?_, fun k hk => ?_, fun c hc => ?_⟩
        · rw [hunchecked, hrowTests, hcolTests, residues_testsOf, residues_testsOf]
          rfl
        · rw [hrowTests, BitVec.getLsbD_ofNat, decide_eq_true hk, testBit_failSet hsorted]
          rfl
        · rw [hcolTests, BitVec.getLsbD_ofNat, decide_eq_true hc, testBit_failSet List.pairwise_lt_range]
          rfl
  case xfix =>
    intro u v fr fc counts
    have hq : u.curPos = q := s.entered_curPos _
    have harr : u.curArr = A := s.entered_curArr _
    have hme : u.curP = me := s.entered_curP _
    have hrows : blockRows v = block v := blockRows_eq v
    have hlegal : blockBad v = none ↔ legal v := blockBad_eq_none_iff v
    have hmine : u.ownsBlock v = true ↔ mine v := by
      rw [State.ownsBlock_iff, harr, hrows, State.entered_iss]
    have hfr : u.failedRows v = fr := by rw [State.failedRows, hrows, hq]
    have hfc : u.failedCols = fc := by rw [State.failedCols, hq]
    rw [exec_xfix, xop_inside h hc rfl rfl (State.windowOk_nil_iff.2 hin), ← hlegal, ← hmine, ← hq, ← hme, ← harr]
    refine ⟨fun hbad => u.xfix_range d hbad, fun hb hck hm => ?_⟩
    rw [State.xfix_goes u d hb hck hm, hfr, hfc]
    refine ⟨u.fixOf_several d, fun hux hr hcol => ?_, fun k c hux hr hcol => ?_, fun hux => u.fixOf_onesided d hux⟩
    · rw [hr, hcol, State.fixOf_nothing u d hux]
    · rw [hr, hcol, State.fixOf_element u d hux]
  case lands =>
    intro C v
    obtain ⟨fl, hC⟩ := B.land_fix late p x
    have hfix : C = _ := hC
    have hrow : C.row x.row = setRowEl (B.row x.row) x.col ((x.kept late).foldl (fun v k => k.addTo v) v) := by
      rw [hfix]
      exact NMap.getD_set_same _ _ _ _
    have hpos : C.pos p = { B.pos p with fr := 0, fc := 0 } := by
      rw [hfix]
      exact B.pos_modPos p _
    refine ⟨fun hl => ?_, fun k hl => ?_, fun c hc hne => ?_, fun k hk => ?_, ?_, ?_⟩
    · rw [hrow, rowEl_setRowEl _ _ _ hx, if_pos rfl, FixAt.kept, hl]
      rfl
    · rw [hrow, rowEl_setRowEl _ _ _ hx, if_pos rfl, FixAt.kept_one hl]
      cases late 0 <;> rfl
    · rw [hrow, rowEl_setRowEl _ _ _ hc, if_neg hne]
    · rw [hfix]
      exact NMap.getD_set_other _ hk _ _
    · rw [hpos]
    · rw [hpos]

end Sys2Proof.Machine
end

section
/-! SUPPORT. What a beat asks of the array: contributions, pops, weights, swaps, and the drain of a row (R263 to R267, R270, R272, R276). -/

namespace Sys2Proof.Machine

-- ## Effects asked one after another

/-- An effect that the core in issue asks of its array now, to land `n` array cycles on (R270). -/
def State.flightOf (u : State) (n : Nat) (e : AEff) : AFlight := ⟨u.curArr.clk + n, u.curArr.clk, e⟩

/-- `t` is `u` with the effects `fs` asked of the array: beside their list, only the time of a residue beat may have changed (R270, R276). -/
def Asked (u t : State) (fs : List AFlight) : Prop := t.cores = u.cores ∧ t.iss = u.iss ∧ ∃ l0 l1, t.curArr = { u.curArr with
  flight := u.curArr.flight ++ fs, p0 := { u.curArr.p0 with lastRes := l0 }, p1 := { u.curArr.p1 with lastRes := l1 } }

theorem Asked.refl (u : State) : Asked u u [] := ⟨rfl, rfl, _, _, by rw [List.append_nil]⟩

theorem Asked.later (u : State) (n : Nat) (e : AEff) : Asked u (u.arrLater n e) [u.flightOf n e] := ⟨rfl, rfl, _, _, u.curArr_arrLater n e⟩

theorem Asked.trans {u t v : State} {fs gs : List AFlight} (h : Asked u t fs) (k : Asked t v gs) : Asked u v (fs ++ gs) := by
  obtain ⟨hcores, hiss, l0, l1, harr⟩ := h
  obtain ⟨kcores, kiss, m0, m1, karr⟩ := k
  exact ⟨kcores.trans hcores, kiss.trans hiss, m0, m1, by rw [karr, harr, List.append_assoc]⟩

section
variable {u t : State} {fs : List AFlight} (h : Asked u t fs)
include h

theorem Asked.curP : t.curP = u.curP := by
  obtain ⟨-, hiss, -⟩ := h
  rw [State.curP, hiss, State.curP]

theorem Asked.flightOf (n : Nat) (e : AEff) : t.flightOf n e = u.flightOf n e := by
  obtain ⟨-, -, l0, l1, harr⟩ := h
  rw [State.flightOf, harr, State.flightOf]

theorem Asked.curPos : ∃ l, t.curPos = { u.curPos with lastRes := l } := by
  obtain ⟨-, hiss, l0, l1, harr⟩ := h
  rw [State.curPos, harr, hiss, State.curPos]
  unfold Arr.pos
  split
  · exact ⟨l0, rfl⟩
  · exact ⟨l1, rfl⟩

theorem Asked.cur : t.cur = u.cur := by
  obtain ⟨hcores, hiss, -⟩ := h
  simp only [State.cur, State.ctx, State.core, hcores, hiss]

theorem Asked.issuePos : ∃ l, t.issuePos = { u.issuePos with lastRes := l } := by
  have hcur := h.curPos
  obtain ⟨hcores, hiss, -⟩ := h
  have hcore : t.curCore = u.curCore := by simp only [State.curCore, State.core, hcores, hiss]
  rw [State.issuePos, State.issueArr, hcore, State.issuePos, State.issueArr]
  cases u.curCore.first with
  | none => exact hcur
  | some b =>
    rw [hiss]
    exact ⟨_, rfl⟩

theorem Asked.flight : (t.arr (pairOf u.iss.core)).flight = (u.arr (pairOf u.iss.core)).flight ++ fs := by
  obtain ⟨-, hiss, l0, l1, harr⟩ := h
  rw [← hiss]
  exact (congrArg Arr.flight harr).trans (by rw [hiss]; rfl)

end

/-- The time of a residue beat is none of what is asked (R276). -/
theorem Asked.residueBeat (u : State) : Asked u (u.modCurArr fun a => a.modPos u.curP fun q => { q with lastRes := some a.clk }) [] := by
  refine ⟨rfl, rfl, ?_⟩
  rw [State.curArr_modCurArr, List.append_nil]
  unfold Arr.modPos
  split <;> exact ⟨_, _, rfl⟩

-- ## Contributions and weights (R263 to R265)

/-- The contribution of FIFO entry `e` to `row` (R264, R270, R272). -/
def State.contribution (u : State) (row : Nat) (shift : Bool) (e : Vec) : AFlight :=
  let q := u.curPos
  let m := q.mode
  let sums := colSums (mFmt m) (mKr m) (mNc m) q.mod e q.act
  u.flightOf (contribLat (mFmt m) (mKr m) (mNc m)) (.contrib u.curP row shift (mFmt m) (mNc m) q.mod sums.1 sums.2
    (if mCk m && u.iss.c then some (rowPredict (mFmt m) (mKr m) e q.act) else none) q.act.tag)

theorem Asked.contribute (u : State) (row : Nat) (shift : Bool) (e : Vec) : Asked u (u.contribute row shift e) [u.contribution row shift e] :=
  Asked.later u _ _

theorem Asked.contribution {u t : State} {fs : List AFlight} (h : Asked u t fs) (row : Nat) (shift : Bool) (e : Vec) :
    t.contribution row shift e = u.contribution row shift e := by
  obtain ⟨l, hpos⟩ := h.curPos
  have hiss : t.iss = u.iss := h.2.1
  rw [State.contribution, hpos, hiss, h.curP, h.flightOf]
  rfl

/-- Contributions one after another, each from the same planes (R265). -/
theorem Asked.contributions (u : State) (row : Nat → Nat) (shift : Bool) (e : Nat → Vec) (n : Nat) :
    Asked u ((List.range n).foldl (fun t j => t.contribute (row j) shift (e j)) u)
      ((List.range n).map fun j => u.contribution (row j) shift (e j)) := by
  induction n with
  | zero => exact Asked.refl u
  | succ n ih =>
    rw [List.range_succ, List.foldl_append, List.map_append]
    refine ih.trans ?_
    rw [List.map_singleton, ← ih.contribution]
    exact Asked.contribute _ _ _ _

/-- What the weight action of a beat asks (R263, R269, R287). -/
def State.weights (u : State) (w : BitVec 2) (base : Nat) : List AFlight :=
  let q := u.curPos
  let shadow := fun (v : Vec) (tag : Nat) =>
    u.flightOf 1 (.shadow u.curP q.srp v (rowSum32 (mFmt q.mode) v (mNc q.mode)) tag (mKr q.mode))
  if w = 1 then [u.flightOf 1 (.popB u.curP), shadow (u.issuePos.fb.q.headD (0, 0)).2 0]
  else if w = 2 then [shadow (u.curArr.routed (mFmt q.mode) q.sel base q.srp) q.sel]
  else []

theorem Asked.weights {u t : State} {fs : List AFlight} (h : Asked u t fs) (w : BitVec 2) (base : Nat) : t.weights w base = u.weights w base := by
  obtain ⟨l, hpos⟩ := h.curPos
  obtain ⟨m, hfirst⟩ := h.issuePos
  have hrouted (fmt g t' : Nat) : t.curArr.routed fmt g base t' = u.curArr.routed fmt g base t' := by
    obtain ⟨-, -, l0, l1, harr⟩ := h
    rw [harr]
    rfl
  simp only [State.weights, hpos, hfirst, hrouted, h.curP, h.flightOf]

theorem Asked.pushWeight (u : State) (w : BitVec 2) (base : Nat) : Asked u (u.pushWeight w base) (u.weights w base) := by
  rw [State.pushWeight, State.weights]
  dsimp only
  by_cases h1 : w = 1
  · rw [if_pos h1, if_pos h1]
    have hpop := Asked.later u 1 (.popB u.curP)
    obtain ⟨l, hfirst⟩ := hpop.issuePos
    refine hpop.trans ?_
    rw [hfirst, ← hpop.flightOf, ← hpop.curP]
    exact Asked.later _ _ _
  · rw [if_neg h1, if_neg h1]
    by_cases h2 : w = 2
    · rw [if_pos h2, if_pos h2]
      exact Asked.later u _ _
    · rw [if_neg h2, if_neg h2]
      exact Asked.refl u

-- ## Streams, and a beat as a whole (R262, R264)

/-- The contributions and the pop of a stream beat (R264, R265, R276). -/
def State.streamed (u : State) (st : BitVec 2) (r : Code) : State :=
  let s1 := (List.range u.beatNeeds).foldl (fun t j => t.contribute (r.toNat + j) (decide (st = 1)) (u.issuePos.fa.q.getD j (0, 0)).2) u
  let s2 := s1.arrLater 1 (.popA u.curP u.beatNeeds)
  if mFmt u.curPos.mode = 5 then s2.modCurArr fun a => a.modPos u.curP fun q => { q with lastRes := some a.clk } else s2

theorem Asked.streamed (u : State) (st : BitVec 2) (r : Code) : Asked u (u.streamed st r)
    (((List.range u.beatNeeds).map fun j => u.contribution (r.toNat + j) (decide (st = 1)) (u.issuePos.fa.q.getD j (0, 0)).2) ++
      [u.flightOf 1 (.popA u.curP u.beatNeeds)]) := by
  have hcontrib := Asked.contributions u (r.toNat + ·) (decide (st = 1)) (fun j => (u.issuePos.fa.q.getD j (0, 0)).2) u.beatNeeds
  have hpop := hcontrib.trans (Asked.later _ 1 (.popA u.curP u.beatNeeds))
  rw [hcontrib.flightOf] at hpop
  unfold State.streamed
  dsimp only
  split
  · have hbeat := hpop.trans (Asked.residueBeat _)
    rw [hpop.curP, List.append_nil] at hbeat
    exact hbeat
  · exact hpop

/-- The stream action of a beat (R262). -/
def State.acted (u : State) (st : BitVec 2) (r : Code) (ty : Nat) (d : Code) : State :=
  if st = 1 ∨ st = 2 then u.streamed st r else if st = 3 then u.drainRow r.toNat ty d else u
/-- What swapping the planes asks (R263). -/
def State.swaps (u : State) (p : BitVec 1) : List AFlight := if p = 1 then [u.flightOf 1 (.swap u.curP)] else []
/-- The state in which a beat has asked all it asks: stream action, weight action, swap (R262). -/
def State.beaten (u : State) (st w : BitVec 2) (p : BitVec 1) (r : Code) (o : BitVec 12) (ty : Nat) (d : Code) : State :=
  let s2 := (u.acted st r ty d).pushWeight w (if st = 3 then o.toNat / 64 else o.toNat)
  if p = 1 then s2.arrLater 1 (.swap u.curP) else s2

/-- After the stream action a beat asks its weights and its swap (R262, R263). -/
theorem Asked.beaten {u u' : State} {st : BitVec 2} {r : Code} {ty : Nat} {d : Code} {fs : List AFlight} (h : Asked u' (u.acted st r ty d) fs)
    (hP : u'.curP = u.curP) (w : BitVec 2) (p : BitVec 1) (o : BitVec 12) : Asked u' (u.beaten st w p r o ty d)
      (fs ++ u'.weights w (if st = 3 then o.toNat / 64 else o.toNat) ++ u'.swaps p) := by
  have hweights := h.trans (Asked.pushWeight _ w (if st = 3 then o.toNat / 64 else o.toNat))
  rw [h.weights] at hweights
  rw [State.beaten, State.swaps]
  split
  · rw [← hweights.flightOf, hP]
    exact hweights.trans (Asked.later _ _ _)
  · rw [List.append_nil]
    exact hweights

-- ## Drains (R267, R272, R294)

section
variable (u : State) (r ty : Nat)

/-- The row's sticky bits as causes (R267; log 92). -/
def State.drainSticky : Causes := causeIf (u.curArr.of_.getLsbD r) cOF ||| causeIf (u.curArr.sat_.getLsbD r) cSAT
/-- The row's elements, each converted once (R267). -/
def State.drainOuts := (List.range (mNc u.curPos.mode)).map fun c =>
  encodeTy ty (u.rm 0) u.ftz (accNum (mFmt u.curPos.mode) (rowEl (u.curArr.row r) c))
def State.drainCauses : Causes :=
  if mFmt u.curPos.mode = 5 then u.drainSticky r ||| causeIf (decide (u.curPos.mod = 0)) cBADMOD
  else (u.drainOuts r ty).foldl (fun c o => c ||| o.causes) (u.drainSticky r)
def State.drainVec : Vec :=
  if mFmt u.curPos.mode = 5 then
    ofResidues fun c => if c < mNc u.curPos.mode ∧ u.curPos.mod ≠ 0 then rowEl (u.curArr.row r) c % u.curPos.mod else 0
  else ofLanesN fun c => ((u.drainOuts r ty).getD c ⟨0, 0, 0⟩).bits

/-- A drain's result is in flight, and its row's coordinate is asked for LDC (R267, R294). -/
theorem Asked.drainRow (d : Code) : ∃ rest, Asked (u.putV (4 + u.heldFor) (u.drainCauses r ty) d (u.drainVec r ty)) (u.drainRow r ty d)
    ([u.flightOf 4 (.busy u.curP), u.flightOf 1 (.ldc u.curP (NMap.getD u.curArr.coord r 0))] ++ rest) := by
  let u' := u.putV (4 + u.heldFor) (u.drainCauses r ty) d (u.drainVec r ty)
  have hldc : Asked u' ((u'.arrLater 4 (.busy u.curP)).arrLater 1 (.ldc u.curP (NMap.getD u.curArr.coord r 0)))
      [u.flightOf 4 (.busy u.curP), u.flightOf 1 (.ldc u.curP (NMap.getD u.curArr.coord r 0))] := by
    have hbusy := Asked.later u' 4 (.busy u.curP)
    have := hbusy.trans (Asked.later _ 1 (.ldc u.curP (NMap.getD u.curArr.coord r 0)))
    rwa [hbusy.flightOf] at this
  unfold State.drainRow
  dsimp only
  split
  · split
    · exact ⟨_, hldc.trans (Asked.later _ _ _)⟩
    · exact ⟨[], hldc⟩
  · exact ⟨[], hldc⟩

end

end Sys2Proof.Machine
end

section
/-! SUPPORT. XBEAT: its checks in their order, and what is asked where they pass (R258, R262 to R267, R276). -/

namespace Sys2Proof.Machine

/-- A residue stream beat of the position lies less than 4 array cycles back (R276). -/
def State.beatsClose (s : State) (st : BitVec 2) : Bool :=
  decide (st ≠ 0) && (match s.curPos.lastRes with | some t => decide (s.curArr.clk < t + 4) | none => false)

/-- A beat inside its window: its faults in their order, and the state in which it has asked all it asks (R262 to R269). -/
def State.beat (u : State) (st w : BitVec 2) (p : BitVec 1) (r : Code) (o : BitVec 12) (x : Ext) : Out3 :=
  if (st = 1 ∨ st = 2) ∧ twoMacs (mFmt u.curPos.mode) = true ∧ r.toNat % 2 = 1 then u.range 0 (r.setWidth 64)
  else if st = 3 ∧ ((mFmt u.curPos.mode = 5) ≠ (bits x.byte.toNat 2 0 = 5)) then u.range 0 (BitVec.ofNat 64 (bits x.byte.toNat 2 0))
  else if (st = 1 ∨ st = 2) ∧ u.issuePos.fa.q.length < u.beatNeeds then u.raise fTIMING 0 0
  else if w = 1 ∧ u.issuePos.fb.q.length < 1 then u.raise fTIMING 0x100 0
  else .next (u.beaten st w p r o (bits x.byte.toNat 2 0) (o.extractLsb' 0 6))

section
variable {s : State} {g : Guard} {st w : BitVec 2} {p : BitVec 1} {r : Code} {o : BitVec 12} {x : Ext}

theorem exec_xbeat : exec (.xbeat g st w p r o x) s =
    xop (.xbeat g st w p r o x) (s.beatsClose st) false (s.beatRows st r) s fun u => u.beat st w p r o x := rfl

theorem State.beatsClose_eq_false_iff :
    s.beatsClose st = false ↔ st = 0 ∨ ∀ t, s.curPos.lastRes = some t → t + 4 ≤ s.curArr.clk := by
  rw [State.beatsClose]
  cases s.curPos.lastRes <;> simp [Decidable.or_iff_not_imp_left]

theorem State.beatNeeds_eq : s.beatNeeds = if mFmt s.curPos.mode = 2 ∨ mFmt s.curPos.mode = 3 then 2 else 1 := by
  simp only [State.beatNeeds, twoMacs, decide_eq_true_eq]

/-- Only a stream of MK8 or INT8 names two rows (R265). -/
theorem State.beatRows_eq : s.beatRows st r = if st = 0 then []
    else if (st = 1 ∨ st = 2) ∧ (mFmt s.curPos.mode = 2 ∨ mFmt s.curPos.mode = 3) then [r.toNat, r.toNat + 1] else [r.toNat] := by
  have hstream (h : st ≠ 0) : st ≠ 3 ↔ st = 1 ∨ st = 2 := by revert st; decide
  rw [State.beatRows]
  split
  · rfl
  next h => simp only [twoMacs, Bool.and_eq_true, decide_eq_true_eq, hstream h]

/-- A beat goes ahead where its position holds the array and, in shared mode, the cycle and the rows are the position's own (R258). -/
theorem State.windowOk_iff_mine {rows : List Nat} : s.windowOk rows = true ↔
    (s.curArr.mode = 2 ∨ s.curArr.mode = s.iss.core % 2) ∧ (s.curArr.mode = 2 →
      s.curArr.acyc % (2 * 2 ^ s.curArr.wsz) / 2 ^ s.curArr.wsz = s.iss.core % 2 ∧ ∀ k ∈ rows, k / 32 = s.iss.core % 2) := by
  rw [State.windowOk_iff, Arr.Inside]
  grind

/-- A position's FIFOs in a bundle's first issue cycle (R262). -/
theorem State.issuePos_eq (s : State) : s.issuePos =
    match s.curCore.first with | some b => b.arr.pos (s.iss.core % 2) | none => s.curArr.pos (s.iss.core % 2) := by
  rw [State.issuePos, State.issueArr]
  cases s.curCore.first <;> rfl

end

-- ## The checks of a beat

/-- A stream names an even row where it takes two entries (R265). -/
def State.RowFits (u : State) (r : Code) : Prop := mFmt u.curPos.mode = 2 ∨ mFmt u.curPos.mode = 3 → r.toNat % 2 = 0
/-- A drain's type code is U64 exactly where the mode is residues (R267). -/
def State.TypeFits (u : State) (x : Ext) : Prop := x.byte.toNat % 8 = 5 ↔ mFmt u.curPos.mode = 5

section
variable {u : State} {st w : BitVec 2} {p : BitVec 1} {r : Code} {o : BitVec 12} {x : Ext}

theorem State.oddRow_iff : (twoMacs (mFmt u.curPos.mode) = true ∧ r.toNat % 2 = 1) ↔ ¬u.RowFits r := by
  rw [twoMacs, decide_eq_true_eq, State.RowFits, Classical.not_imp, Nat.mod_two_not_eq_zero]

theorem State.typeClash_iff : ((mFmt u.curPos.mode = 5) ≠ (bits x.byte.toNat 2 0 = 5)) ↔ ¬u.TypeFits x := by
  have hty : bits x.byte.toNat 2 0 = x.byte.toNat % 8 := bits_low _ 2
  rw [State.TypeFits, hty, ne_eq, eq_iff_iff]
  exact not_congr Iff.comm

/-- An action is a stream or a drain, not both. -/
theorem not_stream_of_drain (h : st = 3) : ¬(st = 1 ∨ st = 2) := by
  subst h
  decide

theorem State.beat_oddRow (hst : st = 1 ∨ st = 2) (h : ¬u.RowFits r) : u.beat st w p r o x = u.range 0 (r.setWidth 64) :=
  if_pos ⟨hst, State.oddRow_iff.2 h⟩

theorem State.beat_typeClash (hst : st = 3) (h : ¬u.TypeFits x) :
    u.beat st w p r o x = u.range 0 (BitVec.ofNat 64 (bits x.byte.toNat 2 0)) :=
  (if_neg fun k => not_stream_of_drain hst k.1).trans (if_pos ⟨hst, State.typeClash_iff.2 h⟩)

section
variable (hrow : st = 1 ∨ st = 2 → u.RowFits r) (htype : st = 3 → u.TypeFits x)
include hrow htype

/-- Row and type in order, a beat turns to its FIFO entries. -/
theorem State.beat_formed : u.beat st w p r o x =
    if (st = 1 ∨ st = 2) ∧ u.issuePos.fa.q.length < u.beatNeeds then u.raise fTIMING 0 0
    else if w = 1 ∧ u.issuePos.fb.q.length < 1 then u.raise fTIMING 0x100 0
    else .next (u.beaten st w p r o (bits x.byte.toNat 2 0) (o.extractLsb' 0 6)) :=
  (if_neg fun k => State.oddRow_iff.1 k.2 (hrow k.1)).trans (if_neg fun k => State.typeClash_iff.1 k.2 (htype k.1))

theorem State.beat_starved (hst : st = 1 ∨ st = 2) (h : u.issuePos.fa.q.length < u.beatNeeds) :
    u.beat st w p r o x = u.raise fTIMING 0 0 :=
  (State.beat_formed hrow htype).trans (if_pos ⟨hst, h⟩)

variable (hfed : st = 1 ∨ st = 2 → u.beatNeeds ≤ u.issuePos.fa.q.length)
include hfed

theorem State.beat_weightless (hw : w = 1) (h : u.issuePos.fb.q = []) : u.beat st w p r o x = u.raise fTIMING 0x100 0 :=
  (State.beat_formed hrow htype).trans
    ((if_neg fun k => Nat.not_lt.2 (hfed k.1) k.2).trans (if_pos ⟨hw, by rw [h]; exact Nat.one_pos⟩))

theorem State.beat_goes (hw : w = 1 → u.issuePos.fb.q ≠ []) :
    u.beat st w p r o x = .next (u.beaten st w p r o (x.byte.toNat % 8) (o.extractLsb' 0 6)) := by
  have hty : bits x.byte.toNat 2 0 = x.byte.toNat % 8 := bits_low _ 2
  rw [State.beat_formed hrow htype, if_neg fun k => Nat.not_lt.2 (hfed k.1) k.2,
    if_neg fun k => Nat.not_lt.2 (List.length_pos_of_ne_nil (hw k.1)) k.2, hty]

end

-- ## What a beat of each action asks

/-- A beat without a stream action asks its weights and its swap only (R263). -/
theorem State.beaten_idle (hst : st = 0) (ty : Nat) (d : Code) :
    Asked u (u.beaten st w p r o ty d) (u.weights w o.toNat ++ u.swaps p) := by
  have hacted : u.acted st r ty d = u := by
    subst hst
    rfl
  have hask : Asked u (u.acted st r ty d) [] := hacted.symm ▸ Asked.refl u
  have := Asked.beaten hask rfl w p o
  rwa [if_neg (by rw [hst]; decide)] at this

/-- A stream asks one contribution an entry, then the pop, weights and swap (R262, R264). -/
theorem State.beaten_stream (hst : st = 1 ∨ st = 2) (ty : Nat) (d : Code) : Asked u (u.beaten st w p r o ty d)
    (((List.range u.beatNeeds).map fun j => u.contribution (r.toNat + j) (decide (st = 1)) (u.issuePos.fa.q.getD j (0, 0)).2) ++
      [u.flightOf 1 (.popA u.curP u.beatNeeds)] ++ u.weights w (if st = 3 then o.toNat / 64 else o.toNat) ++ u.swaps p) := by
  have hacted : u.acted st r ty d = u.streamed st r := if_pos hst
  exact Asked.beaten (hacted.symm ▸ Asked.streamed u st r) rfl w p o

/-- A drain's result is in flight, and the array has been asked for its row's coordinate (R267, R294). -/
theorem State.beaten_drain (hst : st = 3) (ty : Nat) (d : Code) :
    ∃ rest, Asked (u.putV (4 + u.heldFor) (u.drainCauses r.toNat ty) d (u.drainVec r.toNat ty)) (u.beaten st w p r o ty d)
      ([u.flightOf 4 (.busy u.curP), u.flightOf 1 (.ldc u.curP (NMap.getD u.curArr.coord r.toNat 0))] ++ rest) := by
  have hacted : u.acted st r ty d = u.drainRow r.toNat ty d := (if_neg (not_stream_of_drain hst)).trans (if_pos hst)
  obtain ⟨rest, hdrain⟩ := Asked.drainRow u r.toNat ty d
  rw [← hacted] at hdrain
  have hall := hdrain.beaten rfl w p o
  rw [List.append_assoc, List.append_assoc] at hall
  exact ⟨_, hall⟩

end

end Sys2Proof.Machine
end

section
/-! SUPPORT. What a drain reports and what its result holds, and XBEAT as a whole (R258, R262 to R267, R294, R430). -/

namespace Sys2Proof.Machine

-- ## The result of a drain (R267, R276)

/-- Causes that hold `s` hold it with more beside. -/
theorem or_and_of_and {a s : Causes} (b : Causes) (h : a &&& s = s) : (a ||| b) &&& s = s := by
  rw [BitVec.and_comm, BitVec.and_or_distrib_left, BitVec.and_comm s a, h]
  ext k
  simp +contextual

/-- Causes gathered from a start keep it. -/
theorem gathered_and_start (outs : List Out) {c s : Causes} (h : c &&& s = s) : outs.foldl (fun c o => c ||| o.causes) c &&& s = s := by
  induction outs generalizing c with
  | nil => exact h
  | cons o outs ih => exact ih (or_and_of_and o.causes h)

section
variable {u : State} {r ty : Nat}

/-- A drain of numbers reports the row's sticky bits (R267). -/
theorem State.drainCauses_and_sticky (h : mFmt u.curPos.mode ≠ 5) : u.drainCauses r ty &&& u.drainSticky r = u.drainSticky r := by
  rw [State.drainCauses, if_neg h]
  exact gathered_and_start _ (BitVec.and_self)

/-- A drain of residues reports them too, and BADMOD where the modulus is invalid (R276). -/
theorem State.drainCauses_residue (h : mFmt u.curPos.mode = 5) :
    u.drainCauses r ty = u.drainSticky r ||| (if u.curPos.mod = 0 then cBADMOD else 0) := by
  rw [State.drainCauses, if_pos h, causeIf]
  simp only [decide_eq_true_eq]

/-- Lane `l` of a drain is element `l` of the row, converted once (R267). -/
theorem State.lane_drainVec (h : mFmt u.curPos.mode ≠ 5) {l : Nat} (hl : l < 128) : ((u.drainVec r ty).lane l).toNat =
    if l < mNc u.curPos.mode then
      (encodeTy ty (u.cur.rnd.toNat % 8) u.ftz (accNum (mFmt u.curPos.mode) (rowEl (u.curArr.row r) l))).bits % 2 ^ 32 else 0 := by
  have hrm : u.rm 0 = u.cur.rnd.toNat % 8 := bits_low _ 2
  rw [State.drainVec, if_neg h, lane_ofLanesN _ hl, BitVec.toNat_ofNat, State.drainOuts, hrm, List.getD, List.getElem?_map]
  split
  next hc => rw [List.getElem?_range hc]; rfl
  next hc => rw [List.getElem?_eq_none (by rw [List.length_range]; exact Nat.not_lt.1 hc)]; rfl

theorem Pos.mod_lt (q : Pos) : q.mod < 2 ^ 64 := by
  rw [Pos.mod]
  have := q.modulus.isLt
  split <;> omega

/-- Residue `j` of a drain is that of the row, reduced by the array's modulus (R276). -/
theorem State.residue_drainVec (h : mFmt u.curPos.mode = 5) {j : Nat} (hj : j < 64) : residue (u.drainVec r ty) j =
    if j < mNc u.curPos.mode ∧ u.curPos.mod ≠ 0 then rowEl (u.curArr.row r) j % u.curPos.mod else 0 := by
  rw [State.drainVec, if_pos h, residue_ofResidues _ hj]
  apply Nat.mod_eq_of_lt
  split
  next hc => exact (Nat.mod_lt _ (Nat.pos_of_ne_zero hc.2)).trans u.curPos.mod_lt
  next => exact Nat.two_pow_pos 64

end

/-- What a drain leaves: its result in the context's flight, and the coordinate of its row on its way to LDC (R267, R294). -/
theorem State.beaten_drain_flights {u : State} {st : BitVec 2} {r : Code} (hst : st = 3) (w : BitVec 2) (p : BitVec 1) (o : BitVec 12) (ty : Nat)
    (d : Code) : (∃ f ∈ (u.beaten st w p r o ty d).cur.flight, f.due = u.cur.clk + (4 + u.heldFor) ∧ f.causes = u.drainCauses r.toNat ty ∧
        f.eff = .vreg (u.dstV d) (u.drainVec r.toNat ty)) ∧
      ∃ f ∈ ((u.beaten st w p r o ty d).arr (pairOf u.iss.core)).flight, f.due = u.curArr.clk + 1 ∧
        f.eff = .ldc u.curP (NMap.getD u.curArr.coord r.toNat 0) := by
  obtain ⟨rest, hask⟩ := State.beaten_drain (u := u) (w := w) (p := p) (r := r) (o := o) hst ty d
  constructor
  · rw [hask.cur, State.putV, State.cur_later]
    exact ⟨_, List.mem_append_right _ (List.mem_singleton_self _), rfl, rfl, rfl⟩
  · have hflight := hask.flight
    refine ⟨u.flightOf 1 (.ldc u.curP (NMap.getD u.curArr.coord r.toNat 0)), ?_, rfl, rfl⟩
    rw [show pairOf u.iss.core = pairOf (u.putV (4 + u.heldFor) (u.drainCauses r.toNat ty) d (u.drainVec r.toNat ty)).iss.core from rfl, hflight]
    simp

/-- Settles O31: the checks in their order, then what each action asks; a drain's result apart. -/
theorem beats : Obligations.Beats := by
  intro s g st w p r o x i u me a q first fmt kr nc streams two rows mine apart need asks contribution base shadow weights swaps goes types sticky
  have hu : u = s := State.entered_of_no_source rfl rfl s
  clear_value u
  subst hu
  have hfirst : first = u.issuePos := (u.issuePos_eq).symm
  clear_value first
  subst hfirst
  have hneed : need = u.beatNeeds := State.beatNeeds_eq.symm
  clear_value need
  subst hneed
  have hmine : mine ↔ u.windowOk (u.beatRows st r) = true := by
    rw [State.windowOk_iff_mine, State.beatRows_eq]
    rfl
  have hcontribution (j : Nat) : contribution j = u.contribution (r.toNat + j) (decide (st = 1)) (u.issuePos.fa.q.getD j (0, 0)).2 := by
    simp only [contribution, State.contribution, contribLat, Bool.and_eq_true]
    rfl
  have hinside (h : goes) (hm : mine) : exec i u = u.beat st w p r o x := by
    obtain ⟨hrun, hsup, hapart⟩ := h
    rw [exec_xbeat, xop_inside hrun hsup (State.beatsClose_eq_false_iff.2 hapart) rfl (hmine.1 hm), State.entered_of_no_source rfl rfl]
  refine ⟨fun h hm hfb => ⟨fun hst => ?idle, fun hst hrow hfed => ?stream, fun hst htype hf => ?drain, fun hst htype hf => ?residueDrain⟩,
    fun h hm => ?outside, fun h hm hst htwo hodd => ?oddRow, fun h hm hst htype => ?typeClash, fun h hm hst hrow hshort => ?starved,
    fun h hm hrow htype hw hempty => ?weightless, fun hsup hwf hover hlatch hapart => ?absent⟩
  case idle =>
    have hns : ¬(st = 1 ∨ st = 2) := by rw [hst]; decide
    have hnd : st ≠ 3 := by rw [hst]; decide
    refine ⟨_, (hinside h hm).trans (State.beat_goes (absurd · hns) (absurd · hnd) (absurd · hns) hfb), ?_⟩
    rw [(State.beaten_idle hst _ _).flight, ← List.append_assoc]
    simp only [weights, base, if_neg hnd]
    rfl
  case stream =>
    have hnd : st ≠ 3 := fun hd => not_stream_of_drain hd hst
    refine ⟨_, (hinside h hm).trans (State.beat_goes (fun _ => hrow) (absurd · hnd) (fun _ => hfed) hfb), ?_⟩
    rw [(State.beaten_stream hst _ _).flight, funext hcontribution]
    simp only [← List.append_assoc]
    rfl
  case drain =>
    have hns := not_stream_of_drain hst
    obtain ⟨hres, hldc⟩ := State.beaten_drain_flights (r := r) hst w p o (x.byte.toNat % 8) (o.extractLsb' 0 6)
    exact ⟨_, _, _, (hinside h hm).trans (State.beat_goes (absurd · hns) (fun _ => htype) (absurd · hns) hfb), hres, hldc,
      State.drainCauses_and_sticky hf, fun l hl => State.lane_drainVec hf hl⟩
  case residueDrain =>
    have hns := not_stream_of_drain hst
    obtain ⟨hres, hldc⟩ := State.beaten_drain_flights (r := r) hst w p o (x.byte.toNat % 8) (o.extractLsb' 0 6)
    rw [State.drainCauses_residue hf] at hres
    exact ⟨_, _, (hinside h hm).trans (State.beat_goes (absurd · hns) (fun _ => htype) (absurd · hns) hfb), hres, hldc,
      fun j hj => State.residue_drainVec hf hj⟩
  case outside =>
    obtain ⟨hrun, hsup, hapart⟩ := h
    rw [exec_xbeat, xop_outside hrun hsup (State.beatsClose_eq_false_iff.2 hapart) rfl (mt hmine.2 hm), State.entered_of_no_source rfl rfl]
    exact u.windowMiss_raises
  case oddRow =>
    rw [hinside h hm, State.beat_oddRow hst fun hrow => Nat.mod_two_ne_zero.2 hodd (hrow htwo)]
    exact u.range_raises _ _
  case typeClash =>
    rw [hinside h hm, State.beat_typeClash hst htype]
    exact u.range_raises _ _
  case starved =>
    have hnd : st ≠ 3 := fun hd => not_stream_of_drain hd hst
    exact ⟨_, _, (hinside h hm).trans (State.beat_starved (fun _ => hrow) (absurd · hnd) hst hshort)⟩
  case weightless =>
    exact ⟨_, _, (hinside h hm).trans (State.beat_weightless (fun hst => (hrow hst).1) htype (fun hst => (hrow hst).2) hw hempty)⟩
  case absent =>
    rw [exec_xbeat, State.beatsClose_eq_false_iff.2 hapart, xop, hsup]
    exact sop_gone hwf hover hlatch _

end Sys2Proof.Machine
end

section
/-! SUPPORT. The group engine as a G word finds it: busy or idle, the frames of its words, the elements that have passed (R284, R292, R293,
R298, R430). -/

namespace Sys2Proof.Machine

-- ## What the record of an empty latch leaves (R42)

section
variable (s : State) (i : Instr)

@[simp] theorem State.entered_engineBusy (own : Bool) : (s.entered i).engineBusy own = s.engineBusy own := by
  simp only [State.engineBusy, State.entered_curArr, State.entered_iss]

@[simp] theorem State.entered_engineRival : (s.entered i).engineRival = s.engineRival := by
  have hhold := s.core_entered_of i Core.hold fun _ _ _ => rfl
  have hfirst := s.core_entered_of i Core.first fun _ _ _ => rfl
  simp only [State.engineRival, State.entered_curArr, State.entered_iss, hhold, hfirst]

@[simp] theorem State.entered_heldFor : (s.entered i).heldFor = s.heldFor := by
  have hfirst := s.core_entered_of i Core.first fun _ _ _ => rfl
  simp only [State.heldFor, State.issueArr, State.curCore, State.entered_curArr, State.entered_iss, hfirst]

end

-- ## The engine, and the words of a core that holds the array

theorem Arr.holds_iff {a : Arr} {c : Nat} : a.holds (c % 2) = true ↔ a.mode = 2 ∨ a.mode = c % 2 := by
  rw [Arr.holds, Nat.mod_mod, Bool.or_eq_true, decide_eq_true_eq, decide_eq_true_eq]

theorem State.engineBusy_of_busy {s : State} {b : GBusy} (hb : s.curArr.gbusy = some b) (ht : s.curArr.clk < b.until_) (own : Bool) :
    s.engineBusy own = (decide (b.core = s.iss.core) == own) := by
  rw [State.engineBusy, hb]
  dsimp only
  rw [decide_eq_true ht, Bool.true_and]

theorem State.engineBusy_of_idle {s : State} (h : ∀ b, s.curArr.gbusy = some b → b.until_ ≤ s.curArr.clk) (own : Bool) :
    s.engineBusy own = false := by
  rw [State.engineBusy]
  cases hb : s.curArr.gbusy with
  | none => rfl
  | some b =>
    dsimp only
    rw [decide_eq_false (Nat.not_lt.2 (h b hb)), Bool.false_and]

/-- The frame that GLOAD and GCHK share: the core holds the array, and the engine works for neither core (R284, R288, R298). -/
def engineOp (i : Instr) (s : State) (k : State → Out3) : Out3 := gop i (s.engineBusy true) s fun u =>
  if !u.curArr.holds u.curP || u.engineBusy false || u.engineRival then u.windowMiss else k u

/-- The frame that GSEL and GORB share: the core holds the array (R292, R295). -/
def groupOp (i : Instr) (s : State) (k : State → Out3) : Out3 := gop i false s fun u =>
  if !u.curArr.holds u.curP then u.windowMiss else k u

section
variable {i : Instr} {s : State} (k : State → Out3)

/-- A second GLOAD or GCHK of the core that has one in flight is ILLEGAL_OP (R298). -/
theorem engineOp_illegal {b : GBusy} (hb : s.curArr.gbusy = some b) (ht : s.curArr.clk < b.until_) (hcore : b.core = s.iss.core) :
    engineOp i s k = s.illegal := by
  have hown : s.engineBusy true = true := by rw [State.engineBusy_of_busy hb ht, decide_eq_true hcore]; rfl
  rw [engineOp, gop, hown]
  exact sop_illegal _ (Or.inr (Or.inr rfl)) _

variable (h : s.runs i = true) (hsup : isSupervisor s.iss.core = false)
include h hsup

/-- One of the pair's other core is WINDOW_MISS (R298). -/
theorem engineOp_miss {b : GBusy} (hb : s.curArr.gbusy = some b) (ht : s.curArr.clk < b.until_) (hcore : b.core ≠ s.iss.core) :
    ∃ w0 w1, engineOp i s k = (s.entered i).raise fWINDOW w0 w1 := by
  have hown : s.engineBusy true = false := by rw [State.engineBusy_of_busy hb ht, decide_eq_false hcore]; rfl
  have hother : s.engineBusy false = true := by rw [State.engineBusy_of_busy hb ht, decide_eq_false hcore]; rfl
  rw [engineOp, gop, sop_runs_of h hown hsup, State.entered_engineBusy, hother, Bool.or_true, Bool.true_or]
  exact State.windowMiss_raises _

theorem engineOp_goes (howns : s.curArr.mode = 2 ∨ s.curArr.mode = s.iss.core % 2)
    (hidle : ∀ b, s.curArr.gbusy = some b → b.until_ ≤ s.curArr.clk) (hrival : s.engineRival = false) :
    engineOp i s k = k (s.entered i) := by
  have hholds : s.curArr.holds s.curP = true := Arr.holds_iff.2 howns
  rw [engineOp, gop, sop_runs_of h (State.engineBusy_of_idle hidle true) hsup, State.entered_curArr, State.entered_curP,
    State.entered_engineBusy, State.entered_engineRival, hholds, State.engineBusy_of_idle hidle, hrival]
  rfl

theorem groupOp_goes (howns : s.curArr.mode = 2 ∨ s.curArr.mode = s.iss.core % 2) : groupOp i s k = k (s.entered i) := by
  have hholds : s.curArr.holds s.curP = true := Arr.holds_iff.2 howns
  rw [groupOp, gop, sop_runs_of h rfl hsup, State.entered_curArr, State.entered_curP, hholds]
  rfl

theorem groupOp_miss (howns : ¬(s.curArr.mode = 2 ∨ s.curArr.mode = s.iss.core % 2)) :
    ∃ w0 w1, groupOp i s k = (s.entered i).raise fWINDOW w0 w1 := by
  have hholds : s.curArr.holds s.curP = false := Bool.eq_false_iff.2 (mt Arr.holds_iff.1 howns)
  rw [groupOp, gop, sop_runs_of h rfl hsup, State.entered_curArr, State.entered_curP, hholds]
  exact State.windowMiss_raises _

end

/-- An element may be used where it is 0 or of a group that has passed for the mode's number of rows (R292, R293). -/
theorem State.groupUnfit_iff {u : State} {e : Nat} :
    u.groupUnfit e = true ↔ ¬(e = 0 ∨ (u.curArr.chk = 1 ∧ u.curArr.krc = mKr u.curPos.mode - 1)) := by
  simp only [State.groupUnfit, Bool.and_eq_true, Bool.or_eq_true, decide_eq_true_eq, not_or, Classical.not_and_iff_not_or_not, ne_eq]

end Sys2Proof.Machine
end

section
/-! SUPPORT. GLOAD: its descriptor, the units of its image, and what it asks of the array (R284, R285). -/

namespace Sys2Proof.Machine

-- ## The descriptor (R284)

/-- The descriptors that R284 permits for `m` elements, field by field. -/
def GloadLegal (w m : Nat) : Prop :=
  let kind := w / 2 ^ 20 % 4
  let unit := w / 2 ^ 32 % 512
  w / 2 ^ 23 % 512 = 0 ∧ w / 2 ^ 41 = 0 ∧ kind ≠ 3 ∧ (w / 2 ^ 22 % 2 = 1 → kind = 0) ∧ (kind ≠ 2 → unit = 0) ∧
    (kind = 2 → unit + m ≤ 512)

/-- The bits of a descriptor that must be zero (R284). -/
theorem gloadReserved_eq_zero_iff (v : Word) : v &&& 0xFFFFFE00FF800000 = 0 ↔ v.toNat / 2 ^ 23 % 512 = 0 ∧ v.toNat / 2 ^ 41 = 0 := by
  have hfields : (0xFFFFFE00FF800000 : Word) = (BitVec.ofNat 64 (2 ^ 9 - 1) <<< 23) ||| (BitVec.ofNat 64 (2 ^ 23 - 1) <<< 41) := by decide
  have hhigh : v.toNat / 2 ^ 41 % 2 ^ 23 = 0 ↔ v.toNat / 2 ^ 41 = 0 := by
    have := v.isLt
    omega
  rw [hfields, BitVec.and_or_distrib_left, ← hhigh]
  exact BitVec.or_eq_zero_iff.trans
    (and_congr (and_field_eq_zero_iff v (k := 23) (w := 9) (by omega)) (and_field_eq_zero_iff v (k := 41) (w := 23) (by omega)))

/-- The number of units of an image: the tables, and for a group with a Cayley table its rows, eight to a unit (R284). -/
def gloadUnits (w m : Nat) : Nat := if w / 2 ^ 20 % 4 = 0 then m + (m + 7) / 8 else m

-- ## What a GLOAD asks of the array (R285)

/-- The engine taken, and unit 0 of the image at `p` read. -/
def State.imaging (u : State) (p units : Nat) : State :=
  ((u.engineTake (8 + units)).modCurArr fun r =>
    { r with gunits := [vecOfBytes (spadRead (if u.heldFor = 0 then u.issueSpad else u.curCore.spad) p 512)] }).modCurCore fun k =>
      { k with busy := NMap.set k.busy 9 (k.ccyc + u.heldFor + units) }

/-- The other units asked for, one in each cycle after, and the stores that the image fills. -/
def State.gloaded (u : State) (w p m : Nat) : State :=
  let units := gloadUnits w m
  let t := (List.range (units - 1)).foldl (fun t k => t.arrLater (k + 1) (.gread u.iss.core (p + 512 * (k + 1)))) (u.imaging p units)
  if w / 2 ^ 20 % 4 = 2 then t.arrLater (8 + units) (.gfilter (w / 2 ^ 32 % 512) m)
  else (t.arrLater 1 .gloadStart).arrLater (8 + units) (.gtables m (w / 2 ^ 20 % 4) (w / 2 ^ 22 % 2))

/-- GLOAD of `m` elements by a descriptor with legal fields: the place of its image, then its effect (R284, R285). -/
def State.gloadImage (u : State) (w m : Nat) : Out3 :=
  let p := bits w 19 0
  if p % 512 ≠ 0 then u.align3 (BitVec.ofNat 64 p)
  else if 2 ^ 16 < p % 2 ^ 16 + 512 * gloadUnits w m then u.range 0 (BitVec.ofNat 64 p)
  else .next (u.gloaded w p m)

/-- GLOAD of `m` elements by descriptor `v` (R284). -/
def State.gload (u : State) (v : Word) (m : Nat) : Out3 :=
  let kind := v.toNat / 2 ^ 20 % 4
  let inex := v.toNat / 2 ^ 22 % 2
  let unit := v.toNat / 2 ^ 32 % 512
  if v &&& 0xFFFFFE00FF800000 ≠ 0 then u.range 0 (v &&& 0xFFFFFE00FF800000)
  else if kind = 3 then u.range 0 (BitVec.ofNat 64 kind)
  else if inex = 1 ∧ kind ≠ 0 then u.range 0 (BitVec.ofNat 64 inex)
  else if (kind ≠ 2 ∧ unit ≠ 0) ∨ (kind = 2 ∧ 512 < unit + m) then u.range 0 (BitVec.ofNat 64 unit)
  else u.gloadImage v.toNat m

theorem exec_gload (g : Guard) (a n : Code) (s : State) :
    exec (.gload g a n) s = engineOp (.gload g a n) s fun u => u.gload (u.rdS a) (n.toNat + 1) := rfl

section
variable (u : State) {v : Word} {m : Nat}

theorem State.gload_illegal (h : ¬GloadLegal v.toNat m) : ∃ w0 w1, u.gload v m = u.raise fLAYRANGE w0 w1 := by
  rw [State.gload]
  split_ifs with hres hkind hinex hunit
  · exact u.range_raises _ _
  · exact u.range_raises _ _
  · exact u.range_raises _ _
  · exact u.range_raises _ _
  · rw [ne_eq, not_not, gloadReserved_eq_zero_iff] at hres
    rw [not_or, not_and, not_and, not_not, Nat.not_lt] at hunit
    rw [not_and, ne_eq, not_not] at hinex
    exact absurd ⟨hres.1, hres.2, hkind, hinex, hunit⟩ h

theorem State.gload_legal (h : GloadLegal v.toNat m) : u.gload v m = u.gloadImage v.toNat m := by
  obtain ⟨hlow, hhigh, hkind, hinex, htables, hfilter⟩ := h
  have hres := (gloadReserved_eq_zero_iff v).2 ⟨hlow, hhigh⟩
  rw [State.gload, if_neg (not_not.2 hres), if_neg hkind, if_neg fun k => k.2 (hinex k.1), if_neg]
  exact fun k => k.elim (fun k => k.2 (htables k.1)) fun k => Nat.not_lt.2 (hfilter k.1) k.2

end

section
variable (u : State) {w m : Nat}

theorem State.gloadImage_misaligned (h : w % 512 ≠ 0) : ∃ w0 w1, u.gloadImage w m = u.raise fALIGN w0 w1 := by
  rw [State.gloadImage, bits_low]
  exact ⟨_, _, if_pos (by rwa [Nat.mod_mod_of_dvd _ (by decide)])⟩

theorem State.gloadImage_over (h : w % 512 = 0) (hend : 2 ^ 16 < w % 2 ^ 16 + 512 * gloadUnits w m) :
    ∃ w0 w1, u.gloadImage w m = u.raise fLAYRANGE w0 w1 := by
  rw [State.gloadImage, bits_low, Nat.mod_mod_of_dvd _ (by decide), Nat.mod_mod_of_dvd _ (by decide), if_neg (not_not.2 h), if_pos hend]
  exact u.range_raises _ _

theorem State.gloadImage_inside (h : w % 512 = 0) (hend : w % 2 ^ 16 + 512 * gloadUnits w m ≤ 2 ^ 16) :
    u.gloadImage w m = .next (u.gloaded w (w % 2 ^ 20) m) := by
  rw [State.gloadImage, bits_low, Nat.mod_mod_of_dvd _ (by decide), Nat.mod_mod_of_dvd _ (by decide), if_neg (not_not.2 h),
    if_neg (Nat.not_lt.2 hend)]

end

/-- Effects asked one after another. -/
theorem Asked.laters (u : State) (lat : Nat → Nat) (e : Nat → AEff) (n : Nat) :
    Asked u ((List.range n).foldl (fun t k => t.arrLater (lat k) (e k)) u) ((List.range n).map fun k => u.flightOf (lat k) (e k)) := by
  induction n with
  | zero => exact Asked.refl u
  | succ n ih =>
    rw [List.range_succ, List.foldl_append, List.map_append]
    refine ih.trans ?_
    rw [List.map_singleton, ← ih.flightOf]
    exact Asked.later _ _ _

section
variable (u : State)

theorem State.imaging_curArr (p units : Nat) : (u.imaging p units).curArr = { u.curArr with
    gbusy := some ⟨u.iss.core, u.curArr.clk, u.curArr.clk + (8 + units)⟩
    gunits := [vecOfBytes (spadRead (if u.heldFor = 0 then u.issueSpad else u.curCore.spad) p 512)] } := by
  have hread : (u.imaging p units).curArr = ((u.engineTake (8 + units)).modCurArr fun r =>
      { r with gunits := [vecOfBytes (spadRead (if u.heldFor = 0 then u.issueSpad else u.curCore.spad) p 512)] }).curArr := rfl
  rw [hread, State.curArr_modCurArr, State.engineTake, State.curArr_modCurArr]

/-- What GLOAD asks after the read of unit 0 (R285). -/
def gloadFlights (u : State) (w p m : Nat) : List AFlight :=
  ((List.range (gloadUnits w m - 1)).map fun k => u.flightOf (k + 1) (.gread u.iss.core (p + 512 * (k + 1)))) ++
    if w / 2 ^ 20 % 4 = 2 then [u.flightOf (8 + gloadUnits w m) (.gfilter (w / 2 ^ 32 % 512) m)]
    else [u.flightOf 1 .gloadStart, u.flightOf (8 + gloadUnits w m) (.gtables m (w / 2 ^ 20 % 4) (w / 2 ^ 22 % 2))]

theorem Asked.gloaded (w p m : Nat) : Asked (u.imaging p (gloadUnits w m)) (u.gloaded w p m) (gloadFlights u w p m) := by
  let t := u.imaging p (gloadUnits w m)
  have hflight (n : Nat) (e : AEff) : u.flightOf n e = t.flightOf n e := by
    rw [State.flightOf, State.flightOf, State.imaging_curArr]
  have hreads := Asked.laters t (· + 1) (fun k => .gread u.iss.core (p + 512 * (k + 1))) (gloadUnits w m - 1)
  rw [State.gloaded, gloadFlights]
  simp only [hflight]
  refine hreads.trans ?_
  simp only [← hreads.flightOf]
  generalize List.foldl _ t _ = r
  split
  · exact Asked.later r _ _
  · have hstart := Asked.later r 1 .gloadStart
    rw [← hstart.flightOf (8 + gloadUnits w m)]
    exact hstart.trans (Asked.later _ _ _)

/-- The engine is taken, unit 0 read, and the rest in flight (R285). -/
theorem State.gloaded_arr (w p m : Nat) :
    let a := (u.gloaded w p m).arr (pairOf u.iss.core)
    a.gbusy = some ⟨u.iss.core, u.curArr.clk, u.curArr.clk + (8 + gloadUnits w m)⟩ ∧
    a.gunits = [vecOfBytes (spadRead (if u.heldFor = 0 then u.issueSpad else u.curCore.spad) p 512)] ∧
    a.flight = u.curArr.flight ++ gloadFlights u w p m := by
  obtain ⟨-, hiss, l0, l1, harr⟩ := Asked.gloaded u w p m
  rw [State.imaging_curArr, State.curArr, hiss] at harr
  intro a
  have ha : a = _ := harr
  rw [ha]
  exact ⟨rfl, rfl, rfl⟩

end

end Sys2Proof.Machine
end

section
/-! SUPPORT. GCHK: what its checks find, the status word's bits, and what it asks of the array and of the context (R288, R290). -/

namespace Sys2Proof.Machine

-- ## The fields of a table's entry (R286)

theorem entA_eq (e : Nat) : entA e = e % 2 ^ 7 := bits_low e 6
theorem entB_eq (e : Nat) : entB e = e / 2 ^ 8 % 2 ^ 7 := rfl
theorem entW_eq (e : Nat) : entW e = e / 2 ^ 16 % 2 ^ 8 := rfl

theorem Arr.entry_lt (a : Arr) (g t : Nat) : a.entry g t < 2 ^ 32 := ((a.table g).lane t).isLt

-- ## The checks, one by one (R288)

theorem mem_pairsOf {n m : Nat} {p : Nat × Nat} : p ∈ pairsOf n m ↔ p.1 < n ∧ p.2 < m := by
  obtain ⟨g, h⟩ := p
  simp [pairsOf]

theorem Arr.repeats_iff {a : Arr} {g t : Nat} : a.repeats g t = true ↔ ∃ j, j < t ∧ a.entry g j % 2 ^ 7 = a.entry g t % 2 ^ 7 := by
  simp only [Arr.repeats, List.any_eq_true, List.mem_range, decide_eq_true_eq, entA_eq]

section
variable (a : Arr) (kr : Nat)

/-- ID: element 0 is not the identity. -/
theorem Arr.chkId_isSome_iff : (a.chkId kr).isSome = true ↔
    ∃ t, t < kr ∧ ¬(a.entry 0 t % 2 ^ 7 = t ∧ a.entry 0 t / 2 ^ 8 % 2 ^ 7 = 0 ∧ a.entry 0 t / 2 ^ 16 % 2 ^ 8 = 0) := by
  simp only [Arr.chkId, Option.isSome_map, List.find?_isSome, List.mem_range, Bool.not_eq_true', decide_eq_false_iff_not, entA_eq, entB_eq,
    entW_eq]

/-- SITES: an entry has a reserved bit, a site or weight that its group may not have, or repeats a site. -/
theorem Arr.chkSites_isSome_iff : (a.chkSites kr).isSome = true ↔ ∃ h t, h < a.gn ∧ t < kr ∧
    (a.entry h t / 2 ^ 24 ≠ 0 ∨ a.entry h t / 2 ^ 15 % 2 ≠ 0 ∨ a.entry h t / 2 ^ 7 % 2 ≠ 0 ∨ kr ≤ a.entry h t % 2 ^ 7 ∨
      (a.inex = 1 ∧ kr ≤ a.entry h t / 2 ^ 8 % 2 ^ 7) ∨
      (a.inex ≠ 1 ∧ (a.entry h t / 2 ^ 8 % 2 ^ 7 ≠ 0 ∨ a.entry h t / 2 ^ 16 % 2 ^ 8 ≠ 0)) ∨
      ((a.inex ≠ 1 ∨ a.kind = 1) ∧ ∃ j, j < t ∧ a.entry h j % 2 ^ 7 = a.entry h t % 2 ^ 7)) := by
  have hreserved (h t : Nat) : bits (a.entry h t) 31 24 + bits (a.entry h t) 15 15 + bits (a.entry h t) 7 7 ≠ 0 ↔
      a.entry h t / 2 ^ 24 ≠ 0 ∨ a.entry h t / 2 ^ 15 % 2 ≠ 0 ∨ a.entry h t / 2 ^ 7 % 2 ≠ 0 := by
    have htop : bits (a.entry h t) 31 24 = a.entry h t / 2 ^ 24 := Nat.mod_eq_of_lt (Nat.div_lt_of_lt_mul (a.entry_lt h t))
    rw [htop, show bits (a.entry h t) 15 15 = a.entry h t / 2 ^ 15 % 2 from rfl, show bits (a.entry h t) 7 7 = a.entry h t / 2 ^ 7 % 2 from rfl,
      ne_eq, Nat.add_eq_zero_iff, Nat.add_eq_zero_iff]
    tauto
  have hweights (h t : Nat) : (if a.inex = 1 then decide (kr ≤ entB (a.entry h t))
      else decide (entB (a.entry h t) + entW (a.entry h t) ≠ 0)) = true ↔ (a.inex = 1 ∧ kr ≤ a.entry h t / 2 ^ 8 % 2 ^ 7) ∨
      (a.inex ≠ 1 ∧ (a.entry h t / 2 ^ 8 % 2 ^ 7 ≠ 0 ∨ a.entry h t / 2 ^ 16 % 2 ^ 8 ≠ 0)) := by
    rw [entB_eq, entW_eq]
    by_cases hi : a.inex = 1 <;> simp [hi]
  simp only [Arr.chkSites, Option.isSome_map, List.find?_isSome, Prod.exists, mem_pairsOf, Bool.or_eq_true, Bool.and_eq_true, Bool.not_eq_true',
    hweights, Arr.repeats_iff, decide_eq_true_eq, decide_eq_false_iff_not, hreserved, entA_eq, or_assoc, and_assoc]

/-- CAYLEY: a product is no element, or element 0 is not neutral. -/
theorem Arr.chkCayley_isSome_iff : a.chkCayley.isSome = true ↔ a.kind = 0 ∧ ∃ h j, h < a.gn ∧ j < a.gn ∧
    (a.gn ≤ a.cay h j ∨ (h = 0 ∧ a.cay h j ≠ j) ∨ (j = 0 ∧ a.cay h j ≠ h)) := by
  rw [Arr.chkCayley]
  split
  next hk =>
    simp only [Option.isSome_map, List.find?_isSome, Prod.exists, mem_pairsOf, Bool.or_eq_true, Bool.and_eq_true, decide_eq_true_eq, hk,
      true_and, or_assoc, and_assoc]
  next hk => exact iff_of_false Bool.false_ne_true fun h => hk h.1

/-- INV: an element has no inverse. -/
theorem Arr.chkInv_isSome_iff : a.chkInv.isSome = true ↔ a.kind = 0 ∧
    ∃ h, h < a.gn ∧ ∀ j, j < a.gn → ¬(a.cay h j = 0 ∧ a.cay j h = 0) := by
  rw [Arr.chkInv]
  split
  next hk =>
    simp only [Option.isSome_map, List.find?_isSome, List.mem_range, Bool.not_eq_true', List.any_eq_false, decide_eq_true_eq, hk, true_and]
  next hk => exact iff_of_false Bool.false_ne_true fun h => hk h.1

/-- COMP: the table of a product is not the product of the tables. -/
theorem Arr.chkComp_isSome_iff : (a.chkComp kr).isSome = true ↔ ∃ h j t, h < a.gn ∧ j < a.gn ∧ t < kr ∧
    a.entry (a.cay h j) t % 2 ^ 7 ≠ a.entry j (a.entry h t % 2 ^ 7) % 2 ^ 7 := by
  simp only [Arr.chkComp, List.find?_isSome, List.mem_flatMap, List.mem_map, List.mem_range, mem_pairsOf, decide_eq_true_eq, entA_eq]
  constructor
  · rintro ⟨_, ⟨⟨h, j⟩, ⟨hh, hj⟩, t, ht, rfl⟩, hne⟩
    exact ⟨h, j, t, hh, hj, ht, hne⟩
  · rintro ⟨h, j, t, hh, hj, ht, hne⟩
    exact ⟨_, ⟨(h, j), ⟨hh, hj⟩, t, ht, rfl⟩, hne⟩

-- ## The status word (R289)

/-- The first four checks find nothing. -/
def Arr.sound : Bool := (a.chkId kr).isNone && (a.chkSites kr).isNone && a.chkCayley.isNone && a.chkInv.isNone
/-- What each check finds, in the order of the status bits; COMP only of an exact group with a Cayley table that is sound so far. -/
def Arr.fails : List (Option GFail) := [a.chkId kr, a.chkSites kr, a.chkCayley, a.chkInv,
  if a.sound kr && decide (a.kind = 0) && decide (a.inex = 0) then a.chkComp kr else none]
/-- Does check `i` find something? -/
def Arr.failsAt (i : Nat) : Bool := ((a.fails kr).getD i none).isSome
/-- The status bits of the checks that find something. -/
def Arr.causes : Nat := (List.range 5).foldl (fun s i => if a.failsAt kr i then s + 2 ^ (i + 1) else s) 0

/-- The low six bits of a status word: its causes, or PASSED. -/
theorem Arr.check_low : ∃ n, (a.check kr).1 = 2 ^ 6 * n + (a.causes kr + if a.causes kr = 0 then 1 else 0) := by
  have hword : (a.check kr).1 = (a.check kr).2 * 2 ^ 32 + (match (a.fails kr).findSome? id with
      | some (g, h, t) => g * 2 ^ 8 + h * 2 ^ 16 + t * 2 ^ 24
      | none => 0) + a.inex * 2 ^ 6 + a.causes kr + if a.causes kr = 0 then 1 else 0 := rfl
  generalize (a.check kr).2 = d at hword
  rw [hword]
  split
  next g h t _ => exact ⟨d * 2 ^ 26 + (g * 2 ^ 2 + h * 2 ^ 10 + t * 2 ^ 18) + a.inex, by ring⟩
  next => exact ⟨d * 2 ^ 26 + a.inex, by ring⟩

/-- Bit `j` of the causes is set where check `j - 1` finds something. -/
theorem Arr.testBit_causes (j : Nat) : (a.causes kr).testBit j = true ↔ ∃ i, i < 5 ∧ a.failsAt kr i = true ∧ i + 1 = j := by
  have hsorted : (((List.range 5).filter (a.failsAt kr)).map (· + 1)).Pairwise (· < ·) :=
    List.pairwise_map.2 ((List.pairwise_lt_range.filter _).imp fun h => Nat.succ_lt_succ h)
  have hsum : a.causes kr = (((List.range 5).filter (a.failsAt kr)).map (· + 1)).foldl (fun n k => n + 2 ^ k) 0 := by
    rw [List.foldl_map, List.foldl_filter]
    rfl
  rw [hsum, testBit_foldl_two_pow hsorted (fun k _ => Nat.two_pow_pos k), Nat.zero_testBit, Bool.false_or, decide_eq_true_eq]
  simp only [List.mem_map, List.mem_filter, List.mem_range, and_assoc]

theorem Arr.causes_eq_zero_iff : a.causes kr = 0 ↔ ∀ i, i < 5 → a.failsAt kr i = false := by
  constructor
  · intro h i hi
    by_contra hf
    have := (a.testBit_causes kr (i + 1)).2 ⟨i, hi, Bool.of_not_eq_false hf, rfl⟩
    rw [h, Nat.zero_testBit] at this
    exact Bool.false_ne_true this
  · intro h
    refine Nat.eq_of_testBit_eq fun j => ?_
    rw [Nat.zero_testBit, Bool.eq_false_iff, ne_eq, Arr.testBit_causes]
    rintro ⟨i, hi, hf, -⟩
    exact Bool.false_ne_true ((h i hi).symm.trans hf)

theorem Arr.getLsbD_check {j : Nat} (hj : j < 6) : (BitVec.ofNat 64 (a.check kr).1).getLsbD j =
    (a.causes kr + if a.causes kr = 0 then 1 else 0).testBit j := by
  obtain ⟨n, hn⟩ := a.check_low kr
  have hmod (x : Nat) : x.testBit j = (x % 2 ^ 6).testBit j := by rw [Nat.testBit_mod_two_pow, decide_eq_true hj, Bool.true_and]
  rw [BitVec.getLsbD_ofNat, decide_eq_true (by omega), Bool.true_and, hn, hmod, Nat.mul_add_mod, ← hmod]

/-- Bit 0 is PASSED: no check finds anything. -/
theorem Arr.check_passed : (BitVec.ofNat 64 (a.check kr).1).getLsbD 0 = true ↔ ∀ i, i < 5 → a.failsAt kr i = false := by
  rw [a.getLsbD_check kr (by omega), ← a.causes_eq_zero_iff]
  split
  next h => simp [h]
  next h =>
    rw [Nat.add_zero, Arr.testBit_causes]
    simp [h]

/-- Bit `i + 1` is the cause of check `i`. -/
theorem Arr.check_failed {i : Nat} (hi : i < 5) : (BitVec.ofNat 64 (a.check kr).1).getLsbD (i + 1) = true ↔ a.failsAt kr i = true := by
  rw [a.getLsbD_check kr (by omega)]
  split
  next h =>
    rw [h, (a.causes_eq_zero_iff kr).1 h i hi, Nat.zero_add, Nat.testBit_succ]
    simp
  next h =>
    rw [Nat.add_zero, Arr.testBit_causes]
    simp [hi]

/-- The causes of the first four checks, in their order. -/
theorem Arr.check_first : let st := BitVec.ofNat 64 (a.check kr).1
    (st.getLsbD 1 = true ↔ (a.chkId kr).isSome = true) ∧ (st.getLsbD 2 = true ↔ (a.chkSites kr).isSome = true) ∧
    (st.getLsbD 3 = true ↔ a.chkCayley.isSome = true) ∧ (st.getLsbD 4 = true ↔ a.chkInv.isSome = true) :=
  ⟨a.check_failed kr (i := 0) (by omega), a.check_failed kr (i := 1) (by omega), a.check_failed kr (i := 2) (by omega),
    a.check_failed kr (i := 3) (by omega)⟩

theorem Arr.sound_iff : a.sound kr = true ↔
    ¬((a.chkId kr).isSome = true ∨ (a.chkSites kr).isSome = true ∨ a.chkCayley.isSome = true ∨ a.chkInv.isSome = true) := by
  simp only [Arr.sound, Bool.and_eq_true, Option.isNone_iff_eq_none, Option.isSome_iff_ne_none, not_or, ne_eq, not_not, and_assoc]

/-- The cause of COMP, bit 5: only an exact group with a Cayley table that is sound so far is looked at (R288). -/
theorem Arr.check_comp : (BitVec.ofNat 64 (a.check kr).1).getLsbD 5 = true ↔
    a.kind = 0 ∧ a.inex = 0 ∧ a.sound kr = true ∧ (a.chkComp kr).isSome = true := by
  have hfails : a.failsAt kr 4 = (if a.sound kr && decide (a.kind = 0) && decide (a.inex = 0) then a.chkComp kr else none).isSome := rfl
  rw [a.check_failed kr (by omega), hfails]
  split
  next h =>
    simp only [Bool.and_eq_true, decide_eq_true_eq] at h
    simp [h]
  next h =>
    simp only [Bool.and_eq_true, decide_eq_true_eq] at h
    exact iff_of_false Bool.false_ne_true fun ⟨hk, hi, hs, _⟩ => h ⟨⟨hs, hk⟩, hi⟩

/-- PASSED: none of the five causes is set. -/
theorem Arr.check_passed_iff_no_cause : let st := BitVec.ofNat 64 (a.check kr).1
    st.getLsbD 0 = true ↔
      ¬(st.getLsbD 1 = true ∨ st.getLsbD 2 = true ∨ st.getLsbD 3 = true ∨ st.getLsbD 4 = true ∨ st.getLsbD 5 = true) := by
  intro st
  have hcause (i : Nat) (hi : i < 5) : st.getLsbD (i + 1) = true ↔ a.failsAt kr i = true := a.check_failed kr hi
  rw [a.check_passed, hcause 0 (by omega), hcause 1 (by omega), hcause 2 (by omega), hcause 3 (by omega), hcause 4 (by omega)]
  simp only [Nat.forall_lt_succ_right, Nat.not_lt_zero, IsEmpty.forall_iff, implies_true, true_and, not_or, Bool.not_eq_true, and_assoc]

end

end Sys2Proof.Machine
end

section
/-! SUPPORT. What GCHK asks of the array and of its context; GSEL with its checks (R288, R290, R292). -/

namespace Sys2Proof.Machine

-- ## GCHK's request (R288, R290)

/-- The status word in flight, and with it the verdict `lat` cycles on (R290). -/
def State.gchecked (u : State) (d : Code) (lat : Nat) : State :=
  let kr := mKr u.curPos.mode
  let w := BitVec.ofNat 64 (u.curArr.check kr).1
  (((u.engineTake lat).arrLater 1 .gchkStart).arrLater lat (.gchkEnd (kr - 1) (u.curArr.check kr).2 w u.iss.core u.iss.ctx u.cur.gen u.cur.launch
    u.iss.addr)).putS (lat + u.heldFor) 0 d w

theorem exec_gchk (g : Guard) (d : Code) (s : State) : exec (.gchk g d) s = engineOp (.gchk g d) s fun u =>
    .next (u.gchecked d (if u.curArr.kind = 0 then u.curArr.gn * u.curArr.gn * ((mKr u.curPos.mode + 15) / 16)
      else u.curArr.gn * ((mKr u.curPos.mode + 15) / 16))) := rfl

section
variable (u : State) (d : Code) (lat : Nat)

/-- The engine is taken, and start and verdict are in flight (R290). -/
theorem State.gchecked_arr : (u.gchecked d lat).arr (pairOf u.iss.core) = { u.curArr with
    gbusy := some ⟨u.iss.core, u.curArr.clk, u.curArr.clk + lat⟩
    flight := u.curArr.flight ++ [⟨u.curArr.clk + 1, u.curArr.clk, .gchkStart⟩, ⟨u.curArr.clk + lat, u.curArr.clk,
      .gchkEnd (mKr u.curPos.mode - 1) (u.curArr.check (mKr u.curPos.mode)).2 (BitVec.ofNat 64 (u.curArr.check (mKr u.curPos.mode)).1)
        u.iss.core u.iss.ctx u.cur.gen u.cur.launch u.iss.addr⟩] } := by
  have harr (e f : AEff) : (((u.engineTake lat).arrLater 1 e).arrLater lat f).curArr = { u.curArr with
      gbusy := some ⟨u.iss.core, u.curArr.clk, u.curArr.clk + lat⟩
      flight := u.curArr.flight ++ [⟨u.curArr.clk + 1, u.curArr.clk, e⟩] ++ [⟨u.curArr.clk + lat, u.curArr.clk, f⟩] } := by
    rw [State.curArr_arrLater, State.curArr_arrLater, State.engineTake, State.curArr_modCurArr]
  refine (harr _ _).trans ?_
  rw [List.append_assoc]
  rfl

/-- The status word lands with the verdict (R290). -/
theorem State.gchecked_lands : ∃ f ∈ (u.gchecked d lat).cur.flight, f.due = u.cur.clk + (lat + u.heldFor) ∧
    f.eff = .sreg (u.dstS d) (BitVec.ofNat 64 (u.curArr.check (mKr u.curPos.mode)).1) := by
  rw [State.gchecked, State.putS, State.cur_later]
  exact ⟨_, List.mem_append_right _ (List.mem_singleton_self _), rfl, rfl⟩

end

-- ## GSEL (R292)

/-- GSEL of word `v` (R292). -/
def State.gsel (u : State) (v : Word) : Out3 :=
  let e := bits v.toNat 5 0
  if bits v.toNat 63 6 ≠ 0 then u.range 0 (v &&& 0xFFFFFFFFFFFFFFC0)
  else if u.curArr.gn ≤ e ∨ (e ≠ 0 ∧ u.curArr.inex = 1 ∧ mFmt u.curPos.mode = 5) then u.range 0 (BitVec.ofNat 64 e)
  else if u.groupUnfit e then u.raise fGROUP u.gstatWord 0
  else .next (u.arrLater 1 (.gsel u.curP e))

theorem exec_gsel (g : Guard) (a : Code) (s : State) : exec (.gsel g a) s = groupOp (.gsel g a) s fun u => u.gsel (u.rdS a) := rfl

/-- The elements that GSEL may name (R292). -/
def State.Selectable (u : State) (e : Nat) : Prop := e < 64 ∧ e < u.curArr.gn ∧ ¬(e ≠ 0 ∧ u.curArr.inex = 1 ∧ mFmt u.curPos.mode = 5)

section
variable (u : State) {v : Word}

theorem gselReserved_eq_zero_iff : bits v.toNat 63 6 = 0 ↔ v.toNat < 64 := by
  have := v.isLt
  rw [bits]
  omega

theorem State.gsel_range (h : ¬u.Selectable v.toNat) : ∃ w0 w1, u.gsel v = u.raise fLAYRANGE w0 w1 := by
  rw [State.gsel]
  by_cases hhigh : bits v.toNat 63 6 = 0
  · have hlt := gselReserved_eq_zero_iff.1 hhigh
    have he : bits v.toNat 5 0 = v.toNat := (bits_low _ _).trans (Nat.mod_eq_of_lt hlt)
    have hunfit : u.curArr.gn ≤ v.toNat ∨ (v.toNat ≠ 0 ∧ u.curArr.inex = 1 ∧ mFmt u.curPos.mode = 5) := by
      rw [State.Selectable] at h
      by_contra hno
      rw [not_or, Nat.not_le] at hno
      exact h ⟨hlt, hno⟩
    rw [if_neg (not_not.2 hhigh), he, if_pos hunfit]
    exact u.range_raises _ _
  · rw [if_pos hhigh]
    exact u.range_raises _ _

theorem State.gsel_fits (h : u.Selectable v.toNat) : u.gsel v =
    if u.groupUnfit v.toNat then u.raise fGROUP u.gstatWord 0 else .next (u.arrLater 1 (.gsel u.curP v.toNat)) := by
  obtain ⟨hlt, hgn, hinexact⟩ := h
  have he : bits v.toNat 5 0 = v.toNat := (bits_low _ _).trans (Nat.mod_eq_of_lt hlt)
  rw [State.gsel, if_neg (not_not.2 (gselReserved_eq_zero_iff.2 hlt)), he, if_neg]
  exact fun k => k.elim (Nat.not_le.2 hgn) hinexact

end

end Sys2Proof.Machine
end

section
/-! SUPPORT. GORB: its word, its rows, its checks in their order, and the terms it asks to add (R293, R295, R296). -/

namespace Sys2Proof.Machine

/-- The bits of GORB's word that must be zero (R295). -/
def OrbPlain (w : Nat) : Prop := w / 2 ^ 6 % 4 = 0 ∧ w / 2 ^ 14 % 4 = 0 ∧ w / 2 ^ 23 % 2 = 0 ∧ w / 2 ^ 31 = 0
/-- The elements and operand formats that GORB may have (R295). -/
def State.OrbSuits (u : State) (e : Nat) : Prop :=
  e < u.curArr.gn ∧ u.curArr.kind ≠ 1 ∧ mFmt u.curPos.mode ≠ 5 ∧ ¬(mFmt u.curPos.mode = 3 ∧ u.curArr.inex = 1)
/-- `m` source rows from `row`, sites from `t0`, and a block at `b` of `kr` rows that meets none of them (R295). -/
def OrbPlaced (kr row b t0 m : Nat) : Prop := t0 + m ≤ kr ∧ row + m ≤ 64 ∧ b + kr ≤ 64 ∧ ¬(row < b + kr ∧ b < row + m)
/-- All rows that GORB reads or writes belong to the position (R258, R295). -/
def State.ownsOrb (u : State) (row b m : Nat) : Bool :=
  ((List.range m).all fun j => u.curArr.owns u.curP (row + j)) && (List.range (mKr u.curPos.mode)).all fun j => u.curArr.owns u.curP (b + j)

theorem orbReserved_eq_zero_iff (v : Word) : v &&& 0xFFFFFFFF8080C0C0 = 0 ↔ OrbPlain v.toNat := by
  have hfields : (0xFFFFFFFF8080C0C0 : Word) = (BitVec.ofNat 64 (2 ^ 2 - 1) <<< 6) ||| ((BitVec.ofNat 64 (2 ^ 2 - 1) <<< 14) |||
      ((BitVec.ofNat 64 (2 ^ 1 - 1) <<< 23) ||| (BitVec.ofNat 64 (2 ^ 33 - 1) <<< 31))) := by decide
  have hhigh : v.toNat / 2 ^ 31 % 2 ^ 33 = 0 ↔ v.toNat / 2 ^ 31 = 0 := by
    have := v.isLt
    omega
  rw [OrbPlain, hfields, BitVec.and_or_distrib_left, BitVec.and_or_distrib_left, BitVec.and_or_distrib_left, ← hhigh]
  exact BitVec.or_eq_zero_iff.trans (and_congr (and_field_eq_zero_iff v (k := 6) (w := 2) (by omega))
    (BitVec.or_eq_zero_iff.trans (and_congr (and_field_eq_zero_iff v (k := 14) (w := 2) (by omega))
      (BitVec.or_eq_zero_iff.trans (and_congr (and_field_eq_zero_iff v (k := 23) (w := 1) (by omega))
        (and_field_eq_zero_iff v (k := 31) (w := 33) (by omega)))))))

/-- GORB of element `e`, once its word is well formed (R293, R295, R296). -/
def State.orb (u : State) (e row b t0 m : Nat) : Out3 :=
  let q := u.curPos
  if u.groupUnfit e then u.raise fGROUP u.gstatWord 0
  else if !u.ownsOrb row b m then u.windowMiss
  else .next (u.arrLater (6 + m) (.gorb b (mNc q.mode) (mFmt q.mode) (u.curArr.orbTerms (mFmt q.mode) (mNc q.mode) e t0 m row)))

/-- GORB of word `v` from `row` (R295). -/
def State.gorb (u : State) (v : Word) (row : Nat) : Out3 :=
  let e := bits v.toNat 5 0
  let b := v.toNat / 2 ^ 8 % 64
  let t0 := v.toNat / 2 ^ 16 % 128
  let m := v.toNat / 2 ^ 24 % 128 + 1
  let kr := mKr u.curPos.mode
  let f := mFmt u.curPos.mode
  if v &&& 0xFFFFFFFF8080C0C0 ≠ 0 then u.range 0 (v &&& 0xFFFFFFFF8080C0C0)
  else if u.curArr.gn ≤ e ∨ u.curArr.kind = 1 ∨ f = 5 ∨ (f = 3 ∧ u.curArr.inex = 1) then u.range 0 (BitVec.ofNat 64 e)
  else if kr < t0 + m then u.range 0 (BitVec.ofNat 64 t0)
  else if 64 < row + m then u.range 0 (BitVec.ofNat 64 row)
  else if 64 < b + kr ∨ decide (row < b + kr ∧ b < row + m) = true then u.range 0 (BitVec.ofNat 64 b)
  else u.orb e row b t0 m

theorem exec_gorb (g : Guard) (r a : Code) (s : State) :
    exec (.gorb g r a) s = groupOp (.gorb g r a) s fun u => u.gorb (u.rdS a) r.toNat := by
  have hmiss (u : State) (row b m : Nat) : (!u.ownsOrb row b m) = (!((List.range m).all fun j => u.curArr.owns u.curP (row + j)) ||
      !((List.range (mKr u.curPos.mode)).all fun j => u.curArr.owns u.curP (b + j))) := Bool.not_and _ _
  simp only [State.gorb, State.orb, hmiss]
  rfl

/-- GORB's word `v` and its `row` fit the group and the mode (R295). -/
def State.OrbFormed (u : State) (v : Word) (row : Nat) : Prop :=
  let w := v.toNat
  OrbPlain w ∧ u.OrbSuits (w % 64) ∧ OrbPlaced (mKr u.curPos.mode) row (w / 2 ^ 8 % 64) (w / 2 ^ 16 % 128) (w / 2 ^ 24 % 128 + 1)

section
variable (u : State) {v : Word} {row : Nat}

theorem State.orbSuits_iff {e : Nat} : ¬(u.curArr.gn ≤ e ∨ u.curArr.kind = 1 ∨ mFmt u.curPos.mode = 5 ∨
    (mFmt u.curPos.mode = 3 ∧ u.curArr.inex = 1)) ↔ u.OrbSuits e := by
  rw [not_or, not_or, not_or, Nat.not_le]
  rfl

theorem State.gorb_range (h : ¬u.OrbFormed v row) : ∃ w0 w1, u.gorb v row = u.raise fLAYRANGE w0 w1 := by
  have hlow : bits v.toNat 5 0 = v.toNat % 64 := bits_low _ 5
  rw [State.gorb, hlow]
  split_ifs with hplain hsuits hsites hrows hblock
  · exact u.range_raises _ _
  · exact u.range_raises _ _
  · exact u.range_raises _ _
  · exact u.range_raises _ _
  · exact u.range_raises _ _
  · rw [ne_eq, not_not, orbReserved_eq_zero_iff] at hplain
    rw [State.orbSuits_iff] at hsuits
    rw [not_or, decide_eq_true_eq, Nat.not_lt] at hblock
    exact absurd ⟨hplain, hsuits, Nat.not_lt.1 hsites, Nat.not_lt.1 hrows, hblock⟩ h

theorem State.gorb_formed (h : u.OrbFormed v row) : u.gorb v row =
    u.orb (v.toNat % 64) row (v.toNat / 2 ^ 8 % 64) (v.toNat / 2 ^ 16 % 128) (v.toNat / 2 ^ 24 % 128 + 1) := by
  obtain ⟨hplain, hsuits, hsites, hrows, hblock, hapart⟩ := h
  have hplace : ¬(64 < v.toNat / 2 ^ 8 % 64 + mKr u.curPos.mode ∨ decide (row < v.toNat / 2 ^ 8 % 64 + mKr u.curPos.mode ∧
      v.toNat / 2 ^ 8 % 64 < row + (v.toNat / 2 ^ 24 % 128 + 1)) = true) := by
    rw [decide_eq_true_eq, not_or, Nat.not_lt]
    exact ⟨hblock, hapart⟩
  have hlow : bits v.toNat 5 0 = v.toNat % 64 := bits_low _ 5
  rw [State.gorb, hlow, if_neg (not_not.2 ((orbReserved_eq_zero_iff v).2 hplain)), if_neg (u.orbSuits_iff.2 hsuits),
    if_neg (Nat.not_lt.2 hsites), if_neg (Nat.not_lt.2 hrows), if_neg hplace]

/-- In shared mode GORB keeps to the rows of its position (R258, R295). -/
theorem State.ownsOrb_iff {b m : Nat} : u.ownsOrb row b m = true ↔
    (u.curArr.mode = 2 → ∀ j, row ≤ j ∧ j < row + m ∨ b ≤ j ∧ j < b + mKr u.curPos.mode → j / 32 = u.iss.core % 2) := by
  simp only [State.ownsOrb, Bool.and_eq_true, List.all_eq_true, List.mem_range, State.curP, Arr.owns_iff]
  constructor
  · rintro ⟨hsource, hblock⟩ hm j (⟨hlo, hhi⟩ | ⟨hlo, hhi⟩)
    · have := hsource (j - row) (by omega) hm
      rwa [Nat.add_sub_cancel' hlo] at this
    · have := hblock (j - b) (by omega) hm
      rwa [Nat.add_sub_cancel' hlo] at this
  · exact fun h => ⟨fun j hj hm => h hm _ (Or.inl (by omega)), fun j hj hm => h hm _ (Or.inr (by omega))⟩

end

section
variable (u : State) {e row b t0 m : Nat}

theorem State.orb_unfit (h : u.groupUnfit e = true) : ∃ w0 w1, u.orb e row b t0 m = u.raise fGROUP w0 w1 := ⟨_, _, if_pos h⟩

theorem State.orb_miss (h : u.groupUnfit e = false) (hown : u.ownsOrb row b m = false) :
    ∃ w0 w1, u.orb e row b t0 m = u.raise fWINDOW w0 w1 := by
  rw [State.orb, h, hown]
  exact u.windowMiss_raises

theorem State.orb_goes (h : u.groupUnfit e = false) (hown : u.ownsOrb row b m = true) : u.orb e row b t0 m =
    .next (u.arrLater (6 + m) (.gorb b (mNc u.curPos.mode) (mFmt u.curPos.mode)
      (u.curArr.orbTerms (mFmt u.curPos.mode) (mNc u.curPos.mode) e t0 m row))) := by
  rw [State.orb, h, hown]
  rfl

end

/-- The terms of a GORB, site by site (R296). -/
theorem Arr.orbTerms_eq (A : Arr) (f nc h t0 m row : Nat) : A.orbTerms f nc h t0 m row = (List.range m).flatMap fun j =>
    let e := ((A.table h).lane (t0 + j)).toNat
    let x := (List.range nc).map fun c => accNum f (rowEl (A.row (row + j)) c)
    let wt := e / 2 ^ 16 % 2 ^ 8
    if h = 0 then [(t0 + j, .fin false 1 0, x)]
    else if A.inex = 0 then [(e % 2 ^ 7, .fin false 1 0, x)]
    else if wt = 0 then [(e % 2 ^ 7, .fin false 256 (-8), x)]
    else [(e % 2 ^ 7, .fin false (256 - wt) (-8), x), (e / 2 ^ 8 % 2 ^ 7, .fin false wt (-8), x)] := by
  refine congrArg (fun terms => (List.range m).flatMap terms) (funext fun j => ?_)
  dsimp only
  rw [show ((A.table h).lane (t0 + j)).toNat = A.entry h (t0 + j) from rfl, ← entA_eq, ← entB_eq, ← entW_eq]
  by_cases hw : entW (A.entry h (t0 + j)) = 0
  · simp only [hw, if_true, List.append_nil, Nat.sub_zero]
  · simp only [if_neg hw, List.cons_append, List.nil_append]

end Sys2Proof.Machine
end

section
/-! SUPPORT. GSTAT, field by field (R297). -/

namespace Sys2Proof.Machine

/-- A GLOAD or GCHK is in flight; one of another core than `c` (R298). -/
def Arr.engaged (a : Arr) : Bool := a.gbusy.any fun b => decide (a.clk < b.until_)
def Arr.engagedFor (a : Arr) (c : Nat) : Bool := a.gbusy.any fun b => decide (a.clk < b.until_) && decide (b.core ≠ c)

theorem Arr.engaged_iff {a : Arr} : a.engaged = true ↔ ∃ b, a.gbusy = some b ∧ a.clk < b.until_ := by
  simp only [Arr.engaged, Option.any_eq_true, decide_eq_true_eq]

theorem Arr.engagedFor_iff {a : Arr} {c : Nat} :
    a.engagedFor c = true ↔ ∃ b, a.gbusy = some b ∧ a.clk < b.until_ ∧ b.core ≠ c := by
  simp only [Arr.engagedFor, Option.any_eq_true, Bool.and_eq_true, decide_eq_true_eq]

theorem Arr.gstat_eq (a : Arr) (p c : Nat) : a.gstat p c = BitVec.ofNat 64 (a.krc % 2 ^ 7 * 2 ^ 48 + a.dev % 2 ^ 16 * 2 ^ 32 +
    (a.pos p).ldc % 2 ^ 6 * 2 ^ 24 + (a.pos p).sel % 2 ^ 6 * 2 ^ 16 + b2n (a.engagedFor c) (2 ^ 12) + b2n a.engaged (2 ^ 11) +
    a.chk % 2 ^ 2 * 2 ^ 9 + a.inex % 2 * 2 ^ 8 + a.kind % 2 ^ 2 * 2 ^ 6 + (a.gn - 1) % 2 ^ 6) := by
  rw [Arr.gstat, Arr.engagedFor, Arr.engaged]
  cases a.gbusy <;> rfl

theorem b2n_two_pow (b : Bool) (k : Nat) : b2n b (2 ^ k) = b.toNat * 2 ^ k := by
  cases b
  · exact (Nat.zero_mul _).symm
  · exact (Nat.one_mul _).symm

theorem exec_gstat (g : Guard) (d : Code) (s : State) :
    exec (.gstat g d) s = gop (.gstat g d) false s fun u => .next (u.putS 1 0 d (u.curArr.gstat u.curP u.iss.core)) := rfl

/-- The fields of GSTAT, from bit 0 up (R297). -/
theorem Arr.gstat_fields (a : Arr) (p c : Nat) : let n := (a.gstat p c).toNat
    n % 2 ^ 6 = (a.gn - 1) % 2 ^ 6 ∧ n / 2 ^ 6 % 2 ^ 2 = a.kind % 2 ^ 2 ∧ n / 2 ^ 8 % 2 = a.inex % 2 ∧ n / 2 ^ 9 % 2 ^ 2 = a.chk % 2 ^ 2 ∧
    n / 2 ^ 11 % 2 = a.engaged.toNat ∧ n / 2 ^ 12 % 2 = (a.engagedFor c).toNat ∧ n / 2 ^ 13 % 2 ^ 3 = 0 ∧
    n / 2 ^ 16 % 2 ^ 6 = (a.pos p).sel % 2 ^ 6 ∧ n / 2 ^ 22 % 2 ^ 2 = 0 ∧ n / 2 ^ 24 % 2 ^ 6 = (a.pos p).ldc % 2 ^ 6 ∧
    n / 2 ^ 30 % 2 ^ 2 = 0 ∧ n / 2 ^ 32 % 2 ^ 16 = a.dev % 2 ^ 16 ∧ n / 2 ^ 48 % 2 ^ 7 = a.krc % 2 ^ 7 ∧ n / 2 ^ 55 = 0 := by
  have hbusy := a.engaged.toNat_lt
  have hother := (a.engagedFor c).toNat_lt
  rw [Arr.gstat_eq, BitVec.toNat_ofNat, b2n_two_pow, b2n_two_pow]
  generalize a.gn - 1 = n
  omega

end Sys2Proof.Machine
end

section
/-! SUPPORT. The words of the group engine, statement by statement (R284, R285, R288, R290, R292, R295 to R298). -/

namespace Sys2Proof.Machine

/-- Settles O35: the engine's words in their frames, each with its checks in order and its effect. -/
theorem groupEngine : Obligations.GroupEngine := by
  intro s g a d n r me pair A q kr nc owns idle compute passed
  have hpassed (i : Instr) (e : Nat) : (s.entered i).groupUnfit e = true ↔ ¬passed e := by
    rw [State.groupUnfit_iff, State.entered_curArr, State.entered_curPos]
    rfl
  refine ⟨fun h hc ho ⟨hfree, hrival⟩ => ?gload, fun h hc ho ⟨hfree, hrival⟩ => ?gchk,
    fun b hb ht hcore => ⟨engineOp_illegal _ hb ht hcore, engineOp_illegal _ hb ht hcore⟩,
    fun b hb ht hcore hc => ⟨fun h => engineOp_miss _ h hc hb ht hcore, fun h => engineOp_miss _ h hc hb ht hcore⟩, fun h hc ho => ?gsel,
    fun h hc ho => ?gorb, fun hc ho i hi h => ?unowned, fun f h t0 m row => A.orbTerms_eq f nc h t0 m row, fun h hc => ?gstat⟩
  case gload =>
    intro u w m kind inex unit units legal
    have hgo : exec (.gload g a n) s = u.gload (u.rdS a) m := (exec_gload g a n s).trans (engineOp_goes _ h hc ho hfree hrival)
    have hlegal (hl : legal) : u.gload (u.rdS a) m = u.gloadImage w m := u.gload_legal hl
    rw [hgo]
    refine ⟨u.gload_illegal, fun hl hw => ?_, fun hl hw hend => ?_, fun hl hw hend => ?_⟩ <;> rw [hlegal hl]
    · exact u.gloadImage_misaligned hw
    · exact u.gloadImage_over hw hend
    · have hiss : u.iss = s.iss := s.entered_iss _
      have harr : u.curArr = A := s.entered_curArr _
      have hheld : u.heldFor = s.heldFor := s.entered_heldFor _
      obtain ⟨hbusy, hunits, hflight⟩ := u.gloaded_arr w (w % 2 ^ 20) m
      rw [hiss, harr] at hbusy
      rw [hiss, hheld] at hunits
      simp only [gloadFlights, State.flightOf, hiss, harr, ← List.append_assoc] at hflight
      exact ⟨_, u.gloadImage_inside hw hend, hbusy, hunits, hflight⟩
  case gchk =>
    intro lat st e fstA sndB wt prod m id sites cayley inv comp
    obtain ⟨hbit1, hbit2, hbit3, hbit4⟩ := A.check_first kr
    have hid : st.getLsbD 1 = true ↔ id := hbit1.trans (A.chkId_isSome_iff kr)
    have hsites : st.getLsbD 2 = true ↔ sites := hbit2.trans (A.chkSites_isSome_iff kr)
    have hcayley : st.getLsbD 3 = true ↔ cayley := hbit3.trans A.chkCayley_isSome_iff
    have hinv : st.getLsbD 4 = true ↔ inv := hbit4.trans A.chkInv_isSome_iff
    have hcomp : st.getLsbD 5 = true ↔ comp := by
      rw [A.check_comp, A.sound_iff, A.chkComp_isSome_iff, ← hbit1, ← hbit2, ← hbit3, ← hbit4, hid, hsites, hcayley, hinv]
      rfl
    have hnocause : st.getLsbD 0 = true ↔ ¬(id ∨ sites ∨ cayley ∨ inv ∨ comp) := (A.check_passed_iff_no_cause kr).trans
      (not_congr (or_congr hid (or_congr hsites (or_congr hcayley (or_congr hinv hcomp)))))
    refine ⟨hnocause, hid, hsites, hcayley, hinv, hcomp, ?_⟩
    have hlat : (if A.kind = 0 then A.gn * A.gn * ((kr + 15) / 16) else A.gn * ((kr + 15) / 16)) = lat := (ite_mul ..).symm
    have hgo : exec (.gchk g d) s = .next (s.gchecked d lat) := by
      rw [exec_gchk, engineOp_goes _ h hc ho hfree hrival, State.entered_of_no_source rfl rfl, ← hlat]
      rfl
    have harr := s.gchecked_arr d lat
    refine ⟨_, hgo, ?_, ?_, s.gchecked_lands d lat⟩ <;> rw [harr] <;> rfl
  case gsel =>
    intro u e fits
    have hgo : exec (.gsel g a) s = u.gsel (u.rdS a) := (exec_gsel g a s).trans (groupOp_goes _ h hc ho)
    have hfits : u.Selectable e ↔ fits := by
      rw [State.Selectable, s.entered_curArr, s.entered_curPos]
      rfl
    have hP : u.curP = me := s.entered_curP _
    rw [hgo, ← hfits]
    refine ⟨fun hf hp => ?_, fun hf hp => ?_, fun hf => u.gsel_range hf⟩ <;> rw [u.gsel_fits hf]
    · rw [if_neg (mt (hpassed _ _).1 (not_not.2 hp)), hP]
    · exact ⟨_, _, if_pos ((hpassed _ _).2 hp)⟩
  case gorb =>
    intro u w e b t0 m row f plain suits placed mine
    have harr : u.curArr = A := s.entered_curArr _
    have hpos : u.curPos = q := s.entered_curPos _
    have hgo : exec (.gorb g r a) s = u.gorb (u.rdS a) row := (exec_gorb g r a s).trans (groupOp_goes _ h hc ho)
    have hformed : u.OrbFormed (u.rdS a) row ↔ plain ∧ suits ∧ placed := by
      rw [State.OrbFormed, State.OrbSuits, harr, hpos]
      rfl
    have hmine : u.ownsOrb row b m = true ↔ mine := by
      rw [State.ownsOrb_iff, harr, hpos, s.entered_iss]
    have horb (hpl : plain) (hs : suits) (hat : placed) : u.gorb (u.rdS a) row = u.orb e row b t0 m :=
      u.gorb_formed (hformed.2 ⟨hpl, hs, hat⟩)
    have hfit (hp : passed e) : u.groupUnfit e = false := Bool.eq_false_iff.2 (mt (hpassed _ _).1 (not_not.2 hp))
    rw [hgo]
    refine ⟨fun hpl hs hat hp hm => ?_, fun hbad => u.gorb_range fun hf => ?_, fun hpl hs hat hp => ?_, fun hpl hs hat hp hm => ?_⟩
    · rw [horb hpl hs hat, u.orb_goes (hfit hp) (hmine.2 hm), hpos, harr]
    · obtain ⟨hpl, hs, hat⟩ := hformed.1 hf
      exact hbad.elim (absurd hpl) fun hbad => hbad.elim (absurd hs) (absurd hat)
    · rw [horb hpl hs hat]
      exact u.orb_unfit ((hpassed _ _).2 hp)
    · rw [horb hpl hs hat]
      exact u.orb_miss (hfit hp) (Bool.eq_false_iff.2 (mt hmine.1 hm))
  case unowned =>
    rcases hi with rfl | rfl <;> exact groupOp_miss _ h hc ho
  case gstat =>
    have hgo : exec (.gstat g d) s = .next (s.putS 1 0 d (A.gstat me s.iss.core)) := by
      rw [exec_gstat, gop, sop_runs_of h rfl hc, State.entered_of_no_source rfl rfl]
      rfl
    obtain ⟨hgn, hkind, hinex, hchk, hbusy, hother, hrest⟩ := A.gstat_fields me s.iss.core
    refine ⟨_, hgo, hgn, hkind, hinex, hchk, ?_, ?_, hrest⟩
    · rw [hbusy, Bool.toNat_eq_one]
      exact Arr.engaged_iff
    · rw [hother, Bool.toNat_eq_one]
      exact Arr.engagedFor_iff

end Sys2Proof.Machine
end

-- ==== The canonical form of the memories: what holds it

section
/-! SUPPORT. The memories of the machine as one condition (`State.tidy`), and what a change of a core, of a die or of another place does to it. -/

namespace Sys2Proof.Machine

/-- A value found in a map has what all of its values have, and so has the default where none stands. -/
theorem NMap.all_getD {α : Type} {p : α → Bool} {m : NMap α} {d : α} (hd : p d = true) (k : Nat)
    (h : (m.all fun q => p q.2) = true) : p (NMap.getD m k d) = true := by
  induction m with
  | nil => exact hd
  | cons q m ih =>
    obtain ⟨j, u⟩ := q
    simp only [List.all_cons, Bool.and_eq_true] at h
    simp only [NMap.getD, NMap.get?]
    split
    · exact h.1
    · exact ih h.2

/-- Setting a value that has a property keeps it for all values of the map. -/
theorem NMap.all_set {α : Type} {p : α → Bool} {m : NMap α} {k : Nat} {v : α} (hv : p v = true)
    (h : (m.all fun q => p q.2) = true) : ((NMap.set m k v).all fun q => p q.2) = true := by
  induction m with
  | nil => simp [NMap.set, hv]
  | cons q m ih =>
    obtain ⟨j, u⟩ := q
    simp only [List.all_cons, Bool.and_eq_true] at h
    rw [NMap.set]
    split_ifs
    · simp [hv, h]
    · simp [hv, h]
    · simp [h, ih]

/-- All values have a property as before where the one that stood at `k` is replaced by one that has it where that one had. -/
theorem NMap.all_modify {α : Type} {p : α → Bool} {m : NMap α} {d v : α} (hd : p d = true) (k : Nat)
    (hv : p v = p (NMap.getD m k d)) : ((NMap.set m k v).all fun q => p q.2) = m.all fun q => p q.2 := by
  induction m with
  | nil => simpa [NMap.set, NMap.getD, NMap.get?, hd] using hv
  | cons q m ih =>
    obtain ⟨j, u⟩ := q
    rw [NMap.set]
    split_ifs with h1 h2
    · rw [List.all_cons, hv]
      refine Bool.eq_iff_iff.mpr ⟨fun h => (Bool.and_eq_true _ _ ▸ h).2, fun h => ?_⟩
      rw [h, NMap.all_getD hd k h]
      rfl
    · simp [hv, NMap.getD, NMap.get?, h2]
    · have hj : NMap.getD ((j, u) :: m) k d = NMap.getD m k d := by
        simp [NMap.getD, NMap.get?, Ne.symm h2]
      rw [List.all_cons, List.all_cons, ih (hj ▸ hv)]

/-- The memories of a core are canonical: the scratchpad, and the one that a held bundle found. -/
def spadsWf (spad : Memory) (first : Option First) : Bool := spad.wf && first.all fun f => f.spad.wf
/-- `Core.canon`, reducible: an update of any other field is seen to leave it. -/
abbrev Core.tidy (k : Core) : Bool := spadsWf k.spad k.first
/-- `Die.canon`, likewise. -/
abbrev Die.tidy (d : Die) : Bool := d.view.wf && d.l2.wf
/-- The memories of the machine are canonical, said of the three fields that hold them. -/
def memoriesWf (hbm : Memory) (cores : NMap Core) (dies : NMap Die) : Bool :=
  hbm.wf && (cores.all fun q => q.2.tidy) && dies.all fun q => q.2.tidy
/-- `State.canon`, likewise. -/
abbrev State.tidy (s : State) : Bool := memoriesWf s.hbm s.cores s.dies
/-- Where an outcome answers a next state, its memories are canonical. -/
def Out3.canon : Out3 → Bool
  | .next t => t.canon
  | _ => true

theorem Core.canon_eq_tidy (k : Core) : k.canon = k.tidy := by
  cases h : k.first <;> simp [Core.canon, spadsWf, h]
@[simp] theorem State.canon_eq_tidy (s : State) : s.canon = s.tidy := by
  simp only [State.canon, Core.canon_eq_tidy]
  rfl
/-- What leaves the memories as they are keeps them canonical. -/
theorem State.canon_of {s t : State} (e : t.tidy = s.tidy) (h : s.canon = true) : t.canon = true := by
  rw [State.canon_eq_tidy] at h ⊢
  rw [e, h]

-- the three fields, and their changes

theorem memoriesWf_iff {hbm : Memory} {cores : NMap Core} {dies : NMap Die} : memoriesWf hbm cores dies = true ↔
    hbm.wf = true ∧ (cores.all fun q => q.2.tidy) = true ∧ (dies.all fun q => q.2.tidy) = true := by
  simp only [memoriesWf, Bool.and_eq_true, and_assoc]
theorem State.canon_iff {s : State} : s.canon = true ↔
    s.hbm.wf = true ∧ (s.cores.all fun q => q.2.tidy) = true ∧ (s.dies.all fun q => q.2.tidy) = true := by
  rw [State.canon_eq_tidy]
  exact memoriesWf_iff
/-- A state that has another's memories has them canonical where that one has. -/
theorem State.canon_of_fields {s t : State} (h : s.canon = true) (hh : t.hbm = s.hbm) (hc : t.cores = s.cores) (hd : t.dies = s.dies) :
    t.canon = true :=
  State.canon_of (by rw [State.tidy, hh, hc, hd]) h
theorem State.core_tidy {s : State} (h : s.canon = true) (c : Nat) : (s.core c).tidy = true :=
  NMap.all_getD (p := Core.tidy) rfl c (State.canon_iff.mp h).2.1
theorem State.die_tidy {s : State} (h : s.canon = true) (d : Nat) : (s.die d).tidy = true :=
  NMap.all_getD (p := Die.tidy) rfl d (State.canon_iff.mp h).2.2
@[simp] theorem State.modCore_tidy (s : State) (c : Nat) (f : Core → Core) (hf : (f (s.core c)).tidy = (s.core c).tidy) :
    (s.modCore c f).tidy = s.tidy :=
  congrArg (fun b => s.hbm.wf && b && s.dies.all fun q => q.2.tidy) (NMap.all_modify (p := Core.tidy) (d := {}) rfl c hf)
@[simp] theorem State.modDie_tidy (s : State) (d : Nat) (f : Die → Die) (hf : (f (s.die d)).tidy = (s.die d).tidy) :
    (s.modDie d f).tidy = s.tidy :=
  congrArg (fun b => s.hbm.wf && (s.cores.all fun q => q.2.tidy) && b) (NMap.all_modify (p := Die.tidy) (d := {}) rfl d hf)
theorem State.setCore_canon {s : State} (c : Nat) {k : Core} (hk : k.tidy = true) (h : s.canon = true) :
    (s.setCore c k).canon = true :=
  have ⟨hh, hc, hd⟩ := State.canon_iff.mp h
  State.canon_iff.mpr ⟨hh, NMap.all_set (p := Core.tidy) hk hc, hd⟩
theorem State.modCore_canon {s : State} (c : Nat) {f : Core → Core} (hf : (s.core c).tidy = true → (f (s.core c)).tidy = true)
    (h : s.canon = true) : (s.modCore c f).canon = true :=
  State.setCore_canon c (hf (s.core_tidy h c)) h
theorem State.modDie_canon {s : State} (d : Nat) {f : Die → Die} (hf : (s.die d).tidy = true → (f (s.die d)).tidy = true)
    (h : s.canon = true) : (s.modDie d f).canon = true :=
  have ⟨hh, hc, hd⟩ := State.canon_iff.mp h
  State.canon_iff.mpr ⟨hh, hc, NMap.all_set (p := Die.tidy) (hf (s.die_tidy h d)) hd⟩
theorem memoriesWf_map_cores (hbm : Memory) (cores : NMap Core) (dies : NMap Die) (f : Nat × Core → Nat × Core)
    (hf : ∀ q, (f q).2.tidy = q.2.tidy) : memoriesWf hbm (cores.map f) dies = memoriesWf hbm cores dies := by
  simp only [memoriesWf, List.all_map, Function.comp_def, hf]
theorem memoriesWf_map_dies (hbm : Memory) (cores : NMap Core) (dies : NMap Die) (f : Nat × Die → Nat × Die)
    (hf : ∀ q, (f q).2.tidy = q.2.tidy) : memoriesWf hbm cores (dies.map f) = memoriesWf hbm cores dies := by
  simp only [memoriesWf, List.all_map, Function.comp_def, hf]

-- a choice, a fold

@[simp] theorem State.ite_tidy (p : Prop) [Decidable p] (a b : State) : (if p then a else b).tidy = if p then a.tidy else b.tidy := by
  split <;> rfl
@[simp] theorem Core.ite_tidy (p : Prop) [Decidable p] (a b : Core) : (if p then a else b).tidy = if p then a.tidy else b.tidy := by
  split <;> rfl
theorem State.ite_canon {p : Prop} [Decidable p] {a b : State} (ha : p → a.canon = true) (hb : ¬p → b.canon = true) :
    (if p then a else b).canon = true := by
  split
  · exact ha ‹_›
  · exact hb ‹_›
theorem Out3.ite_canon {p : Prop} [Decidable p] {a b : Out3} (ha : p → a.canon = true) (hb : ¬p → b.canon = true) :
    (if p then a else b).canon = true := by
  split
  · exact ha ‹_›
  · exact hb ‹_›
theorem foldl_tidy {α : Type} (f : State → α → State) (hf : ∀ s a, (f s a).tidy = s.tidy) (l : List α) (s : State) :
    (l.foldl f s).tidy = s.tidy := foldl_keeps State.tidy f l (fun a _ s => hf s a) s
theorem foldl_canon {α : Type} {f : State → α → State} (hf : ∀ s a, s.canon = true → (f s a).canon = true) (l : List α) {s : State}
    (h : s.canon = true) : (l.foldl f s).canon = true := by
  induction l generalizing s with
  | nil => exact h
  | cons a l ih => exact ih (hf s a h)

-- the places of the state that hold no memory

@[simp] theorem Core.modCtx_tidy (k : Core) (x : Nat) (f : Ctx → Ctx) : (k.modCtx x f).tidy = k.tidy := rfl
@[simp] theorem State.modCtx_tidy (s : State) (c x : Nat) (f : Ctx → Ctx) : (s.modCtx c x f).tidy = s.tidy := State.modCore_tidy s c _ rfl
@[simp] theorem State.modCurCore_tidy (s : State) (f : Core → Core) (hf : (f s.curCore).tidy = s.curCore.tidy) : (s.modCurCore f).tidy = s.tidy :=
  State.modCore_tidy s _ _ hf
@[simp] theorem State.modIss_tidy (s : State) (f : Iss → Iss) : (s.modIss f).tidy = s.tidy := rfl
@[simp] theorem State.modArr_tidy (s : State) (p : Nat) (f : Arr → Arr) : (s.modArr p f).tidy = s.tidy := rfl
@[simp] theorem State.modCurArr_tidy (s : State) (f : Arr → Arr) : (s.modCurArr f).tidy = s.tidy := rfl
@[simp] theorem State.modCur_tidy (s : State) (f : Ctx → Ctx) : (s.modCur f).tidy = s.tidy := s.modCtx_tidy _ _ f

end Sys2Proof.Machine
end

-- ==== The canonical form of the memories: what leaves the memories alone

section
/-! SUPPORT. The operations that write no memory, in the order of the model: each leaves the condition as it is. -/

namespace Sys2Proof.Machine

@[simp] theorem State.later_tidy (s : State) (lat : Nat) (causes : Causes) (e : Eff) : (s.later lat causes e).tidy = s.tidy := by
  simp only [State.later, State.tidy, State.modCur_tidy]
@[simp] theorem State.putS_tidy (s : State) (lat : Nat) (causes : Causes) (d : Code) (v : Word) : (s.putS lat causes d v).tidy = s.tidy := by
  simp only [State.putS, State.tidy, State.later_tidy]
@[simp] theorem State.putV_tidy (s : State) (lat : Nat) (causes : Causes) (d : Code) (v : Vec) : (s.putV lat causes d v).tidy = s.tidy := by
  simp only [State.putV, State.tidy, State.later_tidy]
@[simp] theorem State.note_tidy (s : State) (causes : Causes) : (s.note causes).tidy = s.tidy := by
  simp only [State.note, State.tidy, State.ite_tidy, ite_self, State.later_tidy]
@[simp] theorem State.unitLater_tidy (s : State) (lat port : Nat) (e : UEff) : (s.unitLater lat port e).tidy = s.tidy := by
  simp only [State.unitLater, State.tidy, Core.tidy, State.modCurCore_tidy]
@[simp] theorem State.arrLater_tidy (s : State) (lat : Nat) (e : AEff) : (s.arrLater lat e).tidy = s.tidy := by
  simp only [State.arrLater, State.tidy, State.modCurArr_tidy]
@[simp] theorem Core.reschedule_tidy (k : Core) (from_ : Nat) : (k.reschedule from_).tidy = k.tidy := by
  unfold Core.reschedule
  split <;> simp only [Core.tidy, Core.ite_tidy, ite_self, Core.modCtx_tidy]
@[simp] theorem State.logAt_tidy (s : State) (code core ctx world : Nat) (a b : Word) : (s.logAt code core ctx world a b).tidy = s.tidy := by
  simp only [State.logAt, State.tidy, State.ite_tidy, ite_self]
@[simp] theorem State.logW_tidy (s : State) (code w : Nat) (a b : Word) : (s.logW code w a b).tidy = s.tidy := by
  simp only [State.logW, State.tidy, State.logAt_tidy]
@[simp] theorem State.log_tidy (s : State) (code : Nat) (a b : Word) : (s.log code a b).tidy = s.tidy := by
  simp only [State.log, State.tidy, State.logW_tidy]
@[simp] theorem State.logWho_tidy (s : State) (q : Who) (code : Nat) (a b : Word) : (s.logWho q code a b).tidy = s.tidy := by
  simp only [State.logWho, State.tidy, State.logAt_tidy]
@[simp] theorem State.deliver_tidy (s : State) (r : FRef) (d y reg : Nat) : (s.deliver r d y reg).tidy = s.tidy := by
  simp only [State.deliver, State.tidy, State.modCtx_tidy]
theorem State.pickOf_tidy {α : Type} (s : State) (l : List α) : (s.pickOf l).2.tidy = s.tidy := by
  unfold State.pickOf
  split <;> rfl
theorem State.pickOf_tidy_of {α : Type} {s s' : State} {l : List α} {o : Option α} (e : s.pickOf l = (o, s')) : s'.tidy = s.tidy := by
  rw [← State.pickOf_tidy s l, e]
@[simp] theorem State.overflow_tidy (s : State) (v : NMap (List FRef)) : { s with overflow := v }.tidy = s.tidy := rfl
@[simp] theorem State.offerSupervisor_tidy (s : State) (r : FRef) : (s.offerSupervisor r).tidy = s.tidy := by
  unfold State.offerSupervisor
  dsimp only
  split
  · next e => rw [State.deliver_tidy, State.pickOf_tidy_of e]
  · next t e => exact (State.overflow_tidy _ _).trans ((State.logAt_tidy ..).trans (State.pickOf_tidy_of e))
theorem State.pickOf_unless_tidy_of {α : Type} {s s' : State} {l : List α} {o : Option α} {b : Bool}
    (e : (if b = true then (none, s) else s.pickOf l) = (o, s')) : s'.tidy = s.tidy := by
  split at e
  · cases e
    rfl
  · exact State.pickOf_tidy_of e
@[simp] theorem State.offer_tidy (s : State) (r : FRef) : (s.offer r).tidy = s.tidy := by
  unfold State.offer
  dsimp only
  split
  · exact State.logAt_tidy ..
  · split
    · exact State.offerSupervisor_tidy ..
    · split
      · exact State.offerSupervisor_tidy ..
      · split
        · next e => rw [State.deliver_tidy, State.pickOf_unless_tidy_of e]
        · next e => rw [State.ite_tidy, State.offerSupervisor_tidy, ite_self, State.pickOf_unless_tidy_of e]
@[simp] theorem State.offerAll_tidy (s : State) : s.offerAll.tidy = s.tidy := by
  simp only [State.offerAll, State.tidy, implies_true, foldl_tidy, State.offer_tidy]
@[simp] theorem State.freeze_tidy (s : State) (fs : List (Nat × Nat × Word × Word)) (deferred waitF : Bool) :
    (s.freeze fs deferred waitF).tidy = s.tidy := by
  unfold State.freeze
  split <;> simp only [State.tidy, Core.tidy, Core.ite_tidy, ite_self, State.modCtx_tidy, State.modCore_tidy, Core.reschedule_tidy]
@[simp] theorem State.modChan_tidy (s : State) (cl n : Nat) (f : Channel → Channel) : (s.modChan cl n f).tidy = s.tidy := by
  simp only [State.modChan, State.tidy]
@[simp] theorem State.transfer_tidy (s : State) (x : Xfer) : (s.transfer x).tidy = s.tidy := by
  simp only [State.transfer, State.tidy, State.ite_tidy, ite_self, State.modIss_tidy]
@[simp] theorem State.startLoop_tidy (s : State) (n len drain kind : Nat) : (s.startLoop n len drain kind).tidy = s.tidy := by
  simp only [State.startLoop, State.tidy, State.ite_tidy, ite_self, State.transfer_tidy, State.modIss_tidy]
@[simp] theorem State.await_tidy (s : State) (w : Wait) : (s.await w).tidy = s.tidy := by
  simp only [State.await, State.tidy, State.modIss_tidy]
@[simp] theorem State.setAllot_tidy (s : State) (ns nv : Nat) : (s.setAllot ns nv).tidy = s.tidy := by
  simp only [State.setAllot, State.tidy, State.modCur_tidy, State.modIss_tidy]
@[simp] theorem State.originate_tidy (s : State) (d pa : Nat) (data : List Byte) (mark : Bool) : (s.originate d pa data mark).1.tidy = s.tidy := by
  simp only [State.originate, State.tidy, Die.tidy, State.modDie_tidy, foldl_tidy, implies_true]
@[simp] theorem State.markLast_tidy (s : State) (d pa n : Nat) : (s.markLast d pa n).tidy = s.tidy := by
  simp only [State.markLast, State.tidy, Die.tidy, Die.mark, State.originate_tidy, State.modDie_tidy]
@[simp] theorem State.holdIssue_tidy (s : State) : s.holdIssue.tidy = s.tidy := by
  simp only [State.holdIssue, State.tidy, State.modIss_tidy]
@[simp] theorem State.logBad_tidy (s : State) (q : Who) (code : Nat) (d1 : Word) : (s.logBad q code d1).tidy = s.tidy := by
  simp only [State.logBad, State.tidy, State.ite_tidy, ite_self, State.logWho_tidy]
@[simp] theorem State.logLine_tidy (s : State) (q : Who) (cause line : Nat) : (s.logLine q cause line).tidy = s.tidy := by
  simp only [State.logLine, State.tidy, State.ite_tidy, ite_self, State.logBad_tidy]
@[simp] theorem State.invalidate_tidy (s : State) (d : Nat) (p : TlbEntry → Bool) : (s.invalidate d p).tidy = s.tidy := by
  refine memoriesWf_map_cores _ _ _ _ fun q => ?_
  simp only [Core.ite_tidy, Core.tidy, ite_self]
@[simp] theorem State.modJob_tidy (s : State) (job : Nat) (f : Job → Job) : (s.modJob job f).tidy = s.tidy := by
  simp only [State.modJob, State.tidy]
@[simp] theorem State.addInj_tidy (s : State) (die job : Nat) : (s.addInj die job).tidy = s.tidy := by
  simp only [State.addInj, State.tidy, State.modJob_tidy]
@[simp] theorem State.subInj_tidy (s : State) (die job : Nat) : (s.subInj die job).tidy = s.tidy := by
  simp only [State.subInj, State.tidy, State.modJob_tidy]
@[simp] theorem State.addCons_tidy (s : State) (die job : Nat) : (s.addCons die job).tidy = s.tidy := by
  simp only [State.addCons, State.tidy, State.modJob_tidy]
@[simp] theorem State.windowSend_tidy (s : State) (die pa : Nat) (data : List Byte) (core access : Nat) (copy : Option (Nat × Nat × Nat)) (ctx :
    Nat) :
    (s.windowSend die pa data core access copy ctx).tidy = s.tidy := by
  simp only [State.windowSend, State.tidy, State.addInj_tidy]
@[simp] theorem State.modLaunch_tidy (s : State) (l : Nat) (f : Launch → Launch) : (s.modLaunch l f).tidy = s.tidy := by
  unfold State.modLaunch
  split <;> simp only [State.tidy]
@[simp] theorem State.orphan_tidy (s : State) (launch kind code causes core ctx gen word1 : Nat) :
    (s.orphan launch kind code causes core ctx gen word1).tidy = s.tidy := by
  simp only [State.orphan, State.tidy, State.modLaunch_tidy]
@[simp] theorem State.lateRecord_tidy (s : State) (core ctx : Nat) (gen : BitVec 16) (launch pos addr iss : Nat) (causes : Causes) :
    (s.lateRecord core ctx gen launch pos addr iss causes).tidy = s.tidy := by
  simp only [State.lateRecord, State.tidy, State.ite_tidy, ite_self, State.modCtx_tidy, State.orphan_tidy]
@[simp] theorem State.defer_tidy (s : State) (core ctx gen launch code : Nat) (d0 d1 : Word) (addr : Nat) :
    (s.defer core ctx gen launch code d0 d1 addr).tidy = s.tidy := by
  simp only [State.defer, State.tidy, State.ite_tidy, ite_self, State.modCtx_tidy, State.orphan_tidy]
@[simp] theorem State.enter_tidy (s : State) (a : Access) (sectors : Bool) : (s.enter a sectors).tidy = s.tidy := by
  simp only [State.enter, State.tidy, Core.tidy, State.modCurCore_tidy]
@[simp] theorem State.dropL1_tidy (s : State) (c pa len : Nat) : (s.dropL1 c pa len).tidy = s.tidy := by
  simp only [State.dropL1, State.tidy, Core.tidy, State.modCore_tidy]
@[simp] theorem State.request_tidy (s : State) (d cls src left : Nat) (i : Instr) : (s.request d cls src left i).tidy = s.tidy := by
  simp only [State.request, State.tidy, State.ite_tidy, ite_self]
@[simp] theorem State.askMerges_tidy (s : State) (core : Nat) (p : AmoBuf → Bool) : (s.askMerges core p).tidy = s.tidy := by
  simp only [State.askMerges, State.tidy, implies_true, foldl_tidy, State.request_tidy]
@[simp] theorem State.served_tidy (s : State) (d cls src : Nat) : (s.served d cls src).tidy = s.tidy := by
  simp only [State.served, State.tidy]
@[simp] theorem State.endWait_tidy (s : State) (c x : Nat) (p : Wait → Bool) : (s.endWait c x p).tidy = s.tidy := by
  simp only [State.endWait, State.tidy, State.modCtx_tidy]
@[simp] theorem State.endWaitAcq_tidy (s : State) (c x : Nat) (p : Wait → Bool) : (s.endWaitAcq c x p).tidy = s.tidy := by
  simp only [State.endWaitAcq, State.tidy, State.modCtx_tidy]
@[simp] theorem State.landWait_tidy (s : State) (c x : Nat) (d : Option Nat) (v : Word) : (s.landWait c x d v).tidy = s.tidy := by
  unfold State.landWait
  split <;> simp only [State.tidy, State.modCtx_tidy]
@[simp] theorem State.haltAll_tidy (s : State) (c x : Nat) : (s.haltAll c x).tidy = s.tidy := by
  simp only [State.haltAll, State.tidy, implies_true, foldl_tidy, State.modChan_tidy]
@[simp] theorem State.orphanFlag_tidy (s : State) (launch n : Nat) (f : Flag) : (s.orphanFlag launch n f).tidy = s.tidy := by
  simp only [State.orphanFlag, State.tidy, State.orphan_tidy]
@[simp] theorem State.orphanFlags_tidy (s : State) (c x : Nat) : (s.orphanFlags c x).tidy = s.tidy := by
  simp only [State.orphanFlags, State.tidy, implies_true, foldl_tidy, State.modChan_tidy, State.orphanFlag_tidy]
@[simp] theorem State.modQueue_tidy (s : State) (cl : Nat) (f : List FRef → List FRef) : (s.modQueue cl f).tidy = s.tidy := by
  simp only [State.modQueue, State.tidy]
@[simp] theorem State.modOver_tidy (s : State) (die : Nat) (f : List FRef → List FRef) : (s.modOver die f).tidy = s.tidy := by
  simp only [State.modOver, State.tidy]
@[simp] theorem State.gain_tidy (s : State) (cl : Nat) : (s.gain cl).tidy = s.tidy := by
  unfold State.gain
  split <;> simp only [State.tidy, State.modQueue_tidy, State.modOver_tidy]
@[simp] theorem State.leaveQueue_tidy (s : State) (cl : Nat) (gone : FRef → Bool) : (s.leaveQueue cl gone).tidy = s.tidy := by
  simp only [State.leaveQueue, State.tidy, implies_true, foldl_tidy, State.gain_tidy, State.modQueue_tidy]
@[simp] theorem State.dropRefs_tidy (s : State) (c x : Nat) : (s.dropRefs c x).tidy = s.tidy := by
  simp only [State.dropRefs, State.tidy, State.modOver_tidy, State.leaveQueue_tidy]
@[simp] theorem State.drain_tidy (s : State) (cl : Nat) : (s.drain cl).tidy = s.tidy := by
  refine foldl_tidy _ (fun t q => ?_) _ _
  dsimp only
  split
  · rfl
  · split
    · rfl
    · rw [State.deliver_tidy, State.leaveQueue_tidy]
@[simp] theorem State.drainSup_tidy (s : State) (die : Nat) : (s.drainSup die).tidy = s.tidy := by
  refine foldl_tidy _ (fun t q => ?_) _ _
  dsimp only
  split
  · rfl
  · split
    · rfl
    · rw [State.deliver_tidy, State.modOver_tidy]
@[simp] theorem State.servePools_tidy (s : State) : s.servePools.tidy = s.tidy := by
  simp only [State.servePools, State.tidy, implies_true, foldl_tidy, State.drain_tidy, State.drainSup_tidy]
@[simp] theorem State.revoke_tidy (s : State) (c x : Nat) : (s.revoke c x).tidy = s.tidy := by
  unfold State.revoke
  split <;> simp only [State.tidy, State.ite_tidy, ite_self, State.modCtx_tidy, State.offerSupervisor_tidy, State.modQueue_tidy]
@[simp] theorem State.setFused_tidy (s : State) (cl : Nat) (l : Option Nat) : (s.setFused cl l).tidy = s.tidy := by
  simp only [State.setFused, State.tidy, Core.tidy, State.ite_tidy, ite_self, implies_true, foldl_tidy, State.modCore_tidy]
@[simp] theorem State.unfuse_tidy (s : State) (cl : Nat) : (s.unfuse cl).tidy = s.tidy := by
  unfold State.unfuse
  split <;> simp only [State.tidy, State.ite_tidy, ite_self, State.setFused_tidy]
@[simp] theorem State.start_tidy (s : State) (c x : Nat) (new : Ctx) : (s.start c x new).tidy = s.tidy := by
  simp only [State.start, State.tidy, Core.tidy, State.ite_tidy, ite_self, implies_true, foldl_tidy, State.orphan_tidy, State.modCtx_tidy,
    State.modCore_tidy]
@[simp] theorem State.flushQueue_tidy (s : State) (cl : Nat) : (s.flushQueue cl).tidy = s.tidy := by
  simp only [State.flushQueue, State.tidy, implies_true, foldl_tidy, State.offerSupervisor_tidy, State.leaveQueue_tidy]
@[simp] theorem State.endReservation_tidy (s : State) (l : Nat) : (s.endReservation l).tidy = s.tidy := by
  simp only [State.endReservation, State.tidy, implies_true, foldl_tidy, State.modCtx_tidy, State.flushQueue_tidy]
@[simp] theorem State.arrive_tidy (s : State) (c x : Nat) (k : Ctx) : (s.arrive c x k).tidy = s.tidy := by
  simp only [State.arrive, State.tidy, State.ite_tidy, ite_self, State.modCtx_tidy]
@[simp] theorem State.fillBar_tidy (s : State) (key : Nat) : (s.fillBar key).tidy = s.tidy := by
  unfold State.fillBar
  dsimp only
  (repeat' split) <;> simp only [State.tidy, State.modLaunch_tidy]
@[simp] theorem State.settleBars_tidy (s : State) : s.settleBars.tidy = s.tidy := by
  simp only [State.settleBars, State.tidy, implies_true, foldl_tidy, State.arrive_tidy, State.fillBar_tidy]
@[simp] theorem State.settleQuiet_tidy (s : State) : s.settleQuiet.tidy = s.tidy := by
  simp only [State.settleQuiet, State.tidy, State.ite_tidy, ite_self, implies_true, foldl_tidy, State.modCtx_tidy]
@[simp] theorem State.settleCons_tidy (s : State) : s.settleCons.tidy = s.tidy := by
  simp only [State.settleCons, State.tidy, implies_true, foldl_tidy, State.addCons_tidy]
@[simp] theorem State.counterHit_tidy (s : State) (pa : Nat) : (s.counterHit pa).tidy = s.tidy := by
  simp only [State.counterHit, State.tidy, State.ite_tidy, ite_self, implies_true, foldl_tidy, State.modCtx_tidy]
@[simp] theorem State.logCounter_tidy (s : State) (w va kind : Nat) : (s.logCounter w va kind).tidy = s.tidy := by
  unfold State.logCounter
  split <;> simp only [State.tidy, State.logLine_tidy]
@[simp] theorem State.modSlot_tidy (s : State) (n : Nat) (f : PoolSlot → PoolSlot) : (s.modSlot n f).tidy = s.tidy := by
  simp only [State.modSlot, State.tidy]
@[simp] theorem State.pend_tidy (s : State) (n : Nat) (r : LaunchRec) (w : Nat) (gang : Option (Nat × Nat × Nat × Nat)) :
    (s.pend n r w gang).tidy = s.tidy := by
  simp only [State.pend, State.tidy, State.modSlot_tidy]
@[simp] theorem State.modGang_tidy (s : State) (no : Nat) (f : Gang → Gang) : (s.modGang no f).tidy = s.tidy := by
  simp only [State.modGang, State.tidy]
@[simp] theorem State.freezeWaiting_tidy (s : State) (c x code : Nat) (d0 d1 : Word) : (s.freezeWaiting c x code d0 d1).tidy = s.tidy := by
  simp only [State.freezeWaiting, State.tidy, Core.tidy, Core.ite_tidy, ite_self, State.modCtx_tidy, State.modCore_tidy, Core.reschedule_tidy]
@[simp] theorem State.setGinc_tidy (s : State) (mine : Option (Nat × Nat × Nat × Nat) → Bool) (d : Option (Nat × Nat)) :
    (s.setGinc mine d).tidy = s.tidy := by
  simp only [State.setGinc, State.tidy]
@[simp] theorem State.markIncomplete_tidy (s : State) (job index count no : Nat) : (s.markIncomplete job index count no).tidy = s.tidy := by
  simp only [State.markIncomplete, State.tidy, State.ite_tidy, ite_self, implies_true, foldl_tidy, State.setGinc_tidy, State.freezeWaiting_tidy]
@[simp] theorem State.clearIncomplete_tidy (s : State) (job no : Nat) : (s.clearIncomplete job no).tidy = s.tidy := by
  simp only [State.clearIncomplete, State.tidy, State.setGinc_tidy]
@[simp] theorem State.gangBegin_tidy (s : State) (n : Nat) (r : LaunchRec) (w job : Nat) (nodes : List Nat) (self_ c x : Nat) (d : Option Nat) :
    (s.gangBegin n r w job nodes self_ c x d).tidy = s.tidy := by
  simp only [State.gangBegin, State.tidy, State.modSlot_tidy]
@[simp] theorem State.gangSendGo_tidy (s : State) (no : Nat) : (s.gangSendGo no).tidy = s.tidy := by
  unfold State.gangSendGo
  split <;> simp only [State.tidy, State.ite_tidy, ite_self, State.modGang_tidy, State.modSlot_tidy]
@[simp] theorem State.gangAbort_tidy (s : State) (no : Nat) : (s.gangAbort no).tidy = s.tidy := by
  unfold State.gangAbort
  split <;> simp only [State.tidy, State.ite_tidy, ite_self, State.modGang_tidy]
@[simp] theorem State.gangWhole_tidy (s : State) (no : Nat) : (s.gangWhole no).tidy = s.tidy := by
  unfold State.gangWhole
  split <;> simp only [State.tidy, State.clearIncomplete_tidy, State.modGang_tidy]
@[simp] theorem State.settleGangs_tidy (s : State) : s.settleGangs.tidy = s.tidy := by
  refine foldl_tidy _ (fun t g => ?_) _ _
  have first : (if (decide (g.phase = 0) && g.need.isEmpty) = true then (t.gangSendGo g.no).gangWhole g.no else t).tidy = t.tidy := by
    simp only [State.ite_tidy, State.gangWhole_tidy, State.gangSendGo_tidy, ite_self]
  dsimp only
  revert first
  generalize (if (decide (g.phase = 0) && g.need.isEmpty) = true then (t.gangSendGo g.no).gangWhole g.no else t) = u
  intro first
  rw [← first]
  split
  · rfl
  · split_ifs <;> simp only [State.tidy, State.modGang_tidy, State.endWait_tidy, State.landWait_tidy]
@[simp] theorem State.recordRead_tidy (s : State) : s.recordRead.tidy = s.tidy := by
  simp only [State.recordRead, State.tidy, State.served_tidy, State.askMerges_tidy]
@[simp] theorem State.logUnread_tidy (s : State) (n w : Nat) (q : (Nat × Word) × Option (Nat × Word)) :
    (match q.2 with
      | none => (s.logCounter w q.1.1 0).logW 0x28 w (BitVec.ofNat 64 n) (BitVec.ofNat 64 q.1.1)
      | some _ => s).tidy = s.tidy := by
  obtain ⟨q, _ | o⟩ := q
  · exact (State.logW_tidy ..).trans (State.logCounter_tidy ..)
  · rfl
@[simp] theorem State.evaluate_tidy (s : State) (n : Nat) : (s.evaluate n).tidy = s.tidy :=
  (State.modSlot_tidy ..).trans (foldl_tidy _ (fun t q => t.logUnread_tidy n _ q) _ _)
@[simp] theorem State.reserveSlots_tidy (s : State) (l : Nat) (r : LaunchRec) (slot depth cl : Nat) :
    (s.reserveSlots l r slot depth cl).tidy = s.tidy := by
  simp only [State.reserveSlots, State.tidy, State.ite_tidy, ite_self, implies_true, foldl_tidy, State.start_tidy]
@[simp] theorem State.newNonce_tidy (s : State) : s.newNonce.tidy = s.tidy := by
  simp only [State.newNonce, State.tidy]
@[simp] theorem State.modWorld_tidy (s : State) (w : Nat) (f : World → World) : (s.modWorld w f).tidy = s.tidy := by
  simp only [State.modWorld, State.tidy]
@[simp] theorem Core.taken_tidy (w : Nat) (k : Core) : (Core.taken w k).tidy = k.tidy := by
  simp only [Core.taken, Core.tidy]
@[simp] theorem Core.leave_tidy (w : Nat) (k : Core) : (Core.leave w k).tidy = k.tidy := by
  simp only [Core.leave, Core.tidy, Core.ite_tidy, ite_self]
@[simp] theorem State.freeCores_tidy (s : State) (w : Nat) : (s.freeCores w).tidy = s.tidy :=
  memoriesWf_map_cores _ _ _ _ fun _ => Core.leave_tidy ..
@[simp] theorem State.setTdi_tidy (s : State) (w : Nat) (t : Tdi) : (s.setTdi w t).tidy = s.tidy := by
  simp only [State.setTdi, State.tidy]
@[simp] theorem State.closeWorld_tidy (s : State) (w : Nat) : (s.closeWorld w).tidy = s.tidy := by
  simp only [State.closeWorld, State.tidy, State.modWorld_tidy]
@[simp] theorem State.endSession_tidy (s : State) (n : Nat) : (s.endSession n).tidy = s.tidy := by
  simp only [State.endSession, State.tidy, State.ite_tidy, ite_self, State.modWorld_tidy]
@[simp] theorem Core.dropStores_tidy (w : Nat) (k : Core) : (Core.dropStores w k).tidy = k.tidy := by
  simp only [Core.dropStores, Core.tidy]
@[simp] theorem State.dropStores_tidy (s : State) (w : Nat) : (s.dropStores w).tidy = s.tidy := by
  unfold State.dropStores
  dsimp only
  rw [State.tidy, memoriesWf_map_dies, memoriesWf_map_cores]
  · exact fun _ => Core.dropStores_tidy ..
  · exact fun _ => rfl
@[simp] theorem State.clearTables_tidy (s : State) (w : Nat) : (s.clearTables w).tidy = s.tidy := by
  simp only [State.clearTables, State.tidy]
@[simp] theorem State.answer_tidy (s : State) (session : Nat) (bs : List Byte) : (s.answer session bs).tidy = s.tidy := by
  simp only [State.answer, State.tidy]
@[simp] theorem State.bootNext_tidy (s : State) : s.bootNext.tidy = s.tidy := by
  simp only [State.bootNext, State.tidy]
@[simp] theorem State.unsupported_tidy (s : State) (n : Nat) : { s with unsupported := n }.tidy = s.tidy := rfl
@[simp] theorem State.unsup_tidy (s : State) (off tdi : Nat) : (s.unsup off tdi).tidy = s.tidy :=
  (State.unsupported_tidy _ _).trans (State.logW_tidy ..)
@[simp] theorem State.regq_tidy (s : State) (q : List RegReq) : { s with regq := q }.tidy = s.tidy := rfl
@[simp] theorem State.watchHit_tidy (s : State) (w off : Nat) : (s.watchHit w off).tidy = s.tidy := by
  refine (State.unsupported_tidy _ _).trans ((State.ite_tidy ..).trans ?_)
  split
  · exact State.logW_tidy ..
  · exact (State.regq_tidy _ _).trans ((State.setTdi_tidy ..).trans (State.logW_tidy ..))
@[simp] theorem State.markChan_tidy (s : State) (cl n w page : Nat) : (s.markChan cl n w page).tidy = s.tidy := by
  simp only [State.markChan, State.tidy, State.modChan_tidy]
@[simp] theorem State.hinv_tidy (s : State) (w page mask : Nat) : (s.hinv w page mask).tidy = s.tidy := by
  refine foldl_tidy _ (fun t d => ?_) _ _
  dsimp only
  rw [foldl_tidy, State.invalidate_tidy]
  exact fun u i => foldl_tidy _ (fun v n => State.markChan_tidy ..) _ _
@[simp] theorem State.hostPreempt_tidy (s : State) (c x : Nat) : (s.hostPreempt c x).tidy = s.tidy := by
  simp only [State.hostPreempt, State.tidy, Core.tidy, State.ite_tidy, ite_self, State.modCore_tidy, State.logAt_tidy]
@[simp] theorem State.jobWrite_tidy (s : State) (me i off tdi v : Nat) : (s.jobWrite me i off tdi v).tidy = s.tidy := by
  simp only [State.jobWrite, State.tidy, State.ite_tidy, ite_self, State.unsup_tidy]
@[simp] theorem State.windowWrite_tidy (s : State) (me i off tdi v : Nat) : (s.windowWrite me i off tdi v).tidy = s.tidy := by
  simp only [State.windowWrite, State.tidy, State.ite_tidy, ite_self, State.unsup_tidy]
@[simp] theorem State.barWrite_tidy (s : State) (me off tdi v : Nat) : (s.barWrite me off tdi v).tidy = s.tidy := by
  simp only [State.barWrite, State.tidy, State.ite_tidy, ite_self, State.jobWrite_tidy, State.windowWrite_tidy]
@[simp] theorem State.unpush_tidy (s : State) (p : Nat) (b : Bool) : (s.unpush p b).tidy = s.tidy := by
  simp only [State.unpush, State.tidy, State.ite_tidy, ite_self, State.modCurArr_tidy]
@[simp] theorem State.unitBusy_tidy (s : State) (u lat : Nat) : (s.unitBusy u lat).tidy = s.tidy := by
  simp only [State.unitBusy, State.tidy, Core.tidy, State.ite_tidy, ite_self, State.modCurCore_tidy]
@[simp] theorem State.listFault_tidy (s : State) (core : Nat) (o : ListOut) (f : Nat × Nat × Nat × Nat) : (s.listFault core o f).tidy = s.tidy := by
  simp only [State.listFault, State.tidy, State.defer_tidy]
@[simp] theorem State.contribute_tidy (s : State) (row : Nat) (shift : Bool) (e : Vec) : (s.contribute row shift e).tidy = s.tidy := by
  simp only [State.contribute, State.tidy, State.arrLater_tidy]
@[simp] theorem State.drainRow_tidy (s : State) (r ty : Nat) (d : Code) : (s.drainRow r ty d).tidy = s.tidy := by
  simp only [State.drainRow, State.tidy, State.ite_tidy, ite_self, State.arrLater_tidy, State.putV_tidy]
@[simp] theorem State.pushWeight_tidy (s : State) (w : BitVec 2) (base : Nat) : (s.pushWeight w base).tidy = s.tidy := by
  simp only [State.pushWeight, State.tidy, State.ite_tidy, ite_self, State.arrLater_tidy]
@[simp] theorem State.commitFifos_tidy (s : State) (c : Nat) : (s.commitFifos c).tidy = s.tidy := by
  simp only [State.commitFifos, State.tidy, State.ite_tidy, ite_self, State.modArr_tidy]
@[simp] theorem State.landArr_tidy (s : State) (pair : Nat) (p : AEff → Bool) : (s.landArr pair p).tidy = s.tidy := by
  unfold State.landArr
  split <;> simp only [State.tidy, State.modArr_tidy]
@[simp] theorem State.askFill_tidy (s : State) (c line cls : Nat) : (s.askFill c line cls).tidy = s.tidy := by
  simp only [State.askFill, State.tidy, Core.tidy, Core.ite_tidy, ite_self, State.modCore_tidy]
@[simp] theorem Core.modAccess_tidy (k : Core) (id pa : Nat) (f : Access → Access) : (k.modAccess id pa f).tidy = k.tidy := by
  simp only [Core.modAccess, Core.tidy]
@[simp] theorem State.hear_tidy (s : State) (c : Nat) (vc : List Nat) : (s.hear c vc).tidy = s.tidy := by
  simp only [State.hear, State.tidy, Die.tidy, State.ite_tidy, ite_self, State.modDie_tidy]
@[simp] theorem State.fixLoad_tidy (s : State) (c : Nat) (a : Access) : (s.fixLoad c a).tidy = s.tidy := by
  simp only [State.fixLoad, State.tidy, Core.tidy, State.ite_tidy, ite_self, State.modCore_tidy, Core.modAccess_tidy, State.markLast_tidy,
    State.askFill_tidy]
@[simp] theorem State.landLoad_tidy (s : State) (c x : Nat) (mine : List Access) : (s.landLoad c x mine).tidy = s.tidy := by
  unfold State.landLoad
  dsimp only
  (repeat' split) <;> simp only [State.tidy, Core.tidy, State.modCtx_tidy, State.modCore_tidy, State.hear_tidy]
@[simp] theorem State.evictL1_tidy (s : State) (core line : Nat) : (s.evictL1 core line).tidy = s.tidy := by
  simp only [State.evictL1, State.tidy, Core.tidy, State.ite_tidy, ite_self, State.modCore_tidy]
@[simp] theorem State.hearAll_tidy (s : State) : s.hearAll.tidy = s.tidy := by
  unfold State.hearAll
  dsimp only
  split
  · rfl
  · rw [State.tidy, memoriesWf_map_cores]
    · exact foldl_tidy _ (fun t q => State.hear_tidy ..) _ _
    · exact fun q => rfl
@[simp] theorem State.gcAccess_tidy (s : State) : s.gcAccess.tidy = s.tidy := by
  unfold State.gcAccess
  dsimp only
  rw [State.tidy, memoriesWf_map_cores]
  · exact s.hearAll_tidy
  · exact fun q => rfl
@[simp] theorem State.buffer_tidy (s : State) (e : TlbEntry) (va op scope : Nat) (v : Word) : (s.buffer e va op scope v).tidy = s.tidy := by
  unfold State.buffer
  dsimp only
  rw [State.modCurCore_tidy, State.ite_tidy, State.askMerges_tidy, ite_self]
  generalize State.curCore _ = q
  split
  · rw [Core.ite_tidy, ite_self]
  · rfl
@[simp] theorem State.awaitFence_tidy (s : State) (kind scope : Nat) : (s.awaitFence kind scope).tidy = s.tidy := by
  simp only [State.awaitFence, State.tidy, State.modIss_tidy]
@[simp] theorem State.logPref_tidy (s : State) (c x : Nat) (e : TlbEntry) (va w : Nat) (mgmt : Bool) : (s.logPref c x e va w mgmt).tidy = s.tidy := by
  unfold State.logPref
  split <;> simp only [State.tidy, State.logLine_tidy]
@[simp] theorem State.prefLine_tidy (s : State) (core : Nat) (p : PrefWalk) (tr : Tr) : (s.prefLine core p tr).tidy = s.tidy := by
  unfold State.prefLine
  split <;> simp only [State.tidy, State.ite_tidy, ite_self, State.lateRecord_tidy, State.logPref_tidy, State.askFill_tidy]
@[simp] theorem State.pushFifo_tidy (s : State) (p : Nat) (b : Bool) (fmt : Nat) (e : Vec) : (s.pushFifo p b fmt e).tidy = s.tidy := by
  simp only [State.pushFifo, State.tidy, State.modArr_tidy]
@[simp] theorem State.modTimed_tidy (s : State) (cl ch id : Nat) (f : Timed → Timed) : (s.modTimed cl ch id f).tidy = s.tidy := by
  simp only [State.modTimed, State.tidy, State.modChan_tidy]
@[simp] theorem State.queueCopy_tidy (s : State) (ch : Nat) (x : Bool) (a b : CRec) : (s.queueCopy ch x a b).tidy = s.tidy := by
  simp only [State.queueCopy, State.tidy, State.modChan_tidy]
@[simp] theorem State.addFlag_tidy (s : State) (cl ch : Nat) (t : Tracked) (cause index va : Nat) :
    (s.addFlag cl ch t cause index va).tidy = s.tidy := by
  simp only [State.addFlag, State.tidy, State.ite_tidy, ite_self, State.modChan_tidy, State.orphanFlag_tidy]
@[simp] theorem State.modRun_tidy (s : State) (cl ch : Nat) (f : Tracked → Tracked) : (s.modRun cl ch f).tidy = s.tidy := by
  simp only [State.modRun, State.tidy, State.modChan_tidy]
@[simp] theorem State.logCopy_tidy (s : State) (q : List Tracked) (t : Tracked) (e : Bool × ℤ) : (s.logCopy q t e).tidy = s.tidy := by
  unfold State.logCopy
  dsimp only
  (repeat' split) <;> simp only [State.tidy, State.logLine_tidy]
@[simp] theorem State.dropFlagged_tidy (s : State) (f : Nat × Nat × Word × Word) : (s.dropFlagged f).tidy = s.tidy := by
  simp only [State.dropFlagged, State.tidy, State.ite_tidy, ite_self, State.modChan_tidy]
@[simp] theorem State.dropMsg_tidy (s : State) (die core job node : Nat) : (s.dropMsg die core job node).tidy = s.tidy := by
  simp only [State.dropMsg, State.tidy, State.logAt_tidy, State.addCons_tidy]
@[simp] theorem State.see_tidy (s : State) (src id : Nat) : (s.see src id).tidy = s.tidy := by
  simp only [State.see, State.tidy]
@[simp] theorem State.startHandler_tidy (s : State) (core x : Nat) (h : Handler) (m : Msg) : (s.startHandler core x h m).tidy = s.tidy := by
  simp only [State.startHandler, State.tidy, State.modLaunch_tidy, State.start_tidy]
@[simp] theorem State.settleArrivals_tidy (s : State) : s.settleArrivals.tidy = s.tidy := by
  simp only [State.settleArrivals, State.tidy, implies_true, foldl_tidy, State.addCons_tidy]
@[simp] theorem State.ackAccess_tidy (s : State) (p : Packet) : (s.ackAccess p).tidy = s.tidy := by
  simp only [State.ackAccess, State.tidy, Core.tidy, State.ite_tidy, ite_self, State.modCore_tidy]
theorem State.mapDies_tidy {s : State} {f : Nat → Die → Die} (hf : ∀ d k, (f d k).tidy = k.tidy) : (s.mapDies f).tidy = s.tidy :=
  foldl_tidy _ (fun t d => State.modDie_tidy t d _ (hf d _)) _ _
@[simp] theorem State.barQuiet_tidy (s : State) (job : Nat) : (s.barQuiet job).tidy = s.tidy := by
  simp only [State.barQuiet, State.tidy, Die.tidy, implies_true, State.mapDies_tidy]
@[simp] theorem State.modGate_tidy (s : State) (n : Nat) (f : Gateway → Gateway) : (s.modGate n f).tidy = s.tidy := by
  unfold State.modGate
  split <;> simp only [State.tidy]
@[simp] theorem State.modChunk_tidy (s : State) (n k : Nat) (f : Chunk → Chunk) : (s.modChunk n k f).tidy = s.tidy := by
  simp only [State.modChunk, State.tidy, State.modGate_tidy]
@[simp] theorem State.joinGate_tidy (s : State) (job tag self_ : Nat) (p : Part) (d : Code) : (s.joinGate job tag self_ p d).tidy = s.tidy := by
  unfold State.joinGate
  dsimp only
  (repeat' split) <;> simp only [State.tidy, State.putS_tidy, State.modGate_tidy]
@[simp] theorem State.collFault_tidy (s : State) (p : Part) (va code : Nat) : (s.collFault p va code).tidy = s.tidy := by
  simp only [State.collFault, State.tidy, State.logWho_tidy]
@[simp] theorem State.deliverTo_tidy (s : State) (n : Nat) (p : Part) (k bitmap flags : Nat) (data : Option (List (BitVec 32))) :
    (s.deliverTo n p k bitmap flags data).tidy = s.tidy := by
  simp only [State.deliverTo, State.tidy, State.modGate_tidy]
@[simp] theorem State.settleChunk_tidy (s : State) (n k : Nat) : (s.settleChunk n k).tidy = s.tidy := by
  unfold State.settleChunk
  split <;> simp only [State.tidy, State.ite_tidy, ite_self, State.modChunk_tidy, State.addCons_tidy]
@[simp] theorem State.deliverChunk_tidy (s : State) (n k bitmap flags : Nat) (data : Option (List (BitVec 32))) :
    (s.deliverChunk n k bitmap flags data).tidy = s.tidy := by
  unfold State.deliverChunk
  split <;> simp only [State.tidy, implies_true, foldl_tidy, State.settleChunk_tidy, State.modChunk_tidy, State.deliverTo_tidy]
@[simp] theorem State.offerChunk_tidy (s : State) (n k bitmap flags : Nat) (data : Option (List (BitVec 32))) :
    (s.offerChunk n k bitmap flags data).tidy = s.tidy := by
  unfold State.offerChunk
  split <;> simp only [State.tidy, State.ite_tidy, ite_self, State.deliverChunk_tidy, State.modChunk_tidy]
@[simp] theorem State.agree_tidy (s : State) (n : Nat) : (s.agree n).tidy = s.tidy := by
  unfold State.agree
  split
  · rfl
  · rw [foldl_tidy, State.modGate_tidy]
    intro t c
    split
    · exact State.deliverChunk_tidy ..
    · rfl
@[simp] theorem State.ringSend_tidy (s : State) (g : Gateway) (r : Ring) : (s.ringSend g r).tidy = s.tidy := by
  simp only [State.ringSend, State.tidy, State.addInj_tidy]
@[simp] theorem State.mismatchGate_tidy (s : State) (n : Nat) : (s.mismatchGate n).tidy = s.tidy := by
  unfold State.mismatchGate
  split <;> simp only [State.tidy, State.ite_tidy, ite_self, implies_true, foldl_tidy, State.settleChunk_tidy, State.modGate_tidy,
    State.deliverTo_tidy, State.ringSend_tidy]
@[simp] theorem State.serveLate_tidy (s : State) (n : Nat) (g : Gateway) (p : Part) : (s.serveLate n g p).tidy = s.tidy := by
  unfold State.serveLate
  dsimp only
  split_ifs
  · rw [foldl_tidy _ (fun u k => State.deliverTo_tidy ..), State.modGate_tidy]
  · rw [State.mismatchGate_tidy, State.modGate_tidy]
  · rw [foldl_tidy, State.modGate_tidy]
    intro u c
    split
    · exact State.deliverTo_tidy ..
    · rfl
@[simp] theorem State.combineChunk_tidy (s : State) (n : Nat) (g : Gateway) (k bitmap flags : Nat) (data : List (BitVec 32)) :
    (s.combineChunk n g k bitmap flags data).tidy = s.tidy := by
  simp only [State.combineChunk, State.tidy, State.ite_tidy, ite_self, State.modChunk_tidy, State.ringSend_tidy, State.deliverChunk_tidy]
@[simp] theorem State.finalChunk_tidy (s : State) (n : Nat) (g : Gateway) (r : Ring) : (s.finalChunk n g r).tidy = s.tidy := by
  simp only [State.finalChunk, State.tidy, State.ite_tidy, ite_self, State.deliverChunk_tidy, State.ringSend_tidy, State.offerChunk_tidy,
    State.agree_tidy]
@[simp] theorem State.ringIn_tidy (s : State) (n : Nat) (r : Ring) : (s.ringIn n r).tidy = s.tidy := by
  unfold State.ringIn
  split <;> simp only [State.tidy, State.ite_tidy, ite_self, State.modGate_tidy, State.addCons_tidy, State.mismatchGate_tidy, State.agree_tidy,
    State.ringSend_tidy, State.combineChunk_tidy, State.finalChunk_tidy, State.modChunk_tidy]
@[simp] theorem State.takePending_tidy (s : State) (n : Nat) : (s.takePending n).tidy = s.tidy := by
  unfold State.takePending
  split <;> simp only [State.tidy, implies_true, foldl_tidy, State.ringIn_tidy, State.modGate_tidy]
@[simp] theorem State.readSrc_tidy (s : State) (p : Part) (off n : Nat) : (s.readSrc p off n).1.tidy = s.tidy := by
  unfold State.readSrc
  split
  · rfl
  · exact (State.collFault_tidy ..).trans (State.logLine_tidy ..)
@[simp] theorem State.ownChunk_tidy (s : State) (g : Gateway) (k : Nat) : (s.ownChunk g k).1.tidy = s.tidy := by
  unfold State.ownChunk
  dsimp only
  split
  · rfl
  · refine foldl_keeps (fun acc : State × Option (List (BitVec 32)) × Nat × Bool => acc.1.tidy) _ _ (fun p _ acc => ?_) _
    refine Eq.trans ?_ (acc.1.readSrc_tidy p (if g.lead.kind = 3 then 0 else k * g.lead.chunkLen) g.lead.chunkLen)
    split
    · rfl
    · split <;> rfl
@[simp] theorem State.beginGate_tidy (s : State) (n : Nat) (g : Gateway) : (s.beginGate n g).tidy = s.tidy := by
  unfold State.beginGate
  dsimp only
  split
  · rw [State.takePending_tidy, State.mismatchGate_tidy, State.modGate_tidy]
  · have begun : ∀ l : List Nat, (l.foldl (fun (t : State) k => ((t.ownChunk g k).1.modChunk n k fun _ =>
        { own := (t.ownChunk g k).2.1, flags := (t.ownChunk g k).2.2,
          passed := decide (2 ≤ g.lead.kind) || decide (k = (g.self_ + g.size - 1) % max g.size 1), since := s.cyc }))
        (s.modGate n fun g => { g with begun := some s.cyc })).tidy = s.tidy := fun l => by
      rw [foldl_tidy, State.modGate_tidy]
      exact fun t k => (State.modChunk_tidy ..).trans (State.ownChunk_tidy ..)
    split
    · exact begun _
    · rw [State.takePending_tidy]
      simp only [State.ite_tidy, State.deliverChunk_tidy, State.ringSend_tidy, State.offerChunk_tidy, begun, ite_self]
@[simp] theorem State.putHead_tidy (s : State) (c : Nat) (b : Bool) (v : Vec) : (s.putHead c b v).tidy = s.tidy := by
  simp only [State.putHead, State.tidy, State.modArr_tidy]
@[simp] theorem State.putItem_tidy (s : State) (c x q : Nat) (w : Word) (v : Vec) : (s.putItem c x q w v).tidy = s.tidy := by
  simp only [State.putItem, State.tidy, State.ite_tidy, ite_self, State.putHead_tidy, State.modCtx_tidy]
@[simp] theorem State.spend_tidy (s : State) : s.spend.tidy = s.tidy := by
  simp only [State.spend, State.tidy, State.modCur_tidy]
@[simp] theorem State.resumeWait_tidy (s : State) (c x : Nat) : (s.resumeWait c x).tidy = s.tidy := by
  unfold State.resumeWait
  split <;> simp only [State.tidy, State.modCtx_tidy, State.freezeWaiting_tidy]
@[simp] theorem State.excuse_tidy (s : State) (c x key : Nat) : (s.excuse c x key).tidy = s.tidy := by
  simp only [State.excuse, State.tidy, State.modLaunch_tidy]
@[simp] theorem Core.voidLoads_tidy (k : Core) (n : Nat) : (k.voidLoads n).tidy = k.tidy := by
  simp only [Core.voidLoads, Core.tidy]
@[simp] theorem State.keepFirst_tidy (s : State) (core ctx : Nat) : (s.keepFirst core ctx).tidy = s.tidy := by
  unfold State.keepFirst
  dsimp only
  split
  · exact State.modArr_tidy ..
  · next e =>
    rw [State.modCore_tidy, State.modArr_tidy]
    show spadsWf (s.core core).spad (some _) = spadsWf (s.core core).spad (s.core core).first
    simp only [e, spadsWf, Option.all_some, Option.all_none, Bool.and_true, Bool.and_self]
@[simp] theorem State.unpark_tidy (s : State) (core ctx base n : Nat) : (s.unpark core ctx base n).tidy = s.tidy := by
  simp only [State.unpark, State.tidy, State.modChan_tidy]
@[simp] theorem State.engineTake_tidy (s : State) (lat : Nat) : (s.engineTake lat).tidy = s.tidy := by
  simp only [State.engineTake, State.tidy, State.modCurArr_tidy]
@[simp] theorem State.begin_tidy (s : State) (c x addr : Nat) (ws : List (BitVec 32)) : (s.begin c x addr ws).tidy = s.tidy := by
  simp only [State.begin, State.tidy]
@[simp] theorem State.viewOf_tidy (s : State) (c x : Nat) : (s.viewOf c x).tidy = s.tidy := by
  unfold State.viewOf
  split
  · rfl
  · exact State.modCore_tidy _ _ _ rfl
@[simp] theorem State.merge_tidy (pre t : State) (c x : Nat) : (State.merge pre t c x).tidy = t.tidy := by
  unfold State.merge
  split
  · rfl
  · exact State.modCore_tidy _ _ _ rfl
@[simp] theorem State.hold_tidy (before t : State) (c x : Nat) : (State.hold before t c x).tidy = before.tidy := by
  simp only [State.hold, State.tidy, Core.tidy, State.modCore_tidy, State.keepFirst_tidy, State.ite_tidy, State.askMerges_tidy, ite_self]
@[simp] theorem State.beginWaits_tidy (s : State) (c x : Nat) (ws : List Wait) : (s.beginWaits c x ws).tidy = s.tidy := by
  simp only [State.beginWaits, State.tidy, State.ite_tidy, ite_self, State.modCtx_tidy, State.endWait_tidy, State.endWaitAcq_tidy]
@[simp] theorem State.settleRun_tidy (s : State) (c : Nat) : (s.settleRun c).tidy = s.tidy := by
  unfold State.settleRun
  split <;> simp only [State.tidy, Core.tidy, State.ite_tidy, ite_self, State.modCore_tidy, Core.reschedule_tidy]
@[simp] theorem State.again_tidy (s : State) (c : Nat) : (s.again c).tidy = s.tidy := by
  simp only [State.again, State.tidy]
@[simp] theorem State.clocks_tidy (s : State) : s.clocks.tidy = s.tidy := by
  unfold State.clocks
  dsimp only
  rw [State.tidy, memoriesWf_map_cores, memoriesWf_map_cores]
  · exact fun q => rfl
  · exact fun q => by simp only [Core.ite_tidy, Core.advance, Core.tidy, ite_self]
@[simp] theorem State.reclock_tidy (s : State) : s.reclock.tidy = s.tidy := by
  unfold State.reclock
  split <;> simp only [State.tidy, State.ite_tidy, ite_self]
@[simp] theorem State.tick_tidy (s : State) : s.tick.tidy = s.tidy := by
  simp only [State.tick, State.tidy, State.gcAccess_tidy, State.clocks_tidy, State.reclock_tidy, State.offerAll_tidy]
@[simp] theorem State.arriveAt_tidy (s : State) (i : Instr) : (s.arriveAt i).tidy = s.tidy := by
  unfold State.arriveAt
  split <;> simp only [State.tidy, State.request_tidy]

end Sys2Proof.Machine
end

-- ==== The canonical form of the memories: what writes a memory

section
/-! SUPPORT. The operations that write a memory, from a store to a view up to a reset: each keeps the condition. -/

namespace Sys2Proof.Machine

theorem State.wipeCore_canon {s : State} (h : s.canon = true) (c : Nat) : (s.wipeCore c).canon = true :=
  State.setCore_canon c rfl h
theorem State.release_canon {s : State} (h : s.canon = true) (c : Nat) : (s.release c).canon = true := by
  refine State.modCore_canon c (f := fun k => { k with first := none, walk := none, failed := [] }) (fun hk => ?_) h
  simp only [spadsWf, Bool.and_eq_true, Option.all_none, and_true] at hk ⊢
  exact hk.1
theorem State.take_canon {pre : State} (h : pre.canon = true) (t : State) (c x : Nat) : (State.take pre t c x).canon = true := by
  have back : (match (pre.core c).first with
      | some f => pre.modCtx c x fun y => y.backTo f.ctx (pre.core c).ccyc
      | none => pre).canon = true := by
    split
    · exact State.canon_of (State.modCtx_tidy ..) h
    · exact h
  refine State.canon_of (State.modCtx_tidy ..) (State.canon_of (State.freeze_tidy ..) ?_)
  refine State.canon_of (foldl_tidy _ (fun u f => (State.logBad_tidy ..).trans (State.dropFlagged_tidy ..)) _ _)
    (State.canon_of (State.modCore_tidy _ _ _ rfl) ?_)
  exact State.release_canon (State.canon_of_fields back rfl rfl rfl) c
theorem State.fetchFault_canon {s : State} (h : s.canon = true) (c x pc : Nat) (f : Nat × Word × Word) : (s.fetchFault c x pc f).canon = true := by
  unfold State.fetchFault
  dsimp only
  refine State.take_canon ?_ _ c x
  exact h
theorem Die.store_tidy {d : Die} (h : d.tidy = true) (pa : Nat) (data : List Byte) : (d.store pa data).tidy = true := by
  rw [Die.tidy, Bool.and_eq_true] at h ⊢
  exact ⟨Memory.wf_writeN _ _ h.1, h.2⟩
/-- A change of every die that keeps a die's memories canonical keeps the machine's so. -/
theorem State.canon_map_dies {s t : State} {f : Nat × Die → Nat × Die} (hf : ∀ q, q.2.tidy = true → (f q).2.tidy = true)
    (h : s.canon = true) (hh : t.hbm = s.hbm) (hc : t.cores = s.cores) (hd : t.dies = s.dies.map f) : t.canon = true := by
  obtain ⟨h1, h2, h3⟩ := State.canon_iff.mp h
  refine State.canon_iff.mpr ⟨hh ▸ h1, hc ▸ h2, ?_⟩
  rw [hd, List.all_map, List.all_eq_true]
  exact fun q hq => hf q (List.all_eq_true.mp h3 q hq)
/-- So does a write to HBM. -/
theorem State.canon_write_hbm {s t : State} {a : Nat} {bs : List Byte} (h : s.canon = true) (hh : t.hbm = Memory.writeN s.hbm a bs)
    (hc : t.cores = s.cores) (hd : t.dies = s.dies) : t.canon = true := by
  obtain ⟨h1, h2, h3⟩ := State.canon_iff.mp h
  exact State.canon_iff.mpr ⟨hh ▸ Memory.wf_writeN a bs h1, hc ▸ h2, hd ▸ h3⟩
theorem Die.writeView_tidy {d : Die} (h : d.tidy = true) (a : Nat) (bs : List Byte) :
    { d with view := Memory.writeN d.view a bs }.tidy = true := by
  rw [Die.tidy, Bool.and_eq_true] at h ⊢
  exact ⟨Memory.wf_writeN a bs h.1, h.2⟩
theorem State.takeLine_canon {s : State} (h : s.canon = true) (w line : Nat) : (s.takeLine w line).canon = true := by
  unfold State.takeLine
  split
  · exact h
  · refine State.canon_map_dies (fun q hq => ?_) h rfl rfl rfl
    obtain ⟨d, k⟩ := q
    exact Die.writeView_tidy hq _ _
theorem State.takeLines_canon {s : State} (h : s.canon = true) (pa n w : Nat) : (s.takeLines pa n w).canon = true :=
  foldl_canon (fun _ _ ht => State.takeLine_canon ht ..) _ h
theorem State.writeView_canon {s : State} (h : s.canon = true) (d w pa : Nat) (data : List Byte) : (s.writeView d w pa data).1.canon = true :=
  State.canon_of (State.originate_tidy ..) (State.modDie_canon _ (fun hk => Die.store_tidy hk ..) (State.takeLines_canon h ..))
theorem State.writeOnly_canon {s : State} (h : s.canon = true) (d w pa : Nat) (data : List Byte) : (s.writeOnly d w pa data).canon = true :=
  State.writeView_canon h ..
theorem Die.drop_tidy {d : Die} (h : d.tidy = true) (sector : Nat) : (d.drop sector).tidy = true := by
  unfold Die.drop
  split
  · exact h
  · exact Die.store_tidy h ..
theorem execCrossDieWriteApply_canon {s : State} (h : s.canon = true) (die id : Nat) : (execCrossDieWriteApply die id s).canon = true := by
  unfold execCrossDieWriteApply
  split
  · exact h
  · split
    · refine State.modDie_canon _ (fun hk => ?_) h
      dsimp only
      split
      · exact List.foldlRecOn (motive := fun d : Die => d.tidy = true) _ _ hk fun _ hd _ _ => Die.drop_tidy hd _
      · exact Die.store_tidy hk ..
    · exact h
theorem State.sealLine_canon {s : State} (h : s.canon = true) (w line : Nat) (bs : List Byte) : (s.sealLine w line bs).canon = true := by
  unfold State.sealLine
  dsimp only
  generalize gcmSeal _ _ _ = c
  exact State.canon_write_hbm h rfl rfl rfl
theorem execDirtySectorWriteBack_canon {s : State} (h : s.canon = true) (die sector : Nat) :
    (execDirtySectorWriteBack die sector s).canon = true := by
  unfold execDirtySectorWriteBack
  dsimp only
  split
  · have ht : ∀ t : State, t.hbm = s.hbm → t.cores = s.cores → t.dies = s.dies.map (fun p => (p.1, { p.2.drop sector with
        inq := p.2.inq.map fun w => if (w.mark && decide (w.pa ≤ sector * 16) && decide (sector * 16 < w.pa + w.data.length)) = true then
          { w with gone := w.gone ++ [sector] } else w })) → t.canon = true := fun t =>
      State.canon_map_dies (fun q hq => Die.drop_tidy hq sector) h
    exact State.ite_canon (fun _ => ht _ rfl rfl rfl) fun _ => ht _ rfl rfl rfl
  · split
    · exact State.sealLine_canon h ..
    · exact State.canon_write_hbm h rfl rfl rfl
/-- A write to the scratchpad keeps a core's memories canonical. -/
theorem spadsWf_of_spad {m m' : Memory} {first : Option First} (hm : m.wf = true → m'.wf = true) (h : spadsWf m first = true) :
    spadsWf m' first = true := by
  rw [spadsWf, Bool.and_eq_true] at h ⊢
  exact ⟨hm h.1, h.2⟩
theorem State.localWrite_canon {s : State} (h : s.canon = true) (sp c a : Nat) (data : List Byte) : (s.localWrite sp c a data).canon = true := by
  unfold State.localWrite
  split
  · refine State.modDie_canon _ (fun hk => ?_) h
    rw [Die.tidy, Bool.and_eq_true] at hk ⊢
    exact ⟨hk.1, Memory.wf_writeN _ _ hk.2⟩
  · exact State.modCore_canon _ (spadsWf_of_spad (Memory.wf_spadWrite _ _)) h
theorem State.mergeAmo_canon {s : State} (h : s.canon = true) (core pa : Nat) : (s.mergeAmo core pa).canon = true := by
  unfold State.mergeAmo
  split
  · exact h
  · dsimp only
    split
    · exact State.canon_of (State.modCore_tidy _ _ _ rfl) (State.writeView_canon h ..)
    · exact h
theorem State.landEntry_canon {s : State} (h : s.canon = true) (c x path : Nat) (bs : List Byte) : (s.landEntry c x path bs).canon = true := by
  unfold State.landEntry
  dsimp only
  split
  · exact h
  · exact State.canon_of (State.modCtx_tidy ..) (State.localWrite_canon h ..)
theorem State.landAppend_canon {s : State} (h : s.canon = true) (c x path : Nat) (es : List (List Byte)) : (s.landAppend c x path es).canon = true :=
  foldl_canon (fun _ _ ht => State.landEntry_canon ht ..) _ h
theorem State.landAppends_canon {s : State} (h : s.canon = true) (c x : Nat) (fs : List Flight) :
    (fs.foldl (fun t f => match f.eff with | .append p es => t.landAppend c x p es | _ => t) s).canon = true :=
  foldl_canon (fun t f ht => by
    split
    · exact State.landAppend_canon ht ..
    · exact ht) fs h
theorem Core.unheld_tidy {k : Core} (h : k.tidy = true) (x : Nat) :
    ({ k with first := none, hold := 0, walk := none, failed := [] }.reschedule x).tidy = true := by
  rw [Core.reschedule_tidy]
  rw [Core.tidy, spadsWf, Bool.and_eq_true] at h ⊢
  exact ⟨h.1, rfl⟩
theorem State.retire_canon {s : State} (h : s.canon = true) (c x : Nat) (killed counted : Bool) : (s.retire c x killed counted).canon = true := by
  unfold State.retire
  extract_lets k s0 s1 s2 drop s3 s4 s5 s6 s7
  have h0 : s0.canon = true := State.ite_canon (fun _ => State.canon_of (State.haltAll_tidy ..) h) fun _ => h
  have h1 : s1.canon = true :=
    State.canon_of (foldl_tidy _ (fun t d => State.orphan_tidy ..) _ _) (State.canon_of (State.orphanFlags_tidy ..) h0)
  have h3 : s3.canon = true := State.canon_of (State.modCore_tidy _ _ _ rfl) (State.landAppends_canon h1 c x _)
  have h4 : s4.canon = true := by
    unfold s4
    split <;> exact h3
  have h5 : s5.canon = true := State.canon_of (State.dropRefs_tidy ..) h4
  have h6 : s6.canon = true := State.ite_canon (fun _ => State.canon_of (State.modLaunch_tidy ..) h5) fun _ => h5
  have h7 : s7.canon = true := State.canon_of (State.unfuse_tidy ..) (State.canon_of (State.modCtx_tidy ..) h6)
  split
  · exact State.modCore_canon c (f := fun q => Core.reschedule { q with first := none, hold := 0, walk := none, failed := [] } x)
      (fun hk => Core.unheld_tidy hk x) h7
  · exact h7
theorem State.restartSlot_canon {s : State} (h : s.canon = true) (c x : Nat) (killed : Bool) : (s.restartSlot c x killed).canon = true := by
  unfold State.restartSlot
  extract_lets k new t
  have ht : t.canon = true := State.canon_of (State.start_tidy ..) (State.retire_canon (State.canon_of (State.revoke_tidy ..) h) ..)
  split
  · exact State.canon_of (State.modCtx_tidy ..) ht
  · exact ht
theorem State.finishTask_canon {s : State} (h : s.canon = true) (c x : Nat) : (s.finishTask c x).canon = true := by
  unfold State.finishTask
  split
  · exact State.restartSlot_canon h ..
  · exact State.retire_canon h ..
theorem State.killTask_canon {s : State} (h : s.canon = true) (c x : Nat) : (s.killTask c x).canon = true := by
  unfold State.killTask
  split
  · exact State.restartSlot_canon h ..
  · exact State.retire_canon h ..
theorem State.leaveSlots_canon {s : State} (h : s.canon = true) : s.leaveSlots.canon = true :=
  foldl_canon (fun t q ht => by
    obtain ⟨c, x, k⟩ := q
    exact State.ite_canon (fun _ => State.retire_canon ht ..) fun _ => ht) _ h
theorem State.settle_canon {s : State} (h : s.canon = true) : s.settle.canon = true := by
  unfold State.settle
  refine State.canon_of ?_ (State.leaveSlots_canon h)
  rw [State.settleCons_tidy, State.settleQuiet_tidy, State.settleBars_tidy, State.servePools_tidy]
theorem State.arbWrite_canon {s : State} (h : s.canon = true) {w va : Nat} {data : List Byte} {t : State} {p : Option (Nat × Nat)}
    (e : s.arbWrite w va data = .ok (t, p)) : t.canon = true := by
  unfold State.arbWrite at e
  split at e
  · cases e
  · dsimp only at e
    split at e <;> cases e
    · exact State.canon_of (State.windowSend_tidy ..) h
    · exact State.writeView_canon h ..
theorem State.counterAdd_canon {s : State} (h : s.canon = true) (w pa : Nat) (v : Word) : (s.counterAdd w pa v).1.canon = true :=
  State.canon_of (State.counterHit_tidy ..) (State.writeView_canon h ..)
theorem State.doneCtr_canon {s : State} (h : s.canon = true) {w va : Nat} {t : State} (e : s.doneCtr w va = .ok t) : t.canon = true := by
  unfold State.doneCtr at e
  split at e
  · cases e
  · split at e <;> cases e
    exact State.counterAdd_canon h ..
theorem State.copyImages_canon {s : State} (h : s.canon = true) (c : Nat) (r : LaunchRec) : (s.copyImages c r).1.canon = true := by
  unfold State.copyImages
  dsimp only
  split
  · exact h
  · split
    · exact State.canon_of (State.logLine_tidy ..) h
    · refine List.foldlRecOn (motive := fun q : State × Option (Nat × Nat) => q.1.canon = true) _ _ h fun q hq i _ => ?_
      split
      · exact hq
      · split
        · exact State.canon_of (State.logLine_tidy ..) hq
        · exact State.localWrite_canon hq ..
theorem State.placeTask_canon {s : State} (h : s.canon = true) (l : Nat) (r : LaunchRec) (slot depth c x coord crew memb : Nat) (ttab : List Word) :
    (s.placeTask l r slot depth c x coord crew memb ttab).canon = true := by
  unfold State.placeTask
  extract_lets args regs new s1
  have h2 : (s1.copyImages c r).1.canon = true :=
      State.copyImages_canon (State.canon_of (State.modLaunch_tidy ..) (State.canon_of (State.start_tidy ..) h)) ..
  split
  · next e => rwa [e] at h2
  · next e =>
    rw [e] at h2
    exact State.canon_of (State.orphan_tidy ..) (State.retire_canon h2 ..)
theorem State.placeCrew_canon {s : State} (h : s.canon = true) {l : Nat} {r : LaunchRec} {slot depth crew : Nat} {t : State}
    (e : s.placeCrew l r slot depth crew = some t) : t.canon = true := by
  unfold State.placeCrew at e
  split at e
  · cases e
  · next ep =>
    cases e
    refine foldl_canon (fun u m hu => State.placeTask_canon ?_ ..) _ ?_
    · exact State.ite_canon (fun _ => State.canon_of (State.setFused_tidy ..) hu) fun _ => hu
    · have h0 := State.canon_of (State.pickOf_tidy_of ep) h
      exact State.ite_canon (fun _ => State.canon_of (State.reserveSlots_tidy ..) h0) fun _ => h0
theorem State.placeBlock_canon {s : State} (h : s.canon = true) {l : Nat} {r : LaunchRec} {slot depth k : Nat} {t : State}
    (e : s.placeBlock l r slot depth k = some t) : t.canon = true := by
  unfold State.placeBlock at e
  split at e
  · cases e
  · dsimp only at e
    split at e <;> cases e
    refine State.placeTask_canon (State.canon_of ?_ h) ..
    simp only [State.ite_tidy, State.setFused_tidy, State.reserveSlots_tidy, ite_self]
theorem foldlM_canon {α : Type} {f : State → α → Option State} (hf : ∀ s a t, s.canon = true → f s a = some t → t.canon = true)
    (l : List α) {s t : State} (h : s.canon = true) (e : l.foldlM f s = some t) : t.canon = true := by
  induction l generalizing s with
  | nil =>
    cases e
    exact h
  | cons a l ih =>
    rw [List.foldlM_cons] at e
    obtain ⟨u, hu, eu⟩ := Option.bind_eq_some_iff.mp e
    exact ih (hf s a u h hu) eu
theorem State.placeNext_canon {s : State} (h : s.canon = true) {l : Nat} {v : Launch} {t : State} (e : s.placeNext l v = some t) :
    t.canon = true := by
  unfold State.placeNext at e
  dsimp only at e
  split_ifs at e <;> obtain ⟨u, hu, rfl⟩ := Option.map_eq_some_iff.mp e <;> refine State.canon_of (State.modLaunch_tidy ..) ?_
  · exact State.placeBlock_canon h hu
  · exact foldlM_canon (fun a i b ha eb => State.placeCrew_canon ha eb) _ h hu
  · exact State.placeCrew_canon h hu
theorem State.launchOf_tidy (s : State) (n : Nat) : (s.launchOf n).1.tidy = s.tidy := by
  unfold State.launchOf
  dsimp only
  split <;> rfl
theorem State.tryPlace_canon {s : State} (h : s.canon = true) {n : Nat} {t : State} (e : s.tryPlace n = some t) : t.canon = true := by
  unfold State.tryPlace at e
  dsimp only at e
  split at e
  · cases e
  · exact State.placeNext_canon (State.canon_of (State.launchOf_tidy ..) h) e
theorem execLaunchPlacement_canon {s : State} (h : s.canon = true) (slot : Nat) : (execLaunchPlacement slot s).canon = true := by
  unfold execLaunchPlacement
  dsimp only
  split
  · exact h
  · split
    · exact State.ite_canon (fun _ => State.canon_of (State.evaluate_tidy ..) h) fun _ => h
    · exact h
    · split
      · exact h
      · split
        · exact h
        · next s1 e =>
          have h1 := State.tryPlace_canon h e
          have h2 : ∀ b : Bool, (if b = true then
              (match s1.arbWrite (s.slotAt slot).world (lw (s.slotAt slot).rec_ 0xC0) (leBytes 8 1) with | .ok (t, _) => t | .error _ => s1)
              else s1).canon = true := fun b => by
            split
            · split
              · next ew => exact State.arbWrite_canon h1 ew
              · exact h1
            · exact h1
          exact State.ite_canon (fun _ => h2 _) fun _ => h2 _
theorem State.doneCtr_or_log_canon {s u : State} (h : s.canon = true) (hu : u.canon = true) (w va : Nat) (a : Word) :
    (match s.doneCtr w va with | .ok t => t | .error code => u.logW 0x27 w a (BitVec.ofNat 64 code)).canon = true := by
  split
  · next e => exact State.doneCtr_canon h e
  · exact State.canon_of (State.logW_tidy ..) hu
theorem State.launches_tidy (s : State) (v : NMap Launch) : { s with launches := v }.tidy = s.tidy := rfl
theorem execLaunchComplete_canon {s : State} (h : s.canon = true) (launch : Nat) : (execLaunchComplete launch s).canon = true := by
  unfold execLaunchComplete
  split
  · exact h
  · dsimp only
    refine Out3.ite_canon (fun _ => Out3.ite_canon (fun _ => h) fun _ => ?_) fun _ => Out3.ite_canon (fun _ => h) fun _ => ?_
    · split
      · next e => exact State.canon_of (State.modLaunch_tidy ..) (State.arbWrite_canon h e)
      · exact State.canon_of (State.modLaunch_tidy ..) (State.canon_of (State.logW_tidy ..) h)
    · refine State.canon_of (State.launches_tidy ..) (State.canon_of (State.endReservation_tidy ..) ?_)
      exact State.ite_canon (fun _ => h) fun _ => State.doneCtr_or_log_canon h (State.canon_of (State.logCounter_tidy ..) h) ..
theorem State.arbWrite_or_log_canon {s : State} (h : s.canon = true) (w va : Nat) (data : List Byte) (a : Word) :
    (match s.arbWrite w va data with | .ok (t, _) => t | .error code => s.logW 0x27 w a (BitVec.ofNat 64 code)).canon = true := by
  split
  · next e => exact State.arbWrite_canon h e
  · exact State.canon_of (State.logW_tidy ..) h
theorem State.rejectRec_canon {s : State} (h : s.canon = true) (n : Nat) (r : LaunchRec) (w rule : Nat) : (s.rejectRec n r w rule).canon = true :=
  State.arbWrite_or_log_canon (s := { s with pool := NMap.erase s.pool n }) h ..
theorem State.wstatus_canon {s : State} (h : s.canon = true) (die va code : Nat) : (s.wstatus die va code).canon = true := by
  unfold State.wstatus
  split
  · exact h
  · exact State.writeOnly_canon h ..
theorem State.writeAll_canon {s : State} (h : s.canon = true) (w : Nat) (ws : List (Nat × List Byte)) : (s.writeAll w ws).1.canon = true :=
  List.foldlRecOn (motive := fun q : State × List (Nat × Nat) => q.1.canon = true) _ _ h fun _ hq _ _ => State.writeView_canon hq ..
theorem State.writeRegion_canon {s : State} (h : s.canon = true) (w base : Nat) (body : List Byte) : (s.writeRegion w base body).1.canon = true :=
  foldl_canon (fun _ _ hu => State.sealLine_canon hu ..) _ (State.writeAll_canon h ..)
theorem State.wloadOpen_canon {s : State} (h : s.canon = true) (die w va : Nat) (d : List Byte) : (s.wloadOpen die w va d).1.canon = true := by
  unfold State.wloadOpen
  extract_lets n fail
  have hfail : ∀ code, (fail code).1.canon = true := fun code => State.wstatus_canon (State.canon_of (State.freeCores_tidy ..) h) ..
  split
  · extract_lets text
    split
    · exact hfail _
    · split
      · exact hfail _
      · extract_lets body
        split
        · exact hfail _
        · split
          · exact h
          · refine State.writeAll_canon (State.writeRegion_canon (State.canon_of (State.modWorld_tidy ..) ?_) ..) ..
            exact h
  · exact hfail _
theorem execWloadService_canon {s : State} (h : s.canon = true) : (execWloadService s).canon = true := by
  have hq : ∀ q, ({ s with regq := q } : State).canon = true := fun q => h
  unfold execWloadService
  refine Out3.ite_canon (fun _ => h) fun _ => ?_
  split
  · next rest _ =>
    dsimp only
    split
    · exact State.wstatus_canon (hq rest) ..
    · exact State.ite_canon (fun _ => h) fun _ =>
        State.canon_of (foldl_tidy _ (fun u c => State.modCore_tidy _ _ _ (Core.taken_tidy ..)) _ _) (hq rest)
  · next die va w d rest _ => exact State.wloadOpen_canon (hq rest) die w va d
  · exact Out3.ite_canon (fun _ => State.wstatus_canon (State.canon_of (State.modWorld_tidy ..) (hq _)) ..) fun _ => h
  · exact h

theorem State.haltCtx_canon {s : State} (h : s.canon = true) (c x : Nat) : (s.haltCtx c x).canon = true := by
  unfold State.haltCtx
  refine State.ite_canon (fun _ => h) fun _ => ?_
  refine State.retire_canon (State.canon_of (State.revoke_tidy ..) (foldl_canon (fun u q hu => ?_) _ h)) ..
  obtain ⟨e, y, k⟩ := q
  dsimp only
  split
  · exact State.ite_canon (fun _ => State.canon_of (State.modCtx_tidy ..) hu) fun _ => hu
  · exact hu
theorem State.haltWorld_canon {s : State} (h : s.canon = true) (w : Nat) : (s.haltWorld w).canon = true := by
  refine State.canon_of (State.modWorld_tidy ..) (foldl_canon (fun u q hu => ?_) _ (State.canon_of (State.launches_tidy s _) h))
  obtain ⟨c, x, k⟩ := q
  exact State.ite_canon (fun _ => State.haltCtx_canon hu c x) fun _ => hu
theorem State.lockLine_canon {s : State} (h : s.canon = true) (l : Nat) : (s.lockLine l).canon = true := by
  refine State.canon_map_dies (fun q hq => ?_) h rfl rfl rfl
  obtain ⟨d, k⟩ := q
  exact Die.writeView_tidy hq _ _
theorem State.arrs_tidy (s : State) (v : NMap Arr) : { s with arrs := v }.tidy = s.tidy := rfl
theorem State.worlds_tidy (s : State) (v : NMap World) : { s with worlds := v }.tidy = s.tidy := rfl
theorem State.wipeWorld_canon {s : State} (h : s.canon = true) (w : Nat) : (s.wipeWorld w).canon = true := by
  unfold State.wipeWorld
  extract_lets cs s1 s2 s3 s4 s5 s5' s6 s7 s8
  have h1 : s1.canon = true := foldl_canon (fun _ _ hu => State.wipeCore_canon hu _) _ h
  have h2 : s2.canon = true := foldl_canon (fun u q hu => by
    obtain ⟨c, x, k⟩ := q
    exact State.canon_of (State.modCtx_tidy ..) hu) _ h1
  have h3 : s3.canon = true := foldl_canon (fun u p hu => State.canon_of (State.arrs_tidy ..) hu) _ h2
  have h5 : s5.canon = true := foldl_canon (fun _ _ hu => State.lockLine_canon hu _) _ (State.canon_of (State.dropStores_tidy ..) h3)
  have h6 : s6.canon = true := State.canon_of (State.worlds_tidy ..) (State.canon_of (State.clearTables_tidy ..) h5)
  have h7 : s7.canon = true := foldl_canon (fun _ _ hu => State.canon_of (State.endSession_tidy ..) hu) _ h6
  have h8 : s8.canon = true := by
    unfold s8
    split
    · exact h7
    · exact State.canon_of (State.setTdi_tidy ..) h7
  exact State.canon_of (State.freeCores_tidy ..) h8
theorem execWorldTeardown_canon {s : State} (h : s.canon = true) (w : Nat) : (execWorldTeardown w s).canon = true := by
  unfold execWorldTeardown
  split
  · next v rest _ =>
    have hq : ({ s with regq := rest } : State).canon = true := State.canon_of (State.regq_tidy ..) h
    refine Out3.ite_canon (fun _ => h) fun _ => Out3.ite_canon (fun _ => hq) fun _ => ?_
    refine Out3.ite_canon (fun _ => State.canon_of (State.closeWorld_tidy ..) h) fun _ => ?_
    refine Out3.ite_canon (fun _ => State.haltWorld_canon h w) fun _ => ?_
    exact Out3.ite_canon (fun _ => h) fun _ => State.wipeWorld_canon hq w
  · exact h
theorem State.wipeAll_canon {s : State} (h : s.canon = true) : s.wipeAll.canon = true :=
  foldl_canon (fun _ _ hu => State.wipeWorld_canon (State.haltWorld_canon (State.canon_of (State.closeWorld_tidy ..) hu) _) _) _ h
theorem State.measured_tidy (s : State) (m : BitVec 256) (a b : Bool) : { s with mb3 := m, dbg := a, debugPort := b }.tidy = s.tidy := rfl
theorem State.debugOpen_canon {s : State} (h : s.canon = true) (token : List Byte) : (s.debugOpen token).canon = true := by
  unfold State.debugOpen
  extract_lets s1 s2
  have h2 : s2.canon = true := foldl_canon (fun _ _ hu => State.canon_of (State.endSession_tidy ..) hu) _
    (State.wipeAll_canon (State.canon_of (State.newNonce_tidy ..) h))
  clear_value s2
  exact State.canon_of (State.measured_tidy ..) (State.canon_of (State.log_tidy ..) h2)
theorem State.writePages_canon {s : State} (h : s.canon = true) {w va : Nat} {data : List Byte} {t : State}
    (e : s.writePages w va data = some t) : t.canon = true := by
  refine foldlM_canon (fun u b v hu eb => ?_) _ h e
  dsimp only at eb
  split at eb
  · next ew =>
    cases eb
    exact State.arbWrite_canon hu ew
  · cases eb
theorem State.answer_canon {s : State} (h : s.canon = true) (n : Nat) (bs : List Byte) : (s.answer n bs).canon = true :=
  State.canon_of (State.answer_tidy ..) h
theorem State.refuse_canon {s : State} (h : s.canon = true) (n : Nat) : (s.refuse n).canon = true := State.answer_canon h ..
theorem State.accept_canon {s : State} (h : s.canon = true) (n : Nat) : (s.accept n).canon = true := State.answer_canon h ..
theorem execKeyEval_canon {s : State} (h : s.canon = true) (session va : Nat) (expect : BitVec 256) (blob : List Byte) :
    (execKeyEval session va expect blob s).canon = true := by
  have hr : (s.refuse session).canon = true := State.refuse_canon h _
  refine Out3.ite_canon (fun _ => hr) fun _ => Out3.ite_canon (fun _ => hr) fun _ => ?_
  split
  · next e => exact State.accept_canon (State.writePages_canon h e) _
  · exact hr
theorem State.resetView_wf (s : State) : s.resetView.wf = true :=
  List.foldlRecOn (motive := fun m : Memory => m.wf = true) _ _ rfl fun _ hm _ _ => Memory.wf_writeN _ _ hm
/-- The L2 region of a core that only its place is known of is empty. -/
theorem cold_cores_tidy (cores : NMap Core) : ((cores.map fun q => (q.1, ({ seat := q.2.seat } : Core))).all fun q => q.2.tidy) = true := by
  rw [List.all_map, List.all_eq_true]
  exact fun _ _ => rfl
theorem State.hotReset_canon {s : State} (h : s.canon = true) : s.hotReset.canon = true := by
  have h1 : s.wipeAll.newNonce.canon = true := State.canon_of (State.newNonce_tidy ..) (State.wipeAll_canon h)
  unfold State.hotReset
  extract_lets s1 m cold keep
  refine State.canon_iff.mpr ⟨(State.canon_iff.mp h1).1, cold_cores_tidy _, ?_⟩
  show (if _ then _ else _ : NMap Die).all _ = true
  split
  · rfl
  · rw [List.all_map, List.all_eq_true]
    intro d _
    have hd : (s1.die d).tidy = true := State.die_tidy h1 d
    rw [Die.tidy, Bool.and_eq_true] at hd
    exact Bool.and_eq_true_iff.mpr ⟨State.resetView_wf s1, hd.2⟩
theorem execColdReset_canon (s : State) (fwOk : Bool) : (execColdReset fwOk s).canon = true :=
  State.canon_iff.mpr ⟨rfl, cold_cores_tidy s.cores, rfl⟩
theorem State.svRetire_canon {s : State} (h : s.canon = true) (c x : Nat) (killed : Bool) : (s.svRetire c x killed).canon = true :=
  State.ite_canon (fun _ => h) fun _ => State.retire_canon (State.canon_of (State.revoke_tidy ..) h) ..
theorem State.svGo_canon {s : State} (h : s.canon = true) (w d k off tdi v : Nat) : (s.svGo w d k off tdi v).canon = true := by
  unfold State.svGo
  extract_lets ns nv r n sv
  obtain ⟨c, x⟩ := svPlace d k
  refine State.ite_canon (fun _ => State.svRetire_canon h ..) fun _ => State.ite_canon (fun _ => State.canon_of (State.unsup_tidy ..) h) fun _ => ?_
  exact State.canon_of (State.start_tidy ..) (State.svRetire_canon h ..)
theorem State.sv_tidy (s : State) (v : NMap SvSlot) : { s with sv := v }.tidy = s.tidy := rfl
theorem State.ctlWrite_canon {s : State} (h : s.canon = true) (w q off tdi v : Nat) : (s.ctlWrite w q off tdi v).canon = true := by
  have hu : (s.unsup off tdi).canon = true := State.canon_of (State.unsup_tidy ..) h
  unfold State.ctlWrite
  extract_lets foreign c x i i' e
  refine State.ite_canon (fun _ => ?_) fun _ => State.ite_canon (fun _ => ?_) fun _ => State.ite_canon (fun _ => ?_) fun _ => ?_
  · exact State.ite_canon (fun _ => hu) fun _ => State.canon_of (State.hinv_tidy ..) h
  · exact State.ite_canon (fun _ => hu) fun _ => State.canon_of (State.hostPreempt_tidy ..) h
  · refine State.ite_canon (fun _ => h) fun _ => State.ite_canon (fun _ => hu) fun _ => ?_
    exact State.ite_canon (fun _ => State.svGo_canon h ..) fun _ => State.canon_of (State.sv_tidy ..) h
  · refine State.ite_canon (fun _ => State.ite_canon (fun _ => h) fun _ => ?_) fun _ => h
    exact State.ite_canon (fun _ => hu) fun _ => State.canon_of (State.sv_tidy ..) h
theorem State.filtered_canon {s : State} (h : s.canon = true) (tdi off v : Nat) : (s.filtered tdi off v).canon = true := by
  unfold State.filtered
  dsimp only
  split
  · exact State.ite_canon (fun _ => State.canon_of (State.unsup_tidy ..) h) fun _ => State.ctlWrite_canon h ..
  · exact State.canon_of (State.barWrite_tidy ..) h
theorem State.hostWrite_canon {s : State} (h : s.canon = true) (tdi off : Nat) (val : Word) : (s.hostWrite tdi off val).canon = true := by
  refine State.ite_canon (fun _ => h) fun _ => ?_
  split
  · exact State.canon_of (State.watchHit_tidy ..) h
  · exact State.filtered_canon h ..

theorem State.windowSend_canon {s : State} (h : s.canon = true) (die pa : Nat) (data : List Byte) (core access : Nat)
    (copy : Option (Nat × Nat × Nat)) (ctx : Nat) : (s.windowSend die pa data core access copy ctx).canon = true :=
  State.canon_of (State.windowSend_tidy s die pa data core access copy ctx) h
theorem State.regWrite_canon {s : State} (h : s.canon = true) (a : Nat) (data : List Byte) : (s.regWrite a data).canon = true :=
  State.ite_canon (fun _ => h) fun _ => foldl_canon (fun _ _ hu => State.filtered_canon hu ..) _ h
theorem State.claimSlot_canon {s : State} (h : s.canon = true) (tdi slot : Nat) : (s.claimSlot tdi slot).canon = true := by
  unfold State.claimSlot
  dsimp only
  refine State.ite_canon (fun _ => h) fun _ => State.ite_canon (fun _ => State.canon_of (State.unsup_tidy ..) h) fun _ => ?_
  split
  · exact State.canon_of (State.pend_tidy ..) h
  · exact State.rejectRec_canon h ..
theorem execLaunchWindowWrite_canon {s : State} (h : s.canon = true) (tdi slot off : Nat) (val : BitVec 64) :
    (execLaunchWindowWrite tdi slot off val s).canon = true := by
  have h1 := fun f => State.canon_of (State.modSlot_tidy s slot f) h
  unfold execLaunchWindowWrite
  dsimp only
  refine Out3.ite_canon (fun _ => h) fun _ => Out3.ite_canon (fun _ => State.canon_of (State.unsup_tidy ..) h) fun _ => ?_
  exact State.ite_canon (fun _ => State.claimSlot_canon (h1 _) ..) fun _ => h1 _
theorem State.listWrite_canon {s : State} (h : s.canon = true) (tr : ListBy) (sp c w a : Nat) (data : List Byte) :
    (s.listWrite tr sp c w a data).1.canon = true := by
  unfold State.listWrite
  split
  · split
    · exact h
    · split
      · exact h
      · refine State.ite_canon (fun _ => State.windowSend_canon h ..) fun _ => ?_
        exact State.ite_canon (fun _ => State.regWrite_canon h ..) fun _ => State.writeOnly_canon h ..
  · exact State.localWrite_canon h ..
theorem State.listWrite_canon_of {s t : State} (h : s.canon = true) {tr : ListBy} {sp c w a : Nat} {data : List Byte} {q : ListFail}
    (e : s.listWrite tr sp c w a data = (t, q)) : t.canon = true := by
  have := State.listWrite_canon h tr sp c w a data
  rwa [e] at this
theorem State.listAdd_canon {s : State} (h : s.canon = true) (tr : ListBy) (sp c w base len ridx cause off : Nat) :
    (s.listAdd tr sp c w base len ridx cause off).1.canon = true := by
  unfold State.listAdd
  dsimp only
  split
  · exact State.canon_of (State.logLine_tidy ..) h
  · split
    · split
      · next e => exact State.listWrite_canon_of h e
      · next e => exact State.listWrite_canon (State.listWrite_canon_of h e) ..
    · exact State.listWrite_canon h ..
theorem State.listAdd_canon_of {s t : State} (h : s.canon = true) {tr : ListBy} {sp c w base len ridx cause off : Nat} {q : ListFail}
    (e : s.listAdd tr sp c w base len ridx cause off = (t, q)) : t.canon = true := by
  have := State.listAdd_canon h tr sp c w base len ridx cause off
  rwa [e] at this
theorem State.listAddAll_canon {s : State} (h : s.canon = true) (tr : ListBy) (sp c w base len ridx : Nat) (es : List (Nat × Nat)) (i : Nat) :
    (s.listAddAll tr sp c w base len ridx es i).1.canon = true := by
  induction es generalizing s i with
  | nil => exact h
  | cons q es ih =>
    obtain ⟨cause, off⟩ := q
    rw [State.listAddAll]
    split
    · next e => exact State.listAdd_canon_of h e
    · next e => exact ih (State.listAdd_canon_of h e) _
theorem execScratchpadStorePerform_canon {s : State} (h : s.canon = true) (core ctx : Nat) :
    (execScratchpadStorePerform core ctx s).canon = true := by
  unfold execScratchpadStorePerform
  extract_lets x p put s1
  refine State.canon_of (State.modCtx_tidy ..) (State.modCore_canon core (spadsWf_of_spad fun hm => ?_) h)
  refine List.foldlRecOn (motive := fun m : Memory => m.wf = true) _ _ hm fun m hm f _ => ?_
  unfold put
  split
  · split
    · exact Memory.wf_spadWrite _ _ hm
    · exact hm
  · exact hm
theorem State.outAll_canon {s : State} (h : s.canon = true) (o : ListOut) : (s.outAll o).1.canon = true := State.listAddAll_canon h ..
theorem State.outAll_canon_of {s t : State} (h : s.canon = true) {o : ListOut} {q : Option (Nat × Nat × Nat × Nat × Nat)}
    (e : s.outAll o = (t, q)) : t.canon = true := by
  have := State.outAll_canon h o
  rwa [e] at this
theorem State.landList_canon {s : State} (h : s.canon = true) (core base len sp peer ctx : Nat) (gen : BitVec 16) (launch world addr : Nat)
    (es : List (Nat × Nat)) : (s.landList core base len sp peer ctx gen launch world addr es).canon = true := by
  unfold State.landList
  extract_lets o by_ ahead
  refine State.ite_canon (fun _ => State.listAddAll_canon h ..) fun _ => ?_
  refine State.canon_of (State.modCore_tidy _ _ _ rfl) ?_
  split
  · exact State.canon_of (State.listFault_tidy ..) h
  · exact h
theorem State.writeList_canon {s : State} (h : s.canon = true) (core : Nat) : (s.writeList core).canon = true := by
  unfold State.writeList
  split
  · exact h
  · refine State.ite_canon (fun _ => h) fun _ => ?_
    dsimp only
    split
    · next e => exact State.canon_of (State.modCore_tidy _ _ _ rfl) (State.outAll_canon_of h e)
    · next e =>
      have ht := State.outAll_canon_of h e
      exact State.canon_of (State.modCore_tidy _ _ _ rfl) (State.ite_canon (fun _ => ht) fun _ => State.canon_of (State.listFault_tidy ..) ht)
theorem State.landUnit_canon {s : State} (h : s.canon = true) (core : Nat) (f : UFlight) : (s.landUnit core f).canon = true := by
  unfold State.landUnit
  split
  · exact State.canon_of (State.modCore_tidy _ _ _ rfl) h
  · exact State.canon_of (State.modCore_tidy _ _ _ rfl) h
  · exact State.modCore_canon _ (spadsWf_of_spad (Memory.wf_spadWrite _ _)) h
  · exact State.modCore_canon _ (spadsWf_of_spad (Memory.wf_spadWrite _ _)) h
  · exact State.landList_canon h ..
theorem execUnitResultLanding_canon {s : State} (h : s.canon = true) (core : Nat) : (execUnitResultLanding core s).canon = true := by
  unfold execUnitResultLanding
  extract_lets k0 lands due s1
  refine Out3.ite_canon (fun _ => State.writeList_canon h core) fun _ => ?_
  exact foldl_canon (fun _ _ hu => State.landUnit_canon hu ..) _ (State.canon_of (State.modCore_tidy _ _ _ rfl) h)
theorem State.update_canon {s : State} (h : s.canon = true) (d w pa : Nat) (f : Word → Option Word) : (s.update d w pa f).2.1.canon = true := by
  unfold State.update
  dsimp only
  split
  · exact h
  · split
    · exact State.regWrite_canon h ..
    · exact State.writeView_canon h ..
theorem State.performWrite_canon {s : State} (h : s.canon = true) (c : Nat) (a : Access) : (s.performWrite c a).canon = true := by
  unfold State.performWrite
  extract_lets v d finish data f
  have hf : ∀ (t : State) (value : Vec) (st : Option (Nat × Nat)) (b : Bool), t.canon = true → (finish t value st b).canon = true := fun t _ _ _ ht =>
    State.canon_of (State.modCore_tidy _ _ (fun k => k.modAccess a.id a.pa _) (Core.modAccess_tidy ..)) ht
  clear_value finish
  refine State.ite_canon (fun _ => State.ite_canon (fun _ => ?_) fun _ => State.ite_canon (fun _ => ?_) fun _ => ?_) fun _ => ?_
  · exact hf _ _ _ _ (State.windowSend_canon h ..)
  · exact hf _ _ _ _ (State.regWrite_canon h ..)
  · exact hf _ _ _ _ (State.writeView_canon h ..)
  · have hu := State.update_canon h (a.site c) a.wtag a.pa f
    exact hf _ _ _ _ (State.ite_canon (fun _ => State.canon_of (State.counterHit_tidy ..) hu) fun _ => hu)
theorem execWritePerform_canon {s : State} (h : s.canon = true) (core ctx id : Nat) : (execWritePerform core ctx id s).canon = true := by
  unfold execWritePerform
  dsimp only
  split
  · exact h
  · exact State.ite_canon (fun _ => State.performWrite_canon h ..) fun _ => h
theorem State.storeElem_canon {s : State} (h : s.canon = true) (c : Nat) (r : CRec) (e : Bool × Int) (v : Nat) : (s.storeElem c r e v).canon = true :=
  State.ite_canon (fun _ => State.localWrite_canon h ..) fun _ => h
theorem State.putTag_canon {s : State} (h : s.canon = true) (c : Nat) (r : CRec) (tile : Nat) : (s.putTag c r tile).canon = true :=
  State.localWrite_canon h ..
theorem State.timedList_canon {s : State} (h : s.canon = true) (t : Timed) (row : List (Nat × Nat × Nat)) : (s.timedList t row).1.canon = true := by
  unfold State.timedList
  dsimp only
  split
  · exact h
  · exact State.listAddAll_canon h ..
theorem execTimedPacketWrite_canon {s : State} (h : s.canon = true) (cl ch id : Nat) : (execTimedPacketWrite cl ch id s).canon = true := by
  unfold execTimedPacketWrite
  split
  · exact h
  · extract_lets p rowOf row js advance fmt dst b elem ends es put s1
    have ha : ∀ (u : State) (f : Timed → Timed), u.canon = true → (advance u f).canon = true := fun u f hu => by
      have h1 := fun f => State.canon_of (State.modTimed_tidy u cl ch id f) hu
      exact State.ite_canon (fun _ => State.canon_of (State.modChan_tidy ..) (h1 _)) fun _ => h1 _
    clear_value advance
    refine Out3.ite_canon (fun _ => h) fun _ => Out3.ite_canon (fun _ => ha _ _ h) fun _ => Out3.ite_canon (fun _ => ?_) fun _ => ?_
    · split
      · refine Out3.ite_canon (fun _ => ha _ _ (State.canon_of ?_ h)) fun _ => ha _ _ (State.canon_of (State.defer_tidy ..) h)
        exact foldl_tidy _ (fun u e => State.pushFifo_tidy ..) _ _
      · exact ha _ _ (State.canon_of (State.defer_tidy ..) h)
    · have h1 : s1.canon = true := foldl_canon (fun _ _ hu => State.storeElem_canon hu ..) _ h
      have h2 := State.timedList_canon h1
      exact ha _ _ (State.ite_canon (fun _ => foldl_canon (fun _ _ hu => State.putTag_canon hu ..) _ (h2 _ _)) fun _ => h2 _ _)
theorem State.copyWrite_canon {s : State} (h : s.canon = true) {cl ch : Nat} {t : Tracked} {e : Bool × Int} {v : Nat} {u : State}
    (eu : s.copyWrite cl ch t e v = .ok u) : u.canon = true := by
  unfold State.copyWrite at eu
  dsimp only at eu
  split at eu
  · cases eu
    exact State.storeElem_canon h ..
  · split at eu
    · cases eu
      exact h
    · split at eu
      · cases eu
      · split_ifs at eu <;> cases eu
        · exact State.regWrite_canon h ..
        · exact State.windowSend_canon h ..
        · exact State.writeOnly_canon h ..
theorem State.copyTags_canon {s : State} (h : s.canon = true) (t : Tracked) (n : Nat) : (s.copyTags t n).canon = true :=
  State.ite_canon (fun _ => foldl_canon (fun _ _ hu => State.putTag_canon hu ..) _ h) fun _ => h
theorem State.stopCopy_canon {s : State} (h : s.canon = true) (cl ch : Nat) (t : Tracked) (cause index va : Nat) :
    (s.stopCopy cl ch t cause index va).canon = true :=
  State.canon_of (State.modRun_tidy ..) (State.canon_of (State.addFlag_tidy ..) (State.copyTags_canon h ..))
theorem State.copyList_canon {s : State} (h : s.canon = true) (cl ch : Nat) (t : Tracked) (cause off : Nat) :
    (s.copyList cl ch t cause off).canon = true := by
  unfold State.copyList
  dsimp only
  refine State.ite_canon (fun _ => h) fun _ => ?_
  split
  · next e => exact State.canon_of (State.modRun_tidy ..) (State.listAdd_canon_of h e)
  · next e => exact State.canon_of (State.addFlag_tidy ..) (State.canon_of (State.modRun_tidy ..) (State.listAdd_canon_of h e))
theorem State.stepCopy_canon {s : State} (h : s.canon = true) (cl ch : Nat) (t : Tracked) : (s.stepCopy cl ch t).canon = true := by
  unfold State.stepCopy
  extract_lets j e u entry p
  have hu : u.canon = true := State.canon_of (State.logCopy_tidy ..) h
  split
  · exact h
  · refine State.ite_canon (fun _ => State.stopCopy_canon hu ..) fun _ => ?_
    split
    · exact State.stopCopy_canon h ..
    · exact h
    · exact State.stopCopy_canon (State.canon_of (State.pushFifo_tidy ..) hu) ..
  · extract_lets o lists next acc
    have hn : ∀ (u : State) (acc : List Nat), u.canon = true → (next u acc).canon = true := fun u acc hu => by
      have h1 := State.canon_of (State.modRun_tidy _ cl ch fun t => { t with pos := j + 1, acc :=
          acc }) (State.copyList_canon hu cl ch t o.entry (off48 e.2))
      exact State.ite_canon (fun _ => State.copyTags_canon h1 ..) fun _ => h1
    clear_value next
    refine State.ite_canon (fun _ => h) fun _ => State.ite_canon (fun _ => State.ite_canon (fun _ => hn _ _ h) fun _ => ?_) fun _ => ?_
    · split
      · exact State.stopCopy_canon h ..
      · exact h
      · exact hn _ _ (State.canon_of (State.pushFifo_tidy ..) h)
    · split
      · exact h
      · exact State.stopCopy_canon h ..
      · next e => exact hn _ _ (State.copyWrite_canon h e)
theorem execTrackedCopyElement_canon {s : State} (h : s.canon = true) (cl ch : Nat) : (execTrackedCopyElement cl ch s).canon = true := by
  unfold execTrackedCopyElement
  split
  · exact h
  · exact State.ite_canon (fun _ => h) fun _ => State.stepCopy_canon h ..

theorem State.withJob_tidy {s t : State} {job : Nat} (e : s.withJob job = some t) : t.tidy = s.tidy := by
  unfold State.withJob at e
  split at e
  · cases e
    rfl
  · split at e
    · cases e
    · obtain ⟨i, -, rfl⟩ := Option.map_eq_some_iff.mp e
      rfl
theorem State.withJob_canon {s t : State} (h : s.canon = true) {b : Bool} {job : Nat} (e : (if b = true then s.withJob job else none) = some t) :
    t.canon = true := by
  split at e
  · exact State.canon_of (State.withJob_tidy e) h
  · cases e
theorem State.arrivals_tidy (s : State) (v : List Arrival) : { s with arrivals := v }.tidy = s.tidy := rfl
theorem execWindowWriteArrival_canon {s : State} (h : s.canon = true) (from_ : Origin) (wtag pa size : Nat) (val : Vec) :
    (execWindowWriteArrival from_ wtag pa size val s).canon = true := by
  unfold execWindowWriteArrival
  extract_lets job
  split
  · exact h
  · next s0 e =>
    have h0 : s0.canon = true := State.withJob_canon h e
    extract_lets s1 ok
    have h1 : s1.canon = true := State.canon_of (State.see_tidy ..) h0
    refine Out3.ite_canon (fun _ => ?_) fun _ => Out3.ite_canon (fun _ => h) fun _ => ?_
    · exact State.canon_of (State.log_tidy ..) (State.canon_of (State.addCons_tidy ..) h1)
    · exact State.canon_of (State.arrivals_tidy ..) (State.writeView_canon h1 ..)
theorem State.putPages_canon {s : State} (h : s.canon = true) (p : Part) (va : Nat) (data : List Byte) : (s.putPages p va data).1.canon = true := by
  refine List.foldlRecOn (motive := fun q : State × List (Nat × Nat) × Bool => q.1.canon = true) _ _ h fun q hq b _ => ?_
  dsimp only
  split
  · exact State.canon_of (State.collFault_tidy ..) hq
  · split
    · exact State.windowSend_canon hq ..
    · split
      · exact State.regWrite_canon hq ..
      · exact State.writeView_canon hq ..
theorem State.deliverNext_canon {s : State} (h : s.canon = true) (n : Nat) (d : Deliv) (rest : List Deliv) : (s.deliverNext n d rest).canon = true :=
  State.canon_of (State.settleChunk_tidy ..) (State.canon_of (State.modGate_tidy ..) (State.putPages_canon h ..))
theorem State.gates_tidy (s : State) (v : NMap Gateway) : { s with gates := v }.tidy = s.tidy := rfl
theorem State.doneCtr_or_fault_canon {s : State} (h : s.canon = true) (p : Part) :
    (match s.doneCtr p.world p.ctr with
      | .ok u => u
      | .error code => (s.logCounter p.world p.ctr 2).collFault p p.ctr code).canon = true := by
  split
  · next e => exact State.doneCtr_canon h e
  · exact State.canon_of (State.collFault_tidy ..) (State.canon_of (State.logCounter_tidy ..) h)
theorem execCollComplete_canon {s : State} (h : s.canon = true) (slot : Nat) : (execCollComplete slot s).canon = true := by
  unfold execCollComplete
  split
  · exact h
  · dsimp only
    refine Out3.ite_canon (fun _ => h) fun _ => ?_
    split
    · exact State.deliverNext_canon h ..
    · refine Out3.ite_canon (fun _ => ?_) fun _ => Out3.ite_canon (fun _ => ?_) fun _ => ?_
      · exact State.ite_canon (fun _ => State.canon_of (State.beginGate_tidy ..) h) fun _ => h
      · split
        · exact State.canon_of (State.serveLate_tidy ..) h
        · refine Out3.ite_canon (fun _ => ?_) fun _ => h
          have ht := fun l => foldl_canon (fun _ p hu => State.doneCtr_or_fault_canon hu p) l h
          exact State.ite_canon (fun _ => State.canon_of (State.gates_tidy ..) (ht _)) fun _ => State.canon_of (State.modGate_tidy ..) (ht _)
      · exact State.ite_canon (fun _ => State.canon_of (State.gates_tidy ..) h) fun _ => h
theorem State.landOut_canon {s : State} (h : s.canon = true) (core ctx : Nat) (f : Flight) : (s.landOut core ctx f).canon = true := by
  unfold State.landOut
  split
  · exact State.canon_of (State.modCore_tidy _ _ _ rfl) h
  · exact State.landAppend_canon h ..
  · exact h
theorem execResultLanding_canon {s : State} (h : s.canon = true) (core ctx : Nat) : (execResultLanding core ctx s).canon = true :=
  foldl_canon (fun _ _ hu => State.landOut_canon hu ..) _ (State.canon_of (State.modCtx_tidy ..) h)
theorem State.spill_canon {s : State} (h : s.canon = true) (core ctx base : Nat) : (s.spill core ctx base).canon = true :=
  State.canon_of (State.modCtx_tidy ..) (State.modCore_canon core (spadsWf_of_spad (Memory.wf_spadWrite _ _)) h)
theorem foldl_wf {α : Type} {f : Memory → α → Memory} (hf : ∀ m a, m.wf = true → (f m a).wf = true) (l : List α) {m : Memory} (h : m.wf = true) :
    (l.foldl f m).wf = true :=
  List.foldlRecOn (motive := fun m : Memory => m.wf = true) _ _ h fun _ hm _ _ => hf _ _ hm
theorem State.park_canon {s : State} (h : s.canon = true) (core ctx base n : Nat) : (s.park core ctx base n).canon = true := by
  unfold State.park
  extract_lets g c gone fl c1 s1 putT putF
  have hT : ∀ m i, m.wf = true → (putT m i).wf = true := fun m i hm => by
    unfold putT
    split
    · exact Memory.wf_spadWrite _ _ hm
    · exact hm
  have hF : ∀ m i, m.wf = true → (putF m i).wf = true := fun m i hm => by
    unfold putF
    split
    · exact Memory.wf_spadWrite _ _ hm
    · exact hm
  exact State.modCore_canon core (spadsWf_of_spad fun hm => foldl_wf hF _ (foldl_wf hT _ hm)) (State.canon_of (State.modChan_tidy ..) h)
theorem execPreemption_canon {s : State} (h : s.canon = true) (core ctx : Nat) : (execPreemption core ctx s).canon = true := by
  unfold execPreemption
  split
  · exact h
  · next base _ =>
    dsimp only
    refine Out3.ite_canon (fun _ => ?_) fun _ => Out3.ite_canon (fun _ => State.spill_canon h ..) fun _ => h
    refine State.canon_of (State.modCore_tidy _ _ _ ((Core.reschedule_tidy ..).trans rfl)) ?_
    exact State.canon_of (State.modCtx_tidy ..) (foldl_canon (fun _ n hu => State.park_canon hu core ctx base n) _ h)

end Sys2Proof.Machine
end

-- ==== The canonical form of the memories: instructions and events

section
/-! SUPPORT. Every instruction and every event keeps the condition. -/

namespace Sys2Proof.Machine

-- what an instruction may answer besides its result

theorem State.raise_canon {s : State} (h : s.canon = true) (code : Nat) (d0 d1 : Word) : (s.raise code d0 d1).canon = true := by
  have h1 := fun f => State.canon_of (State.modIss_tidy s f) h
  exact State.ite_canon (fun _ => State.canon_of (State.freeze_tidy ..) (h1 _)) fun _ => State.canon_of (State.modCur_tidy ..) (h1 _)
theorem State.perm_canon {s : State} (h : s.canon = true) (n : Nat) : (s.perm n).canon = true := State.raise_canon h ..
theorem State.range_canon {s : State} (h : s.canon = true) (n : Nat) (v : Word) : (s.range n v).canon = true := State.raise_canon h ..
theorem State.align3_canon {s : State} (h : s.canon = true) (a : Word) : (s.align3 a).canon = true := State.raise_canon h ..
theorem State.illegal_canon {s : State} (h : s.canon = true) : s.illegal.canon = true := State.raise_canon h ..
theorem State.absent_canon {s : State} (h : s.canon = true) : s.absent.canon = true := State.raise_canon h ..
theorem State.windowMiss_canon {s : State} (h : s.canon = true) : s.windowMiss.canon = true := State.raise_canon h ..
theorem State.raiseWalk_canon {s : State} (h : s.canon = true) (sc va kind lvl stg cause : Nat) :
    (s.raiseWalk sc va kind lvl stg cause).canon = true := State.raise_canon h ..
theorem State.later_canon {s : State} (h : s.canon = true) (lat : Nat) (causes : Causes) (e : Eff) : (s.later lat causes e).canon = true :=
  State.canon_of (State.later_tidy ..) h
theorem State.putS_canon {s : State} (h : s.canon = true) (lat : Nat) (causes : Causes) (d : Code) (v : Word) :
    (s.putS lat causes d v).canon = true :=
  State.canon_of (State.putS_tidy ..) h
theorem State.putV_canon {s : State} (h : s.canon = true) (lat : Nat) (causes : Causes) (d : Code) (v : Vec) : (s.putV lat causes d v).canon = true :=
  State.canon_of (State.putV_tidy ..) h
theorem State.holdIssue_canon {s : State} (h : s.canon = true) : s.holdIssue.canon = true := State.canon_of (State.holdIssue_tidy ..) h
theorem State.await_canon {s : State} (h : s.canon = true) (w : Wait) : (s.await w).canon = true := State.canon_of (State.await_tidy ..) h
theorem State.enter_canon {s : State} (h : s.canon = true) (a : Access) (b : Bool) :
    (s.enter a b).canon = true := State.canon_of (State.enter_tidy ..) h
theorem State.dropL1_canon {s : State} (h : s.canon = true) (c pa len : Nat) :
    (s.dropL1 c pa len).canon = true := State.canon_of (State.dropL1_tidy ..) h
theorem State.spend_canon {s : State} (h : s.canon = true) : s.spend.canon = true := State.canon_of (State.spend_tidy ..) h
theorem State.putC_canon {s : State} (h : s.canon = true) (c : Code) (v : Bool) (r : BitVec 3) : (s.putC c v r).canon = true :=
  Out3.ite_canon (fun _ => State.later_canon h ..) fun _ => Out3.ite_canon (fun _ => State.raise_canon h ..) fun _ => State.later_canon h ..

-- the conditions that stand before an instruction's effect

theorem sop_canon {i : Instr} {bad gone : Bool} {s : State} {k : State → Out3} (h : s.canon = true)
    (hk : ∀ u, u.canon = true → (k u).canon = true) : (sop i bad gone s k).canon = true := by
  refine Out3.ite_canon (fun _ => State.illegal_canon h) fun _ => Out3.ite_canon (fun _ => State.absent_canon h) fun _ => ?_
  split
  · exact State.raise_canon h ..
  · refine Out3.ite_canon (fun _ => hk _ (State.ite_canon (fun _ => State.canon_of (State.note_tidy ..) h) fun _ => h)) fun _ => h
theorem State.heldUntil_canon {s : State} {ok : Bool} {k : State → Out3} (h : s.canon = true)
    (hk : ∀ u, u.canon = true → (k u).canon = true) : (s.heldUntil ok k).canon = true :=
  Out3.ite_canon (fun _ => hk s h) fun _ => State.holdIssue_canon h
theorem State.translate_canon {s : State} {va kind sc : Nat} {k : TlbEntry → State → Out3} (h : s.canon = true)
    (hk : ∀ e u, u.canon = true → (k e u).canon = true) : (s.translate va kind sc k).canon = true := by
  unfold State.translate
  dsimp only
  split
  · exact State.raiseWalk_canon h ..
  · split
    · split
      · exact State.raiseWalk_canon h ..
      · split
        · exact State.raiseWalk_canon h ..
        · exact hk _ s h
    · have hw := State.canon_of (State.modCurCore_tidy s (fun q => { q with walk := some ⟨va, kind⟩ }) rfl) h
      exact State.ite_canon (fun _ => State.holdIssue_canon hw) fun _ => State.holdIssue_canon h
theorem State.freshRead_canon {s : State} {va n : Nat} {k : List Byte → State → Out3} (h : s.canon = true)
    (hk : ∀ bs u, u.canon = true → (k bs u).canon = true) : (s.freshRead va n k).canon = true := by
  refine State.translate_canon h fun e u hu => State.heldUntil_canon hu fun v hv => ?_
  split
  · exact State.raiseWalk_canon hv ..
  · exact hk _ v hv
@[simp] theorem State.asks_tidy (s : State) (v : List Ask) : { s with asks := v }.tidy = s.tidy := rfl
theorem State.asks_canon {s : State} (h : s.canon = true) (v : List Ask) : { s with asks := v }.canon = true := State.canon_of (State.asks_tidy ..) h
theorem State.ask_canon {s : State} {least : Nat} {k : State → Out3} (h : s.canon = true) (hk : ∀ u, u.canon = true → (k u).canon = true) :
    (s.ask least k).canon = true := by
  unfold State.ask
  split
  · exact State.asks_canon (State.holdIssue_canon h) _
  · exact Out3.ite_canon (fun _ => hk _ (State.asks_canon h _)) fun _ => State.holdIssue_canon h
theorem State.recordRead_canon {s : State} (h : s.canon = true) : s.recordRead.canon = true := State.canon_of (State.recordRead_tidy ..) h
theorem launchOp_canon {i : Instr} {a : Code} {gang : Bool} {s : State} {k : LaunchRec → State → Out3} (h : s.canon = true)
    (hk : ∀ r u, u.canon = true → (k r u).canon = true) : (launchOp i a gang s k).canon = true := by
  refine sop_canon h fun u hu => ?_
  refine Out3.ite_canon (fun _ => State.raise_canon hu ..) fun _ => Out3.ite_canon (fun _ => State.raiseWalk_canon hu ..) fun _ => ?_
  refine Out3.ite_canon (fun _ => State.canon_of (State.modIss_tidy ..) hu) fun _ => State.heldUntil_canon hu fun v hv => ?_
  refine State.freshRead_canon hv fun bs w hw => ?_
  dsimp only
  split
  · exact Out3.ite_canon (fun _ => State.raiseWalk_canon hw ..) fun _ => State.range_canon hw ..
  · refine Out3.ite_canon (fun _ => State.range_canon hw ..) fun _ => Out3.ite_canon (fun _ => State.range_canon hw ..) fun _ => ?_
    exact hk _ _ (State.recordRead_canon hw)
theorem xop_canon {i : Instr} {bad gone : Bool} {rows : List Nat} {s : State} {k : State → Out3} (h : s.canon = true)
    (hk : ∀ u, u.canon = true → (k u).canon = true) : (xop i bad gone rows s k).canon = true :=
  sop_canon h fun u hu => Out3.ite_canon (fun _ => hk u hu) fun _ => State.windowMiss_canon hu
theorem gop_canon {i : Instr} {bad : Bool} {s : State} {k : State → Out3} (h : s.canon = true) (hk : ∀ u, u.canon = true → (k u).canon = true) :
    (gop i bad s k).canon = true := sop_canon h hk
theorem State.checkRec_canon {s : State} {r : CRec} {reg : Option Nat} {k : State → Out3} (h : s.canon = true)
    (hk : ∀ u, u.canon = true → (k u).canon = true) : (s.checkRec r reg k).canon = true := by
  unfold State.checkRec
  split
  · exact State.raise_canon h ..
  · refine Out3.ite_canon (fun _ => State.raise_canon h ..) fun _ => ?_
    split
    · exact State.range_canon h ..
    · exact hk s h
theorem State.slotRec_canon {s : State} {n : Nat} {k : CRec → State → Out3} (h : s.canon = true) (hk : ∀ r u, u.canon = true → (k r u).canon = true) :
    (s.slotRec n k).canon = true :=
  Out3.ite_canon (fun _ => State.checkRec_canon h fun _ hu => hk _ _ (State.later_canon hu ..)) fun _ => hk _ s h
theorem copyOp_canon {i : Instr} {l m : Code} {timed x : Bool} {s : State} {k : CRec → CRec → State → Out3} (h : s.canon = true)
    (hk : ∀ a b u, u.canon = true → (k a b u).canon = true) : (copyOp i l m timed x s k).canon = true := by
  refine sop_canon h fun u hu => State.slotRec_canon hu fun a v hv => State.slotRec_canon hv fun b w hw => ?_
  split
  · exact State.raise_canon hw ..
  · exact hk a b w hw
theorem State.needJob_canon {s : State} {k : Nat → Out3} (h : s.canon = true) (hk : ∀ j, (k j).canon = true) : (s.needJob k).canon = true := by
  unfold State.needJob
  split
  · exact State.perm_canon h ..
  · exact hk _
theorem frOp_canon {i : Instr} {a : Code} {right : Pass → Bool} {s : State} {k : Pass → State → Out3} (h : s.canon = true)
    (hk : ∀ p u, u.canon = true → (k p u).canon = true) : (frOp i a right s k).canon = true := by
  refine sop_canon h fun u hu => Out3.ite_canon (fun _ => State.perm_canon hu ..) fun _ => ?_
  split
  · exact State.perm_canon hu ..
  · exact Out3.ite_canon (fun _ => hk _ u hu) fun _ => State.perm_canon hu ..
theorem f1Op_canon {i : Instr} {c b : Code} {s : State} {k : State → Out3} (h : s.canon = true) (hk : (k s).canon = true) :
    (f1Op i c b s k).canon = true := by
  refine Out3.ite_canon (fun _ => hk) fun _ => ?_
  split
  · exact State.raise_canon h ..
  · exact hk

-- the operations that instructions share

section
variable {s : State} (h : s.canon = true)
include h
theorem scalar1_canon (i : Instr) (d : Code) (f : State → Word) : (scalar1 i d s f).canon = true := sop_canon h fun _ hu => State.putS_canon hu ..
theorem scalar3_canon (i : Instr) (d : Code) (f : State → Word) : (scalar3 i d s f).canon = true := sop_canon h fun _ hu => State.putS_canon hu ..
theorem divide_canon (i : Instr) (d a b : Code) (q : Word → Word → Word × Causes) : (divide i d a b s q).canon = true :=
  sop_canon h fun _ hu => Out3.ite_canon (fun _ => State.raise_canon hu ..) fun _ =>
    State.putS_canon (State.canon_of (State.modCore_tidy _ _ _ rfl) hu) ..
theorem compare_canon (i : Instr) (c : Code) (f : Word → Word → Bool) (x y : State → Word) : (compare i c s f x y).canon = true :=
  sop_canon h fun _ hu => State.putC_canon hu ..
theorem guardLogic_canon (i : Instr) (c : Code) (f : State → Bool) :
    (guardLogic i c s f).canon = true := sop_canon h fun _ hu => State.putC_canon hu ..
theorem loadOp_canon (i : Instr) (d a o : Code) (x : Ext) (z : Nat) (vec : Bool) : (loadOp i d a o x z vec s).canon = true := by
  refine sop_canon h fun u hu => Out3.ite_canon (fun _ => State.raiseWalk_canon hu ..) fun _ => State.translate_canon hu fun e v hv => ?_
  split
  · exact State.raiseWalk_canon hv ..
  · exact State.heldUntil_canon hv fun w hw => State.enter_canon hw ..
theorem storeOp_canon (i : Instr) (a o : Code) (z : Nat) (val : State → Vec) : (storeOp i a o z val s).canon = true :=
  sop_canon h fun _ hu => Out3.ite_canon (fun _ => State.raiseWalk_canon hu ..) fun _ => State.translate_canon hu fun _ _ hv =>
    State.heldUntil_canon hv fun _ hw => State.dropL1_canon (State.enter_canon hw ..) ..
theorem amoInstr_canon (i : Instr) (op : Nat) (d a b : Code) (x : Ext) : (amoInstr i op d a b x s).canon = true := by
  refine sop_canon h fun u hu => Out3.ite_canon (fun _ => State.raiseWalk_canon hu ..) fun _ => State.translate_canon hu fun e v hv => ?_
  refine Out3.ite_canon (fun _ => State.dropL1_canon (State.canon_of (State.buffer_tidy ..) hv) ..) fun _ => ?_
  exact State.heldUntil_canon hv fun w hw => State.dropL1_canon (State.enter_canon hw ..) ..
theorem trackedOp_canon (i : Instr) (d l m : Code) (e : Ext) (x : Bool) : (trackedOp i d l m e x s).canon = true :=
  copyOp_canon h fun _ _ _ hu => Out3.ite_canon (fun _ => State.putS_canon hu ..) fun _ =>
    State.putS_canon (State.canon_of (State.queueCopy_tidy ..) hu) ..
theorem collOp_canon (i : Instr) (kind : Nat) (d a : Code) : (collOp i kind d a s).canon = true := by
  refine sop_canon h fun u hu => State.needJob_canon hu fun job => Out3.ite_canon (fun _ => State.raiseWalk_canon hu ..) fun _ => ?_
  refine State.freshRead_canon hu fun bs v hv => ?_
  dsimp only
  split
  · exact State.range_canon hv ..
  · refine State.heldUntil_canon hv fun w hw => ?_
    split
    · exact State.raiseWalk_canon hw ..
    · split
      · exact State.range_canon hw ..
      · refine Out3.ite_canon (fun _ => State.range_canon hw ..) fun _ => Out3.ite_canon (fun _ => State.range_canon hw ..) fun _ => ?_
        refine Out3.ite_canon (fun _ => State.range_canon hw ..) fun _ => ?_
        exact State.canon_of (State.joinGate_tidy ..) (State.enter_canon (State.canon_of (State.askMerges_tidy ..) hw) ..)
theorem vlanes_canon (i : Instr) (lat : Nat) (d : Code) (x : Ext) (f : State → Nat → Nat × Causes) : (vlanes i lat d x s f).canon = true :=
  sop_canon h fun _ hu => State.putV_canon hu ..
theorem vall_canon (i : Instr) (lat : Nat) (d : Code) (f : State → Nat → Nat) : (vall i lat d s f).canon = true :=
  sop_canon h fun _ hu => State.putV_canon hu ..
theorem varith_canon (i : Instr) (lat : Nat) (d a b : Code) (x : Ext) (f : Nat → Num → Num → Num → Num) (three : Bool) :
    (varith i lat d a b x s f three).canon = true := vlanes_canon h ..
theorem vminmax_canon (i : Instr) (mx : Bool) (d a b : Code) (x : Ext) : (vminmax i mx d a b x s).canon = true := vlanes_canon h ..
theorem vfunc_canon (i : Instr) (d a : Code) (x : Ext) (f : Num → Num × Bool) : (vfunc i d a x s f).canon = true := vlanes_canon h ..
theorem vbits_canon (i : Instr) (d : Code) (x : Ext) (f : State → Nat → BitVec 32) : (vbits i d x s f).canon = true := vlanes_canon h ..
theorem vcmp_canon (i : Instr) (cc : Nat) (m a b : Code) (x : Ext) :
    (vcmp i cc m a b x s).canon = true := sop_canon h fun _ hu => State.later_canon hu ..
theorem vmaskOp_canon (i : Instr) (m : Code) (f : State → Mask) : (vmaskOp i m s f).canon = true := sop_canon h fun _ hu => State.later_canon hu ..
theorem vredMM_canon (i : Instr) (mx : Bool) (d a : Code) (x : Ext) :
    (vredMM i mx d a x s).canon = true := sop_canon h fun _ hu => State.putS_canon hu ..
theorem vresidue_canon (i : Instr) (lat : Nat) (d a b : Code) (x : Ext) (f : Nat → Nat → Nat → Nat) : (vresidue i lat d a b x s f).canon = true :=
  sop_canon h fun _ hu => State.putV_canon hu ..
theorem vbutterfly_canon (i : Instr) (d a b : Code) (x : Ext) (f : Nat → Nat → Nat → Nat → Nat × Nat) : (vbutterfly i d a b x s f).canon = true :=
  sop_canon h fun _ hu => State.putV_canon hu ..
end

-- frames, said of the form

section
variable {s : State} (h : s.canon = true)
include h
theorem State.modIss_canon (f : Iss → Iss) : (s.modIss f).canon = true := State.canon_of (State.modIss_tidy ..) h
theorem State.arrLater_canon (lat : Nat) (e : AEff) : (s.arrLater lat e).canon = true := State.canon_of (State.arrLater_tidy ..) h
theorem State.modCurArr_canon (f : Arr → Arr) : (s.modCurArr f).canon = true := State.canon_of (State.modCurArr_tidy ..) h
theorem State.transfer_canon (x : Xfer) : (s.transfer x).canon = true := State.canon_of (State.transfer_tidy ..) h
theorem State.startLoop_canon (n len drain kind : Nat) : (s.startLoop n len drain kind).canon = true := State.canon_of (State.startLoop_tidy ..) h
theorem State.setAllot_canon (ns nv : Nat) : (s.setAllot ns nv).canon = true := State.canon_of (State.setAllot_tidy ..) h
theorem State.endWait_canon (c x : Nat) (p : Wait → Bool) : (s.endWait c x p).canon = true := State.canon_of (State.endWait_tidy ..) h
theorem State.modChan_canon (cl n : Nat) (f : Channel → Channel) : (s.modChan cl n f).canon = true := State.canon_of (State.modChan_tidy ..) h
theorem State.landArr_canon (pair : Nat) (p : AEff → Bool) : (s.landArr pair p).canon = true := State.canon_of (State.landArr_tidy ..) h
theorem State.askMerges_canon (core : Nat) (p : AmoBuf → Bool) : (s.askMerges core p).canon = true := State.canon_of (State.askMerges_tidy ..) h
theorem State.awaitFence_canon (kind scope : Nat) : (s.awaitFence kind scope).canon = true := State.canon_of (State.awaitFence_tidy ..) h
theorem State.engineTake_canon (lat : Nat) : (s.engineTake lat).canon = true := State.canon_of (State.engineTake_tidy ..) h
theorem State.defer_canon (core ctx gen launch code : Nat) (d0 d1 : Word) (addr : Nat) : (s.defer core ctx gen launch code d0 d1 addr).canon = true :=
  State.canon_of (State.defer_tidy s core ctx gen launch code d0 d1 addr) h
theorem State.picks_canon (n : Nat) : { s with picks := n }.canon = true := State.canon_of_fields h rfl rfl rfl
theorem State.note_canon (c : Causes) : (s.note c).canon = true := State.canon_of (State.note_tidy ..) h

-- control

theorem execPrep_canon (g : Guard) (j : Code) (i : BitVec 12) (x : Ext) :
    (execPrep g j i x s).canon = true := sop_canon h fun _ hu => State.later_canon hu ..
theorem execPrepr_canon (g : Guard) (j a : Code) : (execPrepr g j a s).canon = true :=
  sop_canon h fun _ hu => Out3.ite_canon (fun _ => State.align3_canon hu _) fun _ => State.later_canon hu ..
theorem execBr_canon (g : Guard) (j : Code) : (execBr g j s).canon = true :=
  sop_canon h fun _ hu => Out3.ite_canon (fun _ => State.transfer_canon hu _) fun _ => hu
theorem execBrl_canon (g : Guard) (j d : Code) : (execBrl g j d s).canon = true :=
  sop_canon h fun _ hu => Out3.ite_canon (fun _ => State.putS_canon (State.transfer_canon hu _) ..) fun _ => hu
theorem execRet_canon (g : Guard) (a : Code) : (execRet g a s).canon = true :=
  sop_canon h fun _ hu => Out3.ite_canon (fun _ => State.align3_canon hu _) fun _ => State.transfer_canon hu _
theorem execLoop_canon (g : Guard) (a : Code) (l : BitVec 12) (x : Ext) : (execLoop g a l x s).canon = true := by
  unfold execLoop
  exact sop_canon h fun _ hu => State.startLoop_canon hu ..
theorem execLoopi_canon (g : Guard) (l : Code) (n : BitVec 12) (x : Ext) : (execLoopi g l n x s).canon = true := by
  unfold execLoopi
  exact sop_canon h fun _ hu => State.startLoop_canon hu ..
theorem execLoopr_canon (g : Guard) (a : Code) (l : BitVec 12) (x : Ext) : (execLoopr g a l x s).canon = true :=
  sop_canon h fun _ hu => State.startLoop_canon hu ..
theorem execLbrk_canon (g : Guard) : (execLbrk g s).canon = true :=
  sop_canon h fun _ hu => Out3.ite_canon (fun _ => State.modIss_canon hu _) fun _ => hu
theorem execYield_canon (g : Guard) : (execYield g s).canon = true := sop_canon h fun _ hu => State.modIss_canon hu _
theorem execDone_canon (g : Guard) : (execDone g s).canon = true := sop_canon h fun _ hu => State.modIss_canon hu _
theorem execTrap_canon (g : Guard) (i : BitVec 12) : (execTrap g i s).canon = true := sop_canon h fun _ hu => State.raise_canon hu ..
theorem execBkpt_canon (g : Guard) : (execBkpt g s).canon = true := sop_canon h fun _ hu => State.raise_canon hu ..
theorem execWaitc_canon (g : Guard) (a : Code) : (execWaitc g a s).canon = true := sop_canon h fun _ hu => State.await_canon hu _
theorem execWaitcWake_canon (core ctx : Nat) : (execWaitcWake core ctx s).canon = true := State.endWait_canon h ..
theorem execDefer_canon (g : Guard) (a : Code) (k n : BitVec 3) (p : Code) : (execDefer g a k n p s).canon = true :=
  sop_canon h fun _ hu => State.later_canon hu ..
theorem execDefdr_canon (g : Guard) (d : Code) (n : BitVec 3) (p : Code) : (execDefdr g d n p s).canon = true :=
  sop_canon h fun u hu => by
    extract_lets e val c s1 s2
    have h1 : s1.canon = true := foldl_canon (fun _ _ hv => State.later_canon hv ..) _ (State.picks_canon hu _)
    exact State.later_canon (State.ite_canon (fun _ => h1) fun _ => State.later_canon h1 ..) ..
theorem execDefct_canon (g : Guard) (d p : Code) : (execDefct g d p s).canon = true := sop_canon h fun _ hu => State.putS_canon hu ..
theorem execTcur_canon (g : Guard) (d : Code) : (execTcur g d s).canon = true := sop_canon h fun _ hu =>
  have h1 := State.putS_canon hu 1 0 d _
  State.ite_canon (fun _ => h1) fun _ => State.later_canon h1 ..
theorem execCtxid_canon (g : Guard) (d : Code) : (execCtxid g d s).canon = true := sop_canon h fun _ hu => State.putS_canon hu ..
theorem execPrio_canon (g : Guard) (p : Code) : (execPrio g p s).canon = true :=
  sop_canon h fun _ hu => Out3.ite_canon (fun _ => hu) fun _ => State.later_canon hu ..

-- control registers and the register allotment

theorem execCwr_canon (g : Guard) (a : Code) (r : BitVec 12) : (execCwr g a r s).canon = true :=
  sop_canon h fun _ hu => Out3.ite_canon (fun _ => State.later_canon hu ..) fun _ => Out3.ite_canon (fun _ => State.later_canon hu ..) fun _ => hu
theorem execCwrArrmode_canon (g : Guard) (a : Code) : (execCwrArrmode g a s).canon = true :=
  sop_canon h fun _ hu => Out3.ite_canon (fun _ => State.range_canon hu ..) fun _ => Out3.ite_canon (fun _ => State.raise_canon hu ..) fun _ =>
    State.arrLater_canon hu ..
theorem execCwrModulus_canon (g : Guard) (a : Code) (k : BitVec 2) :
    (execCwrModulus g a k s).canon = true := sop_canon h fun _ hu => State.later_canon hu ..
theorem execCwrRptcard_canon (g : Guard) (a : Code) (n : BitVec 2) :
    (execCwrRptcard g a n s).canon = true := sop_canon h fun _ hu => State.later_canon hu ..
theorem execAllot_canon (g : Guard) (m n : Code) : (execAllot g m n s).canon = true :=
  sop_canon h fun _ hu => Out3.ite_canon (fun _ => State.raise_canon hu ..) fun _ => Out3.ite_canon (fun _ => State.raise_canon hu ..) fun _ =>
    State.setAllot_canon hu ..
theorem execShrink_canon (g : Guard) (m n : Code) : (execShrink g m n s).canon = true := sop_canon h fun _ hu => State.setAllot_canon hu ..

-- global memory

theorem execCas_canon (g : Guard) (d a b : Code) (x : Ext) : (execCas g d a b x s).canon = true :=
  sop_canon h fun _ hu => Out3.ite_canon (fun _ => State.raiseWalk_canon hu ..) fun _ => State.translate_canon hu fun _ _ hv =>
    State.heldUntil_canon hv fun _ hw => State.dropL1_canon (State.enter_canon hw ..) ..
theorem execFenceAcq_canon (g : Guard) (x : Ext) : (execFenceAcq g x s).canon = true := sop_canon h fun _ hu => State.awaitFence_canon hu ..
theorem execFenceRel_canon (g : Guard) (x : Ext) : (execFenceRel g x s).canon = true :=
  sop_canon h fun _ hu => State.enter_canon (State.askMerges_canon hu ..) ..
theorem execFenceFull_canon (g : Guard) (x : Ext) : (execFenceFull g x s).canon = true :=
  sop_canon h fun _ hu => State.awaitFence_canon (State.askMerges_canon hu ..) ..
theorem execFenceWaitEnd_canon (core ctx : Nat) : (execFenceWaitEnd core ctx s).canon = true := State.endWait_canon h ..
theorem execPref_canon (g : Guard) (a o : Code) (x : Ext) : (execPref g a o x s).canon = true := sop_canon h fun u hu => by
  extract_lets c w va mgmt fresh
  split
  · exact State.ite_canon (fun _ => State.note_canon (State.canon_of (State.logPref_tidy ..) hu) _) fun _ =>
      State.ite_canon (fun _ => hu) fun _ => State.canon_of (State.askFill_tidy ..) hu
  · exact State.ite_canon (fun _ => State.canon_of (State.modCore_tidy _ _ _ rfl) hu) fun _ => State.note_canon hu _

-- vectors

theorem execVredAdd_canon (g : Guard) (d a : Code) (x : Ext) : (execVredAdd g d a x s).canon = true := sop_canon h fun _ hu => State.putS_canon hu ..
theorem execVcvt_canon (g : Guard) (r : BitVec 3) (d a : Code) (x : Ext) : (execVcvt g r d a x s).canon = true :=
  sop_canon h fun _ hu => State.putV_canon hu ..

-- the array

theorem execXbeat_canon (g : Guard) (st w : BitVec 2) (p : BitVec 1) (r : Code) (o : BitVec 12) (x : Ext) :
    (execXbeat g st w p r o x s).canon = true := xop_canon h fun u hu => by
  extract_lets fmt q acc ty d s1 s2 s3 s4
  refine Out3.ite_canon (fun _ => State.range_canon hu ..) fun _ => Out3.ite_canon (fun _ => State.range_canon hu ..) fun _ => ?_
  refine Out3.ite_canon (fun _ => State.raise_canon hu ..) fun _ => Out3.ite_canon (fun _ => State.raise_canon hu ..) fun _ => ?_
  have h1 : s1.canon = true := foldl_canon (fun _ _ hv => State.canon_of (State.contribute_tidy ..) hv) _ hu
  have h2 : s2.canon = true := State.arrLater_canon h1 ..
  have h3 : s3.canon = true := by
    refine State.ite_canon (fun _ => State.ite_canon (fun _ => State.modCurArr_canon h2 _) fun _ => h2) fun _ => ?_
    exact State.ite_canon (fun _ => State.canon_of (State.drainRow_tidy ..) hu) fun _ => hu
  have h4 : s4.canon = true := State.canon_of (State.pushWeight_tidy ..) h3
  exact State.ite_canon (fun _ => State.arrLater_canon h4 ..) fun _ => h4
theorem execXmode_canon (g : Guard) (a : Code) : (execXmode g a s).canon = true := xop_canon h fun u hu => by
  split
  · exact State.range_canon hu ..
  · exact State.arrLater_canon hu ..
theorem execXzero_canon (g : Guard) (r : Code) : (execXzero g r s).canon = true := xop_canon h fun _ hu => State.arrLater_canon hu ..
theorem execXcks_canon (g : Guard) (d a b : Code) : (execXcks g d a b s).canon = true := xop_canon h fun u hu => by
  dsimp only
  split
  · exact State.range_canon hu ..
  · refine Out3.ite_canon (fun _ => State.range_canon hu ..) fun _ => Out3.ite_canon (fun _ => State.range_canon hu ..) fun _ => ?_
    refine Out3.ite_canon (fun _ => State.windowMiss_canon hu) fun _ => ?_
    exact State.putS_canon (State.arrLater_canon (State.arrLater_canon (State.modCurArr_canon hu _) ..) ..) ..
theorem execXfix_canon (g : Guard) (d a : Code) : (execXfix g d a s).canon = true := xop_canon h fun u hu => by
  dsimp only
  split
  · exact State.range_canon hu ..
  · refine Out3.ite_canon (fun _ => State.range_canon hu ..) fun _ => Out3.ite_canon (fun _ => State.windowMiss_canon hu) fun _ => ?_
    refine Out3.ite_canon (fun _ => State.raise_canon hu ..) fun _ => ?_
    split
    · exact State.putS_canon (State.arrLater_canon hu ..) ..
    · exact State.putS_canon (State.arrLater_canon (State.arrLater_canon hu ..) ..) ..
    · exact State.putS_canon (State.arrLater_canon (State.arrLater_canon hu ..) ..) ..
theorem execXres_canon (g : Guard) (k : Code) : (execXres g k s).canon = true := xop_canon h fun _ hu => State.arrLater_canon hu ..
theorem execXwin_canon (g : Guard) (a : Code) : (execXwin g a s).canon = true :=
  sop_canon h fun _ hu => Out3.ite_canon (fun _ => State.windowMiss_canon hu) fun _ => Out3.ite_canon (fun _ => State.range_canon hu ..) fun _ =>
    State.await_canon hu _
theorem execXwinWake_canon (core ctx : Nat) : (execXwinWake core ctx s).canon = true := State.endWait_canon h ..
theorem execXinj_canon (g : Guard) (r a b : Code) : (execXinj g r a b s).canon = true :=
  sop_canon h fun _ hu => Out3.ite_canon (fun _ => State.perm_canon hu _) fun _ => Out3.ite_canon (fun _ => State.windowMiss_canon hu) fun _ =>
    Out3.ite_canon (fun _ => State.range_canon hu ..) fun _ => State.arrLater_canon hu ..
theorem execContributionLanding_canon (pair : Nat) : (execContributionLanding pair s).canon = true := State.landArr_canon h ..
theorem execArrayEffectLanding_canon (pair : Nat) : (execArrayEffectLanding pair s).canon = true := State.landArr_canon h ..
theorem execGorbLanding_canon (pair : Nat) : (execGorbLanding pair s).canon = true := State.landArr_canon h ..

-- the scratchpad and the units

theorem execLds_canon (g : Guard) (d a o : Code) (x : Ext) : (execLds g d a o x s).canon = true :=
  sop_canon h fun _ hu => Out3.ite_canon (fun _ => State.align3_canon hu _) fun _ => State.putV_canon hu ..
theorem execLdsTag_canon (g : Guard) (d a t : Code) : (execLdsTag g d a t s).canon = true :=
  sop_canon h fun _ hu => Out3.ite_canon (fun _ => State.range_canon hu ..) fun _ => Out3.ite_canon (fun _ => State.align3_canon hu _) fun _ =>
    Out3.ite_canon (fun _ => State.raise_canon hu ..) fun _ => State.putV_canon hu ..
theorem execSts_canon (g : Guard) (v a o : Code) (x : Ext) : (execSts g v a o x s).canon = true :=
  sop_canon h fun _ hu => Out3.ite_canon (fun _ => State.align3_canon hu _) fun _ => State.later_canon hu ..
theorem execLdss_canon (g : Guard) (d a o : Code) (x : Ext) : (execLdss g d a o x s).canon = true :=
  sop_canon h fun _ hu => Out3.ite_canon (fun _ => State.align3_canon hu _) fun _ => State.putS_canon hu ..
theorem execStss_canon (g : Guard) (v a o : Code) (x : Ext) : (execStss g v a o x s).canon = true :=
  sop_canon h fun _ hu => Out3.ite_canon (fun _ => State.align3_canon hu _) fun _ => State.later_canon hu ..
theorem execBfmt_canon (g : Guard) (k a : Code) : (execBfmt g k a s).canon = true :=
  sop_canon h fun _ hu => Out3.ite_canon (fun _ => State.later_canon (State.later_canon hu ..) ..) fun _ => State.later_canon hu ..
theorem execFpeek_canon (g : Guard) (d f : Code) : (execFpeek g d f s).canon = true := sop_canon h fun u hu => by
  refine Out3.ite_canon (fun _ => State.windowMiss_canon hu) fun _ => ?_
  split
  · exact State.putS_canon hu ..
  · exact State.putS_canon hu ..
theorem execFlev_canon (g : Guard) (d f : Code) : (execFlev g d f s).canon = true :=
  sop_canon h fun _ hu => Out3.ite_canon (fun _ => State.windowMiss_canon hu) fun _ => State.putS_canon hu ..

-- copies

theorem execLrec_canon (g : Guard) (k a : Code) : (execLrec g k a s).canon = true := by
  unfold execLrec
  exact sop_canon h fun _ hu => State.checkRec_canon hu fun _ hv => State.later_canon hv ..
theorem execCpyt_canon (g : Guard) (a l m : Code) (x : Ext) : (execCpyt g a l m x s).canon = true :=
  copyOp_canon h fun _ _ _ hu => Out3.ite_canon (fun _ => State.raise_canon hu ..) fun _ => Out3.ite_canon (fun _ => hu) fun _ =>
    State.modChan_canon hu ..
theorem execTimedPacketRead_canon (cl ch id : Nat) : (execTimedPacketRead cl ch id s).canon = true := by
  unfold execTimedPacketRead
  split
  · exact h
  · exact Out3.ite_canon (fun _ => h) fun _ => State.canon_of (State.modTimed_tidy ..) h
theorem execTrackedCopyStart_canon (cl ch : Nat) : (execTrackedCopyStart cl ch s).canon = true := by
  unfold execTrackedCopyStart
  dsimp only
  split
  · exact Out3.ite_canon (fun _ => State.modChan_canon h ..) fun _ => State.modChan_canon h ..
  · exact h
theorem execTrackedCopyComplete_canon (cl ch : Nat) : (execTrackedCopyComplete cl ch s).canon = true := by
  unfold execTrackedCopyComplete
  split
  · exact h
  · have h1 := fun f => State.modChan_canon h cl ch f
    exact Out3.ite_canon (fun _ => h) fun _ => State.ite_canon (fun _ => State.canon_of (State.modCore_tidy _ _ _ rfl) (h1 _)) fun _ => h1 _
theorem execCidw_canon (g : Guard) (a : Code) (x : Ext) : (execCidw g a x s).canon = true := sop_canon h fun u hu => by
  dsimp only
  split
  · exact State.raise_canon hu ..
  · exact State.ite_canon (fun _ => State.modIss_canon hu _) fun _ => State.await_canon hu _
theorem execCidwWake_canon (core ctx : Nat) : (execCidwWake core ctx s).canon = true := State.endWait_canon h ..
theorem execCidr_canon (g : Guard) (d : Code) (x : Ext) : (execCidr g d x s).canon = true := sop_canon h fun _ hu => State.putS_canon hu ..
theorem execCinv_canon (g : Guard) (a : Code) (x : Ext) : (execCinv g a x s).canon = true :=
  sop_canon h fun _ hu => State.canon_of (State.markChan_tidy ..) (State.canon_of (State.invalidate_tidy ..) hu)
theorem execChalt_canon (g : Guard) (x : Ext) : (execChalt g x s).canon = true := sop_canon h fun _ hu => State.modChan_canon hu ..

-- the group engine

theorem execGload_canon (g : Guard) (a n : Code) : (execGload g a n s).canon = true := gop_canon h fun u hu => by
  refine Out3.ite_canon (fun _ => State.windowMiss_canon hu) fun _ => Out3.ite_canon (fun _ => State.range_canon hu ..) fun _ => ?_
  refine Out3.ite_canon (fun _ => State.range_canon hu ..) fun _ => Out3.ite_canon (fun _ => State.range_canon hu ..) fun _ => ?_
  refine Out3.ite_canon (fun _ => State.range_canon hu ..) fun _ => Out3.ite_canon (fun _ => State.align3_canon hu _) fun _ => ?_
  refine Out3.ite_canon (fun _ => State.range_canon hu ..) fun _ => ?_
  extract_lets now s1 s2 s3
  have h2 : s2.canon = true := State.canon_of (State.modCore_tidy _ _ _ rfl) (State.modCurArr_canon (State.engineTake_canon hu _) _)
  have h3 : s3.canon = true := foldl_canon (fun _ _ hv => State.arrLater_canon hv ..) _ h2
  exact State.ite_canon (fun _ => State.arrLater_canon h3 ..) fun _ => State.arrLater_canon (State.arrLater_canon h3 ..) ..
theorem execGroupLoadLanding_canon (pair : Nat) : (execGroupLoadLanding pair s).canon = true :=
  Out3.ite_canon (fun _ => State.landArr_canon h ..) fun _ => State.canon_of (State.modArr_tidy ..) h
theorem execGchk_canon (g : Guard) (d : Code) : (execGchk g d s).canon = true := gop_canon h fun _ hu =>
  Out3.ite_canon (fun _ => State.windowMiss_canon hu) fun _ =>
    State.putS_canon (State.arrLater_canon (State.arrLater_canon (State.engineTake_canon hu _) ..) ..) ..
theorem execGchkVerdict_canon (pair : Nat) : (execGchkVerdict pair s).canon = true := by
  have h1 := State.landArr_canon h pair isVerdict
  unfold execGchkVerdict
  split
  · exact h
  · dsimp only
    split
    · exact Out3.ite_canon (fun _ => h1) fun _ => State.defer_canon h1 ..
    · exact h1
theorem execGsel_canon (g : Guard) (a : Code) : (execGsel g a s).canon = true := gop_canon h fun _ hu =>
  Out3.ite_canon (fun _ => State.windowMiss_canon hu) fun _ => Out3.ite_canon (fun _ => State.range_canon hu ..) fun _ =>
    Out3.ite_canon (fun _ => State.range_canon hu ..) fun _ => Out3.ite_canon (fun _ => State.raise_canon hu ..) fun _ => State.arrLater_canon hu ..
theorem execGorb_canon (g : Guard) (r a : Code) : (execGorb g r a s).canon = true := gop_canon h fun u hu => by
  refine Out3.ite_canon (fun _ => State.windowMiss_canon hu) fun _ => Out3.ite_canon (fun _ => State.range_canon hu ..) fun _ => ?_
  refine Out3.ite_canon (fun _ => State.range_canon hu ..) fun _ => Out3.ite_canon (fun _ => State.range_canon hu ..) fun _ => ?_
  refine Out3.ite_canon (fun _ => State.range_canon hu ..) fun _ => Out3.ite_canon (fun _ => State.range_canon hu ..) fun _ => ?_
  refine Out3.ite_canon (fun _ => State.raise_canon hu ..) fun _ => Out3.ite_canon (fun _ => State.windowMiss_canon hu) fun _ => ?_
  exact State.arrLater_canon hu ..
theorem execGstat_canon (g : Guard) (d : Code) : (execGstat g d s).canon = true := gop_canon h fun _ hu => State.putS_canon hu ..
end

section
variable {s : State} (h : s.canon = true)
include h
theorem State.modCtx_canon (c x : Nat) (f : Ctx → Ctx) : (s.modCtx c x f).canon = true := State.canon_of (State.modCtx_tidy ..) h
theorem State.unitLater_canon (lat port : Nat) (e : UEff) : (s.unitLater lat port e).canon = true := State.canon_of (State.unitLater_tidy ..) h
theorem State.unitBusy_canon (u lat : Nat) : (s.unitBusy u lat).canon = true := State.canon_of (State.unitBusy_tidy ..) h
theorem State.modGang_canon (no : Nat) (f : Gang → Gang) : (s.modGang no f).canon = true := State.canon_of (State.modGang_tidy ..) h
theorem State.modLaunch_canon (l : Nat) (f : Launch → Launch) : (s.modLaunch l f).canon = true := State.canon_of (State.modLaunch_tidy ..) h
theorem State.modJob_canon (job : Nat) (f : Job → Job) : (s.modJob job f).canon = true := State.canon_of (State.modJob_tidy ..) h
theorem State.pend_canon (n : Nat) (r : LaunchRec) (w : Nat) (g : Option (Nat × Nat × Nat × Nat)) : (s.pend n r w g).canon = true :=
  State.canon_of (State.pend_tidy ..) h
theorem State.endWaitAcq_canon (c x : Nat) (p : Wait → Bool) : (s.endWaitAcq c x p).canon = true := State.canon_of (State.endWaitAcq_tidy ..) h
theorem State.modSlot_canon (n : Nat) (f : PoolSlot → PoolSlot) : (s.modSlot n f).canon = true := State.canon_of (State.modSlot_tidy ..) h
theorem State.modChunk_canon (n k : Nat) (f : Chunk → Chunk) : (s.modChunk n k f).canon = true := State.canon_of (State.modChunk_tidy ..) h
theorem State.log_canon (code : Nat) (a b : Word) : (s.log code a b).canon = true := State.canon_of (State.log_tidy ..) h
theorem State.see_canon (src id : Nat) : (s.see src id).canon = true := State.canon_of (State.see_tidy ..) h
theorem State.dropMsg_canon (die core job node : Nat) : (s.dropMsg die core job node).canon = true := State.canon_of (State.dropMsg_tidy ..) h
theorem State.ackAccess_canon (p : Packet) : (s.ackAccess p).canon = true := State.canon_of (State.ackAccess_tidy ..) h

-- MV and MVI into the units

theorem State.convertTrigger_canon (p : Nat) (v : Vec) : (s.convertTrigger p v).canon = true :=
  Out3.ite_canon (fun _ => State.range_canon h ..) fun _ => Out3.ite_canon (fun _ => State.unitLater_canon h ..) fun _ =>
    State.unitLater_canon (State.unitLater_canon h ..) ..
theorem State.gatherTrigger_canon (p : Nat) (v : Vec) : (s.gatherTrigger p v).canon = true :=
  Out3.ite_canon (fun _ => State.align3_canon h _) fun _ => State.unitLater_canon h ..
theorem State.shaTrigger_canon (p : Nat) (v : Vec) : (s.shaTrigger p v).canon = true := by
  unfold State.shaTrigger
  exact State.unitLater_canon (State.unitLater_canon (State.unitBusy_canon h ..) ..) ..
theorem State.ecdsaTrigger_canon (v : Vec) : (s.ecdsaTrigger v).canon = true := by
  unfold State.ecdsaTrigger
  exact State.unitLater_canon (State.unitBusy_canon h ..) ..
theorem State.expandTrigger_canon (v : Vec) : (s.expandTrigger v).canon = true := by
  unfold State.expandTrigger
  dsimp only
  refine Out3.ite_canon (fun _ => State.range_canon h ..) fun _ => Out3.ite_canon (fun _ => State.range_canon h ..) fun _ => ?_
  refine Out3.ite_canon (fun _ => State.raise_canon h ..) fun _ => Out3.ite_canon (fun _ => State.align3_canon h _) fun _ => ?_
  refine Out3.ite_canon (fun _ => State.range_canon h ..) fun _ => ?_
  exact State.unitLater_canon (State.unitLater_canon (State.unitBusy_canon h ..) ..) ..
theorem State.compressTrigger_canon (v : Vec) : (s.compressTrigger v).canon = true := by
  unfold State.compressTrigger
  dsimp only
  refine Out3.ite_canon (fun _ => State.align3_canon h _) fun _ => Out3.ite_canon (fun _ => State.range_canon h ..) fun _ => ?_
  refine Out3.ite_canon (fun _ => State.range_canon h ..) fun _ => Out3.ite_canon (fun _ => State.range_canon h ..) fun _ => ?_
  exact State.unitLater_canon (State.unitLater_canon (State.unitLater_canon (State.unitBusy_canon h ..) ..) ..) ..
theorem State.moveInto_canon (p : Nat) (d : Code) (v : Vec) : (s.moveInto p d v).canon = true := by
  refine Out3.ite_canon (fun _ => State.putV_canon h ..) fun _ => Out3.ite_canon (fun _ => ?_) fun _ => ?_
  · refine Out3.ite_canon (fun _ => State.windowMiss_canon h) fun _ => Out3.ite_canon (fun _ => State.raise_canon h ..) fun _ => ?_
    exact State.arrLater_canon (State.canon_of (State.unpush_tidy ..) h) ..
  · refine Out3.ite_canon (fun _ => State.convertTrigger_canon h ..) fun _ => ?_
    refine Out3.ite_canon (fun _ => State.unitLater_canon (State.unitBusy_canon h ..) ..) fun _ => ?_
    refine Out3.ite_canon (fun _ => State.gatherTrigger_canon h ..) fun _ => Out3.ite_canon (fun _ => ?_) fun _ => ?_
    · refine Out3.ite_canon (fun _ => State.raise_canon h ..) fun _ => ?_
      exact Out3.ite_canon (fun _ => State.unitLater_canon h ..) fun _ => State.shaTrigger_canon h ..
    · refine Out3.ite_canon (fun _ => Out3.ite_canon (fun _ => State.ecdsaTrigger_canon h _) fun _ => State.perm_canon h _) fun _ => ?_
      refine Out3.ite_canon (fun _ => State.expandTrigger_canon h _) fun _ => Out3.ite_canon (fun _ => State.compressTrigger_canon h _) fun _ => ?_
      exact State.unitLater_canon h ..
theorem execMv_canon (g : Guard) (d t : Code) (x : Ext) : (execMv g d t x s).canon = true := by
  unfold execMv
  exact sop_canon h fun _ hu => Out3.ite_canon (fun _ => State.raise_canon hu ..) fun _ => Out3.ite_canon (fun _ => State.perm_canon hu _) fun _ =>
    State.moveInto_canon hu ..
theorem execMvi_canon (g : Guard) (d : Code) (i : BitVec 12) (x : Ext) : (execMvi g d i x s).canon = true := by
  unfold execMvi
  exact sop_canon h fun _ hu => State.moveInto_canon hu ..

-- messages, barriers, counters

theorem execMsend_canon (g : Guard) (a b : Code) : (execMsend g a b s).canon = true := sop_canon h fun _ hu => State.needJob_canon hu fun _ =>
  Out3.ite_canon (fun _ => State.range_canon hu ..) fun _ => Out3.ite_canon (fun _ => State.range_canon hu ..) fun _ =>
    State.heldUntil_canon hu fun _ hv => State.canon_of (State.addInj_tidy ..) (State.canon_of (State.modCore_tidy _ _ _ rfl) hv)
theorem execMhnd_canon (g : Guard) (a : Code) : (execMhnd g a s).canon = true := sop_canon h fun _ hu =>
  Out3.ite_canon (fun _ => State.canon_of (State.modCore_tidy _ _ _ rfl) hu) fun _ => State.needJob_canon hu fun _ =>
    Out3.ite_canon (fun _ => State.align3_canon hu _) fun _ => Out3.ite_canon (fun _ => State.range_canon hu ..) fun _ =>
      State.canon_of (State.modCore_tidy _ _ _ rfl) hu
theorem execWquiet_canon (g : Guard) : (execWquiet g s).canon = true := sop_canon h fun u hu => State.needJob_canon hu fun _ => by
  split
  · exact State.raise_canon hu ..
  · exact State.await_canon hu _
theorem execRcstat_canon (g : Guard) (d : Code) : (execRcstat g d s).canon = true := sop_canon h fun _ hu => State.needJob_canon hu fun _ =>
  State.putS_canon hu ..
theorem execBar_canon (g : Guard) (n : Code) : (execBar g n s).canon = true := sop_canon h fun _ hu =>
  Out3.ite_canon (fun _ => State.perm_canon hu _) fun _ => State.await_canon hu _
theorem execGbar_canon (g : Guard) (n : Code) : (execGbar g n s).canon = true := sop_canon h fun u hu => by
  refine Out3.ite_canon (fun _ => State.perm_canon hu _) fun _ => ?_
  split
  · exact State.raise_canon hu ..
  · exact State.await_canon hu _
theorem execBarrierRelease_canon (key : Nat) : (execBarrierRelease key s).canon = true := by
  unfold execBarrierRelease
  dsimp only
  split
  · exact h
  · refine Out3.ite_canon (fun _ => State.modLaunch_canon (foldl_canon (fun u q hu => ?_) _ h) ..) fun _ => ?_
    · obtain ⟨c, x, k⟩ := q
      exact State.ite_canon (fun _ => State.endWaitAcq_canon hu ..) fun _ => hu
    · exact Out3.ite_canon (fun _ => State.modLaunch_canon h ..) fun _ => h
theorem execCtrinc_canon (g : Guard) (a b : Code) : (execCtrinc g a b s).canon = true := sop_canon h fun _ hu =>
  Out3.ite_canon (fun _ => State.raiseWalk_canon hu ..) fun _ => State.translate_canon hu fun _ _ hv =>
    State.dropL1_canon (State.enter_canon (State.enter_canon (State.askMerges_canon hv ..) ..) ..) ..
theorem execCtrwait_canon (g : Guard) (a b : Code) : (execCtrwait g a b s).canon = true := sop_canon h fun _ hu =>
  Out3.ite_canon (fun _ => State.raiseWalk_canon hu ..) fun _ => State.translate_canon hu fun _ _ hv => State.heldUntil_canon hv fun _ hw =>
    Out3.ite_canon (fun _ => State.await_canon hw _) fun _ => State.await_canon hw _
theorem execCounterWaitWake_canon (core ctx : Nat) :
    (execCounterWaitWake core ctx s).canon = true := State.endWaitAcq_canon (State.modCtx_canon h ..) ..

-- launches and gangs

theorem execLaunch_canon (g : Guard) (d a : Code) : (execLaunch g d a s).canon = true := launchOp_canon h fun _ u hu => by
  split
  · exact State.putS_canon (State.pend_canon hu ..) ..
  · exact State.await_canon hu _
theorem execLaunchn_canon (g : Guard) (d a : Code) : (execLaunchn g d a s).canon = true := launchOp_canon h fun _ u hu => by
  split
  · exact State.putS_canon (State.pend_canon hu ..) ..
  · exact State.putS_canon hu ..
theorem execGlaunch_canon (g : Guard) (d a : Code) : (execGlaunch g d a s).canon = true := launchOp_canon h fun _ u hu => by
  refine Out3.ite_canon (fun _ => State.range_canon hu ..) fun _ => State.heldUntil_canon hu fun v hv => ?_
  split
  · exact State.raiseWalk_canon hv ..
  · split
    · exact State.range_canon hv ..
    · refine Out3.ite_canon (fun _ => State.range_canon hv ..) fun _ => Out3.ite_canon (fun _ => ?_) fun _ => ?_
      · split
        · exact State.range_canon hv ..
        · exact State.await_canon (State.modGang_canon hv ..) _
      · split
        · exact State.await_canon (State.canon_of (State.gangBegin_tidy ..) hv) _
        · exact State.await_canon hv _
theorem execLaunchWaitSlot_canon (core ctx : Nat) : (execLaunchWaitSlot core ctx s).canon = true := by
  unfold execLaunchWaitSlot
  split
  · exact h
  · dsimp only
    split
    · refine Out3.ite_canon (fun _ => ?_) fun _ => h
      split
      · exact State.endWait_canon (State.canon_of (State.landWait_tidy ..) (State.pend_canon h ..)) ..
      · exact State.modCtx_canon (State.canon_of (State.gangBegin_tidy ..) h) ..
    · exact h
theorem execCompletionTreeReport_canon (launch level node : Nat) : (execCompletionTreeReport launch level node s).canon = true := by
  unfold execCompletionTreeReport
  split
  · exact h
  · exact Out3.ite_canon (fun _ => State.modLaunch_canon h ..) fun _ => Out3.ite_canon (fun _ => State.modLaunch_canon h ..) fun _ =>
      Out3.ite_canon (fun _ => State.modLaunch_canon h ..) fun _ => h
theorem execGangArm_canon (src wtag depth : Nat) (rec : BitVec 2048) (job npkg index : Nat) :
    (execGangArm src wtag depth rec job npkg index s).canon = true := by
  unfold execGangArm
  dsimp only
  split
  · exact Out3.ite_canon (fun _ => State.modSlot_canon h ..) fun _ => h
  · exact h
theorem execGangArmAck_canon (slot index : Nat) (ok : Bool) : (execGangArmAck slot index ok s).canon = true := by
  have h1 := fun f => State.modGang_canon h slot f
  unfold execGangArmAck
  split
  · exact h
  · refine Out3.ite_canon (fun _ => h) fun _ => Out3.ite_canon (fun _ => ?_) fun _ => State.canon_of (State.gangAbort_tidy ..) h
    exact State.ite_canon (fun _ => State.canon_of (State.gangSendGo_tidy ..) (h1 _)) fun _ => h1 _
theorem State.pool_canon (v : NMap PoolSlot) : { s with pool := v }.canon = true := State.canon_of_fields h rfl rfl rfl
theorem execGangArmTimeout_canon (slot : Nat) : (execGangArmTimeout slot s).canon = true := by
  unfold execGangArmTimeout
  split
  · exact State.pool_canon h _
  · exact State.ite_canon (fun _ => State.canon_of (State.gangAbort_tidy ..) h) fun _ => h
theorem State.poolOrder_canon (n : Nat) : { s with nextOrder := n }.canon = true := State.canon_of_fields h rfl rfl rfl
theorem execGangGo_canon (src job : Nat) : (execGangGo src job s).canon = true := by
  unfold execGangGo
  split
  · exact h
  · exact State.poolOrder_canon (State.modSlot_canon h ..) _
theorem execGangGoAck_canon (slot index : Nat) : (execGangGoAck slot index s).canon = true := by
  have h1 := fun f => State.modGang_canon h slot f
  unfold execGangGoAck
  split
  · exact h
  · refine Out3.ite_canon (fun _ => h) fun _ => ?_
    exact State.ite_canon (fun _ => State.canon_of (State.gangWhole_tidy ..) (h1 _)) fun _ => h1 _
theorem execGangGoTimeout_canon (slot : Nat) : (execGangGoTimeout slot s).canon = true := by
  unfold execGangGoTimeout
  split
  · exact h
  · exact Out3.ite_canon (fun _ => State.canon_of (State.markIncomplete_tidy ..) (State.modGang_canon h ..)) fun _ => h
theorem execGangIncompleteNotice_canon (job index count slot : Nat) : (execGangIncompleteNotice job index count slot s).canon = true :=
  State.ite_canon (fun _ => State.canon_of (State.clearIncomplete_tidy ..) h) fun _ => State.canon_of (State.markIncomplete_tidy ..) h

-- the fault service

theorem execFwait_canon (g : Guard) (d : Code) : (execFwait g d s).canon = true := sop_canon h fun _ hu =>
  Out3.ite_canon (fun _ => State.perm_canon hu _) fun _ => Out3.ite_canon (fun _ => State.perm_canon hu _) fun _ => State.await_canon hu _
theorem execFrget_canon (g : Guard) (d a b : Code) : (execFrget g d a b s).canon = true := f1Op_canon h <| frOp_canon h fun _ _ hu =>
  Out3.ite_canon (fun _ => State.range_canon hu ..) fun _ => State.await_canon hu _
theorem execFrput_canon (g : Guard) (c a b : Code) : (execFrput g c a b s).canon = true := by
  unfold execFrput
  refine Out3.ite_canon (fun _ => State.illegal_canon h) fun _ => f1Op_canon h <| frOp_canon h fun _ _ hu => ?_
  refine Out3.ite_canon (fun _ => State.range_canon hu ..) fun _ => Out3.ite_canon (fun _ => State.raise_canon hu ..) fun _ => ?_
  exact State.await_canon (State.ite_canon (fun _ => State.note_canon hu _) fun _ => hu) _
theorem execFrres_canon (g : Guard) (a : Code) : (execFrres g a s).canon = true := frOp_canon h fun _ _ hu =>
  State.ite_canon (fun _ => State.canon_of (State.resumeWait_tidy ..) (State.spend_canon hu)) fun _ => State.modCtx_canon (State.spend_canon hu) ..
theorem execFrskip_canon (g : Guard) (a : Code) :
    (execFrskip g a s).canon = true := frOp_canon h fun _ _ hu => State.modCtx_canon (State.spend_canon hu) ..
theorem execFrkill_canon (g : Guard) (a : Code) :
    (execFrkill g a s).canon = true := frOp_canon h fun _ _ hu => State.killTask_canon (State.spend_canon hu) ..
theorem execFrexc_canon (g : Guard) (a : Code) : (execFrexc g a s).canon = true := frOp_canon h fun _ _ hu =>
  foldl_canon (fun _ _ hv => State.canon_of (State.excuse_tidy ..) hv) _ hu
theorem execFrgetFrputComplete_canon (core ctx : Nat) : (execFrgetFrputComplete core ctx s).canon = true := by
  unfold execFrgetFrputComplete
  dsimp only
  split
  · refine Out3.ite_canon (fun _ => h) fun _ => State.endWait_canon ?_ ..
    split
    · exact State.modCtx_canon h ..
    · exact State.canon_of (State.landWait_tidy ..) h
    · exact State.canon_of (State.putItem_tidy ..) h
    · exact h
  · exact h

-- the registrar

theorem State.regq_canon (q : List RegReq) : { s with regq := q }.canon = true := State.canon_of (State.regq_tidy ..) h
theorem execWload_canon (g : Guard) (a : Code) : (execWload g a s).canon = true := sop_canon h fun _ hu =>
  Out3.ite_canon (fun _ => State.perm_canon hu _) fun _ => Out3.ite_canon (fun _ => State.raiseWalk_canon hu ..) fun _ =>
    State.freshRead_canon hu fun _ _ hv => Out3.ite_canon (fun _ => State.range_canon hv ..) fun _ =>
        Out3.ite_canon (fun _ => State.range_canon hv ..)
      fun _ => Out3.ite_canon (fun _ => State.range_canon hv ..) fun _ => Out3.ite_canon (fun _ => State.range_canon hv ..) fun _ =>
        State.heldUntil_canon hv fun _ hw => State.ask_canon hw fun _ ht => State.regq_canon ht _
theorem execKwipe_canon (g : Guard) (a : Code) : (execKwipe g a s).canon = true := sop_canon h fun _ hu =>
  Out3.ite_canon (fun _ => State.perm_canon hu _) fun _ => Out3.ite_canon (fun _ => State.range_canon hu ..) fun _ =>
    Out3.ite_canon (fun _ => State.perm_canon hu _) fun _ => State.ask_canon hu fun _ hv => State.regq_canon hv _
theorem execFuserd_canon (g : Guard) (d a : Code) : (execFuserd g d a s).canon = true := sop_canon h fun _ hu =>
  Out3.ite_canon (fun _ => State.range_canon hu ..) fun _ => State.ask_canon hu fun _ hv => State.putS_canon hv ..
theorem State.mb2_canon (m : BitVec 256) : { s with mb2 := m }.canon = true := State.canon_of_fields h rfl rfl rfl
theorem execMext_canon (g : Guard) (a b : Code) : (execMext g a b s).canon = true := sop_canon h fun _ hu =>
  Out3.ite_canon (fun _ => State.perm_canon hu _) fun _ => Out3.ite_canon (fun _ => State.raiseWalk_canon hu ..) fun _ =>
    State.freshRead_canon hu fun _ _ hv => Out3.ite_canon (fun _ => State.range_canon hv ..) fun _ => State.ask_canon hv fun _ hw =>
      State.ite_canon (fun _ => State.mb2_canon hw _) fun _ => State.canon_of (State.modWorld_tidy ..) hw
theorem execDbgopen_canon (g : Guard) (a : Code) : (execDbgopen g a s).canon = true := sop_canon h fun u hu => by
  refine Out3.ite_canon (fun _ => State.perm_canon hu _) fun _ => Out3.ite_canon (fun _ => State.raiseWalk_canon hu ..) fun _ => ?_
  refine State.freshRead_canon hu fun t v hv => State.ask_canon (State.regq_canon hv _) fun w hw => ?_
  have wait := State.asks_canon (State.holdIssue_canon hw)
  refine Out3.ite_canon (fun _ => wait _) fun _ => Out3.ite_canon (fun _ => State.regq_canon hw _) fun _ => ?_
  split
  · exact State.raise_canon (State.canon_of (State.newNonce_tidy ..) hw) ..
  · exact Out3.ite_canon (fun _ => wait _) fun _ => State.debugOpen_canon (State.regq_canon hw _) _
theorem execRegistrarAnswer_canon (core : Nat) : (execRegistrarAnswer core s).canon = true := State.asks_canon h _

-- the front end

theorem execNullifierSkip_canon (core ctx : Nat) : (execNullifierSkip core ctx s).canon = true :=
  State.ite_canon (fun _ => State.modCtx_canon h ..) fun _ => h
theorem execBundleSplit_canon (core parts : Nat) : (execBundleSplit core parts s).canon = true := by
  unfold execBundleSplit
  split
  · exact h
  · exact State.canon_of (State.modCore_tidy _ _ _ rfl) (State.canon_of (State.keepFirst_tidy ..) h)
theorem execDeferredFaultRaise_canon (core ctx : Nat) : (execDeferredFaultRaise core ctx s).canon = true := by
  unfold execDeferredFaultRaise
  split
  · exact h
  · exact State.canon_of (State.freeze_tidy ..) (State.modIss_canon (State.modCtx_canon h ..) _)
theorem execPreemptedResume_canon (core ctx : Nat) : (execPreemptedResume core ctx s).canon = true := by
  unfold execPreemptedResume
  split
  · next base _ _ =>
    have h1 := foldl_canon (fun t n ht => State.canon_of (State.unpark_tidy t core ctx base n) ht) (List.range 4) h
    refine Out3.ite_canon (fun _ => h) fun _ => Out3.ite_canon (fun _ => State.modCtx_canon h ..) fun _ => ?_
    exact Out3.ite_canon (fun _ => h1) fun _ => State.modCtx_canon h1 ..
  · exact h

-- translation, caches, the paths

theorem execTranslationWalk_canon (core : Nat) : (execTranslationWalk core s).canon = true := by
  unfold execTranslationWalk
  dsimp only
  split
  · refine Out3.ite_canon (fun _ => h) fun _ => ?_
    split
    · exact State.canon_of (State.modCore_tidy _ _ _ rfl) h
    · exact State.canon_of (State.modCore_tidy _ _ _ rfl) h
  · exact Out3.ite_canon (fun _ => h) fun _ => State.canon_of (State.prefLine_tidy ..) (State.canon_of (State.modCore_tidy _ _ _ rfl) h)
  · exact h
theorem execGlobalLoadLanding_canon (core ctx id : Nat) : (execGlobalLoadLanding core ctx id s).canon = true := by
  unfold execGlobalLoadLanding
  dsimp only
  split
  · exact State.ite_canon (fun _ => State.canon_of (State.fixLoad_tidy ..) h) fun _ => h
  · exact State.canon_of (State.landLoad_tidy ..) h
theorem execL1Fill_canon (core line : Nat) : (execL1Fill core line s).canon = true := by
  unfold execL1Fill
  dsimp only
  split
  · exact h
  · exact Out3.ite_canon (fun _ => h) fun _ => State.canon_of (State.evictL1_tidy ..) (State.canon_of (State.modCore_tidy _ _ _ rfl) h)
theorem State.badTag_canon (v : NMap Bool) : { s with badTag := v }.canon = true := State.canon_of_fields h rfl rfl rfl
theorem execSealedLineFill_canon (die line : Nat) (ok : Bool) : (execSealedLineFill die line ok s).canon = true :=
  Out3.ite_canon (fun _ => h) fun _ => Out3.ite_canon (fun _ => State.badTag_canon h _) fun _ =>
    State.canon_of (State.logBad_tidy ..) (State.badTag_canon h _)
theorem execBufferedAmoTimeout_canon (core pa : Nat) : (execBufferedAmoTimeout core pa s).canon = true := by
  unfold execBufferedAmoTimeout
  split
  · exact h
  · exact State.ite_canon (fun _ => State.askMerges_canon h ..) fun _ => h
theorem State.paths_canon (v : NMap (List Req)) : { s with paths := v }.canon = true := State.canon_of_fields h rfl rfl rfl
theorem execArbiterAging_canon (id : Nat) : (execArbiterAging id s).canon = true :=
  State.canon_of (State.modCore_tidy _ _ _ rfl) (State.paths_canon h _)

-- the network

theorem State.packets_canon (v : List Packet) (n : Nat) : { s with packets := v, nextPacket := n }.canon = true := State.canon_of_fields h rfl rfl rfl
theorem execMessageTransmit_canon (core : Nat) : (execMessageTransmit core s).canon = true := by
  unfold execMessageTransmit
  split
  · exact h
  · next rest _ =>
    have h1 := State.canon_of (State.modCore_tidy s core (fun k => { k with sendq := rest }) rfl) h
    exact Out3.ite_canon (fun _ => State.packets_canon h1 _ _) fun _ => h
theorem execMessageArrival_canon (core : Nat) (from_ : Origin) (hdr : BitVec 64) (payload : Vec) :
    (execMessageArrival core from_ hdr payload s).canon = true := by
  unfold execMessageArrival
  extract_lets job
  split
  · exact h
  · next e =>
    have h0 := State.see_canon (State.withJob_canon h e) from_.src from_.id
    refine Out3.ite_canon (fun _ => State.dropMsg_canon h0 ..) fun _ => Out3.ite_canon (fun _ => h) fun _ => ?_
    exact State.canon_of (State.modCore_tidy _ _ _ rfl) h0
theorem execHandlerPlacement_canon (core : Nat) : (execHandlerPlacement core s).canon = true := by
  unfold execHandlerPlacement
  dsimp only
  split
  · exact h
  · have h1 := fun rest => State.canon_of (State.modCore_tidy s core (fun q => { q with inq := rest }) rfl) h
    split
    · exact State.dropMsg_canon (h1 _) ..
    · split
      · exact h
      · exact State.ite_canon (fun _ => State.canon_of (State.startHandler_tidy ..) (h1 _)) fun _ => h
theorem execPacketAcknowledge_canon (id : Nat) : (execPacketAcknowledge id s).canon = true := by
  unfold execPacketAcknowledge
  split
  · exact h
  · exact State.packets_canon (State.ackAccess_canon h _) _ _
theorem execEndToEndRetransmit_canon (id : Nat) (lost0 : Bool) : (execEndToEndRetransmit id lost0 s).canon = true := by
  unfold execEndToEndRetransmit
  split
  · exact h
  · extract_lets lost f s1
    have h1 : s1.canon = true := State.packets_canon h _ _
    exact State.ite_canon (fun _ => State.modJob_canon (State.canon_of (State.barQuiet_tidy ..) (State.ackAccess_canon h1 _)) ..) fun _ => h1
theorem execRepairNoticeApply_canon (die job : Nat) : (execRepairNoticeApply die job s).canon = true := by
  unfold execRepairNoticeApply
  split
  · exact h
  · exact State.canon_of (State.subInj_tidy ..) (State.packets_canon h _ _)
theorem execRollCallWave_canon (wave : Nat) : (execRollCallWave wave s).canon = true := State.canon_of (State.mapDies_tidy fun _ _ => rfl) h
theorem execRollCallPass2_canon (wave : Nat) :
    (execRollCallPass2 wave s).canon = true := State.canon_of (State.mapDies_tidy fun _ _ => by split <;> rfl) h
theorem execRollCallVerdict_canon (die wave job : Nat) (found : Finding) (sumi : Nat) :
    (execRollCallVerdict die wave job found sumi s).canon = true := by
  unfold execRollCallVerdict
  extract_lets quiet k clean later s1 answers wake
  have h1 : s1.canon = true := State.modJob_canon (State.canon_of (State.modDie_tidy _ _ _ rfl) h) ..
  refine Out3.ite_canon (fun _ => h) fun _ => State.ite_canon (fun _ => foldl_canon (fun _ _ hu => ?_) _ h1) fun _ => h1
  exact State.ite_canon (fun _ => State.endWaitAcq_canon hu ..) fun _ => hu
theorem execCollRingStep_canon (slot chunk phase bitmap flags : Nat) (data : RingData) :
    (execCollRingStep slot chunk phase bitmap flags data s).canon = true := by
  unfold execCollRingStep
  split
  · exact h
  · next e =>
    have h1 := State.withJob_canon h e
    exact State.ite_canon (fun _ => State.canon_of (State.ringIn_tidy ..) (State.see_canon h1 ..)) fun _ => h1
theorem execCollJoinTimeout_canon (slot : Nat) : (execCollJoinTimeout slot s).canon = true := by
  unfold execCollJoinTimeout
  split
  · exact h
  · refine Out3.ite_canon (fun _ => ?_) fun _ => h
    have h2 := fun l => foldl_canon (fun _ k hu => State.modChunk_canon hu slot k fun _ => { passed := true, since := s.cyc }) l
      (State.canon_of (State.modGate_tidy s slot fun g => { g with begun := some s.cyc, dropped := true }) h)
    exact State.ite_canon (fun _ => State.canon_of (State.mismatchGate_tidy ..) (h2 _)) fun _ => State.canon_of (State.takePending_tidy ..) (h2 _)
theorem execCollRingTimeout_canon (slot chunk : Nat) : (execCollRingTimeout slot chunk s).canon = true := by
  unfold execCollRingTimeout
  split
  · exact h
  · refine Out3.ite_canon (fun _ => h) fun _ => Out3.ite_canon (fun _ => State.canon_of (State.combineChunk_tidy ..) h) fun _ => ?_
    refine Out3.ite_canon (fun _ => ?_) fun _ => h
    split
    · exact State.canon_of (State.deliverChunk_tidy ..) h
    · exact State.canon_of (State.deliverChunk_tidy ..) h

-- the host

theorem State.power_canon (b : Bool) : { s with power := b }.canon = true := State.canon_of_fields h rfl rfl rfl
theorem execPowerWindowEnd_canon (draw tj : Nat) : (execPowerWindowEnd draw tj s).canon = true := by
  unfold execPowerWindowEnd
  extract_lets hot good run down up clk s0 s1
  have h0 : s0.canon = true := by
    unfold s0
    split
    · exact State.log_canon h ..
    · exact h
  clear_value s0
  have h1 : s1.canon = true := State.canon_of_fields h0 rfl rfl rfl
  clear_value s1
  exact State.ite_canon (fun _ => State.power_canon (State.log_canon h1 ..) _) fun _ => h1
theorem State.signed_canon (session : Nat) (data out : List Byte) : (s.signed session data out).canon = true := by
  unfold State.signed
  exact State.answer_canon h ..
theorem State.sessions_canon (v : NMap Session) : { s with sessions := v }.canon = true := State.canon_of_fields h rfl rfl rfl
theorem execGetMeasurements_canon (session : Nat) (asked : Measure) : (execGetMeasurements session asked s).canon = true :=
  Out3.ite_canon (fun _ => State.signed_canon h ..) fun _ => Out3.ite_canon (fun _ => State.signed_canon h ..) fun _ =>
    Out3.ite_canon (fun _ => State.signed_canon h ..) fun _ => State.refuse_canon h _
theorem execKeyExchange_canon (session : Nat) (data : List Byte) : (execKeyExchange session data s).canon = true :=
  Out3.ite_canon (fun _ => State.refuse_canon h _) fun _ => State.answer_canon (State.sessions_canon h _) ..
theorem execFinish_canon (session : Nat) : (execFinish session s).canon = true :=
  Out3.ite_canon (fun _ => State.accept_canon (State.sessions_canon h _) _) fun _ => State.refuse_canon h _
theorem execEndSession_canon (session : Nat) : (execEndSession session s).canon = true :=
  Out3.ite_canon (fun _ => State.accept_canon (State.canon_of (State.endSession_tidy ..) h) _) fun _ => State.refuse_canon h _
theorem execBind_canon (session w : Nat) : (execBind session w s).canon = true :=
  Out3.ite_canon (fun _ => State.refuse_canon h _) fun _ => State.accept_canon (State.sessions_canon h _) _
theorem execKeyImage_canon (session : Nat) (key : BitVec 256) : (execKeyImage session key s).canon = true :=
  Out3.ite_canon (fun _ => State.refuse_canon h _) fun _ => State.accept_canon (State.canon_of (State.modWorld_tidy ..) h) _
theorem State.watch_canon (v : NMap (List Nat)) : { s with watch := v }.canon = true := State.canon_of_fields h rfl rfl rfl
theorem State.setTdi_canon (w : Nat) (t : Tdi) : (s.setTdi w t).canon = true := State.canon_of (State.setTdi_tidy ..) h
theorem execLockInterfaceRequest_canon (session w : Nat) : (execLockInterfaceRequest session w s).canon = true :=
  Out3.ite_canon (fun _ => State.accept_canon (State.watch_canon (State.setTdi_canon h ..) _) _) fun _ => State.refuse_canon h _
theorem execStartInterfaceRequest_canon (session w : Nat) : (execStartInterfaceRequest session w s).canon = true :=
  Out3.ite_canon (fun _ => State.accept_canon (State.setTdi_canon h ..) _) fun _ => State.refuse_canon h _
theorem execStopInterfaceRequest_canon (session w : Nat) : (execStopInterfaceRequest session w s).canon = true := by
  refine Out3.ite_canon (fun _ => State.refuse_canon h _) fun _ => State.accept_canon ?_ _
  have h1 := State.watch_canon (State.setTdi_canon h w .unlocked)
  exact State.ite_canon (fun _ => State.regq_canon (h1 _) _) fun _ => h1 _
theorem State.lastRead_canon (v : Word) : { s with lastRead := v }.canon = true := State.canon_of_fields h rfl rfl rfl
theorem execHostRegisterRead_canon (tdi : Nat) (adr : HostAddr) : (execHostRegisterRead tdi adr s).canon = true := by
  refine Out3.ite_canon (fun _ => State.lastRead_canon h _) fun _ => Out3.ite_canon (fun _ => State.lastRead_canon h _) fun _ => ?_
  split
  · exact State.ite_canon (fun _ => State.canon_of (State.unsup_tidy ..) h) fun _ => State.lastRead_canon h _
  · exact State.lastRead_canon h _
theorem State.links_canon (v : NMap Bool) : { s with links := v }.canon = true := State.canon_of_fields h rfl rfl rfl
end

end Sys2Proof.Machine
end

-- ==== The canonical form of the memories: the step

section
/-! SUPPORT. The issue of a bundle, the choice of what the device does next, and the step. -/

namespace Sys2Proof.Machine

/-- Every instruction and event keeps the memories canonical. -/
theorem exec_canon {s : State} (h : s.canon = true) (i : Instr) : Out3.canon (exec i s) = true := by
  cases i with
  | nop | linkFlitRetry => exact h
  | prep => exact execPrep_canon h ..
  | prepr => exact execPrepr_canon h ..
  | br => exact execBr_canon h ..
  | brl => exact execBrl_canon h ..
  | ret => exact execRet_canon h ..
  | loop => exact execLoop_canon h ..
  | loopi => exact execLoopi_canon h ..
  | loopr => exact execLoopr_canon h ..
  | lbrk => exact execLbrk_canon h ..
  | yield => exact execYield_canon h ..
  | done => exact execDone_canon h ..
  | trap => exact execTrap_canon h ..
  | waitc => exact execWaitc_canon h ..
  | waitcWake => exact execWaitcWake_canon h ..
  | defer => exact execDefer_canon h ..
  | defdr => exact execDefdr_canon h ..
  | defct => exact execDefct_canon h ..
  | tcur => exact execTcur_canon h ..
  | ctxid => exact execCtxid_canon h ..
  | prio => exact execPrio_canon h ..
  | bkpt => exact execBkpt_canon h ..
  | mov | add | sub | and | or | xor | andn | shl | shr | sar | rotl | clz | popc | min | max | minu | maxu | sel | extb | insb
  | lea | crd | movi | movhi | addi =>
    rw [exec]
    exact scalar1_canon h ..
  | mul | mulh | mulhu =>
    rw [exec]
    exact scalar3_canon h ..
  | divs | divu =>
    rw [exec]
    exact divide_canon h ..
  | ceq | cne | clt | cltu | cle | cleu | ceqi | clti =>
    rw [exec]
    exact compare_canon h ..
  | qset | qand | qor | qnot =>
    rw [exec]
    exact guardLogic_canon h ..
  | cwr => exact execCwr_canon h ..
  | cwrArrmode => exact execCwrArrmode_canon h ..
  | cwrModulus => exact execCwrModulus_canon h ..
  | cwrRptcard => exact execCwrRptcard_canon h ..
  | allot => exact execAllot_canon h ..
  | shrink => exact execShrink_canon h ..
  | ldW8 | ldW16 | ldW32 | ldW64 | ldv =>
    rw [exec]
    exact loadOp_canon h ..
  | stW8 | stW16 | stW32 | stW64 | stv =>
    rw [exec]
    exact storeOp_canon h ..
  | amoAdd | amoMin | amoMax | amoAnd | amoOr | amoXor =>
    rw [exec]
    exact amoInstr_canon h ..
  | cas => exact execCas_canon h ..
  | fenceAcq => exact execFenceAcq_canon h ..
  | fenceRel => exact execFenceRel_canon h ..
  | fenceFull => exact execFenceFull_canon h ..
  | fenceWaitEnd => exact execFenceWaitEnd_canon h ..
  | pref => exact execPref_canon h ..
  | vmov | vabs | vneg | vbcast | vperm | vshuf | vlane =>
    rw [exec]
    exact vlanes_canon h ..
  | vadd | vsub | vmul | vfma | vfms =>
    rw [exec]
    exact varith_canon h ..
  | vmin | vmax =>
    rw [exec]
    exact vminmax_canon h ..
  | vrcp | vrsq | vexp2 | vlog2 =>
    rw [exec]
    exact vfunc_canon h ..
  | vand | vor | vxor | vshl | vshr | vsar | vshlI | vshrI | vsarI =>
    rw [exec]
    exact vbits_canon h ..
  | vcmpEq | vcmpNe | vcmpLt | vcmpLe | vcmpGt | vcmpGe | vcmpUn =>
    rw [exec]
    exact vcmp_canon h ..
  | vsel | vbcastI =>
    rw [exec]
    exact vall_canon h ..
  | vredAdd => exact execVredAdd_canon h ..
  | vredMax | vredMin =>
    rw [exec]
    exact vredMM_canon h ..
  | vmodadd | vmodsub | vmodmul =>
    rw [exec]
    exact vresidue_canon h ..
  | vbfly | vibfly =>
    rw [exec]
    exact vbutterfly_canon h ..
  | vmaskAnd | vmaskOr | vmaskXor | vmaskAndn | vmaskNot =>
    rw [exec]
    exact vmaskOp_canon h ..
  | vcvt => exact execVcvt_canon h ..
  | xbeat => exact execXbeat_canon h ..
  | xmode => exact execXmode_canon h ..
  | xzero => exact execXzero_canon h ..
  | xcks => exact execXcks_canon h ..
  | xfix => exact execXfix_canon h ..
  | xres => exact execXres_canon h ..
  | xwin => exact execXwin_canon h ..
  | xwinWake => exact execXwinWake_canon h ..
  | xinj => exact execXinj_canon h ..
  | lds => exact execLds_canon h ..
  | ldsTag => exact execLdsTag_canon h ..
  | sts => exact execSts_canon h ..
  | ldss => exact execLdss_canon h ..
  | stss => exact execStss_canon h ..
  | scratchpadStorePerform => exact execScratchpadStorePerform_canon h ..
  | bfmt => exact execBfmt_canon h ..
  | mv => exact execMv_canon h ..
  | mvi => exact execMvi_canon h ..
  | unitResultLanding => exact execUnitResultLanding_canon h ..
  | fpeek => exact execFpeek_canon h ..
  | flev => exact execFlev_canon h ..
  | lrec => exact execLrec_canon h ..
  | cpy | cpyx =>
    rw [exec]
    exact trackedOp_canon h ..
  | cpyt => exact execCpyt_canon h ..
  | timedPacketRead => exact execTimedPacketRead_canon h ..
  | timedPacketWrite => exact execTimedPacketWrite_canon h ..
  | trackedCopyStart => exact execTrackedCopyStart_canon h ..
  | trackedCopyElement => exact execTrackedCopyElement_canon h ..
  | trackedCopyComplete => exact execTrackedCopyComplete_canon h ..
  | cidw => exact execCidw_canon h ..
  | cidwWake => exact execCidwWake_canon h ..
  | cidr => exact execCidr_canon h ..
  | cinv => exact execCinv_canon h ..
  | chalt => exact execChalt_canon h ..
  | gload => exact execGload_canon h ..
  | groupLoadLanding => exact execGroupLoadLanding_canon h ..
  | gchk => exact execGchk_canon h ..
  | gchkVerdict => exact execGchkVerdict_canon h ..
  | gsel => exact execGsel_canon h ..
  | gorb => exact execGorb_canon h ..
  | gstat => exact execGstat_canon h ..
  | resultLanding => exact execResultLanding_canon h ..
  | contributionLanding => exact execContributionLanding_canon h ..
  | arrayEffectLanding => exact execArrayEffectLanding_canon h ..
  | gorbLanding => exact execGorbLanding_canon h ..
  | msend => exact execMsend_canon h ..
  | mhnd => exact execMhnd_canon h ..
  | wquiet => exact execWquiet_canon h ..
  | rcstat => exact execRcstat_canon h ..
  | collAr | collRs | collAg | collBc =>
    rw [exec]
    exact collOp_canon h ..
  | bar => exact execBar_canon h ..
  | gbar => exact execGbar_canon h ..
  | barrierRelease => exact execBarrierRelease_canon h ..
  | ctrinc => exact execCtrinc_canon h ..
  | ctrwait => exact execCtrwait_canon h ..
  | counterWaitWake => exact execCounterWaitWake_canon h ..
  | launch => exact execLaunch_canon h ..
  | launchn => exact execLaunchn_canon h ..
  | glaunch => exact execGlaunch_canon h ..
  | launchWaitSlot => exact execLaunchWaitSlot_canon h ..
  | fwait => exact execFwait_canon h ..
  | frget => exact execFrget_canon h ..
  | frput => exact execFrput_canon h ..
  | frres => exact execFrres_canon h ..
  | frskip => exact execFrskip_canon h ..
  | frkill => exact execFrkill_canon h ..
  | frexc => exact execFrexc_canon h ..
  | wload => exact execWload_canon h ..
  | wloadService => exact execWloadService_canon h
  | kwipe => exact execKwipe_canon h ..
  | fuserd => exact execFuserd_canon h ..
  | mext => exact execMext_canon h ..
  | dbgopen => exact execDbgopen_canon h ..
  | nullifierSkip => exact execNullifierSkip_canon h ..
  | bundleSplit => exact execBundleSplit_canon h ..
  | deferredFaultRaise => exact execDeferredFaultRaise_canon h ..
  | preemption => exact execPreemption_canon h ..
  | preemptedResume => exact execPreemptedResume_canon h ..
  | translationWalk => exact execTranslationWalk_canon h ..
  | globalLoadLanding => exact execGlobalLoadLanding_canon h ..
  | l1Fill => exact execL1Fill_canon h ..
  | sealedLineFill => exact execSealedLineFill_canon h ..
  | bufferedAmoMerge =>
    rw [exec]
    exact State.mergeAmo_canon h ..
  | bufferedAmoTimeout => exact execBufferedAmoTimeout_canon h ..
  | crossDieWriteApply => exact execCrossDieWriteApply_canon h ..
  | arbiterAging => exact execArbiterAging_canon h ..
  | launchPlacement => exact execLaunchPlacement_canon h ..
  | completionTreeReport => exact execCompletionTreeReport_canon h ..
  | launchComplete => exact execLaunchComplete_canon h ..
  | messageTransmit => exact execMessageTransmit_canon h ..
  | messageArrival => exact execMessageArrival_canon h ..
  | handlerPlacement => exact execHandlerPlacement_canon h ..
  | windowWriteArrival => exact execWindowWriteArrival_canon h ..
  | packetAcknowledge => exact execPacketAcknowledge_canon h ..
  | endToEndRetransmit => exact execEndToEndRetransmit_canon h ..
  | repairNoticeApply => exact execRepairNoticeApply_canon h ..
  | rollCallWave => exact execRollCallWave_canon h ..
  | rollCallPass2 => exact execRollCallPass2_canon h ..
  | rollCallVerdict => exact execRollCallVerdict_canon h ..
  | gangArm => exact execGangArm_canon h ..
  | gangArmAck => exact execGangArmAck_canon h ..
  | gangArmTimeout => exact execGangArmTimeout_canon h ..
  | gangGo => exact execGangGo_canon h ..
  | gangGoAck => exact execGangGoAck_canon h ..
  | gangGoTimeout => exact execGangGoTimeout_canon h ..
  | gangIncompleteNotice => exact execGangIncompleteNotice_canon h ..
  | collRingStep => exact execCollRingStep_canon h ..
  | collJoinTimeout => exact execCollJoinTimeout_canon h ..
  | collRingTimeout => exact execCollRingTimeout_canon h ..
  | collComplete => exact execCollComplete_canon h ..
  | hostRegisterWrite | hinv | preempt | svstartGo | svstartStop | jobEntryWrite | windowEntryWrite | pcapWrite =>
    rw [exec]
    exact State.hostWrite_canon h ..
  | launchWindowWrite => exact execLaunchWindowWrite_canon h ..
  | launchClaim =>
    rw [exec]
    exact State.claimSlot_canon h ..
  | powerWindowEnd => exact execPowerWindowEnd_canon h ..
  | getVersion | getCapabilities | negotiateAlgorithms | getDigests | getCertificate =>
    rw [exec]
    exact State.answer_canon h ..
  | challenge =>
    rw [exec]
    exact State.signed_canon h ..
  | getMeasurements => exact execGetMeasurements_canon h ..
  | keyExchange => exact execKeyExchange_canon h ..
  | finish => exact execFinish_canon h ..
  | endSession => exact execEndSession_canon h ..
  | bind => exact execBind_canon h ..
  | keyImage => exact execKeyImage_canon h ..
  | keyEval => exact execKeyEval_canon h ..
  | lockInterfaceRequest => exact execLockInterfaceRequest_canon h ..
  | startInterfaceRequest => exact execStartInterfaceRequest_canon h ..
  | stopInterfaceRequest => exact execStopInterfaceRequest_canon h ..
  | tdispOtherRequest =>
    rw [exec]
    exact State.refuse_canon h ..
  | worldTeardown => exact execWorldTeardown_canon h ..
  | coldReset => exact execColdReset_canon ..
  | hotReset | linkDown =>
    rw [exec]
    exact State.hotReset_canon h
  | illegalEncoding =>
    rw [exec]
    exact State.illegal_canon h
  | writePerform => exact execWritePerform_canon h ..
  | dirtySectorWriteBack => exact execDirtySectorWriteBack_canon h ..
  | frgetFrputComplete => exact execFrgetFrputComplete_canon h ..
  | registrarAnswer => exact execRegistrarAnswer_canon h ..
  | hostRegisterRead => exact execHostRegisterRead_canon h ..
  | crebyLinkLost | crebyLinkTrained =>
    rw [exec]
    exact State.links_canon h ..

-- the issue of a bundle

theorem runOps_canon (ops : List (Nat × Instr)) {s : State} (h : s.canon = true) : (runOps ops s).canon = true := by
  induction ops generalizing s with
  | nil => exact h
  | cons q rest ih =>
    obtain ⟨p, i⟩ := q
    have he := exec_canon (State.modIss_canon h fun j => { j with pos := p }) i
    rw [runOps]
    split
    · next t e =>
      rw [e] at he
      have hu := State.modIss_canon he fun j => { j with ops := j.ops ++ [i] }
      exact Out3.ite_canon (fun _ => hu) fun _ => ih hu
    · exact he
theorem thenNext_canon {o : Out3} {f : State → State} (ho : o.canon = true) (hf : ∀ t, t.canon = true → (f t).canon = true) :
    (thenNext o f).canon = true := by
  cases o with
  | next t => exact hf t ho
  | _ => rfl
theorem State.viewOf_canon {s : State} (h : s.canon = true) (c x : Nat) : (s.viewOf c x).canon = true := State.canon_of (State.viewOf_tidy ..) h
theorem State.begin_canon {s : State} (h : s.canon = true) (c x addr : Nat) (ws : List (BitVec 32)) : (s.begin c x addr ws).canon = true :=
  State.canon_of (State.begin_tidy ..) h
theorem State.checkPoint_canon {s : State} (h : s.canon = true) (c x : Nat) (b : Bundle) (old : Ctx) : (s.checkPoint c x b old).canon = true := by
  unfold State.checkPoint
  extract_lets i s0 s1 y r yields ended broken skip src y1 s2 s3 s4
  have h0 : s0.canon = true := State.canon_of (State.modCore_tidy _ _ _ rfl) (State.release_canon h c)
  have h1 : s1.canon = true := State.canon_of (State.commitFifos_tidy ..) h0
  have h2 : s2.canon = true := State.modCtx_canon h1 ..
  have h3 : s3.canon = true := State.ite_canon (fun _ => State.canon_of (State.modCore_tidy _ c (fun k => k.voidLoads x) (Core.voidLoads_tidy ..))
      h2) fun _ => h2
  have h4 : s4.canon = true := State.canon_of (State.beginWaits_tidy ..) h3
  refine State.ite_canon (fun _ => State.finishTask_canon h1 ..) fun _ => ?_
  exact State.ite_canon (fun _ => State.canon_of (State.modCore_tidy _ _ _ (Core.reschedule_tidy ..)) h4) fun _ => h4
theorem State.close_canon {pre t : State} (hp : pre.canon = true) (ht : t.canon = true) (c x : Nat) (b : Bundle) : (pre.close t c x b).canon = true :=
  State.ite_canon (fun _ => State.canon_of (State.hold_tidy ..) hp) fun _ => State.ite_canon (fun _ => State.take_canon hp ..) fun _ =>
    State.checkPoint_canon (State.canon_of (State.merge_tidy ..) ht) ..
theorem State.iss_canon {s : State} (h : s.canon = true) (i : Iss) : { s with iss := i }.canon = true := State.canon_of_fields h rfl rfl rfl
theorem State.issueWords_canon {s : State} (h : s.canon = true) (c x addr : Nat) (ws : List (BitVec 32)) :
    (s.issueWords c x addr ws).canon = true := by
  unfold State.issueWords
  extract_lets b fresh v n pre u
  have hp : pre.canon = true := State.ite_canon (fun _ => State.modCtx_canon h ..) fun _ => h
  have hu : u.canon = true := State.begin_canon (State.viewOf_canon hp ..) ..
  clear_value pre u
  refine Out3.ite_canon (fun _ => h) fun _ => Out3.ite_canon (fun _ => exec_canon (State.iss_canon hp _) _) fun _ => ?_
  refine Out3.ite_canon (fun _ => ?_) fun _ => thenNext_canon (runOps_canon _ hu) fun t ht => State.close_canon hp ht ..
  exact thenNext_canon (exec_canon (State.iss_canon (State.release_canon hp c) _) _) fun t ht => State.modCtx_canon ht ..
theorem State.issueNext_canon {s : State} (h : s.canon = true) (c x : Nat) : (s.issueNext c x).canon = true := by
  unfold State.issueNext
  dsimp only
  split
  · exact State.issueWords_canon h ..
  · refine Out3.ite_canon (fun _ => h) fun _ => ?_
    split
    · exact State.issueWords_canon h ..
    · exact State.fetchFault_canon h ..
theorem State.again_canon {s : State} (h : s.canon = true) (c : Nat) : (s.again c).canon = true := State.canon_of (State.again_tidy ..) h
theorem State.issueTurn_canon {s : State} (h : s.canon = true) (c : Nat) : (s.issueTurn c).canon = true := by
  unfold State.issueTurn
  refine Out3.ite_canon (fun _ => h) fun _ => ?_
  split
  · exact h
  · refine Out3.ite_canon (fun _ => thenNext_canon (exec_canon h _) fun t ht => State.again_canon ht c) fun _ =>
      Out3.ite_canon (fun _ => h) fun _ => ?_
    exact Out3.ite_canon (fun _ => thenNext_canon (exec_canon h _) fun t ht => State.again_canon ht c) fun _ => State.issueNext_canon h ..

-- what the device does between the bundles

theorem State.served_canon {s : State} (h : s.canon = true) (d cls src : Nat) :
    (s.served d cls src).canon = true := State.canon_of (State.served_tidy ..) h
theorem State.arrivePacket_canon {s : State} (h : s.canon = true) (p : Packet) : (s.arrivePacket p).canon = true := by
  unfold State.arrivePacket
  refine thenNext_canon (Out3.ite_canon (fun _ => execMessageArrival_canon h ..) fun _ => execWindowWriteArrival_canon h ..) fun u hu => ?_
  exact State.canon_of_fields (State.ite_canon (fun _ => hu) fun _ => State.served_canon hu ..) rfl rfl rfl
theorem State.movePacket_canon {s : State} (h : s.canon = true) (p : Packet) : (s.movePacket p).canon = true :=
  Out3.ite_canon (fun _ => execRepairNoticeApply_canon h ..) fun _ => Out3.ite_canon (fun _ => execPacketAcknowledge_canon h ..) fun _ =>
    Out3.ite_canon (fun _ => execEndToEndRetransmit_canon h ..) fun _ => State.arrivePacket_canon h p
theorem State.carry_canon {s : State} (h : s.canon = true) (i : Instr) : (s.carry i).canon = true :=
  exec_canon (foldl_canon (fun _ _ hu => State.served_canon hu ..) _ h) i
theorem State.request_canon {s : State} (h : s.canon = true) (d cls src left : Nat) (i : Instr) : (s.request d cls src left i).canon = true :=
  State.canon_of (State.request_tidy ..) h
theorem State.grant_canon {s : State} (h : s.canon = true) (d : Nat) : (s.grant d).canon = true := by
  unfold State.grant
  split
  · exact h
  · next r _ =>
    have ht := State.served_canon (State.paths_canon h (NMap.set s.paths d ((s.path d).erase r))) d r.cls r.src
    exact Out3.ite_canon (fun _ => ht) fun _ => Out3.ite_canon (fun _ => State.request_canon ht ..) fun _ => exec_canon ht _
theorem State.inbox_canon {s : State} (h : s.canon = true) (v : List Instr) :
    { s with inbox := v }.canon = true := State.canon_of_fields h rfl rfl rfl
theorem State.takeInput_canon {s : State} (h : s.canon = true) (i : Instr) : (s.takeInput i).canon = true :=
  Out3.ite_canon (fun _ => State.carry_canon (State.inbox_canon h _) i) fun _ => State.inbox_canon h _
theorem State.follow_canon {s : State} (h : s.canon = true) (c : Choice) : (s.follow c).canon = true := by
  cases c with
  | own i => exact State.carry_canon h i
  | come i => exact State.canon_of (State.arriveAt_tidy ..) h
  | grant d => exact State.grant_canon h d
  | move p => exact State.movePacket_canon h p
  | input i => exact State.takeInput_canon h i
  | tick => exact State.canon_of (State.tick_tidy ..) h
theorem State.between_canon {s : State} (h : s.canon = true) : s.between.canon = true := by
  unfold State.between
  split
  · next e => exact State.follow_canon (State.canon_of (State.pickOf_tidy_of e) h) _
  · next e => exact State.canon_of (State.tick_tidy ..) (State.canon_of (State.pickOf_tidy_of e) h)
theorem State.bootNext_canon {s : State} (h : s.canon = true) : s.bootNext.canon = true := State.canon_of (State.bootNext_tidy ..) h
theorem State.taken_canon {s : State} (h : s.canon = true) (v : List Instr) (n : Nat) : { s with inbox := v, picks := n }.canon = true :=
  State.canon_of_fields h rfl rfl rfl
theorem State.down_canon {s : State} (h : s.canon = true) : s.down.canon = true := by
  unfold State.down
  dsimp only
  split
  · next i rest _ =>
    have ht := State.taken_canon h rest (s.picks + 1)
    refine Out3.ite_canon (fun _ => State.bootNext_canon (State.picks_canon h _)) fun _ => ?_
    split
    · exact exec_canon ht _
    · exact Out3.ite_canon (fun _ => exec_canon ht _) fun _ => ht
    · exact ht
  · exact Out3.ite_canon (fun _ => State.bootNext_canon h) fun _ => rfl
theorem State.settled_canon {s : State} (h : s.canon = true) : s.settled.canon = true :=
  State.canon_of (State.settleArrivals_tidy ..) (State.canon_of (State.settleGangs_tidy ..) (State.settle_canon h))
theorem State.turn_canon {s : State} (h : s.canon = true) (v : List Turn) : { s with turn := v }.canon = true := State.canon_of_fields h rfl rfl rfl
/-- A step from a state whose memories are canonical answers no other. -/
theorem step_canon {s : State} (h : s.canon = true) : Out3.canon (step s) = true := by
  refine Out3.ite_canon (fun _ => State.down_canon h) fun _ => thenNext_canon ?_ fun t ht => State.settled_canon ht
  split
  · exact exec_canon (State.turn_canon h _) _
  · exact State.canon_of (State.settleRun_tidy ..) (State.turn_canon h _)
  · exact State.issueTurn_canon (State.turn_canon h _) _
  · exact State.between_canon h

/-- Settles O59: every write to a memory goes through `Memory.write`, which keeps the form (`Memory.wf_write`), and every other change leaves
the memories as they are. -/
theorem memoryCanonical : Obligations.MemoryCanonical := by
  unfold Obligations.MemoryCanonical
  intro s t h e
  have ht := step_canon h
  rwa [e] at ht

end Sys2Proof.Machine
end

-- ==== Walk slots where the map of cores is not in order

section
/-! SUPPORT. A state that the statements of the global accesses and of PREF admit, in which the record of an empty latch
takes a die's last walk slot. -/

namespace Sys2Proof.Machine

/-- Where no translation stands in the buffer and none has failed, a walk is asked for, or waited for (R312). -/
theorem State.translate_misses {s : State} {va kind sc : Nat} (k : TlbEntry → State → Out3)
    (hf : s.curCore.failed.find? (fun f => decide (f.va = va ∧ f.kind = kind)) = none)
    (ht : s.tlbFind s.iss.core va (s.worldOf s.iss.core s.iss.ctx) = none) :
    s.translate va kind sc k = .next (if s.curCore.walk.isNone && s.walkSlot (dieOf s.iss.core) then
      (s.modCurCore fun q => { q with walk := some ⟨va, kind⟩ }).holdIssue else s.holdIssue) := by
  simp only [State.translate, hf, ht]
/-- A core whose prefetches hold half of its die's walk slots. -/
def halfFull : Core :=
  { ctxs := [(0, { allocS := 48, allocV := 48, q := 0xFFFF })], prefs := List.replicate 2048 ⟨0, 0, false, false, 0, 0, 0, 0, 0, 0⟩ }
/-- That core is core 0, and stands behind core 1: a map of cores whose keys do not rise. A change of core 0 then puts an entry of its own in front
of both, and its prefetches count twice. -/
def unsortedCores : State :=
  { caps := capsTorham9, cores := [(1, {}), (0, halfFull)], iss := { allocS := 48, allocV := 48, words := [0, 0, 0, 0] } }

theorem dieOf_zero : dieOf 0 = 0 := by decide
theorem dieOf_one : dieOf 1 = 0 := by decide
theorem halfFull_prefs : halfFull.prefs.length = 2048 := List.length_replicate
theorem halfFull_walk : halfFull.walk = none := rfl
theorem unsortedCores_walkSlot : unsortedCores.walkSlot 0 = true := by
  simp [State.walkSlot, unsortedCores, halfFull_prefs, halfFull_walk, dieOf_zero, dieOf_one, Config.maxWalks, b2n]
theorem unsortedCores_note_cores :
    ∃ x, (unsortedCores.note cLATCH).cores = [(0, { halfFull with ctxs := x }), (1, {}), (0, halfFull)] := ⟨_, rfl⟩
/-- The record of an empty latch is a change of core 0: after it no walk slot is free. -/
theorem unsortedCores_note_walkSlot : (unsortedCores.note cLATCH).walkSlot 0 = false := by
  obtain ⟨x, hx⟩ := unsortedCores_note_cores
  simp [State.walkSlot, hx, halfFull_prefs, halfFull_walk, dieOf_zero, dieOf_one, Config.maxWalks, b2n]
theorem unsortedCores_entered {i : Instr} (h : unsortedCores.latchStale i = true) : unsortedCores.entered i = unsortedCores.note cLATCH := by
  rw [State.entered, if_pos h]

/-- Refutes O36: the model counts a die's walk slots over the entries of the map of cores, and nothing in the statement says that its keys rise. Where
they do not, the record of an empty latch takes the free slot away from the load that the record belongs to (`unsortedCores`), and no walk starts. -/
theorem not_globalAccesses : ¬ Obligations.GlobalAccesses := by
  unfold Obligations.GlobalAccesses
  intro h
  obtain ⟨⟨⟨-, -, walks, -⟩, -⟩, -⟩ := h unsortedCores 9 4 0 48 0 none
  have hruns : unsortedCores.runs (.ldW8 9 4 48 0 none) = true := by decide
  obtain ⟨starts, -⟩ := walks hruns (by decide) (by decide) (by decide)
  have hgoes := starts (by decide) unsortedCores_walkSlot
  have hheld : exec (.ldW8 9 4 48 0 none) unsortedCores = .next (unsortedCores.note cLATCH).holdIssue := by
    rw [exec, execLdW8, loadOp, sop_runs hruns, unsortedCores_entered (by decide), if_neg (by decide)]
    rw [State.translate_misses _ (by decide) (by decide)]
    simp only [show dieOf (unsortedCores.note cLATCH).iss.core = 0 by decide, unsortedCores_note_walkSlot, Bool.and_false]
    rfl
  rw [hheld] at hgoes
  injection hgoes with e
  exact absurd (congrArg (fun t : State => t.curCore.walk) e) (by decide)

theorem State.tlbFind_empty {s : State} {c : Nat} (h : (s.core c).tlb = []) (va w : Nat) : s.tlbFind c va w = none := by
  rw [State.tlbFind, h]
  rfl
theorem unsortedCores_note_tlb : ((unsortedCores.note cLATCH).core (unsortedCores.note cLATCH).iss.core).tlb = [] := rfl

/-- Refutes O38: for the same reason, and in the same state, a PREF whose record of an empty latch takes the free walk slot away is dropped. -/
theorem not_fencesAndPrefetch : ¬ Obligations.FencesAndPrefetch := by
  unfold Obligations.FencesAndPrefetch
  intro h
  obtain ⟨-, -, -, -, -, -, -, -, pref, -⟩ := h unsortedCores 9 48 0 none 0 0
  have hruns : unsortedCores.runs (.pref 9 48 0 none) = true := by decide
  obtain ⟨-, misses⟩ := pref hruns
  obtain ⟨-, goes⟩ := misses (by decide)
  obtain ⟨p, -, -, -, hgoes⟩ := goes unsortedCores_walkSlot
  have hdrops : exec (.pref 9 48 0 none) unsortedCores = .next ((unsortedCores.note cLATCH).note cPREFDROP) := by
    rw [exec, execPref, sop_runs hruns, unsortedCores_entered (by decide)]
    simp only [State.tlbFind_empty unsortedCores_note_tlb, show dieOf (unsortedCores.note cLATCH).iss.core = 0 by decide,
      unsortedCores_note_walkSlot]
    rfl
  rw [hdrops] at hgoes
  injection hgoes with e
  have hprefs : halfFull.prefs = halfFull.prefs ++ [p] := congrArg (fun t : State => t.curCore.prefs) e
  exact absurd (congrArg List.length hprefs) (by simp)

end Sys2Proof.Machine
end

-- ==== Atomic accesses

section
/-! SUPPORT. The lines of a translated access, the update that an AMO buffers and what it leaves unchanged, and the accesses that
AMO and CAS enter. -/

namespace Sys2Proof.Machine

-- ## Blocks of an access, and the lines of a translated one

theorem mem_blocks {z a n q : Nat} : q ∈ blocks z a n ↔ 0 < n ∧ a / z ≤ q ∧ q ≤ (a + n - 1) / z := by
  unfold blocks
  split
  · next h => simp [h]
  · simp only [List.mem_map, List.mem_range]
    constructor
    · rintro ⟨i, hi, rfl⟩
      omega
    · intro h
      exact ⟨q - a / z, by omega, by omega⟩
theorem blocks_one (z a : Nat) : blocks z a 1 = [a / z] := by
  rw [blocks, if_neg one_ne_zero, show a + 1 - 1 = a by omega, show a / z + 1 - a / z = 1 by omega]
  rfl

/-- Where all of an access's lines verify, the line of its first byte does. -/
theorem State.badLine_first {s : State} {w pa n : Nat} (hn : 0 < n) (h : s.badLine w pa n = none) : s.badLine w pa 1 = none := by
  unfold State.badLine at h ⊢
  split
  · rfl
  · next hw =>
    rw [if_neg hw, Option.map_eq_none_iff, List.find?_eq_none] at h
    rw [blocks_one, Option.map_eq_none_iff, List.find?_eq_none]
    intro q hq
    rw [List.mem_singleton] at hq
    subst hq
    exact h _ (mem_blocks.mpr ⟨hn, le_rfl, Nat.div_le_div_right (by omega)⟩)

theorem State.reaches_iff {s : State} {va kind len : Nat} {e : TlbEntry} : s.reaches va kind len e = true ↔
    (s.curCore.failed.find? (fun f => decide (f.va = va ∧ f.kind = kind)) = none) ∧
    s.tlbFind s.iss.core va (s.worldOf s.iss.core s.iss.ctx) = some e ∧
    s.judge e va kind (s.worldOf s.iss.core s.iss.ctx) (s.isMgmt s.iss.core s.iss.ctx) = none ∧
    (kind = 1 ∨ s.badLine e.wtag (e.phys va) len = none) := by
  simp only [State.reaches, Bool.and_eq_true, Bool.or_eq_true, decide_eq_true_eq, Option.isNone_iff_eq_none, List.find?_eq_none, List.all_eq_true,
    Bool.not_eq_true', decide_eq_false_iff_not, and_assoc]

/-- A translation that stands in the buffer and permits the access serves it at once (R311, R312). -/
theorem State.translate_reaches {s : State} {va kind len : Nat} {e : TlbEntry} (h : s.reaches va kind len e = true) (hn : 0 < len) (sc : Nat)
    (k : TlbEntry → State → Out3) : s.translate va kind sc k = k e s := by
  obtain ⟨hf, ht, hj, hl⟩ := State.reaches_iff.mp h
  simp only [State.translate, hf, ht, hj]
  rcases hl with rfl | hl
  · rfl
  · rw [State.badLine_first hn hl, ite_self]

theorem State.raiseWalk_align (s : State) (sc va kind lvl stg : Nat) :
    ∃ w0 w1, s.raiseWalk sc va kind lvl stg 3 = s.raise fALIGN w0 w1 := ⟨_, _, rfl⟩

-- ## The L1 sectors that an access drops (R307)

theorem NMap.get?_foldl_erase {α : Type} (ks : List Nat) (m : NMap α) (j : Nat) :
    NMap.get? (ks.foldl NMap.erase m) j = if j ∈ ks then none else NMap.get? m j := by
  induction ks generalizing m with
  | nil => rfl
  | cons k ks ih =>
    rw [List.foldl_cons, ih]
    by_cases hk : j = k
    · subst hk
      rw [NMap.get?_erase_same, ite_self, if_pos List.mem_cons_self]
    · simp only [NMap.get?_erase_other m hk, List.mem_cons, hk, false_or]
theorem State.dropL1_core (s : State) (c pa len k : Nat) : (s.dropL1 c pa len).core k =
    { s.core k with l1 := if k = s.l1Core c then (blocks 16 pa len).foldl NMap.erase (s.core k).l1 else (s.core k).l1 } := by
  unfold State.dropL1
  by_cases hk : k = s.l1Core c
  · rw [if_pos hk, hk, State.core_modCore]
  · rw [if_neg hk, State.core_modCore_other _ hk]

-- ## Buffered updates (R317)

/-- A core with one more buffered update: it combines with the last one of its word where it may. -/
def Core.buffered (q : Core) (b : AmoBuf) : Core :=
  match (q.amo.filter fun c => decide (c.pa = b.pa)).getLast? with
  | some c =>
    if c.op = b.op ∧ c.scope = b.scope ∧ c.ctx = b.ctx ∧ c.gen = b.gen ∧ q.fenceAfter b.ctx b.gen c.seq = false ∧
        q.ownAfter b.ctx b.gen c.seq b.pa = false then
      { q with amo := q.amo.map fun d => if d.seq = c.seq then { d with value := amoVal b.op d.value b.value } else d,
               nextAccess := q.nextAccess + 1 }
    else { q with amo := q.amo ++ [b], nextAccess := q.nextAccess + 1 }
  | none => { q with amo := q.amo ++ [b], nextAccess := q.nextAccess + 1 }

theorem Core.buffered_frame (q : Core) (b : AmoBuf) : q.buffered b = { q with amo := (q.buffered b).amo, nextAccess := q.nextAccess + 1 } := by
  unfold Core.buffered
  split
  · split <;> rfl
  · rfl
/-- An update of a word that none is buffered of stands last. -/
theorem Core.buffered_new {q : Core} {b : AmoBuf} (h : ∀ c ∈ q.amo, c.pa ≠ b.pa) : (q.buffered b).amo = q.amo ++ [b] := by
  have hnone : (q.amo.filter fun c => decide (c.pa = b.pa)) = [] := List.filter_eq_nil_iff.mpr fun c hc => by simpa using h c hc
  rw [Core.buffered, hnone]
  rfl
/-- One that may combine with the only update that is buffered does. -/
theorem Core.buffered_combines {q : Core} {b c : AmoBuf} (h : q.amo = [c]) (hpa : c.pa = b.pa) (hop : c.op = b.op) (hscope : c.scope = b.scope)
    (hctx : c.ctx = b.ctx) (hgen : c.gen = b.gen) (hf : q.fenceAfter b.ctx b.gen c.seq = false) (ho : q.ownAfter b.ctx b.gen c.seq b.pa = false) :
    (q.buffered b).amo = [{ c with value := amoVal b.op c.value b.value }] := by
  have hlast : (q.amo.filter fun c => decide (c.pa = b.pa)).getLast? = some c := by simp [h, hpa]
  rw [Core.buffered, hlast]
  simp only [hop, hscope, hctx, hgen, hf, ho, and_self, if_true, h, List.map_cons, List.map_nil]

/-- The update that a buffered AMO of the context in issue makes. -/
def State.update_ (s : State) (e : TlbEntry) (va op scope : Nat) (v : Word) : AmoBuf :=
  { pa := e.phys va, op := op, value := v, scope := scope, since := s.cyc, ctx := s.iss.ctx, launch := s.cur.launch, gen := s.cur.gen,
    seq := s.curCore.nextAccess, wtag := e.wtag }
/-- The state in which an update of another operation has the merges of its word asked for. -/
def State.mergesAsked (s : State) (pa op : Nat) : State :=
  if s.curCore.amo.any fun b => decide (b.pa = pa ∧ b.op ≠ op) then s.askMerges s.iss.core fun b => decide (b.pa = pa) else s
theorem State.mergesAsked_frame (s : State) (pa op : Nat) : { s.mergesAsked pa op with paths := s.paths } = s := by
  unfold State.mergesAsked
  split
  · exact s.askMerges_frame _ _
  · rfl
theorem State.eq_of_frame {s t : State} (h : { t with paths := s.paths } = s) {α : Type} (g : State → α)
    (hg : ∀ (u : State) v, g { u with paths := v } = g u) : g t = g s := by
  rw [← hg t s.paths, h]
theorem State.buffer_eq (s : State) (e : TlbEntry) (va op scope : Nat) (v : Word) : s.buffer e va op scope v =
    (s.mergesAsked (e.phys va) op).modCore s.iss.core fun q => q.buffered (s.update_ e va op scope v) := by
  have hiss : (s.mergesAsked (e.phys va) op).iss = s.iss := State.eq_of_frame (s.mergesAsked_frame _ _) State.iss fun _ _ => rfl
  have hcore : (s.mergesAsked (e.phys va) op).core s.iss.core = s.curCore :=
    State.eq_of_frame (s.mergesAsked_frame _ _) (fun t => t.core s.iss.core) fun _ _ => rfl
  rw [State.buffer]
  change State.modCurCore (s.mergesAsked (e.phys va) op) _ = _
  rw [State.modCurCore, hiss, State.modCore, State.modCore, hcore]
  rfl
theorem State.buffer_frame (s : State) (e : TlbEntry) (va op scope : Nat) (v : Word) :
    { s.buffer e va op scope v with cores := s.cores, paths := s.paths } = s := by
  rw [State.buffer_eq]
  exact (congrArg (fun t : State => { t with cores := s.cores }) (s.mergesAsked_frame (e.phys va) op) :)
theorem State.buffer_core (s : State) (e : TlbEntry) (va op scope : Nat) (v : Word) (k : Nat) : (s.buffer e va op scope v).core k =
    if k = s.iss.core then s.curCore.buffered (s.update_ e va op scope v) else s.core k := by
  have hcore : ∀ k, (s.mergesAsked (e.phys va) op).core k = s.core k := fun k =>
    State.eq_of_frame (s.mergesAsked_frame _ _) (fun t => t.core k) fun _ _ => rfl
  rw [State.buffer_eq]
  split
  · next hk => rw [hk, State.core_modCore, hcore, State.curCore]
  · next hk => rw [State.core_modCore_other _ hk, hcore]
theorem State.buffer_paths (s : State) (e : TlbEntry) (va op scope : Nat) (v : Word) :
    (s.buffer e va op scope v).paths = (s.mergesAsked (e.phys va) op).paths := by
  rw [State.buffer_eq]
  rfl
theorem State.buffer_l1Core (s : State) (e : TlbEntry) (va op scope : Nat) (v : Word) (c : Nat) :
    (s.buffer e va op scope v).l1Core c = s.l1Core c :=
  (congrArg (fun t : State => t.l1Core c) (s.buffer_frame e va op scope v) :)
theorem State.mergesAsked_same {s : State} {pa op : Nat} (h : ∀ c ∈ s.curCore.amo, c.pa = pa → c.op = op) : s.mergesAsked pa op = s := by
  rw [State.mergesAsked, if_neg]
  simp only [List.any_eq_true, decide_eq_true_eq, not_exists, not_and]
  exact fun c hc hpa hne => hne (h c hc hpa)
theorem State.mergesAsked_other {s : State} {pa op : Nat} {c : AmoBuf} (hc : c ∈ s.curCore.amo) (hpa : c.pa = pa) (hop : c.op ≠ op) :
    ∃ r ∈ (s.mergesAsked pa op).path (dieOf s.iss.core), r.what = .bufferedAmoMerge s.iss.core pa := by
  rw [State.mergesAsked, if_pos (List.any_eq_true.mpr ⟨c, hc, decide_eq_true ⟨hpa, hop⟩⟩), ← hpa]
  exact s.askMerges_waits s.iss.core _ hc (decide_eq_true rfl)

-- ## The atomics (R317, R318)

theorem amoVal_spec (p q : Word) : amoVal 0 p q = p + q ∧ (amoVal 1 p q).toInt = min p.toInt q.toInt ∧
    (amoVal 2 p q).toInt = max p.toInt q.toInt ∧ amoVal 3 p q = p &&& q ∧ amoVal 4 p q = p ||| q ∧ amoVal 5 p q = p ^^^ q := by
  have hmin : (if q.slt p then q else p).toInt = min p.toInt q.toInt := by
    split
    · next h => rw [min_eq_right (BitVec.slt_iff_toInt_lt.mp h).le]
    · next h => rw [min_eq_left (not_lt.mp fun hl => h (BitVec.slt_iff_toInt_lt.mpr hl))]
  have hmax : (if p.slt q then q else p).toInt = max p.toInt q.toInt := by
    split
    · next h => rw [max_eq_right (BitVec.slt_iff_toInt_lt.mp h).le]
    · next h => rw [max_eq_left (not_lt.mp fun hl => h (BitVec.slt_iff_toInt_lt.mpr hl))]
  exact ⟨rfl, hmin, hmax, rfl, rfl, rfl⟩

theorem word_mod_eight (w : Word) : w % 8 = 0 ↔ w.toNat % 8 = 0 := by
  rw [← BitVec.toNat_inj, BitVec.toNat_umod]
  rfl

section
variable {s : State} {i : Instr} {op : Nat} {d a b : Code} {x : Ext} {e : TlbEntry} (h : s.runs i = true)
include h

theorem amoInstr_misaligned (hmis : (s.entered i).rdS a % 8 ≠ 0) : ∃ w0 w1, amoInstr i op d a b x s = (s.entered i).raise fALIGN w0 w1 := by
  rw [amoInstr, sop_runs h, if_pos (mt (word_mod_eight _).mpr hmis)]
  exact State.raiseWalk_align ..

variable (hal : (s.entered i).rdS a % 8 = 0) (hr : (s.entered i).reaches ((s.entered i).rdS a).toNat 2 8 e = true)
include hal hr

/-- An AMO that returns the old word, or that goes to a register page: an access that waits for a load slot. -/
theorem amoInstr_enters (hd : ¬(d.toNat = 63 ∧ isRegPage (e.phys ((s.entered i).rdS a).toNat) = false)) (hroom : (s.entered i).loadRoom = true) :
    amoInstr i op d a b x s = .next (((s.entered i).enter { (s.entered i).accessFrame e ((s.entered i).rdS a).toNat 8 with
      kind := 2, amo := op, value := ((s.entered i).rdS b).setWidth 4096, scope := x.byte.toNat % 8,
      dest := ((s.entered i).dstS d).map fun n => (false, n) } false).dropL1 s.iss.core (e.phys ((s.entered i).rdS a).toNat) 8) := by
  rw [amoInstr, sop_runs h, if_neg (not_not.mpr ((word_mod_eight _).mp hal)), State.translate_reaches hr (by omega), if_neg hd, State.heldUntil,
    if_pos hroom, State.entered_iss, bits_low]
  rfl
/-- Any other is buffered. -/
theorem amoInstr_buffers (hd : d.toNat = 63) (hp : isRegPage (e.phys ((s.entered i).rdS a).toNat) = false) : amoInstr i op d a b x s =
    .next (((s.entered i).buffer e ((s.entered i).rdS a).toNat op (x.byte.toNat % 8) ((s.entered i).rdS b)).dropL1 s.iss.core
      (e.phys ((s.entered i).rdS a).toNat) 8) := by
  rw [amoInstr, sop_runs h, if_neg (not_not.mpr ((word_mod_eight _).mp hal)), State.translate_reaches hr (by omega), if_pos ⟨hd, hp⟩,
    State.entered_iss, bits_low]
  rfl
end

-- ## What a buffered AMO leaves behind

/-- The state after a buffered AMO: its update in the buffer, the word's sector gone from the L1 that the core reads through. -/
def State.amoBuffered (u : State) (e : TlbEntry) (va op scope : Nat) (v : Word) : State :=
  (u.buffer e va op scope v).dropL1 u.iss.core (e.phys va) 8

section
variable (u : State) (e : TlbEntry) (va op scope : Nat) (v : Word)

theorem State.amoBuffered_core (k : Nat) : (u.amoBuffered e va op scope v).core k =
    let q := if k = u.iss.core then u.curCore.buffered (u.update_ e va op scope v) else u.core k
    { q with l1 := if k = u.l1Core u.iss.core then (blocks 16 (e.phys va) 8).foldl NMap.erase q.l1 else q.l1 } := by
  rw [State.amoBuffered, State.dropL1_core, State.buffer_core, State.buffer_l1Core]
theorem State.amoBuffered_here : (u.amoBuffered e va op scope v).core u.iss.core =
    { u.curCore.buffered (u.update_ e va op scope v) with l1 := ((u.amoBuffered e va op scope v).core u.iss.core).l1 } := by
  rw [State.amoBuffered_core, if_pos rfl]
theorem State.amoBuffered_nextAccess : ((u.amoBuffered e va op scope v).core u.iss.core).nextAccess = u.curCore.nextAccess + 1 := by
  rw [State.amoBuffered_here, Core.buffered_frame]
theorem State.amoBuffered_amo : ((u.amoBuffered e va op scope v).core u.iss.core).amo = (u.curCore.buffered (u.update_ e va op scope v)).amo := by
  rw [State.amoBuffered_here]
theorem State.amoBuffered_l1 (k : Nat) : NMap.get? ((u.amoBuffered e va op scope v).core (u.l1Core u.iss.core)).l1 k =
    if k ∈ blocks 16 (e.phys va) 8 then none else NMap.get? (u.core (u.l1Core u.iss.core)).l1 k := by
  rw [State.amoBuffered_core]
  dsimp only
  rw [if_pos rfl, NMap.get?_foldl_erase]
  split
  · rfl
  · split
    · next h => rw [h, Core.buffered_frame, State.curCore]
    · rfl
theorem State.amoBuffered_cores (k : Nat) : let t := u.amoBuffered e va op scope v
    t.core k = { u.core k with amo := (t.core k).amo, nextAccess := (t.core k).nextAccess, l1 := (t.core k).l1 } ∧
    (k ≠ u.iss.core → (t.core k).amo = (u.core k).amo ∧ (t.core k).nextAccess = (u.core k).nextAccess) ∧
    (k ≠ u.l1Core u.iss.core → (t.core k).l1 = (u.core k).l1) := by
  dsimp only
  rw [State.amoBuffered_core]
  by_cases hk : k = u.iss.core
  · subst hk
    rw [if_pos rfl, Core.buffered_frame, State.curCore]
    exact ⟨rfl, fun h => absurd rfl h, fun h => if_neg h⟩
  · rw [if_neg hk]
    exact ⟨rfl, fun _ => ⟨rfl, rfl⟩, fun h => if_neg h⟩
theorem State.amoBuffered_frame : { u.amoBuffered e va op scope v with cores := u.cores, paths := u.paths } = u :=
  u.buffer_frame e va op scope v
theorem State.amoBuffered_paths : (u.amoBuffered e va op scope v).paths = (u.mergesAsked (e.phys va) op).paths := u.buffer_paths e va op scope v
theorem State.amoBuffered_path (d : Nat) : (u.amoBuffered e va op scope v).path d = (u.mergesAsked (e.phys va) op).path d := by
  rw [State.path, State.amoBuffered_paths, State.path]
end

-- ## CAS (R318)

section
variable {s : State} {g : Guard} {d a b : Code} {x : Ext} {e : TlbEntry}

/-- A CAS names a register to return the old word to. -/
theorem cas_register (h : s.runs (.cas g d a b x) = true) : d.toNat < 48 := by
  obtain ⟨hwf, -⟩ := State.runs_iff.1 h
  have hd : (decide (d < 48) && extScope x) = true := hwf
  rw [Bool.and_eq_true, decide_eq_true_eq] at hd
  exact BitVec.lt_def.mp hd.1
theorem execCas_misaligned (h : s.runs (.cas g d a b x) = true) (hmis : (s.entered (.cas g d a b x)).rdS a % 8 ≠ 0) :
    ∃ w0 w1, exec (.cas g d a b x) s = (s.entered (.cas g d a b x)).raise fALIGN w0 w1 := by
  rw [exec, execCas, sop_runs h, if_pos (mt (word_mod_eight _).mpr hmis)]
  exact State.raiseWalk_align ..
theorem execCas_reaches (h : s.runs (.cas g d a b x) = true) (hal : (s.entered (.cas g d a b x)).rdS a % 8 = 0)
    (hr : (s.entered (.cas g d a b x)).reaches ((s.entered (.cas g d a b x)).rdS a).toNat 2 8 e = true)
    (hroom : (s.entered (.cas g d a b x)).loadRoom = true) : execCas g d a b x s =
      .next (((s.entered (.cas g d a b x)).enter { (s.entered (.cas g d a b x)).accessFrame e ((s.entered (.cas g d a b x)).rdS a).toNat 8 with
        kind := 3, value := ((s.entered (.cas g d a b x)).rdS b).setWidth 4096, cmp := (s.entered (.cas g d a b x)).rdS d,
        scope := x.byte.toNat % 8, dest := ((s.entered (.cas g d a b x)).dstS d).map fun n => (false, n) } false).dropL1 s.iss.core
        (e.phys ((s.entered (.cas g d a b x)).rdS a).toNat) 8) := by
  rw [execCas, sop_runs h, if_neg (not_not.mpr ((word_mod_eight _).mp hal)), State.translate_reaches hr (by omega), State.heldUntil,
    if_pos hroom, State.entered_iss, bits_low]
  rfl
end

/-- Settles O37: the common frame of the operation, the translation that stands, and then either the access that is entered or the update that is
buffered (`Core.buffered`), of which each clause is a lemma. -/
theorem amoAndCas : Obligations.AmoAndCas := by
  unfold Obligations.AmoAndCas
  intro s g d a b x access scope amo
  have hamo : ∀ i op, (exec i s = amoInstr i op d a b x s) → amo i op := by
    intro i op hexec
    refine ⟨fun hruns hmis => hexec ▸ amoInstr_misaligned hruns hmis, fun e hruns => ?_⟩
    intro u pa hal hr
    rw [hexec]
    have hiss : u.iss = s.iss := s.entered_iss i
    refine ⟨fun hd hroom => ?_, fun hd hp hroom => ?_, fun hd hp => ?_⟩
    · rw [amoInstr_enters hruns hal hr (by omega) hroom, State.accessFrame, State.dstS, if_pos hd, hiss, State.entered_cyc]
      rfl
    · rw [amoInstr_enters hruns hal hr (by simp [pa, u] at hp; simp [hp]) hroom, State.accessFrame, State.dstS, if_neg (by omega), hiss,
        State.entered_cyc]
      rfl
    · refine ⟨u.amoBuffered e (u.rdS a).toNat op scope (u.rdS b), ?_, ?_⟩
      · rw [amoInstr_buffers hruns hal hr hd hp, State.amoBuffered, hiss]
      rw [← hiss, ← s.entered_cyc i]
      refine ⟨u.amoBuffered_nextAccess .., u.amoBuffered_l1 _ _ _ _ _, u.amoBuffered_cores _ _ _ _ _, u.amoBuffered_frame .., fun hsame => ?_,
        fun c hc hpa hop => ?_, fun hnew => ?_, fun c hc hpa hop hscope hctx hgen hf ho => ?_⟩
      · rw [State.amoBuffered_paths, State.mergesAsked_same hsame]
      · obtain ⟨r, hr, hw⟩ := State.mergesAsked_other hc hpa hop
        exact ⟨r, by rwa [State.amoBuffered_path], hw⟩
      · rw [State.amoBuffered_amo]
        exact Core.buffered_new hnew
      · rw [State.amoBuffered_amo]
        exact Core.buffered_combines hc hpa hop hscope hctx hgen hf ho
  refine ⟨hamo _ _ rfl, hamo _ _ rfl, hamo _ _ rfl, hamo _ _ rfl, hamo _ _ rfl, hamo _ _ rfl, execCas_misaligned,
    fun e hruns => ?_, ?_, amoVal_spec⟩
  · intro u hal hr hroom
    have hd : d.toNat < 48 := cas_register hruns
    rw [exec, execCas_reaches hruns hal hr hroom, State.accessFrame, State.dstS, if_pos hd, State.entered_iss, State.entered_cyc]
    rfl
  · rintro rfl
    have hwf : (Instr.cas g 63 a b x).wf = false := show (decide ((63 : Code) < 48) && extScope x) = false from rfl
    rw [exec, execCas]
    exact sop_illegal false (Or.inl hwf) _

end Sys2Proof.Machine
end

-- ==== Writes to a die's view

section
/-! SUPPORT. What a write to a die's view does to it, to the other dies and to the rest of the state, and the writes and updates
that perform by one. -/

namespace Sys2Proof.Machine

-- ## Bytes of a memory after a write

theorem Memory.read_writeN_at {m : Memory} (w : m.wf = true) (a : Nat) {vs : List Byte} {j : Nat} (hj : j < vs.length) :
    Memory.read (Memory.writeN m a vs) (a + j) = vs[j] :=
  Memory.read_writeVia_at id a vs w hj fun _ _ e => Nat.add_left_cancel e
theorem Memory.read_writeN_other {m : Memory} (w : m.wf = true) {a b : Nat} {vs : List Byte} (hb : b < a ∨ a + vs.length ≤ b) :
    Memory.read (Memory.writeN m a vs) b = Memory.read m b :=
  Memory.read_writeVia_other id a vs w b fun i hi => by
    rw [id]
    omega

-- ## The same change of several dies

theorem State.die_foldl_modDie {l : List Nat} (hl : l.Nodup) (f : Die → Die) (s : State) (e : Nat) :
    (l.foldl (fun t d => t.modDie d f) s).die e = if e ∈ l then f (s.die e) else s.die e := by
  induction l generalizing s with
  | nil => rfl
  | cons d l ih =>
    obtain ⟨hd, hl⟩ := List.nodup_cons.mp hl
    rw [List.foldl_cons, ih hl]
    by_cases he : e = d
    · subst he
      rw [if_neg hd, State.die_modDie, if_pos List.mem_cons_self]
    · simp only [State.die_modDie_other s he, List.mem_cons, he, false_or]

-- ## A line taken for a world (R401)

section
variable (s : State) (w l d : Nat)

@[simp] theorem State.takeLine_hbm : (s.takeLine w l).hbm = s.hbm := by
  unfold State.takeLine
  split <;> rfl
@[simp] theorem State.takeLine_cores : (s.takeLine w l).cores = s.cores := by
  unfold State.takeLine
  split <;> rfl
@[simp] theorem State.takeLine_caps : (s.takeLine w l).caps = s.caps := by
  unfold State.takeLine
  split <;> rfl
theorem State.takeLine_dies (h : s.sealer l ≠ w) :
    ∃ bs, (s.takeLine w l).dies = s.dies.map fun q => (q.1, { q.2 with view := Memory.writeN q.2.view (128 * l) bs }) := by
  rw [State.takeLine, if_neg h]
  exact ⟨_, rfl⟩
/-- Taking a line changes nothing of a die but, at most, the bytes of its view. -/
theorem State.takeLine_die : ∃ v, (s.takeLine w l).die d = { s.die d with view := v } ∧ ((s.die d).view.wf = true → v.wf = true) := by
  by_cases h : s.sealer l = w
  · exact ⟨_, by rw [State.takeLine, if_pos h], id⟩
  · obtain ⟨bs, hbs⟩ := s.takeLine_dies w l h
    rw [State.die, hbs, NMap.getD, NMap.get?_map fun _ (k : Die) => { k with view := Memory.writeN k.view (128 * l) bs }, State.die, NMap.getD]
    cases NMap.get? s.dies d with
    | none => exact ⟨_, rfl, id⟩
    | some k => exact ⟨_, rfl, fun hv => Memory.wf_writeN _ _ hv⟩
variable (pa n : Nat)

@[simp] theorem State.takeLines_hbm : (s.takeLines pa n w).hbm = s.hbm :=
  foldl_keeps State.hbm _ _ (fun l _ t => t.takeLine_hbm w l) s
@[simp] theorem State.takeLines_cores : (s.takeLines pa n w).cores = s.cores :=
  foldl_keeps State.cores _ _ (fun l _ t => t.takeLine_cores w l) s
@[simp] theorem State.takeLines_nDies : (s.takeLines pa n w).nDies = s.nDies :=
  foldl_keeps State.nDies _ _ (fun l _ t => by rw [State.nDies, State.takeLine_caps, State.nDies]) s
theorem State.takeLines_inq : ((s.takeLines pa n w).die d).inq = (s.die d).inq :=
  foldl_keeps (fun t : State => (t.die d).inq) _ _ (fun l _ t => by
    obtain ⟨v, hv, -⟩ := t.takeLine_die w l d
    rw [hv]) s
end

theorem State.takeLines_wf {s : State} {d : Nat} (h : (s.die d).view.wf = true) (pa n w : Nat) : ((s.takeLines pa n w).die d).view.wf = true :=
  List.foldlRecOn (motive := fun t : State => (t.die d).view.wf = true) _ _ h fun t ht l _ => by
    obtain ⟨v, hv, hw⟩ := t.takeLine_die w l d
    rw [hv]
    exact hw ht
/-- Lines that are sealed for the world already stay as they are. -/
theorem State.takeLines_dies {s : State} {pa n w : Nat} (h : ∀ l ∈ blocks 128 pa n, s.sealer l = w) : (s.takeLines pa n w).dies = s.dies := by
  have hfold : (blocks 128 pa n).foldl (fun t l => t.takeLine w l) s = s :=
    List.foldlRecOn (motive := fun t : State => t = s) _ _ rfl fun t ht l hl => by rw [ht, State.takeLine, if_pos (h l hl)]
  rw [State.takeLines, hfold]

-- ## A write on its way to the other dies (R323, R324)

/-- A write on its way to each of a list of dies. -/
def State.sent (s : State) (q : XWrite) (l : List Nat) : State := l.foldl (fun t e => t.modDie e fun k => { k with inq := k.inq ++ [q] }) s

section
variable (s : State) (q : XWrite) (l : List Nat)

theorem State.modDie_view (d e : Nat) {f : Die → Die} (hf : ∀ k, (f k).view = k.view) : ((s.modDie d f).die e).view = (s.die e).view := by
  by_cases h : e = d
  · subst h
    rw [State.die_modDie, hf]
  · rw [State.die_modDie_other s h]
@[simp] theorem State.sent_hbm : (s.sent q l).hbm = s.hbm := by
  unfold State.sent
  refine foldl_keeps State.hbm _ l (fun _ _ _ => ?_) s
  rfl
@[simp] theorem State.sent_cores : (s.sent q l).cores = s.cores := by
  unfold State.sent
  refine foldl_keeps State.cores _ l (fun _ _ _ => ?_) s
  rfl
@[simp] theorem State.sent_view (e : Nat) : ((s.sent q l).die e).view = (s.die e).view := by
  unfold State.sent
  refine foldl_keeps (fun t : State => (t.die e).view) _ l (fun b _ t => t.modDie_view b e fun _ => ?_) s
  rfl
theorem State.sent_inq (hl : l.Nodup) {e : Nat} (he : e ∈ l) : ((s.sent q l).die e).inq = (s.die e).inq ++ [q] := by
  rw [State.sent, State.die_foldl_modDie hl, if_pos he]
end

section
variable (s : State) (d pa : Nat) (data : List Byte) (mark : Bool)

/-- The die counts a write of its own, and the write is on its way to each other die of the package. -/
theorem State.originate_fst : ∃ q n, q.origin = d ∧ q.pa = pa ∧ q.data = data ∧ (s.originate d pa data mark).1 =
    { (s.modDie d fun k => { k with out := n }).sent q ((List.range s.nDies).filter fun e => decide (e ≠ d)) with nextWrite := s.nextWrite + 1 } :=
  ⟨{ id := s.nextWrite, origin := d, vc := s.clockOf d ((s.die d).out + 1), pa := pa, data := data, mark := mark }, _, rfl, rfl, rfl, rfl⟩
theorem State.originate_stamp : ∃ n, (s.originate d pa data mark).2 = (d, n) := ⟨_, rfl⟩
@[simp] theorem State.originate_hbm : (s.originate d pa data mark).1.hbm = s.hbm := by
  obtain ⟨q, n, -, -, -, hfst⟩ := s.originate_fst d pa data mark
  rw [hfst, State.sent_hbm, State.modDie_hbm]
@[simp] theorem State.originate_cores : (s.originate d pa data mark).1.cores = s.cores := by
  obtain ⟨q, n, -, -, -, hfst⟩ := s.originate_fst d pa data mark
  rw [hfst, State.sent_cores, State.modDie_cores]
@[simp] theorem State.originate_view (e : Nat) : ((s.originate d pa data mark).1.die e).view = (s.die e).view := by
  obtain ⟨q, n, -, -, -, hfst⟩ := s.originate_fst d pa data mark
  rw [hfst]
  exact (State.sent_view ..).trans (s.modDie_view d e fun _ => rfl)
theorem State.originate_inq {e : Nat} (he : e ≠ d) (hn : e < s.nDies) :
    ∃ q, ((s.originate d pa data mark).1.die e).inq = (s.die e).inq ++ [q] ∧ q.origin = d ∧ q.pa = pa ∧ q.data = data := by
  obtain ⟨q, n, horigin, hpa, hdata, hfst⟩ := s.originate_fst d pa data mark
  refine ⟨q, ?_, horigin, hpa, hdata⟩
  rw [hfst]
  refine (State.sent_inq _ q _ (List.nodup_range.filter _) (by simp [he, hn])).trans ?_
  rw [State.die_modDie_other s he]
end

-- ## A write to a die's view

section
variable (s : State) (d w pa : Nat) (data : List Byte)

@[simp] theorem State.writeView_hbm : (s.writeView d w pa data).1.hbm = s.hbm := by
  rw [State.writeView, State.originate_hbm, State.modDie_hbm, State.takeLines_hbm]
@[simp] theorem State.writeView_cores : (s.writeView d w pa data).1.cores = s.cores := by
  rw [State.writeView, State.originate_cores, State.modDie_cores, State.takeLines_cores]
@[simp] theorem State.writeView_core (c : Nat) : (s.writeView d w pa data).1.core c = s.core c := by
  rw [State.core, State.writeView_cores, State.core]
theorem State.writeView_stamp : ∃ n, (s.writeView d w pa data).2 = (d, n) := State.originate_stamp ..
theorem State.writeView_view : ((s.writeView d w pa data).1.die d).view = Memory.writeN ((s.takeLines pa data.length w).die d).view pa data := by
  rw [State.writeView, State.originate_view, State.die_modDie, Die.store]
theorem State.writeView_inq {e : Nat} (he : e ≠ d) (hn : e < s.nDies) :
    ∃ q, ((s.writeView d w pa data).1.die e).inq = (s.die e).inq ++ [q] ∧ q.origin = d ∧ q.pa = pa ∧ q.data = data := by
  obtain ⟨q, hq, hattr⟩ := ((s.takeLines pa data.length w).modDie d fun k => k.store pa data).originate_inq d pa data false he
    (by rwa [State.nDies, State.modDie_caps, ← State.nDies, State.takeLines_nDies])
  exact ⟨q, by rw [State.writeView, hq, State.die_modDie_other _ he, State.takeLines_inq], hattr⟩
end

/-- The bytes written stand at their addresses. -/
theorem State.writeView_at {s : State} {d : Nat} (h : (s.die d).view.wf = true) (w pa : Nat) {data : List Byte} {j : Nat} (hj : j < data.length) :
    Memory.read ((s.writeView d w pa data).1.die d).view (pa + j) = data[j] := by
  rw [State.writeView_view, Memory.read_writeN_at (State.takeLines_wf h ..) pa hj]
/-- Where the lines are sealed for the world already, the write changes no other byte of the view, and no other die's view. -/
theorem State.writeView_kept {s : State} {d : Nat} (h : (s.die d).view.wf = true) {w pa : Nat} {data : List Byte}
    (kept : ∀ l ∈ blocks 128 pa data.length, s.sealer l = w) :
    (∀ b, b < pa ∨ pa + data.length ≤ b → Memory.read ((s.writeView d w pa data).1.die d).view b = Memory.read (s.die d).view b) ∧
      ∀ e, e ≠ d → ((s.writeView d w pa data).1.die e).view = (s.die e).view := by
  have hdie : ∀ e, (s.takeLines pa data.length w).die e = s.die e := fun e => by rw [State.die, State.takeLines_dies kept, State.die]
  refine ⟨fun b hb => ?_, fun e he => ?_⟩
  · rw [State.writeView_view, hdie, Memory.read_writeN_other h hb]
  · rw [State.writeView, State.originate_view, State.die_modDie_other _ he, hdie]

-- ## The word of an atomic operation

/-- A state in which a 64-bit word has been written to a die's view: its bytes stand there, what was written back to HBM is as before, and so is
every other byte where the lines are sealed for the writing world already. -/
def State.WordWritten (s : State) (d pa w : Nat) (v : Word) (t : State) : Prop :=
  (∀ j, j < 8 → Memory.read (t.die d).view (pa + j) = v.extractLsb' (8 * j) 8) ∧ t.hbm = s.hbm ∧
  ((∀ l ∈ blocks 128 pa 8, s.sealer l = w) →
    (∀ b, b < pa ∨ pa + 8 ≤ b → Memory.read (t.die d).view b = Memory.read (s.die d).view b) ∧
    ∀ e, e ≠ d → (t.die e).view = (s.die e).view)

theorem State.writeView_value {s : State} {d n : Nat} (h : (s.die d).view.wf = true) (w pa : Nat) {m : Nat} (v : BitVec m) {j : Nat} (hj : j < n) :
    Memory.read ((s.writeView d w pa (leBytes n v.toNat)).1.die d).view (pa + j) = v.extractLsb' (8 * j) 8 := by
  have hlen : j < (leBytes n v.toNat).length := by rwa [leBytes_length]
  rw [State.writeView_at h w pa hlen]
  exact Option.some.inj ((List.getElem?_eq_getElem hlen).symm.trans (leBytes_getElem? n v hj))
theorem State.writeView_kept_value {s : State} {d n : Nat} (h : (s.die d).view.wf = true) {w pa : Nat} (v : Nat)
    (kept : ∀ l ∈ blocks 128 pa n, s.sealer l = w) :
    (∀ b, b < pa ∨ pa + n ≤ b → Memory.read ((s.writeView d w pa (leBytes n v)).1.die d).view b = Memory.read (s.die d).view b) ∧
      ∀ e, e ≠ d → ((s.writeView d w pa (leBytes n v)).1.die e).view = (s.die e).view := by
  have hk := State.writeView_kept (data := leBytes n v) h (w := w) (pa := pa)
  rw [leBytes_length] at hk
  exact hk kept
theorem State.writeView_word {s : State} {d : Nat} (h : (s.die d).view.wf = true) (w pa : Nat) (v : Word) :
    s.WordWritten d pa w v (s.writeView d w pa (leBytes 8 v.toNat)).1 :=
  ⟨fun _ hj => State.writeView_value h w pa v hj, s.writeView_hbm .., State.writeView_kept_value h _⟩
/-- A change of a core is none of a memory. -/
theorem State.WordWritten.modCore {s t : State} {d pa w : Nat} {v : Word} (h : s.WordWritten d pa w v t) (c : Nat) (f : Core → Core) :
    s.WordWritten d pa w v (t.modCore c f) := h

section
variable {s : State} {d w pa : Nat} {f : Word → Option Word}

theorem State.wordAt_memory (s : State) (d w : Nat) (hp : isRegPage pa = false) :
    s.wordAt d w pa = BitVec.ofNat 64 (leNat (s.viewRead d w pa 8)) := by
  rw [State.wordAt, hp]
  rfl
theorem State.update_none (hf : f (s.wordAt d w pa) = none) : s.update d w pa f = (s.wordAt d w pa, s, none) := by
  simp only [State.update, hf]
theorem State.update_some {v : Word} (hp : isRegPage pa = false) (hf : f (s.wordAt d w pa) = some v) :
    s.update d w pa f = (s.wordAt d w pa, (s.writeView d w pa (leBytes 8 v.toNat)).1, some (s.writeView d w pa (leBytes 8 v.toNat)).2) := by
  simp only [State.update, hf, hp, Bool.false_eq_true, if_false]
end

-- ## A write that performs

section
variable {s : State} {c x id : Nat} {a : Access}

/-- The test by which WRITE_PERFORM finds the access it is about. -/
def Access.writeWaits (x id : Nat) (q : Access) : Bool := decide (q.id = id ∧ q.ctx = x) && !q.done && decide (1 ≤ q.kind ∧ q.kind ≤ 4)

theorem execWritePerform_idle (h : (s.core c).access.find? (Access.writeWaits x id) = none) : exec (.writePerform c x id) s = .next s := by
  change execWritePerform c x id s = _
  unfold Access.writeWaits at h
  simp only [execWritePerform, h]
theorem execWritePerform_waits (h : (s.core c).access.find? (Access.writeWaits x id) = some a) (hp : s.canPerform c a = false) :
    exec (.writePerform c x id) s = .next s := by
  change execWritePerform c x id s = _
  unfold Access.writeWaits at h
  simp only [execWritePerform, h, hp, Bool.false_eq_true, if_false]
theorem execWritePerform_performs (h : (s.core c).access.find? (Access.writeWaits x id) = some a) (hp : s.canPerform c a = true) :
    exec (.writePerform c x id) s = .next (s.performWrite c a) := by
  change execWritePerform c x id s = _
  unfold Access.writeWaits at h
  simp only [execWritePerform, h, hp, if_true]

/-- A core with its access performed: the value kept, the place in its die's order, and what the issuer hears of. -/
def Core.performed (k : Core) (a : Access) (v : Vec) (st : Option (Nat × Nat)) (heard : List Nat) : Core :=
  k.modAccess a.id a.pa fun q => { q with done := true, value := v, stamp := st, unacked := false, heard := heard }

theorem State.performWrite_store (h : a.kind = 1) (hw : isWindow a.pa = false) (hp : isRegPage a.pa = false) :
    s.performWrite c a = (s.writeView (dieOf c) a.wtag a.pa (leBytes a.len a.value.toNat)).1.modCore c fun k =>
      k.performed a a.value (some (s.writeView (dieOf c) a.wtag a.pa (leBytes a.len a.value.toNat)).2) [] := by
  simp only [State.performWrite, h, hw, hp]
  rfl
/-- What an AMO (kind 2) or a CAS (kind 3) makes of the old word; none where it writes nothing. -/
def Access.newWord (a : Access) (old : Word) : Option Word :=
  if a.kind = 3 then (if old = a.cmp then some (a.value.setWidth 64) else none)
  else some (amoVal a.amo old (a.value.setWidth 64))
/-- An atomic access performs by an update of its word, whose old value it keeps; at a die that is its own it hears of nothing. -/
theorem State.performWrite_atomic (h : a.kind = 2 ∨ a.kind = 3) :
    ∃ heard, (a.site c = dieOf c → heard = []) ∧ s.performWrite c a =
      (s.update (a.site c) a.wtag a.pa a.newWord).2.1.modCore c fun k =>
        k.performed a ((s.update (a.site c) a.wtag a.pa a.newWord).1.setWidth 4096) (s.update (a.site c) a.wtag a.pa a.newWord).2.2 heard := by
  have h1 : a.kind ≠ 1 := by omega
  have h4 : a.kind ≠ 4 := by omega
  have hf : (fun old : Word => if a.kind = 3 then (if old = a.cmp then some (a.value.setWidth 64) else none) else
      some (if a.kind = 4 then old + a.value.setWidth 64 else amoVal a.amo old (a.value.setWidth 64))) = a.newWord := by
    funext old
    simp only [Access.newWord, h4, if_false]
  simp only [State.performWrite, h1, if_false]
  rw [hf]
  simp only [h4, if_false]
  exact ⟨_, fun hsite => by simp [hsite], rfl⟩
end

section
variable {s : State} {c x id : Nat} {a : Access} (hfind : (s.core c).access.find? (Access.writeWaits x id) = some a) (hcan : s.canPerform c a = true)
  (hwf : ∀ d, (s.die d).view.wf = true)
include hfind hcan hwf

/-- A store (R315, R323, R324). -/
theorem execWritePerform_store (hk : a.kind = 1) (hw : isWindow a.pa = false) (hp : isRegPage a.pa = false) :
    ∃ t n, exec (.writePerform c x id) s = .next t ∧
      (∀ j, j < a.len → Memory.read (t.die (dieOf c)).view (a.pa + j) = a.value.extractLsb' (8 * j) 8) ∧ t.hbm = s.hbm ∧
      ((∀ l ∈ blocks 128 a.pa a.len, s.sealer l = a.wtag) →
        (∀ b, b < a.pa ∨ a.pa + a.len ≤ b → Memory.read (t.die (dieOf c)).view b = Memory.read (s.die (dieOf c)).view b) ∧
        ∀ e, e ≠ dieOf c → (t.die e).view = (s.die e).view) ∧
      (∀ e, e ≠ dieOf c → e < s.nDies → ∃ w, (t.die e).inq = (s.die e).inq ++ [w] ∧ w.origin = dieOf c ∧ w.pa = a.pa ∧
        w.data = leBytes a.len a.value.toNat) ∧
      (∀ k, k ≠ c → t.core k = s.core k) ∧ t.core c = (s.core c).performed a a.value (some (dieOf c, n)) [] := by
  obtain ⟨n, hn⟩ := s.writeView_stamp (dieOf c) a.wtag a.pa (leBytes a.len a.value.toNat)
  have hexec := (execWritePerform_performs hfind hcan).trans (congrArg Host.Outcome.next (State.performWrite_store hk hw hp))
  refine ⟨_, n, hexec, ?_, ?_, ?_, ?_, ?_, ?_⟩
  · exact fun j hj => State.writeView_value (hwf _) _ _ _ hj
  · exact State.writeView_hbm ..
  · exact State.writeView_kept_value (hwf _) _
  · exact fun e he hlt => State.writeView_inq _ _ _ _ _ he hlt
  · exact fun k hk => by rw [State.core_modCore_other _ hk, State.writeView_core]
  · rw [State.core_modCore, State.writeView_core, hn]

/-- An atomic access whose word gets a new value. -/
theorem execWritePerform_word (hk : a.kind = 2 ∨ a.kind = 3) (hp : isRegPage a.pa = false) {v : Word}
    (hv : a.newWord (BitVec.ofNat 64 (leNat (s.viewRead (a.site c) a.wtag a.pa 8))) = some v) :
    ∃ t n heard, exec (.writePerform c x id) s = .next t ∧ s.WordWritten (a.site c) a.pa a.wtag v t ∧
      t.core c = (s.core c).performed a ((BitVec.ofNat 64 (leNat (s.viewRead (a.site c) a.wtag a.pa 8))).setWidth 4096) (some (a.site c, n)) heard ∧
      (a.site c = dieOf c → heard = []) := by
  obtain ⟨heard, hown, hperf⟩ := s.performWrite_atomic (c := c) hk
  obtain ⟨n, hn⟩ := s.writeView_stamp (a.site c) a.wtag a.pa (leBytes 8 v.toNat)
  rw [← s.wordAt_memory _ _ hp] at hv ⊢
  rw [State.update_some hp hv] at hperf
  refine ⟨_, n, heard, (execWritePerform_performs hfind hcan).trans (congrArg Host.Outcome.next hperf), ?_, ?_, hown⟩
  · exact (State.writeView_word (hwf _) ..).modCore c _
  · rw [State.core_modCore, State.writeView_core, hn]
end

/-- A CAS whose word is not the expected one writes nothing. -/
theorem execWritePerform_cas_differs {s : State} {c x id : Nat} {a : Access} (hfind : (s.core c).access.find? (Access.writeWaits x id) = some a)
    (hcan : s.canPerform c a = true) (hk : a.kind = 3) (hp : isRegPage a.pa = false)
    (hne : BitVec.ofNat 64 (leNat (s.viewRead (a.site c) a.wtag a.pa 8)) ≠ a.cmp) :
    ∃ t heard, exec (.writePerform c x id) s = .next t ∧ t.dies = s.dies ∧
      t.core c = (s.core c).performed a ((BitVec.ofNat 64 (leNat (s.viewRead (a.site c) a.wtag a.pa 8))).setWidth 4096) none heard ∧
      (a.site c = dieOf c → heard = []) := by
  obtain ⟨heard, hown, hperf⟩ := s.performWrite_atomic (c := c) (Or.inr hk)
  rw [← s.wordAt_memory _ _ hp] at hne ⊢
  have hnone : a.newWord (s.wordAt (a.site c) a.wtag a.pa) = none := by rw [Access.newWord, if_pos hk, if_neg hne]
  rw [State.update_none hnone] at hperf
  exact ⟨_, heard, (execWritePerform_performs hfind hcan).trans (congrArg Host.Outcome.next hperf), rfl, State.core_modCore .., hown⟩

-- ## Buffered updates (R318)

/-- What a path is asked for already is not asked again. -/
theorem State.request_again (s : State) (d cls src left : Nat) (i : Instr) :
    (s.request d cls src left i).request d cls src left i = s.request d cls src left i := by
  obtain ⟨r, hr, hi⟩ := s.request_waits d cls src left i
  rw [State.request, if_pos (List.any_eq_true.mpr ⟨r, hr, decide_eq_true hi⟩)]
/-- However many updates of a word are buffered, the merge asked for is the same. -/
theorem State.foldl_request_word (s : State) (c pa : Nat) {l : List AmoBuf} (hl : ∀ q ∈ l, q.pa = pa) (hne : l ≠ []) :
    l.foldl (fun t q => t.request (dieOf c) 2 (c + 1) 0 (.bufferedAmoMerge c q.pa)) s =
      s.request (dieOf c) 2 (c + 1) 0 (.bufferedAmoMerge c pa) := by
  obtain ⟨q, l, rfl⟩ := List.exists_cons_of_ne_nil hne
  rw [List.foldl_cons, hl q List.mem_cons_self]
  exact List.foldlRecOn (motive := fun t => t = s.request (dieOf c) 2 (c + 1) 0 (.bufferedAmoMerge c pa)) _ _ rfl fun t ht e he => by
    rw [ht, hl e (List.mem_cons_of_mem _ he), State.request_again]

section
variable {s : State} {c pa : Nat} {b : AmoBuf} (hfind : (s.core c).amo.find? (fun q => decide (q.pa = pa)) = some b)
include hfind

theorem execBufferedAmoTimeout_early (h : s.cyc < b.since + 65536) : exec (.bufferedAmoTimeout c pa) s = .next s := by
  change execBufferedAmoTimeout c pa s = _
  simp only [execBufferedAmoTimeout, hfind, if_neg (Nat.not_le.mpr h)]
theorem State.askMerges_word : s.askMerges c (fun q => decide (q.pa = pa)) = s.request (dieOf c) 2 (c + 1) 0 (.bufferedAmoMerge c pa) := by
  have hpa : decide (b.pa = pa) = true := List.find?_some (p := fun q : AmoBuf => decide (q.pa = pa)) hfind
  have hb : b ∈ (s.core c).amo.filter fun q => decide (q.pa = pa) := List.mem_filter.mpr ⟨List.mem_of_find?_eq_some hfind, hpa⟩
  exact s.foldl_request_word c pa (fun q hq => of_decide_eq_true (List.mem_filter.mp hq).2) (List.ne_nil_of_mem hb)
theorem execBufferedAmoTimeout_late (h : b.since + 65536 ≤ s.cyc) :
    exec (.bufferedAmoTimeout c pa) s = .next (s.request (dieOf c) 2 (c + 1) 0 (.bufferedAmoMerge c pa)) := by
  change execBufferedAmoTimeout c pa s = _
  simp only [execBufferedAmoTimeout, hfind, if_pos h, State.askMerges_word hfind]
theorem execBufferedAmoMerge_waits (h : s.fencesOpen c b.ctx b.gen b.seq = false ∨
      s.ownClear c b.ctx b.gen b.seq pa 8 [dieOf c, amoDie c b.scope pa] = false) : exec (.bufferedAmoMerge c pa) s = .next s := by
  change execBufferedAmoMerge c pa s = _
  simp only [execBufferedAmoMerge, State.mergeAmo, hfind]
  rw [if_neg]
  rw [Bool.and_eq_true]
  rintro ⟨hf, ho⟩
  rw [hf, ho] at h
  simp at h
theorem execBufferedAmoMerge_merges (hf : s.fencesOpen c b.ctx b.gen b.seq = true)
    (ho : s.ownClear c b.ctx b.gen b.seq pa 8 [dieOf c, amoDie c b.scope pa] = true) (hp : isRegPage pa = false)
    (hwf : ∀ e, (s.die e).view.wf = true) : ∃ t, exec (.bufferedAmoMerge c pa) s = .next t ∧
      s.WordWritten (amoDie c b.scope pa) pa b.wtag
        (amoVal b.op (BitVec.ofNat 64 (leNat (s.viewRead (amoDie c b.scope pa) b.wtag pa 8))) b.value) t ∧
      (t.core c).amo = (s.core c).amo.filter fun q => decide (q.seq ≠ b.seq) := by
  refine ⟨s.mergeAmo c pa, rfl, ?_⟩
  simp only [State.mergeAmo, hfind, hf, ho, Bool.and_self, if_true, s.wordAt_memory _ _ hp]
  refine ⟨(State.writeView_word (hwf _) ..).modCore c _, ?_⟩
  rw [State.core_modCore, State.writeView_core]
end

/-- Settles O39: what a write to a die's view does (`State.writeView`), and with it the write, the atomic operation and the merge. -/
theorem writePerforms : Obligations.WritePerforms := by
  unfold Obligations.WritePerforms
  intro s c x id a waits kept word marks answer
  refine ⟨execWritePerform_idle, execWritePerform_waits,
    fun hfind hcan hw hp hwf => ⟨fun hk => ?_, fun hk => ?_, fun hk => ⟨fun hne => ?_, fun heq => ?_⟩⟩,
    fun pa b hfind => ⟨execBufferedAmoTimeout_early hfind, execBufferedAmoTimeout_late hfind, execBufferedAmoMerge_merges hfind,
      execBufferedAmoMerge_waits hfind⟩⟩
  · obtain ⟨t, n, hexec, hbytes, hrest⟩ := execWritePerform_store hfind hcan hwf hk hw hp
    exact ⟨t, n, hexec, fun j hj _ => hbytes j hj, hrest⟩
  · exact execWritePerform_word hfind hcan hwf (Or.inl hk) hp (by rw [Access.newWord, if_neg (by omega)])
  · exact execWritePerform_cas_differs hfind hcan hk hp hne
  · exact execWritePerform_word hfind hcan hwf (Or.inr hk) hp (by rw [Access.newWord, if_pos hk, if_pos heq])

end Sys2Proof.Machine
end

-- ==== The events of the memory

section
/-! SUPPORT. What each event of the memory does: walks, landings, fills, other dies' writes, write-backs and sealed lines. -/

namespace Sys2Proof.Machine

-- ## Maps and bytes

/-- What a map reads after one value for each of some keys was set. -/
theorem NMap.get?_foldl_set {α : Type} (v : Nat → α) (l : List Nat) (m : NMap α) (j : Nat) :
    NMap.get? (l.foldl (fun m k => NMap.set m k (v k)) m) j = if j ∈ l then some (v j) else NMap.get? m j := by
  induction l generalizing m with
  | nil => rfl
  | cons k l ih =>
    rw [List.foldl_cons, ih, NMap.get?_set]
    by_cases hl : j ∈ l
    · simp [hl]
    · by_cases hk : j = k
      · simp [hk]
      · simp [hl, hk]
/-- A choice among the keys keeps the entries of the keys that it keeps. -/
theorem NMap.get?_filter_key {α : Type} {p : Nat → Bool} (m : NMap α) {j : Nat} (hj : p j = true) :
    NMap.get? (m.filter fun q => p q.1) j = NMap.get? m j := by
  induction m with
  | nil => rfl
  | cons q m ih =>
    obtain ⟨k, v⟩ := q
    rw [List.filter_cons]
    by_cases hk : j = k
    · subst hk
      rw [if_pos hj]
      simp [NMap.get?]
    · split
      · rw [NMap.get?, if_neg (Ne.symm hk), ih, NMap.get?, if_neg (Ne.symm hk)]
      · rw [ih, NMap.get?, if_neg (Ne.symm hk)]

theorem Memory.readN_length (m : Memory) (a n : Nat) : (Memory.readN m a n).length = n := by
  rw [Memory.readN, Memory.readVia, List.length_map, List.length_range]
theorem Memory.readN_getElem (m : Memory) (a : Nat) {n j : Nat} (hj : j < (Memory.readN m a n).length) :
    (Memory.readN m a n)[j] = Memory.read m (a + j) := by
  simp [Memory.readN, Memory.readVia]

/-- A write of sixteen bytes at a sector's address is read back in the sector, and nowhere else. -/
theorem Memory.read_writeN_sector {m : Memory} (w : m.wf = true) {sector : Nat} {bs : List Byte} (hl : bs.length = 16) (b : Nat) :
    some (Memory.read (Memory.writeN m (16 * sector) bs) b) = if b / 16 = sector then bs[b % 16]? else some (Memory.read m b) := by
  split
  · next hb =>
    have hj : b % 16 < bs.length := by omega
    have hat := Memory.read_writeN_at w (16 * sector) hj
    rw [show 16 * sector + b % 16 = b by omega] at hat
    rw [hat, List.getElem?_eq_getElem hj]
  · next hb => rw [Memory.read_writeN_other w (by omega)]

-- ## Walks (R311, R312)

section
variable {s : State} {c va kind n : Nat} (hwalk : (s.core c).walk = some ⟨va, kind⟩) (hrun : (s.core c).run = some n)
include hwalk hrun

theorem execTranslationWalk_waits (h : s.walkClear (dieOf c) (s.worldOf c n) va = false) : exec (.translationWalk c) s = .next s := by
  change execTranslationWalk c s = _
  simp only [execTranslationWalk, hwalk, hrun, h, Bool.not_false, if_true]
theorem execTranslationWalk_ok (h : s.walkClear (dieOf c) (s.worldOf c n) va = true) {e : TlbEntry}
    (he : s.walk (dieOf c) (s.worldOf c n) va kind (s.isMgmt c n) = .ok e) : exec (.translationWalk c) s =
      .next (s.modCore c fun k => { k with walk := none, tlb := tlbInsert k.tlb { e with fresh := true } }) := by
  change execTranslationWalk c s = _
  simp only [execTranslationWalk, hwalk, hrun, h, he]
  rfl
theorem execTranslationWalk_bad (h : s.walkClear (dieOf c) (s.worldOf c n) va = true) {l g q : Nat}
    (hb : s.walk (dieOf c) (s.worldOf c n) va kind (s.isMgmt c n) = .bad l g q) : exec (.translationWalk c) s =
      .next (s.modCore c fun k => { k with walk := none, failed := k.failed ++ [⟨va, kind, l, g, q⟩] }) := by
  change execTranslationWalk c s = _
  simp only [execTranslationWalk, hwalk, hrun, h, hb]
  rfl
end

section
variable {s t : State} {c : Nat} {p : PrefWalk} {ps : List PrefWalk}

theorem execTranslationWalk_pref (hwalk : (s.core c).walk = none) (hp : (s.core c).prefs = p :: ps)
    (hclear : s.walkClear (dieOf c) p.world p.va = true) : exec (.translationWalk c) s =
      .next ((s.modCore c fun k => { k with prefs := ps }).prefLine c p (s.walk1 (dieOf c) p.world p.va)) := by
  change execTranslationWalk c s = _
  simp only [execTranslationWalk, hwalk, hp, hclear, Bool.not_true, Bool.false_eq_true, if_false]
theorem State.prefLine_denied {e : TlbEntry} (h : t.judge e p.va 3 p.world p.mgmt ≠ none) :
    t.prefLine c p (.ok e) = t.lateRecord c p.ctx p.gen p.launch p.pos p.addr p.iss cPREFDROP := by
  obtain ⟨j, hj⟩ := Option.ne_none_iff_exists'.mp h
  simp only [State.prefLine, State.prefOk, State.logPref, hj]
  rfl
theorem State.prefLine_good {e : TlbEntry} (hj : t.judge e p.va 3 p.world p.mgmt = none) (hb : t.badLine e.wtag (e.phys p.va) 128 = none) :
    t.prefLine c p (.ok e) = if p.fresh then t else t.askFill (t.l1Core c) (e.phys p.va / 128) 3 := by
  simp only [State.prefLine, State.prefOk, hj, hb]
  rfl
theorem State.askFill_new {line cls : Nat} (h : ∀ f ∈ (t.core c).fills, f.line ≠ line) :
    t.askFill c line cls = t.modCore c fun q => { q with fills := q.fills ++ [⟨line, t.cyc, cls⟩] } := by
  have hany : ((t.core c).fills.any fun f => decide (f.line = line)) = false := by
    rw [List.any_eq_false]
    exact fun f hf => by simpa using h f hf
  simp only [State.askFill, State.modCore, hany, Bool.false_eq_true, if_false]
end

-- ## The landing of a load (R103, R315)

section
variable {s : State} {c x id : Nat} {a : Access}
  (hmine : (s.core c).access.filter (fun q => decide (q.id = id ∧ q.ctx = x) && q.landing) = [a])
include hmine

theorem execGlobalLoadLanding_fixes (hk : a.kind = 0) (hd : a.done = false) : exec (.globalLoadLanding c x id) s = .next (s.fixLoad c a) := by
  change execGlobalLoadLanding c x id s = _
  simp only [execGlobalLoadLanding, hmine, List.find?_cons, hd, hk, Bool.not_false, if_true]
theorem execGlobalLoadLanding_lands (hd : a.done = true) : exec (.globalLoadLanding c x id) s = .next (s.landLoad c x [a]) := by
  change execGlobalLoadLanding c x id s = _
  simp only [execGlobalLoadLanding, hmine, List.find?_cons, List.find?_nil, hd, Bool.not_true]
theorem Access.id_of_landing : a.id = id := by
  have ha : a ∈ (s.core c).access.filter (fun q => decide (q.id = id ∧ q.ctx = x) && q.landing) := hmine ▸ List.mem_singleton_self a
  simp only [List.mem_filter, Bool.and_eq_true, decide_eq_true_eq] at ha
  exact ha.2.1.1
end

/-- A `.fresh` load takes its value from the view, and leaves the L1 alone. -/
theorem State.fixLoad_fresh {s : State} {c : Nat} {a : Access} (hf : a.fresh = true) (hl : a.last = false) (hp : isRegPage a.pa = false)
    (hown : s.ownClear c a.ctx a.gen a.id a.pa a.len [dieOf c] = true) (hline : s.lineClear (dieOf c) a.pa a.len c a.id a.at_ = true) :
    s.fixLoad c a = s.modCore c fun k => k.modAccess a.id a.pa fun q =>
      { q with done := true, value := BitVec.ofNat 4096 (leNat (s.viewRead (dieOf c) a.wtag a.pa a.len)) } := by
  simp only [State.fixLoad, hf, hl, hp, hown, hline]
  rfl

/-- A core whose load has landed: it leaves the list, and an atomic access of its id keeps its place without a destination. -/
def Core.landed (k : Core) (a : Access) : Core :=
  { k with access := k.access.filterMap fun b =>
      if b.id = a.id then (if b.kind = 0 then none else some { b with dest := none, heard := [] }) else some b }

theorem Core.landed_access (k : Core) (a : Access) : ∀ b ∈ (k.landed a).access, b.id = a.id → b.kind ≠ 0 := by
  intro b hb hid
  obtain ⟨e, -, he⟩ := List.mem_filterMap.mp hb
  split_ifs at he with h1 h2
  · rw [← Option.some.inj he]
    exact h2
  · exact absurd (Option.some.inj he ▸ hid) h1

section
variable {s : State} {c x : Nat}

@[simp] theorem State.hear_cores (s : State) (c : Nat) (vc : List Nat) : (s.hear c vc).cores = s.cores := by
  unfold State.hear
  split
  · rfl
  · rw [State.modDie_cores]
/-- The context and the list of accesses after a state has heard of other dies' writes and its core has changed elsewhere. -/
theorem State.ctx_hear_modCore (s : State) (c x : Nat) (vc : List Nat) {k : Core → Core} (hk : ∀ q, (k q).ctxs = q.ctxs) :
    ((s.hear c vc).modCore c k).ctx c x = s.ctx c x := by
  rw [State.ctx, State.core_modCore, Core.ctx, hk, State.core, State.hear_cores, State.ctx, Core.ctx, State.core]
/-- The load of a register that was released brings nothing (R103). -/
theorem State.landLoad_void {a : Access} (h : a.void = true) : s.landLoad c x [a] = (s.hear c a.heard).modCore c fun k => k.landed a := by
  simp only [State.landLoad, h, if_true]
  rfl
theorem State.landLoad_scalar {a : Access} {n : Nat} (h : a.void = false) (hd : a.dest = some (false, n)) : s.landLoad c x [a] =
    ((s.modCtx c x fun k => { k with sreg := NMap.set k.sreg n (a.value.setWidth 64) }).hear c a.heard).modCore c fun k => k.landed a := by
  have hv : (0 : Vec) ||| a.value <<< (8 * (a.pa - a.pa)) = a.value := by simp
  simp only [State.landLoad, h, hd, List.foldl_cons, List.foldl_nil, hv]
  rfl
end

section
variable {s : State} {c x id : Nat} {a : Access}
  (hmine : (s.core c).access.filter (fun q => decide (q.id = id ∧ q.ctx = x) && q.landing) = [a]) (hd : a.done = true)
include hmine hd

theorem execGlobalLoadLanding_void (h : a.void = true) : ∃ t, exec (.globalLoadLanding c x id) s = .next t ∧
    t.ctx c x = s.ctx c x ∧ ∀ q ∈ (t.core c).access, q.id = id → q.kind ≠ 0 := by
  refine ⟨_, execGlobalLoadLanding_lands hmine hd, ?_, ?_⟩
  · rw [State.landLoad_void h, State.ctx_hear_modCore]
    exact fun _ => rfl
  · rw [State.landLoad_void h, State.core_modCore, ← Access.id_of_landing hmine]
    exact Core.landed_access _ a
theorem execGlobalLoadLanding_scalar {n : Nat} (h : a.void = false) (hdest : a.dest = some (false, n)) :
    ∃ t, exec (.globalLoadLanding c x id) s = .next t ∧ (t.ctx c x).sAt n = a.value.setWidth 64 ∧
      (∀ m, m ≠ n → (t.ctx c x).sAt m = (s.ctx c x).sAt m) ∧ ∀ q ∈ (t.core c).access, q.id = id → q.kind ≠ 0 := by
  have hctx : (s.landLoad c x [a]).ctx c x = { s.ctx c x with sreg := NMap.set (s.ctx c x).sreg n (a.value.setWidth 64) } := by
    rw [State.landLoad_scalar h hdest, State.ctx_hear_modCore, State.ctx_modCtx]
    exact fun _ => rfl
  refine ⟨_, execGlobalLoadLanding_lands hmine hd, ?_, fun m hm => ?_, ?_⟩
  · rw [hctx, Ctx.sAt, NMap.getD_set_same]
  · rw [hctx, Ctx.sAt, NMap.getD_set_other _ hm, Ctx.sAt]
  · rw [State.landLoad_scalar h hdest, State.core_modCore, ← Access.id_of_landing hmine]
    exact Core.landed_access _ a
end

-- ## The fill of an L1 line (R307)

section
variable {s : State} {c line : Nat}

/-- The sectors of a line that a fill installs. -/
def State.fillSectors (s : State) (c line : Nat) : List Nat :=
  ((List.range 8).map (8 * line + ·)).filter fun x => !s.sectorPending c (dieOf c) x
/-- A core after the fill of a line, but for what has to leave its L1. -/
def Core.filled (k : Core) (line : Nat) (secs : List Nat) (v : Nat → BitVec 128) : Core :=
  { k with fills := k.fills.filter (fun h => decide (h.line ≠ line)), l1 := secs.foldl (fun m x => NMap.set m x (v x)) k.l1 }

theorem execL1Fill_waits {f : Fill} (hf : (s.core c).fills.find? (fun f => decide (f.line = line)) = some f)
    (hnot : ¬(f.cls = 3 → ∀ q ∈ s.cores, dieOf q.1 = dieOf c → ∀ h ∈ q.2.fills, h.cls ≠ 2)) : exec (.l1Fill c line) s = .next s := by
  change execL1Fill c line s = _
  have hahead : (decide (f.cls = 3) && s.cores.any fun q => decide (dieOf q.1 = dieOf c) && q.2.fills.any fun h => decide (h.cls = 2)) = true := by
    simp only [Bool.and_eq_true, List.any_eq_true, decide_eq_true_eq]
    simp only [not_forall, not_not] at hnot
    obtain ⟨h3, q, hq, hd, h, hh, h2⟩ := hnot
    exact ⟨h3, q, hq, hd, h, hh, h2⟩
  simp only [execL1Fill, hf, hahead, Bool.true_or, if_true]
theorem execL1Fill_fills {f : Fill} (hf : (s.core c).fills.find? (fun f => decide (f.line = line)) = some f)
    (hfirst : f.cls = 3 → ∀ q ∈ s.cores, dieOf q.1 = dieOf c → ∀ h ∈ q.2.fills, h.cls ≠ 2)
    (hclear : s.lineClear (dieOf c) (128 * line) 128 c 0 (s.cyc + 1) = true) : exec (.l1Fill c line) s =
      .next ((s.modCore c fun k => k.filled line (s.fillSectors c line) fun x =>
        BitVec.ofNat 128 (leNat (Memory.readN (s.die (dieOf c)).view (16 * x) 16))).evictL1 c line) := by
  change execL1Fill c line s = _
  have hahead : (decide (f.cls = 3) && s.cores.any fun q => decide (dieOf q.1 = dieOf c) && q.2.fills.any fun h => decide (h.cls = 2)) = false := by
    rw [Bool.eq_false_iff]
    simp only [ne_eq, Bool.and_eq_true, List.any_eq_true, decide_eq_true_eq]
    rintro ⟨h3, q, hq, hd, h, hh, h2⟩
    exact hfirst h3 q hq hd h hh h2
  simp only [execL1Fill, hf, hahead, hclear, Bool.not_true, Bool.or_false, Bool.false_eq_true, if_false]
  rfl

/-- Among more lines than one, each once, there is another than a given one. -/
theorem other_line {lines : List Nat} (hnd : lines.Nodup) (hlen : 1 < lines.length) (line : Nat) :
    lines.filter (fun l => decide (l ≠ line)) ≠ [] := by
  intro hnone
  have hall : ∀ l ∈ lines, l = line := fun l hm => by simpa using List.filter_eq_nil_iff.mp hnone l hm
  rw [List.eq_replicate_iff.mpr ⟨rfl, hall⟩, List.nodup_replicate] at hnd
  omega
/-- What leaves a full L1 is another line than the one just filled. -/
theorem State.evictL1_core (s : State) (c line : Nat) : ∃ p : Nat → Bool, (∀ j, j / 8 = line → p j = true) ∧
    ((s.evictL1 c line).core c).fills = (s.core c).fills ∧ ((s.evictL1 c line).core c).l1 = (s.core c).l1.filter fun q => p q.1 := by
  have hroom : 1 ≤ Config.l1Lines * (if (s.cluster (clusterOf c)).fused.isSome then 4 else 1) := by
    rw [Config.l1Lines]
    split <;> omega
  unfold State.evictL1
  dsimp only
  generalize Config.l1Lines * (if (s.cluster (clusterOf c)).fused.isSome then 4 else 1) = room at hroom ⊢
  split
  · exact ⟨fun _ => true, fun _ _ => rfl, rfl, (List.filter_eq_self.mpr fun _ _ => rfl).symm⟩
  · next hfull =>
    have hothers := other_line (List.nodup_dedup ((s.core c).l1.map fun q => q.1 / 8)) (by omega) line
    have hlt := Nat.mod_lt (Config.pick s.picks) (List.length_pos_iff.mpr hothers)
    have hout := List.getElem_mem hlt
    rw [← List.getD_eq_getElem (d := 0)] at hout
    have hne := of_decide_eq_true (List.mem_filter.mp hout).2
    refine ⟨fun j => decide (j / 8 ≠ _), fun j hj => decide_eq_true fun e => hne (e.symm.trans hj), ?_, ?_⟩
    · simp only [State.core, State.modCore, State.setCore, NMap.getD_set_same]
    · simp only [State.core, State.modCore, State.setCore, NMap.getD_set_same]
theorem State.get?_fillSectors (v : Nat → BitVec 128) (m : NMap (BitVec 128)) {k : Nat} (hk : k < 8) :
    NMap.get? ((s.fillSectors c line).foldl (fun m x => NMap.set m x (v x)) m) (8 * line + k) =
      if s.sectorPending c (dieOf c) (8 * line + k) then NMap.get? m (8 * line + k) else some (v (8 * line + k)) := by
  have hmem : 8 * line + k ∈ s.fillSectors c line ↔ s.sectorPending c (dieOf c) (8 * line + k) = false := by
    simp [State.fillSectors, hk]
  rw [NMap.get?_foldl_set, if_congr hmem rfl rfl]
  cases s.sectorPending c (dieOf c) (8 * line + k) <;> rfl
theorem execL1Fill_installs {f : Fill} (hf : (s.core c).fills.find? (fun f => decide (f.line = line)) = some f)
    (hfirst : f.cls = 3 → ∀ q ∈ s.cores, dieOf q.1 = dieOf c → ∀ h ∈ q.2.fills, h.cls ≠ 2)
    (hclear : s.lineClear (dieOf c) (128 * line) 128 c 0 (s.cyc + 1) = true) : ∃ t, exec (.l1Fill c line) s = .next t ∧
      (∀ f ∈ (t.core c).fills, f.line ≠ line) ∧ ∀ k, k < 8 → NMap.get? (t.core c).l1 (8 * line + k) =
        if s.sectorPending c (dieOf c) (8 * line + k) then NMap.get? (s.core c).l1 (8 * line + k)
        else some (BitVec.ofNat 128 (leNat (Memory.readN (s.die (dieOf c)).view (16 * (8 * line + k)) 16))) := by
  refine ⟨_, execL1Fill_fills hf hfirst hclear, ?_⟩
  obtain ⟨p, hp, hfills, hl1⟩ := State.evictL1_core (s.modCore c fun k => k.filled line (s.fillSectors c line) fun x =>
    BitVec.ofNat 128 (leNat (Memory.readN (s.die (dieOf c)).view (16 * x) 16))) c line
  rw [hfills, hl1, State.core_modCore, Core.filled]
  refine ⟨fun f hf => of_decide_eq_true (List.mem_filter.mp hf).2, fun k hk => ?_⟩
  rw [NMap.get?_filter_key _ (hp _ (by omega))]
  exact State.get?_fillSectors _ _ hk
end

-- ## Another die's write (R323)

section
variable {s : State} {d id : Nat} {w : XWrite} (hw : (s.die d).inq.find? (fun q => decide (q.id = id)) = some w)
include hw

theorem execCrossDieWriteApply_waits (h : s.canApply d w = false) : exec (.crossDieWriteApply d id) s = .next s := by
  change execCrossDieWriteApply d id s = _
  simp only [execCrossDieWriteApply, hw, h, Bool.false_eq_true, if_false]
theorem execCrossDieWriteApply_applies (h : s.canApply d w = true) (hm : w.mark = false) : exec (.crossDieWriteApply d id) s =
    .next (s.modDie d fun k => { k.store w.pa w.data with
      applied := NMap.set k.applied w.origin (w.vc.getD w.origin 0), inq := k.inq.filter fun v => decide (v.id ≠ id) }) := by
  change execCrossDieWriteApply d id s = _
  simp only [execCrossDieWriteApply, hw, h, hm, Bool.false_eq_true, if_true, if_false]
  rfl
theorem execCrossDieWriteApply_stores (h : s.canApply d w = true) (hm : w.mark = false) (hwf : (s.die d).view.wf = true) :
    ∃ t, exec (.crossDieWriteApply d id) s = .next t ∧
      (∀ b, b < w.pa ∨ w.pa + w.data.length ≤ b → Memory.read (t.die d).view b = Memory.read (s.die d).view b) ∧
      (∀ j, j < w.data.length → some (Memory.read (t.die d).view (w.pa + j)) = w.data[j]?) ∧
      NMap.getD (t.die d).applied w.origin 0 = w.vc.getD w.origin 0 ∧ (∀ e, e ≠ d → t.die e = s.die e) ∧ t.cores = s.cores := by
  refine ⟨_, execCrossDieWriteApply_applies hw h hm, fun b hb => ?_, fun j hj => ?_, ?_, fun e he => State.die_modDie_other s he _, rfl⟩
  · rw [State.die_modDie]
    exact Memory.read_writeN_other hwf hb
  · rw [State.die_modDie, List.getElem?_eq_getElem hj]
    exact congrArg some (Memory.read_writeN_at hwf w.pa hj)
  · rw [State.die_modDie, NMap.getD_set_same]
end

-- ## Sectors written back (R324, R401)

theorem gcmCrypt_length_line (ks : List (BitVec 32)) (iv : BitVec 96) {bs : List Byte} (h : bs.length = 128) : (gcmCrypt ks iv bs).length = 128 := by
  have hbe : ∀ n w, (beBytes n w).length = n := fun n w => by rw [beBytes, List.length_reverse, leBytes_length]
  simp [gcmCrypt, h, hbe, List.range_succ]

section
variable {s : State} {d sector : Nat}

theorem execDirtySectorWriteBack_plain (hm : NMap.get? (s.die d).marks sector = none) (ho : s.sealer (sector / 8) = 0) :
    exec (.dirtySectorWriteBack d sector) s =
      .next { s with hbm := Memory.writeN s.hbm (16 * sector) (Memory.readN (s.die d).view (16 * sector) 16) } := by
  change execDirtySectorWriteBack d sector s = _
  simp only [execDirtySectorWriteBack, hm, ho, Nat.mul_comm sector 16]
  rfl
theorem execDirtySectorWriteBack_seals (hm : NMap.get? (s.die d).marks sector = none) (ho : s.sealer (sector / 8) ≠ 0) :
    exec (.dirtySectorWriteBack d sector) s =
      .next (s.sealLine (s.sealer (sector / 8)) (sector / 8) (Memory.readN (s.die d).view (128 * (sector / 8)) 128)) := by
  change execDirtySectorWriteBack d sector s = _
  simp only [execDirtySectorWriteBack, hm, Option.isSome_none, Bool.false_eq_true, if_false, if_pos ho]
theorem execDirtySectorWriteBack_hbm (hm : NMap.get? (s.die d).marks sector = none) (ho : s.sealer (sector / 8) = 0) (hwf : s.hbm.wf = true) :
    ∃ t, exec (.dirtySectorWriteBack d sector) s = .next t ∧ t.dies = s.dies ∧
      ∀ b, Memory.read t.hbm b = if b / 16 = sector then Memory.read (s.die d).view b else Memory.read s.hbm b := by
  refine ⟨_, execDirtySectorWriteBack_plain hm ho, rfl, fun b => ?_⟩
  have hsector := Memory.read_writeN_sector (sector := sector) hwf (Memory.readN_length (s.die d).view (16 * sector) 16) b
  refine Option.some.inj (hsector.trans ?_)
  split
  · next hb =>
    have hj : b % 16 < (Memory.readN (s.die d).view (16 * sector) 16).length := by
      rw [Memory.readN_length]
      omega
    rw [List.getElem?_eq_getElem hj, Memory.readN_getElem, show 16 * sector + b % 16 = b by omega]
  · rfl
end

/-- The seal of a line: its write count is one higher, its IV and tag follow, and its bytes in HBM are those of the seal. -/
theorem State.sealLine_spec {s : State} (hwf : s.hbm.wf = true) (w line : Nat) {bs : List Byte} (hbs : bs.length = 128) :
    let n := (NMap.getD s.wcounts line 0 + 1) % 2 ^ 48
    let sealed := gcmSeal (s.lineKey w line) (BitVec.ofNat 45 line ++ (0 : BitVec 3) ++ BitVec.ofNat 48 n) bs
    (s.sealLine w line bs).dies = s.dies ∧ NMap.getD (s.sealLine w line bs).wcounts line 0 = n ∧
      NMap.getD (s.sealLine w line bs).tags line 0 = sealed.2 ∧
      (∀ j, j < 128 → some (Memory.read (s.sealLine w line bs).hbm (128 * line + j)) = sealed.1[j]?) ∧
      ∀ b, b / 128 ≠ line → Memory.read (s.sealLine w line bs).hbm b = Memory.read s.hbm b := by
  intro n sealed
  have hiv : (s.sealLine w line bs) = { s with
      wcounts := NMap.set s.wcounts line n, hbm := Memory.writeN s.hbm (128 * line) sealed.1, tags := NMap.set s.tags line sealed.2 } := by
    simp only [State.sealLine, State.lineIv, NMap.getD_set_same]
    rfl
  have hlen : sealed.1.length = 128 := gcmCrypt_length_line _ _ hbs
  rw [hiv]
  refine ⟨rfl, NMap.getD_set_same .., NMap.getD_set_same .., fun j hj => ?_, fun b hb => ?_⟩
  · have hj' : j < sealed.1.length := by rwa [hlen]
    rw [List.getElem?_eq_getElem hj']
    exact congrArg some (Memory.read_writeN_at hwf _ hj')
  · exact Memory.read_writeN_other hwf (by omega)

section
variable (k : Die) {sector : Nat}

theorem Die.drop_unmarked (h : NMap.get? k.marks sector = none) : k.drop sector = k := by
  simp only [Die.drop, h]
theorem Die.drop_marked {v : BitVec 128} (h : NMap.get? k.marks sector = some v) : k.drop sector = k.store (16 * sector) (leBytes 16 v.toNat) := by
  simp only [Die.drop, h]
theorem blocks_sector (sector : Nat) : blocks 16 (16 * sector) 16 = [sector] := by
  rw [blocks, if_neg (by decide), show (16 * sector + 16 - 1) / 16 + 1 - 16 * sector / 16 = 1 by omega]
  simp
/-- A sector given back what HBM held: its mark is gone, and its bytes are those. -/
theorem Die.store_sector (hwf : k.view.wf = true) (v : BitVec 128) :
    NMap.get? (k.store (16 * sector) (leBytes 16 v.toNat)).marks sector = none ∧
    ∀ b, some (Memory.read (k.store (16 * sector) (leBytes 16 v.toNat)).view b) =
      if b / 16 = sector then (leBytes 16 v.toNat)[b % 16]? else some (Memory.read k.view b) := by
  refine ⟨?_, Memory.read_writeN_sector hwf (leBytes_length ..)⟩
  rw [Die.store, leBytes_length, blocks_sector]
  exact NMap.get?_erase_same ..
end

section
variable {s : State} {d sector : Nat}

/-- The write-back of a marked sector: every die gives the sector what its mark holds, and nothing else of a view changes. -/
theorem execDirtySectorWriteBack_marked {w : BitVec 128} (hm : NMap.get? (s.die d).marks sector = some w) :
    ∃ t, exec (.dirtySectorWriteBack d sector) s = .next t ∧ t.hbm = s.hbm ∧
      ∀ e, (t.die e).marks = ((s.die e).drop sector).marks ∧ (t.die e).view = ((s.die e).drop sector).view := by
  obtain ⟨t, late, hexec, hhbm, hdies⟩ : ∃ t late, exec (.dirtySectorWriteBack d sector) s = .next t ∧ t.hbm = s.hbm ∧
      t.dies = s.dies.map fun p => (p.1, { p.2.drop sector with inq := p.2.inq.map late }) := by
    change ∃ t late, execDirtySectorWriteBack d sector s = _ ∧ _
    simp only [execDirtySectorWriteBack, hm, Option.isSome_some, if_true]
    split
    · exact ⟨_, _, rfl, rfl, rfl⟩
    · exact ⟨_, _, rfl, rfl, rfl⟩
  have hdie : ∀ e, t.die e = { (s.die e).drop sector with inq := (s.die e).inq.map late } := fun e => by
    rw [State.die, hdies]
    exact NMap.getD_map (f := fun _ (k : Die) => { k.drop sector with inq := k.inq.map late }) rfl _
  exact ⟨t, hexec, hhbm, fun e => by simp only [hdie, and_self]⟩
theorem execDirtySectorWriteBack_drops {w : BitVec 128} (hm : NMap.get? (s.die d).marks sector = some w) (hwf : ∀ e, (s.die e).view.wf = true) :
    ∃ t, exec (.dirtySectorWriteBack d sector) s = .next t ∧ t.hbm = s.hbm ∧
      (∀ e v, NMap.get? (s.die e).marks sector = some v → NMap.get? (t.die e).marks sector = none ∧
        ∀ b, some (Memory.read (t.die e).view b) = if b / 16 = sector then (leBytes 16 v.toNat)[b % 16]?
          else some (Memory.read (s.die e).view b)) ∧
      ∀ e, NMap.get? (s.die e).marks sector = none → (t.die e).view = (s.die e).view := by
  obtain ⟨t, hexec, hhbm, hdie⟩ := execDirtySectorWriteBack_marked hm
  refine ⟨t, hexec, hhbm, fun e v hv => ?_, fun e he => ?_⟩
  · obtain ⟨hmarks, hview⟩ := hdie e
    rw [hmarks, hview, Die.drop_marked _ hv]
    exact Die.store_sector _ (hwf e) v
  · rw [(hdie e).2, Die.drop_unmarked _ he]
end

-- ## The fill of a sealed line

section
variable {s : State} {d line : Nat}

theorem execSealedLineFill_idle (ok : Bool) (h : s.nDies ≤ d ∨ s.sealer line = 0) : exec (.sealedLineFill d line ok) s = .next s := by
  change execSealedLineFill d line ok s = _
  rw [execSealedLineFill, if_pos h]
theorem mem_blocks_line {k : Nat} (hk : k < 8) (line : Nat) : 8 * line + k ∈ blocks 16 (128 * line) 128 := by
  rw [blocks, if_neg (by decide)]
  exact List.mem_map.mpr ⟨k, List.mem_range.mpr (by omega), by omega⟩
theorem execSealedLineFill_tags (ok : Bool) (hd : d < s.nDies) (hs : s.sealer line ≠ 0) : ∃ t, exec (.sealedLineFill d line ok) s = .next t ∧
    (∀ k, k < 8 → NMap.getD t.badTag (8 * line + k) false = !ok) ∧ (ok = true → t.evlog = s.evlog) := by
  change ∃ t, execSealedLineFill d line ok s = _ ∧ _
  rw [execSealedLineFill, if_neg (by omega)]
  cases ok with
  | true =>
    refine ⟨_, rfl, fun k hk => ?_, fun _ => rfl⟩
    rw [NMap.getD_foldl_erase, if_pos (mem_blocks_line hk line)]
    rfl
  | false =>
    refine ⟨_, rfl, fun k hk => ?_, fun h => absurd h Bool.false_ne_true⟩
    rw [State.logBad_of State.badTag fun _ _ _ _ _ => rfl, NMap.getD, NMap.get?_foldl_set (fun _ => true), if_pos (mem_blocks_line hk line)]
    rfl
end

/-- Settles O40: each event by its lemmas above. -/
theorem memoryEvents : Obligations.MemoryEvents := by
  unfold Obligations.MemoryEvents
  intro s c x id
  refine ⟨fun va kind n hwalk hrun => ?_, fun p ps hwalk hp hclear => ?_, fun a hmine hk => ⟨?_, ?_, ?_⟩, fun line f hf => ?_, fun d w hw => ?_,
    fun d sector => ⟨?_, ?_, ?_⟩, fun d line ok => ⟨execSealedLineFill_idle ok, execSealedLineFill_tags ok⟩⟩
  · exact ⟨fun h => execTranslationWalk_waits hwalk hrun (Bool.eq_false_iff.mpr h), fun e h he => execTranslationWalk_ok hwalk hrun h he,
      fun l g q h hb => execTranslationWalk_bad hwalk hrun h hb⟩
  · intro t
    have hexec := execTranslationWalk_pref hwalk hp hclear
    refine ⟨fun l g q hb => ?_, fun e he hj => ?_, fun e he hj hb => ⟨fun hfresh => ?_, fun hfresh hnew => ?_⟩⟩
    · rw [hexec, hb]
      rfl
    · rw [hexec, he, State.prefLine_denied (t := t) hj]
    · rw [hexec, he, State.prefLine_good (t := t) hj hb, if_pos hfresh]
    · rw [hexec, he, State.prefLine_good (t := t) hj hb, if_neg (by simp [hfresh])]
      exact congrArg Host.Outcome.next (State.askFill_new hnew)
  · exact fun hd hfresh hlast hp hown hline =>
      (execGlobalLoadLanding_fixes hmine hk hd).trans (congrArg Host.Outcome.next (State.fixLoad_fresh hfresh hlast hp hown hline))
  · exact fun v n hd _ hvoid => execGlobalLoadLanding_void hmine hd hvoid
  · exact fun n hd hdest hvoid => execGlobalLoadLanding_scalar hmine hd hvoid hdest
  · exact ⟨execL1Fill_waits hf, execL1Fill_installs hf⟩
  · exact ⟨execCrossDieWriteApply_waits hw, execCrossDieWriteApply_stores hw⟩
  · exact execDirtySectorWriteBack_hbm
  · intro hm ho hwf
    exact ⟨_, execDirtySectorWriteBack_seals hm ho, State.sealLine_spec hwf _ _ (Memory.readN_length ..)⟩
  · exact fun w hm hwf => execDirtySectorWriteBack_drops hm hwf

end Sys2Proof.Machine
end
